-- ==== Sys2Proof/Word.lean ====
section
/-! DEFINITION. The widths the manual gives its data: bytes, 32-bit and 64-bit words. -/

namespace Sys2Proof

/-- A byte of memory; every multi-byte quantity is little-endian (chapter 00, Numbers, fields and registers). -/
abbrev Byte := BitVec 8
/-- A 32-bit word (instruction words, element words, event entries). -/
abbrev W32 := BitVec 32
/-- A 64-bit word (setup registers, addresses, Tense, integer registers of a Particle). -/
abbrev W64 := BitVec 64
/-- A 256-bit quantity (a tile instruction, a digest, a key). -/
abbrev W256 := BitVec 256

end Sys2Proof
end

