-- ==== Sys2Proof/Syntax.lean ====
section
/-! DEFINITION. The commands and events of the HXN-7680: one constructor per row of spec/opcode_table.json. -/

namespace Sys2Proof


/-- The commands. An operand named `now` is the Tense value at which the event takes place (DESIGN CHOICE, assumption log 11). -/
inductive Instr where
  /-- DISPATCHER_ACCEPT (R667): The dispatcher takes an issue record from a Particle queue when it can, checks it in order and accepts or refuses the work. -/
  | dispatcherAccept (lp : Nat) (queue : Nat)
  /-- COMPOUND_PLACEMENT (R289): Once a free Verb exists, the dispatcher places a program's next compound on the least-cost Verb. -/
  | compoundPlacement (prog : Nat)
  /-- TILE_NOP (R121): Tile instruction NOP does nothing. -/
  | tileNop (prog : Nat)
  /-- LD_ACC (R126): Loads a tensor tile into an accumulator slot, converting it to FMT_ACC. -/
  | ldAcc (prog : Nat)
  /-- ZERO (R126): Sets a slot to +0 and clears its tile status word. -/
  | zero (prog : Nat)
  /-- MMA (R123): Runs one pass of a product over a range of K-blocks into a slot. -/
  | mma (prog : Nat)
  /-- STAGE_BUFFER_FILL (R97): A stage-buffer half is filled from scratchpad for the next panels and becomes readable when complete. -/
  | stageBufferFill (verb : Nat) (sideB : Bool)
  /-- VERB_STEP (R101): A step enters the Verb pipeline once its panel is filled and its block spacing allows. -/
  | verbStep (verb : Nat) (upset : Option (Nat × Nat)) (fault : Bool)
  /-- TREE_COMB (R127): Combines two sibling tree nodes into a slot, optionally adding a seed. -/
  | treeComb (prog : Nat) (upset : Option (Nat × Nat))
  /-- ACC_ADD (R128): Adds or subtracts a stored tile into a slot with one rounding. -/
  | accAdd (prog : Nat) (upset : Option (Nat × Nat))
  /-- CVT (R129): Converts a slot into a plain tensor in FMT_OUT. -/
  | cvt (prog : Nat)
  /-- QNT (R130): Quantises a slot into a block-scaled tensor. -/
  | qnt (prog : Nat)
  /-- TILE_ST (R131): Stores a slot unchanged in its accumulator format. -/
  | tileSt (prog : Nat)
  /-- HIST (R132): Counts a slot's values into a histogram record without writing them. -/
  | hist (prog : Nat)
  /-- CHK_STAT (R133): Waits for earlier instructions and writes a slot's 64-byte status block. -/
  | chkStat (prog : Nat)
  /-- CHK_INJECT (R134): Arms a forced failure of the next comparison of one row or column of a slot. -/
  | chkInject (prog : Nat)
  /-- CSIG (R135): After earlier writes are accepted, signals a local or remote Conjunction. -/
  | csig (prog : Nat)
  /-- CWAIT (R136): Begins holding later instructions until a Conjunction count reaches TARGET. -/
  | cwait (prog : Nat) (now : Nat)
  /-- CWAIT_MET (R136): The awaited count is reached, or the error bit is seen, and the CWAIT releases or ends the program with CONJ_ERROR. -/
  | cwaitMet (prog : Nat)
  /-- CWAIT_TIMEOUT (R136): TIMEOUT nanoseconds pass with the wait unmet and the program ends with WAIT_TIMEOUT. -/
  | cwaitTimeout (prog : Nat) (now : Nat)
  /-- TILE_FENCE (R137): Holds later instructions until every earlier instruction has completed. -/
  | tileFence (prog : Nat)
  /-- TNS_RD (R137): Writes the Tense value after earlier instructions complete. -/
  | tnsRd (prog : Nat) (now : Nat)
  /-- PERF_RD (R137): Writes the Verb's performance counter block. -/
  | perfRd (prog : Nat)
  /-- CONTINUATION_COUNT (R168): Once a tile's last write is accepted, the tile counts toward its continuation handle. -/
  | continuationCount
  /-- PROGRAM_COMPLETION (R148): After all writes of an ended program are accepted, the status record is written and the completion Conjunction signalled once. -/
  | programCompletion (prog : Nat)
  /-- PROGRAM_ABORT (R144): A requested abort takes effect at the program's next compound boundary and ends it with ABORTED. -/
  | programAbort (prog : Nat)
  /-- PRT_PUSH (R271): A store to PRT_PUSH completes earlier stores and enters the staged record into the named issue queue. -/
  | prtPush (p : Nat) (hit : Bool)
  /-- HELD_PUSH_ENTRY (R271): A push held on a full queue enters its record once a slot frees. -/
  | heldPushEntry (p : Nat)
  /-- PRT_QCTL_FLUSH (R272): A store with FLUSH set requests the flush of a Particle issue queue. -/
  | prtQctlFlush (p : Nat) (hit : Bool)
  /-- PRT_ABORT (R272): A store to PRT_ABORT requests the abort of the program with that sequence number. -/
  | prtAbort (p : Nat) (hit : Bool)
  /-- PRT_WAIT (R273): A load from PRT_WAIT holds the Particle on the Conjunction named in PRT_WAITSET. -/
  | prtWait (p : Nat) (hit : Bool) (now : Nat)
  /-- PRT_WAIT_MET (R273): The count reaches TARGET or the error bit sets and the held load returns its data. -/
  | prtWaitMet (p : Nat)
  /-- PRT_WAIT_TIMEOUT (R273): PRT_WAITTO nanoseconds pass and the held load returns with TIMEOUT. -/
  | prtWaitTimeout (p now : Nat)
  /-- PRT_TIMECMP_MATCH (R275): A Particle's launch comparator matches PRT_TIMECMP and raises TIMER. -/
  | prtTimecmpMatch (p now : Nat)
  /-- CSIGNAL (R274): A store to CSIGNAL completes earlier stores and signals the Conjunction. -/
  | csignal (p : Nat) (hit : Bool)
  /-- RV64_INSTRUCTION (R249): A Particle executes one base RISC-V instruction under the RISC-V specifications. -/
  | rv64Instruction (p : Nat) (hit : Bool)
  /-- ATOMIC_ACCESS (R251): LR, SC or an AMO is performed indivisibly at local memory or the scratchpad bank. -/
  | atomicAccess (p : Nat) (hit : Bool)
  /-- COUNTER_CSR_READ (R252): A read of cycle, time or instret returns its value or traps in a strict context. -/
  | counterCsrRead (p : Nat) (hit : Bool) (now stages : Nat)
  /-- PVXCFG_WRITE (R257): A CSR write to PVXCFG changes the configuration or raises an illegal-instruction exception. -/
  | pvxcfgWrite (p : Nat) (hit : Bool)
  /-- PVX_SETVL (R258): Sets SEW, LMUL, FP16 and RND and sets vl. -/
  | pvxSetvl (p : Nat) (hit : Bool)
  /-- PVX_ADD (R261): Vector integer add. -/
  | pvxAdd (p : Nat) (hit : Bool)
  /-- PVX_SUB (R261): Vector integer subtract. -/
  | pvxSub (p : Nat) (hit : Bool)
  /-- PVX_MUL (R261): Vector integer multiply. -/
  | pvxMul (p : Nat) (hit : Bool)
  /-- PVX_MULH (R261): Vector signed multiply returning the high bits. -/
  | pvxMulh (p : Nat) (hit : Bool)
  /-- PVX_MULHU (R261): Vector unsigned multiply returning the high bits. -/
  | pvxMulhu (p : Nat) (hit : Bool)
  /-- PVX_AND (R261): Vector bitwise AND. -/
  | pvxAnd (p : Nat) (hit : Bool)
  /-- PVX_OR (R261): Vector bitwise OR. -/
  | pvxOr (p : Nat) (hit : Bool)
  /-- PVX_XOR (R261): Vector bitwise XOR. -/
  | pvxXor (p : Nat) (hit : Bool)
  /-- PVX_SLL (R261): Vector shift left logical. -/
  | pvxSll (p : Nat) (hit : Bool)
  /-- PVX_SRL (R261): Vector shift right logical. -/
  | pvxSrl (p : Nat) (hit : Bool)
  /-- PVX_SRA (R261): Vector shift right arithmetic. -/
  | pvxSra (p : Nat) (hit : Bool)
  /-- PVX_MIN (R261): Vector signed minimum. -/
  | pvxMin (p : Nat) (hit : Bool)
  /-- PVX_MAX (R261): Vector signed maximum. -/
  | pvxMax (p : Nat) (hit : Bool)
  /-- PVX_MINU (R261): Vector unsigned minimum. -/
  | pvxMinu (p : Nat) (hit : Bool)
  /-- PVX_MAXU (R261): Vector unsigned maximum. -/
  | pvxMaxu (p : Nat) (hit : Bool)
  /-- PVX_MERGE (R261): Selects vs2 or vs1 per predicate bit. -/
  | pvxMerge (p : Nat) (hit : Bool)
  /-- PVX_FADD (R261): Vector float add, rounded once. -/
  | pvxFadd (p : Nat) (hit : Bool)
  /-- PVX_FSUB (R261): Vector float subtract, rounded once. -/
  | pvxFsub (p : Nat) (hit : Bool)
  /-- PVX_FMUL (R261): Vector float multiply, rounded once. -/
  | pvxFmul (p : Nat) (hit : Bool)
  /-- PVX_FDIV (R261): Vector float divide, rounded once. -/
  | pvxFdiv (p : Nat) (hit : Bool)
  /-- PVX_FMA (R261): Vector fused multiply-add into vd. -/
  | pvxFma (p : Nat) (hit : Bool)
  /-- PVX_FMIN (R261): Vector float minimum. -/
  | pvxFmin (p : Nat) (hit : Bool)
  /-- PVX_FMAX (R261): Vector float maximum. -/
  | pvxFmax (p : Nat) (hit : Bool)
  /-- PVX_FSQRT (R261): Vector float square root. -/
  | pvxFsqrt (p : Nat) (hit : Bool)
  /-- PVX_FCVT_F_I (R261): Converts integers to floats. -/
  | pvxFcvtFI (p : Nat) (hit : Bool)
  /-- PVX_FCVT_I_F (R261): Converts floats to integers. -/
  | pvxFcvtIF (p : Nat) (hit : Bool)
  /-- PVX_FCVT_NARROW (R261): Narrows floats of twice SEW to SEW. -/
  | pvxFcvtNarrow (p : Nat) (hit : Bool)
  /-- PVX_FCVT_WIDEN (R261): Widens floats of SEW to twice SEW exactly. -/
  | pvxFcvtWiden (p : Nat) (hit : Bool)
  /-- PVX_WMUL (R261): Signed widening multiply. -/
  | pvxWmul (p : Nat) (hit : Bool)
  /-- PVX_WMULU (R261): Unsigned widening multiply. -/
  | pvxWmulu (p : Nat) (hit : Bool)
  /-- PVX_WMACC (R261): Signed widening multiply-accumulate. -/
  | pvxWmacc (p : Nat) (hit : Bool)
  /-- PVX_FWMUL (R261): Float widening multiply, exact. -/
  | pvxFwmul (p : Nat) (hit : Bool)
  /-- PVX_FWMACC (R261): Float widening multiply-accumulate, rounded once. -/
  | pvxFwmacc (p : Nat) (hit : Bool)
  /-- PVX_DOT4 (R261): Signed four-byte dot product accumulated per 32-bit lane. -/
  | pvxDot4 (p : Nat) (hit : Bool)
  /-- PVX_DOT4U (R261): Unsigned four-byte dot product accumulated per 32-bit lane. -/
  | pvxDot4u (p : Nat) (hit : Bool)
  /-- PVX_DOT2BF (R261): Two-bfloat16 dot product accumulated into binary32. -/
  | pvxDot2bf (p : Nat) (hit : Bool)
  /-- PVX_CMPEQ (R261): Integer equality compare into a mask register. -/
  | pvxCmpeq (p : Nat) (hit : Bool)
  /-- PVX_CMPLT (R261): Signed less-than compare into a mask register. -/
  | pvxCmplt (p : Nat) (hit : Bool)
  /-- PVX_CMPLTU (R261): Unsigned less-than compare into a mask register. -/
  | pvxCmpltu (p : Nat) (hit : Bool)
  /-- PVX_FCMPEQ (R261): Float equality compare into a mask register. -/
  | pvxFcmpeq (p : Nat) (hit : Bool)
  /-- PVX_FCMPLT (R261): Float less-than compare into a mask register. -/
  | pvxFcmplt (p : Nat) (hit : Bool)
  /-- PVX_FCMPLE (R261): Float less-or-equal compare into a mask register. -/
  | pvxFcmple (p : Nat) (hit : Bool)
  /-- PVX_REDSUM (R261): Integer sum reduction in increasing element order. -/
  | pvxRedsum (p : Nat) (hit : Bool)
  /-- PVX_REDMAX (R261): Signed maximum reduction. -/
  | pvxRedmax (p : Nat) (hit : Bool)
  /-- PVX_REDMIN (R261): Signed minimum reduction. -/
  | pvxRedmin (p : Nat) (hit : Bool)
  /-- PVX_FREDSUM (R261): Ordered float sum reduction, each addition rounded once. -/
  | pvxFredsum (p : Nat) (hit : Bool)
  /-- PVX_FREDMAX (R261): Float maximum reduction. -/
  | pvxFredmax (p : Nat) (hit : Bool)
  /-- PVX_FREDMIN (R261): Float minimum reduction. -/
  | pvxFredmin (p : Nat) (hit : Bool)
  /-- PVX_MAND (R266): Mask AND. -/
  | pvxMand (p : Nat) (hit : Bool)
  /-- PVX_MOR (R266): Mask OR. -/
  | pvxMor (p : Nat) (hit : Bool)
  /-- PVX_MXOR (R266): Mask XOR. -/
  | pvxMxor (p : Nat) (hit : Bool)
  /-- PVX_MANDN (R266): Mask AND-NOT. -/
  | pvxMandn (p : Nat) (hit : Bool)
  /-- PVX_MNOT (R266): Mask NOT. -/
  | pvxMnot (p : Nat) (hit : Bool)
  /-- PVX_MSET (R266): Sets mask bits below vl. -/
  | pvxMset (p : Nat) (hit : Bool)
  /-- PVX_MCOUNT (R266): Counts set mask bits below vl into x[rd]. -/
  | pvxMcount (p : Nat) (hit : Bool)
  /-- PVX_MFIRST (R266): Writes the lowest set mask bit below vl, or −1. -/
  | pvxMfirst (p : Nat) (hit : Bool)
  /-- PVX_MV_X (R266): Moves element 0 to an integer register. -/
  | pvxMvX (p : Nat) (hit : Bool)
  /-- PVX_MV_F (R266): Moves element 0 to a float register. -/
  | pvxMvF (p : Nat) (hit : Bool)
  /-- PVX_BCAST_X (R266): Broadcasts an integer register to active elements. -/
  | pvxBcastX (p : Nat) (hit : Bool)
  /-- PVX_BCAST_F (R266): Broadcasts a float register to active elements. -/
  | pvxBcastF (p : Nat) (hit : Bool)
  /-- PVX_MV_V (R266): Copies a vector under the predicate. -/
  | pvxMvV (p : Nat) (hit : Bool)
  /-- PVX_IOTA (R266): Writes each active element's index. -/
  | pvxIota (p : Nat) (hit : Bool)
  /-- PVX_SLIDEDN (R266): Slides elements down by x[rs1]. -/
  | pvxSlidedn (p : Nat) (hit : Bool)
  /-- PVX_SLIDEUP (R266): Slides elements up by x[rs1]. -/
  | pvxSlideup (p : Nat) (hit : Bool)
  /-- PVX_LOAD (R265): Unit-stride vector load. -/
  | pvxLoad (p : Nat) (hit : Bool)
  /-- PVX_STRIDED_LOAD (R265): Strided vector load. -/
  | pvxStridedLoad (p : Nat) (hit : Bool)
  /-- PVX_INDEXED_LOAD (R265): Indexed vector load. -/
  | pvxIndexedLoad (p : Nat) (hit : Bool)
  /-- PVX_STORE (R265): Unit-stride vector store. -/
  | pvxStore (p : Nat) (hit : Bool)
  /-- PVX_STRIDED_STORE (R265): Strided vector store. -/
  | pvxStridedStore (p : Nat) (hit : Bool)
  /-- PVX_INDEXED_STORE (R265): Indexed vector store, repeated addresses written in increasing element order. -/
  | pvxIndexedStore (p : Nat) (hit : Bool)
  /-- OVERLAY_MODE_CHANGE (R268): The Syntax core switches a stopped Particle into or out of overlay mode, zeroing PVX state. -/
  | overlayModeChange (p : Nat)
  /-- PARTICLE_MISMATCH (R593): The two Particle pipelines disagree at retirement; the instruction reruns and on a second mismatch the state moves to another Particle. -/
  | particleMismatch (p : Nat)
  /-- INF_GROUP (R173): A lane group of 32 elements enters the Inflector after its stream read. -/
  | infGroup (prog : Nat) (fault : Bool)
  /-- INF_NOP (R178): Micro-operation NOP. -/
  | infNop (inf : Nat)
  /-- INF_LD (R178): Loads element i of an input stream as binary64. -/
  | infLd (inf : Nat)
  /-- INF_LDI (R178): Loads element i of an input stream as an integer or raw bits. -/
  | infLdi (inf : Nat)
  /-- INF_ST (R178): Writes a register to an output stream, converted. -/
  | infSt (inf : Nat)
  /-- INF_STI (R178): Writes a register to an output stream as an integer or raw bits. -/
  | infSti (inf : Nat)
  /-- INF_LDK (R178): Loads a constant. -/
  | infLdk (inf : Nat)
  /-- INF_MOV (R178): Copies a register. -/
  | infMov (inf : Nat)
  /-- INF_LANE (R178): Writes the element index. -/
  | infLane (inf : Nat)
  /-- INF_FADD (R178): Float add. -/
  | infFadd (inf : Nat)
  /-- INF_FSUB (R178): Float subtract. -/
  | infFsub (inf : Nat)
  /-- INF_FMUL (R178): Float multiply. -/
  | infFmul (inf : Nat)
  /-- INF_FDIV (R178): Float divide. -/
  | infFdiv (inf : Nat)
  /-- INF_FMA (R178): Float fused multiply-add. -/
  | infFma (inf : Nat)
  /-- INF_FSQRT (R178): Float square root. -/
  | infFsqrt (inf : Nat)
  /-- INF_RSQRT (R178): Float reciprocal square root. -/
  | infRsqrt (inf : Nat)
  /-- INF_FMIN (R179): Float minimum. -/
  | infFmin (inf : Nat)
  /-- INF_FMAX (R179): Float maximum. -/
  | infFmax (inf : Nat)
  /-- INF_FABS (R178): Float absolute value. -/
  | infFabs (inf : Nat)
  /-- INF_FNEG (R178): Float negate. -/
  | infFneg (inf : Nat)
  /-- INF_EXP2 (R178): Power of two. -/
  | infExp2 (inf : Nat)
  /-- INF_LOG2 (R178): Base-2 logarithm. -/
  | infLog2 (inf : Nat)
  /-- INF_EXP (R178): Natural exponential. -/
  | infExp (inf : Nat)
  /-- INF_LOG (R178): Natural logarithm. -/
  | infLog (inf : Nat)
  /-- INF_TANH (R178): Hyperbolic tangent. -/
  | infTanh (inf : Nat)
  /-- INF_SIGMOID (R178): Sigmoid. -/
  | infSigmoid (inf : Nat)
  /-- INF_GELU (R178): GELU. -/
  | infGelu (inf : Nat)
  /-- INF_SILU (R178): SILU. -/
  | infSilu (inf : Nat)
  /-- INF_SOFTPLUS (R178): Softplus. -/
  | infSoftplus (inf : Nat)
  /-- INF_SIN (R178): Sine. -/
  | infSin (inf : Nat)
  /-- INF_COS (R178): Cosine. -/
  | infCos (inf : Nat)
  /-- INF_FCMPLT (R179): Float less-than compare giving 0 or 1. -/
  | infFcmplt (inf : Nat)
  /-- INF_FCMPLE (R179): Float less-or-equal compare giving 0 or 1. -/
  | infFcmple (inf : Nat)
  /-- INF_FCMPEQ (R179): Float equality compare giving 0 or 1. -/
  | infFcmpeq (inf : Nat)
  /-- INF_FISNAN (R178): Tests for NaN. -/
  | infFisnan (inf : Nat)
  /-- INF_SEL (R179): Selects b or c by the bits of a. -/
  | infSel (inf : Nat)
  /-- INF_FTOI (R178): Float to integer. -/
  | infFtoi (inf : Nat)
  /-- INF_ITOF (R178): Integer to float. -/
  | infItof (inf : Nat)
  /-- INF_IADD (R178): Integer add. -/
  | infIadd (inf : Nat)
  /-- INF_ISUB (R178): Integer subtract. -/
  | infIsub (inf : Nat)
  /-- INF_IMUL (R178): Integer multiply, low 64 bits. -/
  | infImul (inf : Nat)
  /-- INF_AND (R178): Bitwise AND. -/
  | infAnd (inf : Nat)
  /-- INF_OR (R178): Bitwise OR. -/
  | infOr (inf : Nat)
  /-- INF_XOR (R178): Bitwise XOR. -/
  | infXor (inf : Nat)
  /-- INF_SHL (R178): Shift left. -/
  | infShl (inf : Nat)
  /-- INF_SHR (R178): Logical shift right. -/
  | infShr (inf : Nat)
  /-- INF_SAR (R178): Arithmetic shift right. -/
  | infSar (inf : Nat)
  /-- INF_ICMPLT (R178): Integer less-than compare. -/
  | infIcmplt (inf : Nat)
  /-- INF_ICMPEQ (R178): Integer equality compare. -/
  | infIcmpeq (inf : Nat)
  /-- INF_UNPACK (R179): Extracts a bit field. -/
  | infUnpack (inf : Nat)
  /-- INF_PACK (R179): Inserts a bit field. -/
  | infPack (inf : Nat)
  /-- INF_SHFL (R178): Reads a register of another lane of the group. -/
  | infShfl (inf : Nat)
  /-- INF_RED (R186): Presents values to an Agreement channel. -/
  | infRed (inf : Nat)
  /-- INF_SMAX (R182): Offers a value to a maximum summary cell. -/
  | infSmax (inf : Nat)
  /-- INF_SMIN (R182): Offers a value to a minimum summary cell. -/
  | infSmin (inf : Nat)
  /-- INF_SCNT (R182): Increments a count cell when a is non-zero. -/
  | infScnt (inf : Nat)
  /-- INF_SOR (R182): ORs a into an OR cell. -/
  | infSor (inf : Nat)
  /-- SOLVE_CG (R223): A CG solve starts on a Parser. -/
  | solveCg (id : Nat)
  /-- SOLVE_BICGSTAB (R223): A BiCGSTAB solve starts on a Parser. -/
  | solveBicgstab (id : Nat)
  /-- SOLVE_GMRES (R223): A GMRES solve starts on a Parser. -/
  | solveGmres (id : Nat)
  /-- SOLVE_LU (R212): A dense batched LU starts on a Parser. -/
  | solveLu (id : Nat)
  /-- SOLVE_CHOLESKY (R212): A dense batched Cholesky starts on a Parser. -/
  | solveCholesky (id : Nat)
  /-- SOLVE_QR (R212): A dense batched QR starts on a Parser. -/
  | solveQr (id : Nat)
  /-- OUTER_ITERATION (R222): An outer iteration forms the residual, checks convergence and applies the scaled correction. -/
  | outerIteration (id : Nat)
  /-- INNER_ITERATION (R223): One inner Krylov iteration or Arnoldi step completes and the boundary checks run. -/
  | innerIteration (id : Nat) (fault : Bool)
  /-- SOLVE_DEADLINE_MATCH (R227): Comparator LC63 matches DEADLINE and the next boundary ends the solve. -/
  | solveDeadlineMatch (id now : Nat)
  /-- ASSEMBLE_STENCIL (R240): The Lexer assembles stencil coefficients from a template. -/
  | assembleStencil (id : Nat)
  /-- ASSEMBLE_ELEMENTS (R242): The Lexer runs element kernels and scatter-adds in colour order. -/
  | assembleElements (id : Nat)
  /-- COLOUR_BOUNDARY (R243): When every write of colour k is accepted, colour k + 1 begins. -/
  | colourBoundary (id : Nat)
  /-- ASSEMBLE_MEASURE (R244): The Lexer applies measurement records in stream order. -/
  | assembleMeasure (id : Nat)
  /-- ASSEMBLE_ADJ (R245): The Lexer forms adjoint parameter gradients from a stencil template. -/
  | assembleAdj (id : Nat)
  /-- PLACEMENT_EPOCH_END (R288): Each 100 µs epoch ends and the dispatcher decides page moves from read counts. -/
  | placementEpochEnd (k now : Nat) (reads : List (Nat × Nat × Nat))
  /-- MAP_SWITCH (R296): After the copy, every map copy switches together and held writes are released. -/
  | mapSwitch (cid page : Nat)
  /-- QUANTUM_EXPIRY (R297): The running context's quantum expires and a switch may be decided. -/
  | quantumExpiry (k now : Nat)
  /-- CONTEXT_IDLE_SWITCH (R297): Every started Particle of the running context waits and no work runs, so a switch is decided. -/
  | contextIdleSwitch (k now : Nat)
  /-- ACCEPTANCE_STOP (R298): 20 µs after the decision the dispatcher stops accepting the outgoing context's records. -/
  | acceptanceStop (k now : Nat)
  /-- CONTEXT_SAVE (R298): Once every unit reaches its boundary, the outgoing context is saved. -/
  | contextSave (k now : Nat)
  /-- CONTEXT_RESTORE (R298): The incoming context's restore completes and its Particles resume with RESUMED. -/
  | contextRestore (k now : Nat)
  /-- CONJ_SIGNAL (R309): CONJ_SIGNAL descriptor operation SIGNAL adds to a Conjunction's count. -/
  | conjSignal (d : Nat)
  /-- CONJ_RESET (R311): Operation RESET sets a Conjunction's count and clears its error bit. -/
  | conjReset (d : Nat)
  /-- CONJ_ARM (R312): Operation ARM programs a free launch comparator. -/
  | conjArm (d : Nat)
  /-- CONJ_DISARM (R313): Operation DISARM cancels a pending arm and reports its outcome. -/
  | conjDisarm (d : Nat)
  /-- CONJ_READ (R309): Operation READ returns count, key and error from one read. -/
  | conjRead (d : Nat)
  /-- COMPARATOR_MATCH (R331): An armed comparator's value is reached and its signal is applied. -/
  | comparatorMatch (conj now : Nat) (apply : Bool)
  /-- PPS_EDGE (R659): A selected PPS edge arrives and is stamped and measured. -/
  | ppsEdge (fall : Bool) (now sub : Nat)
  /-- MISSING_MEASUREMENT (R324): An expected measurement does not arrive in time; eight in a row set HOLDOVER. -/
  | missingMeasurement (now : Nat)
  /-- PPS_ABSENCE (R328): No PPS edge for 1.001 s clears PPS_PRESENT. -/
  | ppsAbsence (now : Nat)
  /-- TSYNC_REQUEST_SEND (R395): Every 125 µs a child sends a TSYNC request to its parent. -/
  | tsyncRequestSend (now sub : Nat)
  /-- TSYNC_REQUEST (R395): A parent receives a TSYNC request and answers it. -/
  | tsyncRequest (p : Nat) (fec : Bool) (bytes : List (BitVec 8)) (t2 t3 : Nat)
  /-- TSYNC_RESPONSE (R395): A child receives a TSYNC response and computes the offset. -/
  | tsyncResponse (p : Nat) (fec : Bool) (bytes : List (BitVec 8)) (t4 now : Nat)
  /-- STACK_TEMPERATURE_READING (R352): Every 64 µs each stack's temperature is read and its thermal level updated. -/
  | stackTemperatureReading (k : Nat) (temp : Int) (now : Nat)
  /-- STACK_ONLINE (R354): An offline stack with no context that read below 95 °C for 1 s is retrained, wiped and set ONLINE. -/
  | stackOnline (k now : Nat) (unrep : List (Nat × Nat × Nat))
  /-- PSEUDO_CHANNEL_GRANT (R343): A pseudo-channel scheduler decides the next burst at the last beat of the current one. -/
  | pseudoChannelGrant (k pc now : Nat) (arrivals : List (Nat × Nat × Nat × Bool × Bool)) (pass cap : Bool) (out : Nat)
  /-- ROW_REMAP (R350): A candidate row in the guarded set is copied to a spare and remapped. -/
  | rowRemap (k : Nat)
  /-- PATROL_SCRUB (R346): The controller reads a granule as a patrol read in its period. -/
  | patrolScrub (k now : Nat) (outs : List Nat)
  /-- REFRESH (R353): A refresh command is issued at the rate of the stack's thermal level. -/
  | refresh (k : Nat)
  /-- HBM_TG_START (R361): START starts a traffic generator run. -/
  | hbmTgStart (k : Nat)
  /-- HBM_TG_STOP (R361): STOP ends the run after the granule in progress. -/
  | hbmTgStop (k : Nat)
  /-- TRAFFIC_GENERATOR_RUN_END (R356): A traffic generator run completes and writes its result. -/
  | trafficGeneratorRunEnd (k now : Nat) (fails : List (Nat × Nat × Nat))
  /-- IDLE_BEAT (R367): An IDLE beat arrives. -/
  | idleBeat (p : Nat) (fec : Bool) (bytes : List (BitVec 8))
  /-- LINKCTL (R371): A LINKCTL beat arrives with acknowledgement, NAK and credits. -/
  | linkctl (p : Nat) (fec : Bool) (bytes : List (BitVec 8)) (now : Nat)
  /-- LINKCTL_SEND (R371): A receiver sends LINKCTL for credit, after 64 packets, or once per microsecond. -/
  | linkctlSend (p now : Nat)
  /-- REPLAY_START (R376): A REPLAY_START beat arrives and the receiver resumes accepting. -/
  | replayStart (p : Nat) (fec : Bool) (bytes : List (BitVec 8))
  /-- REPLAY_TIMEOUT (R376): 20 µs pass with packets outstanding and the transmitter replays. -/
  | replayTimeout (p now : Nat)
  /-- LINK_STATE (R377): A LINK_STATE beat arrives carrying the peer's identity and expected number. -/
  | linkState (p devid port e : Nat) (down : Option (Nat × Nat)) (now : Nat)
  /-- LINK_TRAINING_COMPLETE (R377): Link training ends, bringing the port up, at ×4 or DOWN after three failures. -/
  | linkTrainingComplete (p failed now : Nat)
  /-- LINK_LOSS_WAIT_EXPIRY (R377): 1 ms passes without a rerouting LINK_STATE and buffered packets are undeliverable. -/
  | linkLossWaitExpiry (p now : Nat)
  /-- PORT_RETRAIN (R401): RETRAIN of YLV_PORT_CTL retrains the port now. -/
  | portRetrain (p : Nat)
  /-- SIGNAL_PACKET (R316): A remote SIGNAL packet is routed or applied at its Conjunction after key checks. -/
  | signalPacket (p : Nat) (fec : Bool) (bytes : List (BitVec 8))
  /-- WRITE_ACK (R387): A WRITE_ACK packet arrives for a DATA write. -/
  | writeAck (p : Nat) (fec : Bool) (bytes : List (BitVec 8))
  /-- READ_PACKET (R387): A READ packet is served as a class 2 read and answered with READ_RESP. -/
  | readPacket (p : Nat) (fec : Bool) (bytes : List (BitVec 8)) (full : Bool)
  /-- ABORT_PACKET (R424): An ABORT packet arrives and the member aborts the generation and passes it on. -/
  | abortPacket (p : Nat) (fec : Bool) (bytes : List (BitVec 8))
  /-- UNDELIVERABLE_PACKET (R382): An UNDELIVERABLE packet arrives at the origin. -/
  | undeliverablePacket (p : Nat) (fec : Bool) (bytes : List (BitVec 8))
  /-- COLLECTIVE_FREE (R409): A FREE packet releases a window slot for further segments. -/
  | collectiveFree (p : Nat) (fec : Bool) (bytes : List (BitVec 8))
  /-- COLLECTIVE_DONE (R420): A DONE packet from a child is combined and passed to the parent. -/
  | collectiveDone (p : Nat) (fec : Bool) (bytes : List (BitVec 8)) (now : Nat)
  /-- COLLECTIVE_CLOSE (R420): A CLOSE packet arrives, is passed on, and completes the generation. -/
  | collectiveClose (p : Nat) (fec : Bool) (bytes : List (BitVec 8)) (now : Nat)
  /-- DATA_WRITE (R387): A DATA WRITE packet is forwarded or written at its destination. -/
  | dataWrite (p : Nat) (fec : Bool) (bytes : List (BitVec 8))
  /-- DATA_READ_RESP (R387): A READ_RESP packet's data is written to RADDR. -/
  | dataReadResp (p : Nat) (fec : Bool) (bytes : List (BitVec 8))
  /-- DATA_REDUCE (R410): A collective DATA packet is combined in the segment's cells. -/
  | dataReduce (p : Nat) (fec : Bool) (bytes : List (BitVec 8)) (now : Nat)
  /-- EGRESS_COMMIT (R389): A shared resource's arbiter commits its next grant at the last beat of a transfer. -/
  | egressCommit (e now : Nat)
  /-- REQUEST_CANCEL (R393): A cancel is decided against the commit and removes the request or has no effect. -/
  | requestCancel (e id : Nat)
  /-- CIRCUIT_ENTRY_WRITE (R647): An 8-byte write to a circuit entry is checked under R384 and applied or refused. -/
  | circuitEntryWrite (org port cid v : Nat)
  /-- PART_CKT_ENTRY_WRITE (R649): A partition's write to PART_CKT_ENTRY writes the selected circuit entry. -/
  | partCktEntryWrite (org k v : Nat)
  /-- COLLECTIVE_SETUP (R408): SETUP reads and checks a group record and reserves reduction buffer. -/
  | collectiveSetup (d : Nat)
  /-- COLLECTIVE_LAUNCH (R408): LAUNCH runs a group generation with all of SRC ready. -/
  | collectiveLaunch (d now : Nat)
  /-- COLLECTIVE_BIND (R417): BIND attaches a continuation handle to a group. -/
  | collectiveBind (d : Nat)
  /-- COLLECTIVE_UNBIND (R408): UNBIND removes a handle binding. -/
  | collectiveUnbind (d : Nat)
  /-- COLLECTIVE_ABORT (R423): ABORT aborts the running generation with cause SOFTWARE. -/
  | collectiveAbort (d : Nat)
  /-- COLLECTIVE_RELEASE (R408): RELEASE frees a group and its reservation. -/
  | collectiveRelease (d : Nat)
  /-- COLLECTIVE_ROUTE (R427): ROUTE writes a route handle entry. -/
  | collectiveRoute (d : Nat)
  /-- SEGMENT_SEND (R416): A ready segment is sent to its schedule's peer once the window allows. -/
  | segmentSend (cid group st seg now : Nat)
  /-- COLLECTIVE_TIMEOUT (R423): TIMEOUT passes since launch and the member starts an abort. -/
  | collectiveTimeout (cid group now : Nat)
  /-- HASH_LANE_CHUNK (R441): A hash lane completes the digest of one 1 MiB input chunk. -/
  | hashLaneChunk (d k : Nat)
  /-- INPUT_ACCEPTED (R441): Every byte of an input is written and its digest complete, so it is accepted. -/
  | inputAccepted (d now : Nat)
  /-- STEP_COMMIT_OPEN (R443): OPEN checks the gloss setup record and waits for pre-open inputs. -/
  | stepCommitOpen (d : Nat)
  /-- GLOSS_OPEN (R444): With pre-open inputs accepted, the device forms p, w0 and the Gloss. -/
  | glossOpen (d : Nat)
  /-- STEP_COMMIT_SETUP (R455): SETUP declares the context's step table. -/
  | stepCommitSetup (d : Nat)
  /-- STEP_COMMIT_COMMIT (R464): COMMIT is accepted for a step and begins waiting on cover, gates and inputs. -/
  | stepCommitCommit (d now : Nat)
  /-- STEP_DECISION (R466): Once its waits end, the commit decides commit or skip. -/
  | stepDecision (d now : Nat)
  /-- VIEW_EXCHANGE (R467): After carry and any export hold, every region's views exchange indivisibly. -/
  | viewExchange (d now : Nat)
  /-- RETENTION_RELEASE (R481): RCONJ reaches an entry's target and its area is released. -/
  | retentionRelease (cid j : Nat)
  /-- DEFERRABLE_START (R482): A deferrable item starts in a bubble. -/
  | deferrableStart (d : Nat)
  /-- COPY_PLAIN (R527): A PLAIN COPY moves bytes, as an external input when INPUT is set. -/
  | copyPlain (d now : Nat)
  /-- COPY_OFFLOAD (R478): OFFLOAD copies an area to host memory and writes the offload record. -/
  | copyOffload (d now : Nat)
  /-- COPY_PREFETCH (R479): PREFETCH reads a host copy back and checks its digest. -/
  | copyPrefetch (d now : Nat)
  /-- COPY_TOPK (R473): TOPK compresses a gradient and stages residuals. -/
  | copyTopk (d : Nat)
  /-- COPY_SIGN (R474): SIGN compresses a gradient to signs and a scale. -/
  | copySign (d : Nat)
  /-- COPY_EXPAND_TOPK (R475): EXPAND sums TOPK blocks of G members into a dense output. -/
  | copyExpandTopk (d : Nat)
  /-- COPY_EXPAND_SIGN (R475): EXPAND sums SIGN blocks of G members into a dense output. -/
  | copyExpandSign (d : Nat)
  /-- SNAPSHOT_DIGEST (R451): DIGEST writes chunk digests and folds WD into the Gloss. -/
  | snapshotDigest (d : Nat)
  /-- SNAPSHOT_FINAL (R451): FINAL forms the job weight digest from chunk digests. -/
  | snapshotFinal (d : Nat)
  /-- SNAPSHOT_EXPORT (R485): EXPORT digests and writes a snapshot of committed views. -/
  | snapshotExport (d now : Nat)
  /-- LAUNCH_CREATE (R284): CREATE reads and checks a context descriptor and creates the context. -/
  | launchCreate (d now : Nat)
  /-- LAUNCH_PROGRAM (R526): PROGRAM hands an issue record to the dispatcher for a context. -/
  | launchProgram (d : Nat)
  /-- LAUNCH_END (R526): END ends a context with TEARDOWN and frees its resources. -/
  | launchEnd (d now : Nat)
  /-- WAIT (R532): A WAIT descriptor holds later descriptors of its ring on a Conjunction. -/
  | wait (d now : Nat)
  /-- WAIT_COMPLETE (R532): The WAIT's target is reached or ERROR sets, and it completes and releases the ring or stops it. -/
  | waitComplete (d : Nat)
  /-- WAIT_TIMEOUT (R532): TIMEOUT microseconds pass and the WAIT completes with WAIT_TIMEOUT. -/
  | waitTimeout (d now : Nat)
  /-- FENCE (R532): A FENCE descriptor holds later descriptors until earlier ones complete. -/
  | fence (d : Nat)
  /-- FENCE_RELEASE (R532): Every earlier descriptor completes and the FENCE releases its ring. -/
  | fenceRelease (d : Nat)
  /-- MAINT_START_STRESS (R601): A STRESS activity takes the token, evacuates the slice and tests at three voltages. -/
  | maintStartStress (d sl now : Nat)
  /-- MAINT_START_CALIBRATE (R604): A CALIBRATE activity captures calibration records. -/
  | maintStartCalibrate (d sl now : Nat)
  /-- MAINT_START_SCRUB (R604): A SCRUB activity starts a demand scrub of a stack. -/
  | maintStartScrub (d now : Nat)
  /-- MAINT_START_STACK_TEST (R356): A STACK_TEST starts the destructive traffic generator run. -/
  | maintStartStackTest (d sl now : Nat)
  /-- MAINT_START_UNIT_TEST (R604): A UNIT_TEST holds one unit out of service for targeted work. -/
  | maintStartUnitTest (d now : Nat)
  /-- MAINT_END (R533): MAINT END ends an activity early and releases its token. -/
  | maintEnd (d now : Nat)
  /-- ACTIVITY_END (R604): An activity ends by itself, writes its result, signals DONE_CONJ and releases the token. -/
  | activityEnd (kind sl now : Nat) (tests : List (Nat × List Nat)) (repeats : List Nat) (data : List (List Nat)) (errs : List (Nat × Nat × Nat × Nat))
  /-- SQ_DOORBELL (R518): A submission doorbell updates TC or is ignored. -/
  | sqDoorbell (fn k q : Nat) (data : List (BitVec 8)) (poisoned : Bool)
  /-- CQ_DOORBELL (R520): A completion doorbell updates RC or is ignored. -/
  | cqDoorbell (fn k m : Nat) (data : List (BitVec 8)) (poisoned : Bool)
  /-- EQ_DOORBELL (R520): An event doorbell updates RC or is ignored. -/
  | eqDoorbell (fn k : Nat) (data : List (BitVec 8)) (poisoned : Bool)
  /-- RING_FETCH (R519): While HC differs from TC the device sends a fetch request for slots. -/
  | ringFetch (k q : Nat)
  /-- FETCH_COMPLETION (R519): Fetch data arrives; committed slots enter the fetch buffer. -/
  | fetchCompletion (k q now : Nat)
  /-- SLOT_REREAD (R519): Once per microsecond an uncommitted slot is read again. -/
  | slotReread (k q now : Nat)
  /-- DESCRIPTOR_ACCEPT (R521): The dispatcher accepts a descriptor once its completion slot is free, and checks it. -/
  | descriptorAccept (k q now : Nat)
  /-- DESCRIPTOR_COMPLETION (R525): A complete descriptor signals, writes its completion entry and sends MSI-X. -/
  | descriptorCompletion (d : Nat)
  /-- SQ_FLUSH (R537): FLUSH of PART_SQ_CTL empties a submission ring of unaccepted descriptors. -/
  | sqFlush (k q : Nat)
  /-- RING_ENABLE (R516): A change of a ring's EN resets counts or flushes and stops the ring. -/
  | ringEnable (k ring : Nat)
  /-- MEMORY_WINDOW_READ (R492): A host read through the memory window reads partition memory. -/
  | memoryWindowRead (fn : Nat) (off : Nat) (n : Nat)
  /-- MEMORY_WINDOW_WRITE (R492): A host write through the memory window writes partition memory. -/
  | memoryWindowWrite (fn : Nat) (off : Nat) (data : List (BitVec 8)) (poisoned : Bool)
  /-- ATOMICOP_RECEIVED (R488): A received AtomicOp completes with Unsupported Request. -/
  | atomicopReceived (fn : Nat)
  /-- BUS_MASTER_ENABLE_CLEAR (R500): Clearing Bus Master Enable stops a function's requests and aborts its host work. -/
  | busMasterEnableClear (fn : Nat)
  /-- BUS_MASTER_ENABLE_SET (R500): Setting Bus Master Enable writes held entries and resumes fetching. -/
  | busMasterEnableSet (fn : Nat)
  /-- FUNCTION_LEVEL_RESET (R501): Initiate FLR runs the function-level reset sequence. -/
  | functionLevelReset (fn : Nat) (finish : Bool)
  /-- HOST_COMPLETION (R499): A host completion arrives and is matched to its tracker or discarded. -/
  | hostCompletion (fn tag status off : Nat) (data : List (BitVec 8)) (ep last : Bool)
  /-- COMPLETION_TIMEOUT (R497): A tracker's completion timeout expires and its work ends with HOST_ERROR. -/
  | completionTimeout (tracker : Nat)
  /-- TRANSLATION_WALK (R505): A translation miss walks the tables and returns a translation or fault. -/
  | translationWalk (k sl dva : Nat) (write : Bool) (evict : Nat)
  /-- XLAT_INVALIDATE (R509): START of PART_XLAT_INV begins an invalidation. -/
  | xlatInvalidate (k : Nat)
  /-- XLAT_INVALIDATE_DONE (R509): The range is cleared and earlier walks end, setting DONE. -/
  | xlatInvalidateDone (k : Nat)
  /-- PART_FORM (R544): FORM of PART_CFG begins formation or is refused. -/
  | partForm (k now : Nat)
  /-- PARTITION_ACTIVE (R544): 400 µs after FORM the partition becomes ACTIVE. -/
  | partitionActive (k now : Nat) (badStacks badDoms : List Nat)
  /-- PART_TEARDOWN (R549): TEARDOWN of PART_CFG ends all of the partition's work. -/
  | partTeardown (k now : Nat)
  /-- WIPE (R551): A wipe completes over every memory, then the partition's resources are freed. -/
  | wipe (k now : Nat)
  /-- PART_KEY_WRITE (R546): A write to PART_KEY assigns or removes a key under its rules. -/
  | partKeyWrite (org k j v : Nat)
  /-- LIFECYCLE_SUBMIT (R640): SUBMIT copies the lifecycle request and starts its decision. -/
  | lifecycleSubmit
  /-- LIFECYCLE_DECISION (R554): The lifecycle request is decided, and an accepted one wipes and cold-resets. -/
  | lifecycleDecision (now : Nat)
  /-- FIRMWARE_STAGE_GO (R641): GO of SYN_FW_STAGE starts staging of a firmware image. -/
  | firmwareStageGo
  /-- FIRMWARE_STAGING_DONE (R557): The staged image is checked and written to the inactive bank. -/
  | firmwareStagingDone (now : Nat)
  /-- COMMIT_SVN (R557): COMMIT_SVN raises the fused minimum SVN. -/
  | commitSvn
  /-- AUD_ACK_WRITE (R561): A write to AUD_ACK acknowledges audit entries. -/
  | audAckWrite (org v : Nat)
  /-- SET_POINT_UPDATE (R568): Every 100 µs the Syntax core recomputes each domain's set point. -/
  | setPointUpdate (now : Nat) (steps : List (Nat × Nat)) (over_ : Bool)
  /-- POWER_ESTIMATE (R570): Every 10 µs module power is estimated. -/
  | powerEstimate (now : Nat) (doms : List Nat) (hbm boundary : Nat)
  /-- PMBUS_CORRECTION (R570): Every millisecond the estimate is corrected from regulator readings. -/
  | pmbusCorrection (now : Nat) (readings : List (Option Int))
  /-- PMBUS_ALERT (R657): PMB_ALERT_N is asserted and each regulator's STATUS_WORD is read. -/
  | pmbusAlert (words : List (Option Nat))
  /-- JUNCTION_SENSOR_READ (R572): Every 10 µs the junction sensors are read. -/
  | junctionSensorRead (now : Nat) (temps : List Int)
  /-- RAIL_MONITOR_SAMPLE (R573): Every 20 ns the rail monitors sample each interior rail. -/
  | railMonitorSample (dom a b : Nat) (tele : Option Nat) (now : Nat)
  /-- DIP_EVENT_END (R575): Rails read above warning plus 10 mV for 1 µs and the event ends with its actions. -/
  | dipEventEnd (now : Nat)
  /-- RAIL_RESET (R573): A rail below 0.50 V for 2 µs causes a cold reset. -/
  | railReset (rail : Nat)
  /-- DIP_RAISE_EXPIRY (R575): 10 s after a dip the 20 mV raise ends. -/
  | dipRaiseExpiry (dom now : Nat)
  /-- RECORD_REVALIDATION (R579): After 5 s at a higher class a PROVISIONAL record is revalidated or made STALE. -/
  | recordRevalidation (sl kind : Nat) (ok : Bool) (data : List Nat) (now : Nat)
  /-- PWR_SLEEP (R581): SLEEP of PWR_CTL requests Ellipsis. -/
  | pwrSleep (now : Nat)
  /-- IDLE_SLEEP (R581): IDLE_MS pass without work and the Syntax core requests Ellipsis. -/
  | idleSleep (now : Nat)
  /-- ELLIPSIS_ENTERED (R582): With contexts saved and descriptors settled, the stacks self-refresh and slice domains switch off. -/
  | ellipsisEntered (now : Nat)
  /-- PWR_WAKE (R584): WAKE of PWR_CTL or an enabled source begins a wake. -/
  | pwrWake (now : Nat)
  /-- WAKE_COMPLETE (R584): 400 µs after the wake begins, STATE becomes RUN. -/
  | wakeComplete (now : Nat) (badStacks badDoms : List Nat)
  /-- LOCKSTEP_MISMATCH (R594): A Syntax core or dispatcher mismatch is fatal and ends in cold reset. -/
  | lockstepMismatch
  /-- QUICK_TEST (R600): After a unit fault report the unit is quick-tested, retired or returned. -/
  | quickTest (sl u now : Nat) (pass : Bool)
  /-- SCHEDULED_STRESS (R603): The Syntax core schedules a STRESS each FIELD_PERIOD. -/
  | scheduledStress (sl now : Nat)
  /-- LATENT_SCRUB (R591): Every 60 s scratchpad and accumulator memory are scrubbed. -/
  | latentScrub (now : Nat) (ces : List Nat) (ues acc : List (Nat × Nat))
  /-- NO_UNIT (R595): Work waits 100 ms with no unit in service and ends with NO_UNIT. -/
  | noUnit (prog now : Nat)
  /-- REPORT_RESEND (R597): Every 10 ms pending report records are sent again. -/
  | reportResend (now : Nat)
  /-- CORRECTED_REPORT (R598): Once per second a source sends one CORRECTED record. -/
  | correctedReport (key now : Nat)
  /-- RAS_RPT_ACK_WRITE (R597): A write to RAS_RPT_ACK acknowledges report records. -/
  | rasRptAckWrite (org v : Nat)
  /-- PAIRING_ENABLE (R607): A write of RAS_PAIR enables pairing and sends LAYOUT, or sends END on clearing EN. -/
  | pairingEnable
  /-- PAIR_LAYOUT (R607): A LAYOUT message is compared with the local step table. -/
  | pairLayout (p : Nat) (fec : Bool) (bytes : List (BitVec 8)) (layout : List Nat)
  /-- INITIAL_VIEW_COPY (R610): The primary's committed views finish copying and the pair becomes PAIRED. -/
  | initialViewCopy
  /-- PAIR_COMMIT (R611): A COMMIT message exchanges the standby's views. -/
  | pairCommit (p : Nat) (fec : Bool) (bytes : List (BitVec 8))
  /-- PAIR_COMMIT_ACK (R611): COMMIT_ACK lets the primary perform its exchange. -/
  | pairCommitAck (p : Nat) (fec : Bool) (bytes : List (BitVec 8))
  /-- PAIR_CMPWORD (R613): A CMPWORD message is compared with the local compare word. -/
  | pairCmpword (p : Nat) (fec : Bool) (bytes : List (BitVec 8))
  /-- PAIR_FAILOVER (R612): A FAILOVER message promotes the standby. -/
  | pairFailover (p : Nat) (fec : Bool) (bytes : List (BitVec 8))
  /-- PAIR_END (R612): An END message returns the pair to OFF. -/
  | pairEnd (p : Nat) (fec : Bool) (bytes : List (BitVec 8))
  /-- PARTNER_LOST (R609): The mirror ports are silent for 1 ms and the partner is lost. -/
  | partnerLost (now : Nat)
  /-- PROMOTE (R612): PROMOTE by management makes the standby context runnable. -/
  | promote
  /-- POWER_ON_RESET (R615): The always-on rail reaches or falls below its level and resets the whole device. -/
  | powerOnReset
  /-- COLD_RST_N_ASSERT (R616): COLD_RST_N low starts a cold reset. -/
  | coldRstNAssert
  /-- SYN_RESET_COLD (R628): COLD with key C5h in SYN_RESET starts a cold reset. -/
  | synResetCold
  /-- BOOT_RELEASE (R619): Reset is released and the fuses are read. -/
  | bootRelease (strap : Nat) (majority : Bool)
  /-- BOOT_CLOCKS (R619): The PLLs lock and Tense starts at 0. -/
  | bootClocks
  /-- BOOT_ROM (R556): The boot ROM authenticates a flash bank or falls back. -/
  | bootRom (now : Nat)
  /-- BOOT_FW_INIT (R619): Firmware loads health and calibration records and starts reporting. -/
  | bootFwInit (now : Nat)
  /-- BOOT_FABRIC_TEST (R619): Fabric domains ramp and ring stops and bridges self-test. -/
  | bootFabricTest (failed : Bool) (now : Nat)
  /-- BOOT_SLICES (R619): Slice domains ramp and units run built-in tests. -/
  | bootSlices (failed : List (Nat × Nat)) (badDoms : List Nat) (now : Nat)
  /-- BOOT_STACKS (R619): Stacks train, are repaired and retrain. -/
  | bootStacks (bad : List Nat) (unrep : List (Nat × List (Nat × Nat × Nat))) (now : Nat)
  /-- BOOT_WIPE (R623): Every slice and stack is wiped. -/
  | bootWipe (now : Nat)
  /-- BOOT_READY (R625): The device reaches READY, drives DEV_READY and sends the BOOT report. -/
  | bootReady (now : Nat)
  /-- PERST_N_ASSERT (R627): PERST_N asserted resets the PCI Express domain and its functions. -/
  | perstNAssert
  /-- PERST_N_RELEASE (R627): PERST_N released lets the link train. -/
  | perstNRelease
  /-- TEST_RESET (R615): The JTAG TAP reset resets the test logic. -/
  | testReset
  /-- EXTEST (R662): JTAG instruction EXTEST. -/
  | extest (pins load : Nat)
  /-- IDCODE (R662): JTAG instruction IDCODE returns 11E0_0ABDh. -/
  | idcode
  /-- SAMPLE_PRELOAD (R662): JTAG instruction SAMPLE/PRELOAD. -/
  | samplePreload (pins load : Nat)
  /-- SETUPACC (R631): JTAG SETUPACC update runs a setup-space access. -/
  | setupacc (dr : Nat)
  /-- BYPASS (R662): JTAG instruction BYPASS. -/
  | bypass
  /-- I3C_WRITE_4 (R631): I3C command 01h writes 4 bytes of setup space. -/
  | i3cWrite4 (off v : Nat)
  /-- I3C_WRITE_8 (R631): I3C command 02h writes 8 bytes of setup space. -/
  | i3cWrite8 (off v : Nat)
  /-- I3C_READ_4 (R631): I3C command 11h reads 4 bytes of setup space. -/
  | i3cRead4 (off : Nat)
  /-- I3C_READ_8 (R631): I3C command 12h reads 8 bytes of setup space. -/
  | i3cRead8 (off : Nat)
  /-- I3C_PRIVATE_READ (R631): An I3C private read returns the last command's status and data. -/
  | i3cPrivateRead
  /-- SETDASA (R661): SETDASA assigns the I3C dynamic address. -/
  | setdasa (addr dyn : Nat)
  /-- ENTDAA (R661): ENTDAA assigns the I3C dynamic address. -/
  | entdaa (dyn : Nat)
  /-- SETUP_REGISTER_WRITE (R632): A write to a setup register without its own row is checked for origin, lock and reserved bits. -/
  | setupRegisterWrite (fn off : Nat) (data : List (BitVec 8)) (poisoned : Bool)
  /-- LINK_LOST (R377): A port loses its link when the peer stops sending, for example because the peer is in cold reset or has lost power, and the port begins retraining under R377. -/
  | linkLost (p : Nat)
  /-- RAIL_EN_FALL (R656): COLD_RST_N held low for 1 ms makes RAIL_EN fall, so every commanded rail falls together. -/
  | railEnFall
  /-- VF_ENABLE (R489): The host sets or clears VF Enable in PF0's SR-IOV control, which gives a partition host access or takes it away. -/
  | vfEnable (num : Nat) (on : Bool)
  /-- D3HOT_ENTRY (R488): A host write that places a function in D3hot clears its bus-master ability as R500 does. -/
  | d3hotEntry (fn : Nat)
deriving DecidableEq, Repr

end Sys2Proof
end

