-- ==== Sys2Proof/Machine/Map.lean ====
section
/-! DEFINITION. Sparse maps in one canonical form (keys strictly rising), and the byte-order and bit-field helpers. -/

namespace Sys2Proof.Machine

/-- A sparse map: key and value pairs. Canonical form: keys strictly rising. -/
abbrev Map (α : Type) := List (Nat × α)

/-- The value at a key; `d` where the map lists nothing (DESIGN CHOICE, assumption log 10). -/
def mapGet {α : Type} (d : α) : Map α → Nat → α
  | [], _ => d
  | (k', v) :: r, k => if k = k' then v else mapGet d r k

/-- The value at a key, if the map lists one. -/
def mapFind {α : Type} : Map α → Nat → Option α
  | [], _ => none
  | (k', v) :: r, k => if k = k' then some v else mapFind r k

/-- Puts a value at a key, keeping the keys rising. -/
def mapIns {α : Type} : Map α → Nat → α → Map α
  | [], k, v => [(k, v)]
  | (k', v') :: r, k, v =>
    if k < k' then (k, v) :: (k', v') :: r
    else if k = k' then (k, v) :: r
    else (k', v') :: mapIns r k v

/-- Takes a key out. -/
def mapDel {α : Type} : Map α → Nat → Map α
  | [], _ => []
  | (k', v') :: r, k => if k = k' then mapDel r k else (k', v') :: mapDel r k

/-- Writes a value in the canonical form: writing what an unlisted key reads as takes the entry out. -/
def mapSet {α : Type} [DecidableEq α] (d : α) (m : Map α) (k : Nat) (v : α) : Map α :=
  if v = d then mapDel m k else mapIns m k v

/-- Keys strictly rising, all above `lo` when it is given. -/
def keysRise {α : Type} : Option Nat → Map α → Bool
  | _, [] => true
  | none, (k, _) :: r => keysRise (some k) r
  | some l, (k, _) :: r => decide (l < k) && keysRise (some k) r

/-- The canonical form: keys strictly rising and no entry equal to what an unlisted key reads as. -/
def mapWf {α : Type} [DecidableEq α] (d : α) (m : Map α) : Bool :=
  keysRise none m && m.all (fun p => decide (p.2 ≠ d))

/-- Changes the value at a key (records; no canonical removal). -/
def mapUpd {α : Type} (d : α) (m : Map α) (k : Nat) (f : α → α) : Map α :=
  mapIns m k (f (mapGet d m k))

/-- The keys of a map, rising. -/
def mapKeys {α : Type} (m : Map α) : List Nat := m.map Prod.fst

/-! ### Bit fields and byte order -/

/-- Bits `[hi:lo]` of a number (chapter 00, Numbers, fields and registers). -/
def bits (x hi lo : Nat) : Nat := (x >>> lo) % 2 ^ (hi + 1 - lo)

/-- Bit `i` of a number. -/
def bit (x i : Nat) : Bool := x.testBit i

/-- `x` with bits `[hi:lo]` replaced by `v`. -/
def setBits (x hi lo v : Nat) : Nat :=
  (x >>> (hi + 1)) <<< (hi + 1) + (v % 2 ^ (hi + 1 - lo)) <<< lo + x % 2 ^ lo

/-- A two's complement reading of the low `w` bits. -/
def sext (w x : Nat) : Int :=
  let y := x % 2 ^ w
  if y < 2 ^ (w - 1) then (y : Int) else (y : Int) - (2 ^ w : Nat)

/-- The low `w` bits of an integer in two's complement. -/
def toTwos (w : Nat) (i : Int) : Nat := (i % ((2 ^ w : Nat) : Int)).toNat

/-- The little-endian value of a list of bytes. -/
def leNat : List Byte → Nat
  | [] => 0
  | b :: r => b.toNat + 256 * leNat r

/-- The `n` little-endian bytes of a number. -/
def natLe : Nat → Nat → List Byte
  | 0, _ => []
  | n + 1, x => BitVec.ofNat 8 x :: natLe n (x / 256)

/-- The number whose bits `[w i + w - 1 : w i]` are the elements of the list. -/
def packNat (w : Nat) : List Nat → Nat
  | [] => 0
  | x :: r => x % 2 ^ w + 2 ^ w * packNat w r

/-- Saturating increment of a counter `w` bits wide (R11). -/
def satAdd (w x n : Nat) : Nat := min (x + n) (2 ^ w - 1)

/-- `x` rounded up to a multiple of `a`. -/
def alignUp (x a : Nat) : Nat := (x + a - 1) / a * a

/-- Smallest `n` with `2^n ≥ x` (0 for `x ≤ 1`). -/
def clog2 (x : Nat) : Nat := if x ≤ 1 then 0 else Nat.log2 (x - 1) + 1

end Sys2Proof.Machine
end

