-- ==== Sys2Proof/Machine/Num.lean ====
section
/-! DEFINITION. Number formats, exact values, rounding and conversion (spec/02_number_formats.md). -/

namespace Sys2Proof.Machine

/-- The sixteen format codes of R39. -/
inductive Fmt where
  | f64 | f32 | f16 | bf16 | e4m3 | e5m2 | e3m2 | e2m3 | e2m1 | e8m0 | i32 | i16 | i8 | i4 | fx64 | fx32
deriving DecidableEq, Repr

/-- The five rounding modes of R60. -/
inductive Rnd where
  | rne | rtz | rup | rdn | sr
deriving DecidableEq, Repr

/-- An exact value: NaN, an infinity, or `(-1)^neg * m * 2^e` (`m = 0` is a signed zero).
Quotients and roots are held with more than 190 significant bits and a last bit that says whether anything lies below. -/
inductive Num where
  | nan
  | inf (neg : Bool)
  | fin (neg : Bool) (m : Nat) (e : Int)
deriving DecidableEq, Repr

/-- The layout of a floating-point format (R42): exponent and mantissa widths, bias, and which special values exist. -/
structure FLay where
  eb : Nat
  mb : Nat
  bias : Int
  /-- all-ones exponent holds infinity and NaN (F64, F32, F16, BF16, E5M2) -/
  ieee : Bool
  /-- the all-ones pattern is NaN (E4M3) -/
  oneNan : Bool
deriving DecidableEq, Repr

/-- R39: the code of a format. -/
def fmtOf (c : Nat) : Fmt :=
  match c % 16 with
  | 0 => .f64 | 1 => .f32 | 2 => .f16 | 3 => .bf16 | 4 => .e4m3 | 5 => .e5m2 | 6 => .e3m2 | 7 => .e2m3
  | 8 => .e2m1 | 9 => .e8m0 | 10 => .i32 | 11 => .i16 | 12 => .i8 | 13 => .i4 | 14 => .fx64 | _ => .fx32

/-- R39: the number of a format. -/
def fmtCode (f : Fmt) : Nat :=
  match f with
  | .f64 => 0 | .f32 => 1 | .f16 => 2 | .bf16 => 3 | .e4m3 => 4 | .e5m2 => 5 | .e3m2 => 6 | .e2m3 => 7
  | .e2m1 => 8 | .e8m0 => 9 | .i32 => 10 | .i16 => 11 | .i8 => 12 | .i4 => 13 | .fx64 => 14 | .fx32 => 15

/-- R39: element width in bits. -/
def fmtWidth (f : Fmt) : Nat :=
  match f with
  | .f64 | .fx64 => 64 | .f32 | .i32 | .fx32 => 32 | .f16 | .bf16 | .i16 => 16
  | .e4m3 | .e5m2 | .e8m0 | .i8 => 8 | .e3m2 | .e2m3 => 6 | .e2m1 | .i4 => 4

/-- R42: the layout of a floating-point format. -/
def fmtLay (f : Fmt) : Option FLay :=
  match f with
  | .f64 => some ⟨11, 52, 1023, true, false⟩
  | .f32 => some ⟨8, 23, 127, true, false⟩
  | .f16 => some ⟨5, 10, 15, true, false⟩
  | .bf16 => some ⟨8, 7, 127, true, false⟩
  | .e4m3 => some ⟨4, 3, 7, false, true⟩
  | .e5m2 => some ⟨5, 2, 15, true, false⟩
  | .e3m2 => some ⟨3, 2, 3, false, false⟩
  | .e2m3 => some ⟨2, 3, 1, false, false⟩
  | .e2m1 => some ⟨2, 1, 1, false, false⟩
  | _ => none

/-- Width of a two's complement integer format (R46). -/
def fmtInt (f : Fmt) : Option Nat :=
  match f with
  | .i32 => some 32 | .i16 => some 16 | .i8 => some 8 | .i4 => some 4 | _ => none

/-- Width of an FX format (R47). -/
def fmtFx (f : Fmt) : Option Nat :=
  match f with
  | .fx64 => some 64 | .fx32 => some 32 | _ => none

/-- R60: the rounding field; 101b to 111b are reserved. -/
def rndOf (c : Nat) : Option Rnd :=
  match c with
  | 0 => some .rne | 1 => some .rtz | 2 => some .rup | 3 => some .rdn | 4 => some .sr | _ => none

/-! ### Reading -/

/-- The exact value of an integer. -/
def numInt (i : Int) : Num := .fin (decide (i < 0)) i.natAbs 0

/-- A positive zero. -/
def numZero : Num := .fin false 0 0

/-- The exact value of a floating-point pattern (R42, R44). -/
def decFloat (l : FLay) (x : Nat) : Num :=
  let neg := bit x (l.eb + l.mb)
  let ex := bits x (l.eb + l.mb - 1) l.mb
  let ma := x % 2 ^ l.mb
  let ones := 2 ^ l.eb - 1
  if l.ieee && ex == ones then (if ma == 0 then .inf neg else .nan)
  else if l.oneNan && ex == ones && ma == 2 ^ l.mb - 1 then .nan
  else if ex == 0 then .fin neg ma (1 - l.bias - l.mb)
  else .fin neg (2 ^ l.mb + ma) ((ex : Int) - l.bias - l.mb)

/-- The exact value of an element read in its plain format; `E` is the block exponent of the FX formats (R42, R43, R46, R47). -/
def decNum (f : Fmt) (E : Int) (x : Nat) : Num :=
  match fmtLay f with
  | some l => decFloat l x
  | none =>
    match fmtInt f with
    | some w => numInt (sext w x)
    | none =>
      match fmtFx f with
      | some w => let i := sext w x; .fin (decide (i < 0)) i.natAbs (E - ((w : Int) - 1))
      | none => if x % 256 = 255 then .nan else .fin false 1 ((x % 256 : Nat) - 127 : Int)

/-- R44: the canonical NaN pattern (0 in a format without NaN, R67). -/
def canonNan (f : Fmt) : Nat :=
  match f with
  | .f64 => 0x7FF8000000000000 | .f32 => 0x7FC00000 | .f16 => 0x7E00 | .bf16 => 0x7FC0
  | .e4m3 => 0x7F | .e5m2 => 0x7E | .e8m0 => 0xFF | _ => 0

/-! ### Comparing -/

/-- `m₁ 2^e₁ < m₂ 2^e₂`. -/
def magLt (m1 : Nat) (e1 : Int) (m2 : Nat) (e2 : Int) : Bool :=
  let e := min e1 e2
  decide (m1 <<< (e1 - e).toNat < m2 <<< (e2 - e).toNat)

/-- Is the value a NaN. -/
def numIsNan (a : Num) : Bool := match a with | .nan => true | _ => false
/-- Is the value an infinity. -/
def numIsInf (a : Num) : Bool := match a with | .inf _ => true | _ => false
/-- Is the value finite. -/
def numIsFin (a : Num) : Bool := match a with | .fin _ _ _ => true | _ => false
/-- Is the value a zero of either sign. -/
def numIsZero (a : Num) : Bool := match a with | .fin _ 0 _ => true | _ => false
/-- The sign (a NaN has none: false). -/
def numNeg (a : Num) : Bool := match a with | .nan => false | .inf n => n | .fin n _ _ => n

/-- Negation. -/
def numNegate (a : Num) : Num :=
  match a with
  | .nan => .nan
  | .inf n => .inf (!n)
  | .fin n m e => .fin (!n) m e

/-- Magnitude. -/
def numAbs (a : Num) : Num :=
  match a with
  | .nan => .nan
  | .inf _ => .inf false
  | .fin _ m e => .fin false m e

/-- Ordered less-than (false when either is NaN; zeros of either sign are equal). -/
def numLt (a b : Num) : Bool :=
  match a, b with
  | .nan, _ => false
  | _, .nan => false
  | .inf x, .inf y => x && !y
  | .inf x, .fin _ _ _ => x
  | .fin _ _ _, .inf y => !y
  | .fin n1 m1 e1, .fin n2 m2 e2 =>
    if m1 = 0 && m2 = 0 then false
    else if m1 = 0 then !n2
    else if m2 = 0 then n1
    else match n1, n2 with
      | true, false => true
      | false, true => false
      | false, false => magLt m1 e1 m2 e2
      | true, true => magLt m2 e2 m1 e1

/-- Ordered equality. -/
def numEq (a b : Num) : Bool :=
  match a, b with
  | .nan, _ => false
  | _, .nan => false
  | a, b => !numLt a b && !numLt b a

/-- Ordered less-or-equal. -/
def numLe (a b : Num) : Bool := numLt a b || numEq a b

/-- R53's order of magnitudes: a NaN is larger than anything, infinity included. -/
def magRankLt (a b : Num) : Bool :=
  match a, b with
  | .nan, _ => false
  | _, .nan => true
  | a, b => numLt (numAbs a) (numAbs b)

/-- `floor(log2 |x|)` of a non-zero finite value. -/
def magLog2 (m : Nat) (e : Int) : Int := (Nat.log2 m : Int) + e

/-! ### Exact arithmetic -/

/-- The exact sum. `rdn`: an exact zero sum of opposite signs is -0 (IEEE 754 under RDN), else +0. -/
def numAdd (rdn : Bool) (a b : Num) : Num :=
  match a, b with
  | .nan, _ => .nan
  | _, .nan => .nan
  | .inf x, .inf y => if x = y then .inf x else .nan
  | .inf x, .fin _ _ _ => .inf x
  | .fin _ _ _, .inf y => .inf y
  | .fin n1 m1 e1, .fin n2 m2 e2 =>
    let e := min e1 e2
    let x := m1 <<< (e1 - e).toNat
    let y := m2 <<< (e2 - e).toNat
    if n1 = n2 then .fin n1 (x + y) e
    else if x = y then .fin rdn 0 0
    else if y < x then .fin n1 (x - y) e
    else .fin n2 (y - x) e

/-- The exact difference. -/
def numSub (rdn : Bool) (a b : Num) : Num := numAdd rdn a (numNegate b)

/-- The exact product. -/
def numMul (a b : Num) : Num :=
  match a, b with
  | .nan, _ => .nan
  | _, .nan => .nan
  | .inf x, .inf y => .inf (x != y)
  | .inf x, .fin n m _ => if m = 0 then .nan else .inf (x != n)
  | .fin n m _, .inf y => if m = 0 then .nan else .inf (n != y)
  | .fin n1 m1 e1, .fin n2 m2 e2 => .fin (n1 != n2) (m1 * m2) (e1 + e2)

/-- Guard bits kept below the first significant bit of a quotient or root. -/
def guardBits : Nat := 192

/-- The quotient, exact or with a sticky last bit below `guardBits` significant bits. -/
def numDiv (a b : Num) : Num :=
  match a, b with
  | .nan, _ => .nan
  | _, .nan => .nan
  | .inf _, .inf _ => .nan
  | .inf x, .fin n _ _ => .inf (x != n)
  | .fin n _ _, .inf y => .fin (n != y) 0 0
  | .fin n1 m1 e1, .fin n2 m2 e2 =>
    if m2 = 0 then (if m1 = 0 then .nan else .inf (n1 != n2))
    else if m1 = 0 then .fin (n1 != n2) 0 0
    else
      let s := guardBits + Nat.log2 m2 + 1
      let q := (m1 <<< s) / m2
      let r := (m1 <<< s) % m2
      .fin (n1 != n2) (2 * q + (if r = 0 then 0 else 1)) (e1 - e2 - s - 1)

/-- Integer square root by bits, from bit `k` down. -/
def isqrtGo (x : Nat) : Nat → Nat → Nat
  | 0, r => r
  | k + 1, r => let t := r + 2 ^ k; if t * t ≤ x then isqrtGo x k t else isqrtGo x k r

/-- The integer square root. -/
def isqrt (x : Nat) : Nat := isqrtGo x (Nat.log2 x / 2 + 1) 0

/-- The square root; negative (but not -0) gives NaN. -/
def numSqrt (a : Num) : Num :=
  match a with
  | .nan => .nan
  | .inf n => if n then .nan else .inf false
  | .fin n m e =>
    if m = 0 then .fin n 0 0
    else if n then .nan
    else
      let s0 : Nat := 2 * guardBits
      let s : Nat := if (e - s0) % 2 = 0 then s0 else s0 + 1
      let x := m <<< s
      let r := isqrt x
      .fin false (2 * r + (if r * r = x then 0 else 1)) ((e - s) / 2 - 1)

/-- Multiplies by `2^k`. -/
def numScale (a : Num) (k : Int) : Num :=
  match a with
  | .fin n m e => .fin n m (e + k)
  | x => x

/-- The exact sum of a list, `+0` of none. -/
def numSum (l : List Num) : Num := l.foldl (numAdd false) numZero

/-- Smaller of two (as IEEE 754-2019 minimumNumber; -0 below +0; a NaN gives the other). -/
def numMin (a b : Num) : Num :=
  if numIsNan a then b else if numIsNan b then a
  else if numLt a b then a else if numLt b a then b else if numNeg a then a else b

/-- Larger of two (as IEEE 754-2019 maximumNumber). -/
def numMax (a b : Num) : Num :=
  if numIsNan a then b else if numIsNan b then a
  else if numLt b a then a else if numLt a b then b else if numNeg a then b else a

/-! ### Rounding (R60 to R64) -/

/-- R64: the counter-based generator. -/
def srMix (h : W64) : W64 :=
  let h := h ^^^ (h >>> 31)
  let h := h * 0xBF58476D1CE4E5B9#64
  h ^^^ (h >>> 29)

/-- R64: the 16 random bits of an element. -/
def srBits (seed step tensor index : Nat) : Nat :=
  let h := BitVec.ofNat 64 seed ^^^ (BitVec.ofNat 64 step * 0x9E3779B97F4A7C15#64)
  let h := h ^^^ (BitVec.ofNat 64 tensor * 0xC2B2AE3D27D4EB4F#64)
  let h := h ^^^ (BitVec.ofNat 64 index * 0x165667B19E3779F9#64)
  (srMix (srMix (srMix h))).toNat / 2 ^ 48

/-- A magnitude rounded to a multiple of `2^q`, in units of `2^q` (R60, R63). `u`: the random bits of R64. -/
def roundMag (r : Rnd) (u : Nat) (neg : Bool) (m : Nat) (e q : Int) : Nat :=
  if q ≤ e then m <<< (e - q).toNat
  else
    let s := (q - e).toNat
    let lo := m >>> s
    let rem := m % 2 ^ s
    let up : Bool :=
      match r with
      | .rne => decide (2 ^ s < 2 * rem) || (decide (2 * rem = 2 ^ s) && lo % 2 == 1)
      | .rtz => false
      | .rup => !neg && rem != 0
      | .rdn => neg && rem != 0
      | .sr => decide (65536 ≤ (rem <<< 16) >>> s + u)
    if up then lo + 1 else lo

/-- The outcome of a conversion: the pattern and what R55, R57, R68 and R69 count or raise. -/
structure Cvt where
  pat : Nat
  flushed : Bool := false
  saturated : Bool := false
  range : Bool := false
deriving DecidableEq, Repr

/-- The largest finite mantissa and exponent field of a layout. -/
def layMax (l : FLay) : Nat × Nat :=
  if l.ieee then (2 ^ l.mb - 1, 2 ^ l.eb - 2)
  else if l.oneNan then (2 ^ l.mb - 2, 2 ^ l.eb - 1)
  else (2 ^ l.mb - 1, 2 ^ l.eb - 1)

/-- Assembles a pattern. -/
def layPack (l : FLay) (neg : Bool) (ex ma : Nat) : Nat :=
  (if neg then 2 ^ (l.eb + l.mb) else 0) + ex * 2 ^ l.mb + ma

/-- Rounds a value into a floating-point layout (R42, R57, R60, R61, R62, R69). `nanPat`: R44 and R67. -/
def encFloat (l : FLay) (nanPat : Nat) (r : Rnd) (flush : Bool) (u : Nat) (x : Num) : Cvt :=
  let (mm, me) := layMax l
  let big (neg : Bool) := layPack l neg me mm
  match x with
  | .nan => { pat := nanPat }
  | .inf n => if l.ieee then { pat := layPack l n (2 ^ l.eb - 1) 0 } else { pat := big n, saturated := true }
  | .fin n m e =>
    if m = 0 then { pat := layPack l n 0 0 }
    else
      let E := magLog2 m e
      let emin : Int := 1 - l.bias
      let q : Int := (if flush then E else max E emin) - l.mb
      let k := roundMag r u n m e q
      -- the largest finite magnitude is (2^mb + mm) 2^(me - bias - mb)
      let maxm := 2 ^ l.mb + mm
      let maxe : Int := (me : Int) - l.bias - l.mb
      if l.ieee then
        let ovf := match r with
          | .rne => magLt maxm maxe k q
          | _ => magLt maxm maxe m e
        if ovf then
          match r with
          | .rne | .sr => { pat := layPack l n (2 ^ l.eb - 1) 0 }
          | .rtz => { pat := big n, saturated := true }
          | .rup => if n then { pat := big n, saturated := true } else { pat := layPack l n (2 ^ l.eb - 1) 0 }
          | .rdn => if n then { pat := layPack l n (2 ^ l.eb - 1) 0 } else { pat := big n, saturated := true }
        else if k = 0 then { pat := layPack l n 0 0 }
        else
          let E2 := magLog2 k q
          if E2 < emin then
            if flush then { pat := layPack l n 0 0, flushed := true }
            else { pat := layPack l n 0 (k <<< (q - (emin - l.mb)).toNat) }
          else { pat := layPack l n (E2 + l.bias).toNat
                   ((if (Nat.log2 k) ≤ l.mb then k <<< (l.mb - Nat.log2 k) else k >>> (Nat.log2 k - l.mb)) - 2 ^ l.mb) }
      else if magLt maxm maxe k q then { pat := big n, saturated := true }
      else if k = 0 then { pat := layPack l n 0 0 }
      else
        let E2 := magLog2 k q
        if E2 < emin then
          if flush then { pat := layPack l n 0 0, flushed := true }
          else { pat := layPack l n 0 (k <<< (q - (emin - l.mb)).toNat) }
        else { pat := layPack l n (E2 + l.bias).toNat
                 ((if (Nat.log2 k) ≤ l.mb then k <<< (l.mb - Nat.log2 k) else k >>> (Nat.log2 k - l.mb)) - 2 ^ l.mb) }

/-- Rounds a value to an integer in `[-2^(w-1) or -hi, hi]` (R62, R67); `sym`: the symmetric range of R56. -/
def encIntAt (w : Nat) (sym : Bool) (r : Rnd) (u : Nat) (x : Num) (q : Int) : Cvt :=
  let hi := 2 ^ (w - 1) - 1
  let lo := if sym then hi else 2 ^ (w - 1)
  match x with
  | .nan => { pat := 0, range := true }
  | .inf n => { pat := toTwos w (if n then -(lo : Int) else (hi : Int)), saturated := true, range := true }
  | .fin n m e =>
    let k := roundMag r u n m e q
    if n then
      if lo < k then { pat := toTwos w (-(lo : Int)), saturated := true, range := true }
      else { pat := toTwos w (-(k : Int)) }
    else if hi < k then { pat := toTwos w hi, saturated := true, range := true }
    else { pat := k }

/-- R67, R68: one conversion of an exact value into a plain format. `E`: the target block's exponent. -/
def encNum (f : Fmt) (E : Int) (r : Rnd) (flush : Bool) (u : Nat) (x : Num) : Cvt :=
  match fmtLay f with
  | some l => encFloat l (canonNan f) r flush u x
  | none =>
    match fmtInt f with
    | some w => { encIntAt w false r u x 0 with range := false }
    | none =>
      match fmtFx f with
      | some w => encIntAt w false r u x (E - ((w : Int) - 1))
      | none => { pat := 0xFF }

/-- Rounds a value into a format and reads it back. -/
def roundTo (f : Fmt) (r : Rnd) (flush : Bool) (u : Nat) (x : Num) : Num :=
  decNum f 0 (encNum f 0 r flush u x).pat

/-- R57: is a pattern subnormal in its plain format. -/
def isSubPat (f : Fmt) (x : Nat) : Bool :=
  match fmtLay f with
  | some l => bits x (l.eb + l.mb - 1) l.mb == 0 && x % 2 ^ l.mb != 0
  | none => false

/-- R57: an operand as it enters: with FLUSH a subnormal becomes a zero of its sign. The Bool says a flush happened. -/
def readFlush (f : Fmt) (E : Int) (flush : Bool) (x : Nat) : Num × Bool :=
  if flush && isSubPat f x then (.fin (numNeg (decNum f E x)) 0 0, true) else (decNum f E x, false)

/-- The smallest normal exponent of a floating-point format (1 - bias). -/
def fmtEmin (f : Fmt) : Int :=
  match fmtLay f with
  | some l => 1 - l.bias
  | none => 0

/-- R72: below the smallest normal of a format, and non-zero. -/
def belowNormal (f : Fmt) (x : Num) : Bool :=
  match x, fmtLay f with
  | .fin _ m e, some l => m != 0 && decide (magLog2 m e < 1 - l.bias)
  | _, _ => false

/-- Is the format floating point. -/
def fmtIsFloat (f : Fmt) : Bool := (fmtLay f).isSome

/-- R40 and R46: bytes of `n` consecutive plain elements (I4 packs two to a byte). -/
def plainBytes (f : Fmt) (n : Nat) : Nat := (fmtWidth f * n + 7) / 8

/-- The `F32` and `F64` values of a pattern. -/
def dF32 (x : Nat) : Num := decNum .f32 0 x
/-- The exact value of a binary64 pattern. -/
def dF64 (x : Nat) : Num := decNum .f64 0 x
/-- Rounds to binary64, nearest even, gradual underflow. -/
def eF64 (x : Num) : Nat := (encNum .f64 0 .rne false 0 x).pat
/-- Rounds to binary32, nearest even, gradual underflow. -/
def eF32 (x : Num) : Nat := (encNum .f32 0 .rne false 0 x).pat

end Sys2Proof.Machine
end

