-- ==== Sys2Proof/Machine/RegMap.lean ====
section
/-! DEFINITION. The setup register map as data: every register's place, width, fields, reset values, writers, lock and
holding domain (spec/22_setup_registers.md R629 to R650, and the field maps of the governing chapters). -/

namespace Sys2Proof.Machine

/-- The access types of R8. -/
inductive RAcc where
  | rw | ro | wo | w1c | rwl
deriving DecidableEq, Repr

/-- The origins of R632's Writers column. -/
inductive RWriter where
  | pf | vf | mg | jt
  /-- JTAG in BLANK only (SYN_LC_CMD, SYN_LC_REQ) -/
  | jtBlank
deriving DecidableEq, Repr

/-- The lock bits of R635. -/
inductive RLock where
  | none | tns | aud | pwr | ras | ylv | hbm | part
deriving DecidableEq, Repr

/-- The domain a register is held in, as far as R633 distinguishes it. -/
inductive RHeld where
  | on | compute | stackCtl
deriving DecidableEq, Repr

/-- One field of a register: bits `[hi:lo]`, access type, reset value. -/
structure RFld where
  hi : Nat
  lo : Nat
  acc : RAcc
  reset : Nat := 0
deriving DecidableEq, Repr

/-- A register, or an array of registers with one or two index strides. -/
structure RDesc where
  base : Nat
  n1 : Nat := 1
  s1 : Nat := 0
  n2 : Nat := 1
  s2 : Nat := 0
  /-- width in bytes: 4 or 8 -/
  width : Nat
  flds : List RFld
  writers : List RWriter := []
  lock : RLock := .none
  held : RHeld := .on
deriving DecidableEq, Repr

/-- A read-only field. -/
def fRO (hi lo : Nat) (reset : Nat := 0) : RFld := ⟨hi, lo, .ro, reset⟩
/-- A read-write field. -/
def fRW (hi lo : Nat) (reset : Nat := 0) : RFld := ⟨hi, lo, .rw, reset⟩
/-- A read-write field under a lock. -/
def fRWL (hi lo : Nat) (reset : Nat := 0) : RFld := ⟨hi, lo, .rwl, reset⟩
/-- A field cleared by writing ones. -/
def fW1C (hi lo : Nat) (reset : Nat := 0) : RFld := ⟨hi, lo, .w1c, reset⟩
/-- A write-only field. -/
def fWO (hi lo : Nat) : RFld := ⟨hi, lo, .wo, 0⟩

/-! ### Addresses (PF0 BAR0 offsets) -/

/-- R638. -/
def aSYN_ID : Nat := 0x0
/-- R638. -/
def aSYN_LC : Nat := 0x8
/-- R638. -/
def aSYN_LC_NONCE : Nat := 0x10
/-- R638. -/
def aSYN_LC_CMD : Nat := 0x18
/-- R638. -/
def aSYN_SERIAL (i : Nat) : Nat := 0x20 + 8 * i
/-- R638. -/
def aSYN_FW_STAGE : Nat := 0x200
/-- R638. -/
def aSYN_FW_LEN : Nat := 0x208
/-- R638. -/
def aSYN_FW_STATUS : Nat := 0x210
/-- R638. -/
def aSYN_FW_BASE : Nat := 0x218
/-- R638. -/
def aSYN_BOOT : Nat := 0x220
/-- R638. -/
def aSYN_RST_CAUSE : Nat := 0x228
/-- R638. -/
def aSYN_RESET : Nat := 0x230
/-- R638: the 512-byte lifecycle request window. -/
def aSYN_LC_REQ : Nat := 0x400
/-- R638: the 4 KiB firmware staging window. -/
def aSYN_FW_BUF : Nat := 0x1000
/-- R642. -/
def aAUD_CTL : Nat := 0x10000
/-- R642. -/
def aAUD_ACK : Nat := 0x10008
/-- R642. -/
def aAUD_STATUS : Nat := 0x10010
/-- R642. -/
def aTNS_CTL : Nat := 0x20000
/-- R642. -/
def aTNS_STATUS : Nat := 0x20008
/-- R642. -/
def aTNS_VALUE : Nat := 0x20010
/-- R642. -/
def aTNS_OFFSET : Nat := 0x20018
/-- R642. -/
def aTNS_PPS_STAMP : Nat := 0x20020
/-- R642. -/
def aPWR_CTL : Nat := 0x30000
/-- R642. -/
def aPWR_LIMIT : Nat := 0x30008
/-- R642. -/
def aPWR_WAKE_EN : Nat := 0x30010
/-- R642. -/
def aPWR_STATUS : Nat := 0x30018
/-- R642. -/
def aPWR_DIP : Nat := 0x30020
/-- R642. -/
def aPWR_PART_SP (k : Nat) : Nat := 0x30100 + 8 * k
/-- R642. -/
def aPWR_CAL (k : Nat) : Nat := 0x30200 + 8 * k
/-- R642. -/
def aPWR_DOM (n : Nat) : Nat := 0x30400 + 8 * n
/-- R642. -/
def aRAS_CTL : Nat := 0x40000
/-- R642. -/
def aRAS_MGMT_DST : Nat := 0x40008
/-- R642. -/
def aRAS_MGMT_PORT : Nat := 0x40010
/-- R642. -/
def aRAS_MGMT_MAC : Nat := 0x40018
/-- R642. -/
def aRAS_RPT_ACK : Nat := 0x40020
/-- R642. -/
def aRAS_RPT_STATUS : Nat := 0x40028
/-- R642. -/
def aRAS_PAIR : Nat := 0x40040
/-- R642. -/
def aRAS_PAIR_CMP : Nat := 0x40048
/-- R642. -/
def aRAS_PAIR_CMPLEN : Nat := 0x40050
/-- R642. -/
def aRAS_PAIR_STATUS : Nat := 0x40058
/-- R642. -/
def aRAS_PAIR_CNT : Nat := 0x40060
/-- R642. -/
def aRAS_PART (k : Nat) : Nat := 0x40100 + 8 * k
/-- R642. -/
def aRAS_UNIT (sl u : Nat) : Nat := 0x41000 + 0x100 * sl + 8 * u
/-- R642. -/
def aPCI_MEMWIN : Nat := 0x50000
/-- R642. -/
def aPCI_HOST_STATUS : Nat := 0x50008
/-- R642. -/
def aYLV_TOPO : Nat := 0x60000
/-- R642. -/
def aYLV_RED_STATUS : Nat := 0x60008
/-- R642. -/
def aYLV_RED_CNT : Nat := 0x60010
/-- R629: a slice block. -/
def aSlice (k : Nat) : Nat := 0x100000 + 0x40000 * k
/-- R644. -/
def aSLC_CONJ_DROP (k : Nat) : Nat := aSlice k
/-- R644. -/
def aVRB_MODE (k v : Nat) : Nat := aSlice k + 0x1000 + 0x100 * v
/-- R644. -/
def aVRB_STATUS (k v : Nat) : Nat := aSlice k + 0x1008 + 0x100 * v
/-- R644. -/
def aVRB_CHK_SKIP (k v : Nat) : Nat := aSlice k + 0x1010 + 0x100 * v
/-- R644, R645: counter `j` of the performance block. -/
def aVRB_PERF (k v j : Nat) : Nat := aSlice k + 0x1040 + 0x100 * v + 8 * j
/-- R644. -/
def aINF_MODE (k i : Nat) : Nat := aSlice k + 0x2000 + 0x100 * i
/-- R644. -/
def aINF_STATUS (k i : Nat) : Nat := aSlice k + 0x2008 + 0x100 * i
/-- R644. -/
def aPRS_MODE (k : Nat) : Nat := aSlice k + 0x2400
/-- R644. -/
def aPRS_STATUS (k : Nat) : Nat := aSlice k + 0x2408
/-- R644. -/
def aLEX_MODE (k : Nat) : Nat := aSlice k + 0x2410
/-- R644. -/
def aLEX_STATUS (k : Nat) : Nat := aSlice k + 0x2418
/-- R644. -/
def aHBM_CTL (k : Nat) : Nat := aSlice k + 0x3000
/-- R644. -/
def aHBM_GUARD (k : Nat) : Nat := aSlice k + 0x3008
/-- R644. -/
def aHBM_STATUS (k : Nat) : Nat := aSlice k + 0x3010
/-- R644. -/
def aHBM_ERRCNT (k : Nat) : Nat := aSlice k + 0x3018
/-- R644. -/
def aHBM_STARVE (k : Nat) : Nat := aSlice k + 0x3020
/-- R644. -/
def aHBM_TG_CTL (k : Nat) : Nat := aSlice k + 0x3028
/-- R644. -/
def aHBM_TG_RESULT (k : Nat) : Nat := aSlice k + 0x3030
/-- R629: a port block. -/
def aPort (p : Nat) : Nat := 0x400000 + 0x10000 * p
/-- R646. -/
def aYLV_PORT_CTL (p : Nat) : Nat := aPort p
/-- R646. -/
def aYLV_PORT_STATUS (p : Nat) : Nat := aPort p + 0x8
/-- R646. -/
def aYLV_LINK_CNT (p : Nat) : Nat := aPort p + 0x10
/-- R646. -/
def aYLV_DROP (p : Nat) : Nat := aPort p + 0x18
/-- R646. -/
def aYLV_STARVE (p : Nat) : Nat := aPort p + 0x20
/-- R646. -/
def aYLV_KEYFILT (p i : Nat) : Nat := aPort p + 0x400 + 8 * i
/-- R646, R647: the low half of a circuit entry. -/
def aCKT (p c : Nat) : Nat := aPort p + 0x1000 + 0x10 * c
/-- R646, R647: the high half of a circuit entry. -/
def aCKTCNT (p c : Nat) : Nat := aCKT p c + 8
/-- R629: a partition block. -/
def aPart (k : Nat) : Nat := 0x500000 + 0x40000 * k
/-- R648. -/
def aPART_CFG (k : Nat) : Nat := aPart k
/-- R648. -/
def aPART_KEY (k j : Nat) : Nat := aPart k + 0x40 + 8 * j
/-- R648. -/
def aPART_XLAT (k : Nat) : Nat := aPart k + 0x100
/-- R648. -/
def aPART_XLAT_INV (k : Nat) : Nat := aPart k + 0x108
/-- R648. -/
def aPART_XLAT_INV2 (k : Nat) : Nat := aPart k + 0x110
/-- R648. -/
def aPART_XLAT_FAULT (k : Nat) : Nat := aPart k + 0x118
/-- R648. -/
def aPART_MEMWIN (k : Nat) : Nat := aPart k + 0x120
/-- R648. -/
def aPART_SQ_BASE (k i : Nat) : Nat := aPart k + 0x1000 + 0x20 * i
/-- R648. -/
def aPART_SQ_CTL (k i : Nat) : Nat := aPart k + 0x1008 + 0x20 * i
/-- R648. -/
def aPART_SQ_HEAD (k i : Nat) : Nat := aPart k + 0x1010 + 0x20 * i
/-- R648; `m = 4` names the event ring. -/
def aPART_CQ_BASE (k m : Nat) : Nat := aPart k + 0x1200 + 0x20 * m
/-- R648; `m = 4` names the event ring. -/
def aPART_CQ_CTL (k m : Nat) : Nat := aPart k + 0x1208 + 0x20 * m
/-- R648; `m = 4` names the event ring. -/
def aPART_CQ_STATE (k m : Nat) : Nat := aPart k + 0x1210 + 0x20 * m
/-- R648. -/
def aPART_CKT_SEL (k : Nat) : Nat := aPart k + 0x2000
/-- R648. -/
def aPART_CKT_ENTRY (k : Nat) : Nat := aPart k + 0x2008
/-- R648. -/
def aPART_CKT_CNT (k : Nat) : Nat := aPart k + 0x2010

/-! ### The map -/

/-- R638, R639, R565, R628: the SYN block. -/
def regSyn : List RDesc :=
  [ { base := aSYN_ID, width := 8, flds := [fRO 15 0 0x1E00, fRO 19 16, fRO 23 20 1, fRO 31 24 1, fRO 63 32] }
  , { base := aSYN_LC, width := 4, flds := [fRO 1 0, fRO 5 2, fRO 31 6] }
  , { base := aSYN_LC_NONCE, width := 8, flds := [fRO 63 0] }
  , { base := aSYN_LC_CMD, width := 4, flds := [fWO 0 0, fRO 1 1, fW1C 2 2, fRO 7 3, fRO 15 8, fRO 31 16]
      writers := [.mg, .jtBlank] }
  , { base := 0x20, n1 := 2, s1 := 8, width := 8, flds := [fRO 63 0] }
  , { base := aSYN_FW_STAGE, width := 8, flds := [fWO 0 0, fRO 11 1, fRW 63 12], writers := [.pf, .mg] }
  , { base := aSYN_FW_LEN, width := 8, flds := [fRW 31 0, fRW 32 32, fRO 63 33], writers := [.pf, .mg] }
  , { base := aSYN_FW_STATUS, width := 8, flds := [fRO 2 0, fWO 3 3, fRO 15 4, fRO 31 16, fRO 63 32]
      writers := [.pf, .mg] }
  , { base := aSYN_FW_BASE, width := 4, flds := [fRW 11 0, fRO 31 12], writers := [.mg] }
  , { base := aSYN_BOOT, width := 8, flds := [fRO 3 0, fRO 4 4, fRO 5 5, fRO 17 6, fRO 18 18, fRO 31 19, fRO 63 32] }
  , { base := aSYN_RST_CAUSE, width := 4, flds := [fW1C 0 0 1, fW1C 6 1, fW1C 7 7, fRO 31 8], writers := [.pf, .mg] }
  , { base := aSYN_RESET, width := 4, flds := [fWO 7 0, fWO 8 8, fRO 31 9], writers := [.pf, .mg] } ]

/-- R642: audit, Tense, power. -/
def regDev1 : List RDesc :=
  [ { base := aAUD_CTL, width := 4, flds := [fRW 0 0 1, fRWL 1 1, fRO 30 2, fRWL 31 31], writers := [.pf, .mg], lock := .aud }
  , { base := aAUD_ACK, width := 4, flds := [fRW 31 0], writers := [.mg] }
  , { base := aAUD_STATUS, width := 8, flds := [fRO 31 0, fRO 45 32, fRO 47 46, fRO 63 48] }
  , { base := aTNS_CTL, width := 4, flds := [fRWL 1 0, fRWL 2 2, fRWL 3 3, fRWL 7 4 8, fRWL 8 8, fRO 30 9, fRWL 31 31]
      writers := [.pf, .mg, .jt], lock := .tns }
  , { base := aTNS_STATUS, width := 4
      flds := [fRO 0 0, fRO 1 1, fRO 2 2, fRO 3 3, fW1C 4 4, fW1C 5 5, fW1C 6 6, fRO 15 7, fRO 31 16], writers := [.pf, .mg] }
  , { base := aTNS_VALUE, width := 8, flds := [fRO 63 0] }
  , { base := aTNS_OFFSET, width := 8, flds := [fRO 31 0, fRO 47 32, fRO 63 48] }
  , { base := aTNS_PPS_STAMP, width := 8, flds := [fRO 63 0] }
  , { base := aPWR_CTL, width := 4, flds := [fWO 0 0, fWO 1 1, fRW 2 2, fRO 15 3, fRW 31 16 0x3E8], writers := [.pf, .mg] }
  , { base := aPWR_LIMIT, width := 8
      flds := [fRWL 11 0 0x898, fRO 15 12, fRO 27 16 0xA28, fRO 31 28, fRWL 39 32 0x96, fRWL 46 40 0x5F, fRO 62 47, fRWL 63 63]
      writers := [.pf, .mg], lock := .pwr }
  , { base := aPWR_WAKE_EN, width := 4, flds := [fRW 4 0 0x1F, fRO 31 5], writers := [.pf, .mg] }
  , { base := aPWR_STATUS, width := 8
      flds := [fRO 1 0, fRO 2 2, fRO 3 3, fRO 4 4, fW1C 5 5, fW1C 6 6, fRO 15 7, fRO 31 16, fRO 47 32, fRO 63 48]
      writers := [.pf, .mg] }
  , { base := aPWR_DIP, width := 8, flds := [fRO 47 0, fRO 53 48, fRO 55 54, fRO 63 56] }
  , { base := 0x30100, n1 := 12, s1 := 8, width := 4, flds := [fRWL 7 0 0x96, fRO 31 8], writers := [.pf, .mg], lock := .pwr }
  , { base := 0x30200, n1 := 12, s1 := 8, width := 4
      flds := [fRO 1 0, fRO 3 2, fRO 5 4 3, fRO 7 6 3, fRO 9 8 3, fRO 15 10, fRO 23 16, fRO 31 24] }
  , { base := 0x30400, n1 := 42, s1 := 8, width := 8
      flds := [fRO 7 0, fRO 15 8, fRO 16 16, fRO 17 17, fRO 18 18, fRO 23 19, fRO 31 24, fRO 47 32, fRO 55 48, fRO 63 56] } ]

/-- R642: faults and pairing, host port, topology. -/
def regDev2 : List RDesc :=
  [ { base := aRAS_CTL, width := 8, flds := [fRWL 0 0 1, fRO 7 1, fRWL 15 8 0x18, fRO 62 16, fRWL 63 63]
      writers := [.pf, .mg], lock := .ras }
  , { base := aRAS_MGMT_DST, width := 8, flds := [fRWL 31 0, fRWL 63 32], writers := [.pf, .mg], lock := .ras }
  , { base := aRAS_MGMT_PORT, width := 8, flds := [fRWL 15 0, fRWL 31 16, fRO 63 32], writers := [.pf, .mg], lock := .ras }
  , { base := aRAS_MGMT_MAC, width := 8, flds := [fRWL 47 0, fRO 63 48], writers := [.pf, .mg], lock := .ras }
  , { base := aRAS_RPT_ACK, width := 4, flds := [fRW 31 0], writers := [.mg] }
  , { base := aRAS_RPT_STATUS, width := 8, flds := [fRO 31 0, fRO 42 32, fRO 47 43, fRO 63 48] }
  , { base := aRAS_PAIR, width := 8
      flds := [fRW 0 0, fRW 2 1, fRW 3 3, fRW 5 4, fRW 6 6, fWO 7 7, fRW 11 8, fRO 15 12, fRW 31 16, fRW 45 32, fRO 63 46]
      writers := [.pf, .mg] }
  , { base := aRAS_PAIR_CMP, width := 8, flds := [fRW 63 0], writers := [.pf, .mg] }
  , { base := aRAS_PAIR_CMPLEN, width := 8, flds := [fRW 31 0, fRO 63 32], writers := [.pf, .mg] }
  , { base := aRAS_PAIR_STATUS, width := 8, flds := [fRO 2 0, fRO 15 3, fRO 63 16] }
  , { base := aRAS_PAIR_CNT, width := 8, flds := [fRO 31 0, fRO 63 32] }
  , { base := 0x40100, n1 := 12, s1 := 8, width := 4, flds := [fRW 0 0, fRO 31 1], writers := [.pf, .mg] }
  , { base := 0x41000, n1 := 12, s1 := 0x100, n2 := 18, s2 := 8, width := 8
      flds := [fRO 1 0, fRO 5 2, fRO 7 6, fRO 8 8, fRO 15 9, fRO 31 16, fRO 63 32] }
  , { base := aPCI_MEMWIN, width := 8, flds := [fRW 39 0, fRW 43 40, fRO 63 44], writers := [.pf] }
  , { base := aPCI_HOST_STATUS, width := 8, flds := [fRO 15 0, fRO 31 16, fRO 41 32, fRO 63 42] }
  , { base := aYLV_TOPO, width := 8
      flds := [fRWL 1 0, fRWL 6 2, fRWL 11 7, fRWL 15 12, fRWL 31 16, fRO 62 32, fRWL 63 63]
      writers := [.pf, .mg, .jt], lock := .ylv }
  , { base := aYLV_RED_STATUS, width := 8, flds := [fRO 14 0, fRO 31 15, fRO 45 32, fRO 63 46] }
  , { base := aYLV_RED_CNT, width := 8, flds := [fRO 15 0, fRO 31 16, fRO 47 32, fRO 63 48] } ]

/-- The health and trim fields shared by VRB_STATUS, INF_STATUS, PRS_STATUS and LEX_STATUS (R107, R204, R237). -/
def statusTail : List RFld := [fRO 8 8, fRO 9 9, fRO 10 10, fRO 11 11, fRO 15 12, fRO 31 16]

/-- R644, R645: a slice block. -/
def regSlice : List RDesc :=
  [ { base := 0x100000, n1 := 12, s1 := 0x40000, width := 8, flds := [fRO 31 0, fRO 47 32, fRO 61 48, fRO 63 62] }
  , { base := 0x101000, n1 := 12, s1 := 0x40000, n2 := 8, s2 := 0x100, width := 4
      flds := [fRO 0 0, fRO 1 1, fRO 3 2, fRO 7 4 3, fRO 11 8 3, fRO 13 12, fRO 31 14], held := .compute }
  , { base := 0x101008, n1 := 12, s1 := 0x40000, n2 := 8, s2 := 0x100, width := 4
      flds := [fW1C 0 0, fW1C 1 1, fW1C 2 2, fW1C 3 3, fRO 7 4] ++ statusTail, writers := [.pf, .mg], held := .compute }
  , { base := 0x101010, n1 := 12, s1 := 0x40000, n2 := 8, s2 := 0x100, width := 4, flds := [fRO 31 0], held := .compute } ] ++
  ((List.range 8).map fun j =>
    { base := 0x101040 + 8 * j, n1 := 12, s1 := 0x40000, n2 := 8, s2 := 0x100, width := 8, flds := [fRO 63 0], held := .compute }) ++
  [ { base := 0x102000, n1 := 12, s1 := 0x40000, n2 := 2, s2 := 0x100, width := 4, flds := [fRO 0 0, fRO 31 1], held := .compute }
  , { base := 0x102008, n1 := 12, s1 := 0x40000, n2 := 2, s2 := 0x100, width := 4
      flds := [fW1C 0 0, fW1C 1 1, fW1C 2 2, fW1C 3 3, fRO 7 4] ++ statusTail, writers := [.pf, .mg], held := .compute }
  , { base := 0x102400, n1 := 12, s1 := 0x40000, n2 := 2, s2 := 0x10, width := 4, flds := [fRO 0 0, fRO 31 1], held := .compute }
  , { base := 0x102408, n1 := 12, s1 := 0x40000, width := 4
      flds := [fW1C 0 0, fW1C 1 1, fW1C 2 2, fW1C 3 3, fRO 7 4] ++ statusTail, writers := [.pf, .mg], held := .compute }
  , { base := 0x102418, n1 := 12, s1 := 0x40000, width := 4
      flds := [fW1C 0 0, fRO 2 1, fW1C 3 3, fW1C 4 4, fRO 7 5] ++ statusTail, writers := [.pf, .mg], held := .compute }
  , { base := 0x103000, n1 := 12, s1 := 0x40000, width := 4
      flds := [fRWL 0 0 1, fRWL 2 1, fRWL 3 3 1, fRWL 4 4 1, fRO 30 5, fRWL 31 31], writers := [.pf, .mg], lock := .hbm }
  , { base := 0x103008, n1 := 12, s1 := 0x40000, width := 8
      flds := (List.range 8).flatMap fun i => [fRWL (8 * i + 5) (8 * i), fRO (8 * i + 6) (8 * i + 6), fRWL (8 * i + 7) (8 * i + 7)]
      writers := [.pf, .mg], lock := .hbm }
  , { base := 0x103010, n1 := 12, s1 := 0x40000, width := 8
      flds := [fRO 7 0, fRO 9 8, fRO 10 10, fRO 11 11, fRO 12 12, fRO 13 13, fRO 15 14, fRO 22 16, fRO 23 23, fRO 31 24, fRO 63 32] }
  , { base := 0x103018, n1 := 12, s1 := 0x40000, width := 8, flds := [fRO 15 0, fRO 31 16, fRO 47 32, fRO 63 48] }
  , { base := 0x103020, n1 := 12, s1 := 0x40000, width := 8, flds := [fRO 15 0, fRO 31 16, fRO 47 32, fRO 63 48] }
  , { base := 0x103028, n1 := 12, s1 := 0x40000, width := 4
      flds := [fWO 0 0, fWO 1 1, fRW 2 2, fRW 5 3, fRW 7 6, fRW 8 8, fRW 10 9, fRO 15 11, fRW 31 16 1]
      writers := [.pf, .mg], held := .stackCtl }
  , { base := 0x103030, n1 := 12, s1 := 0x40000, width := 8
      flds := [fRO 0 0, fW1C 1 1, fW1C 2 2, fRO 15 3, fRO 31 16, fRO 37 32, fRO 59 38, fRO 63 60]
      writers := [.pf, .mg], held := .stackCtl } ]

/-- R646, R383, R401 to R404: a port block. -/
def regPort : List RDesc :=
  [ { base := 0x400000, n1 := 14, s1 := 0x10000, width := 8
      flds := [fRWL 0 0, fRWL 2 1, fRWL 3 3 1, fWO 4 4, fRO 15 5, fRWL 63 16], writers := [.pf, .mg, .jt], lock := .ylv }
  , { base := 0x400008, n1 := 14, s1 := 0x10000, width := 8
      flds := [fRO 2 0, fRO 3 3, fW1C 4 4, fRO 15 5, fRO 31 16, fRO 35 32, fRO 63 36], writers := [.pf, .mg] }
  , { base := 0x400010, n1 := 14, s1 := 0x10000, width := 8, flds := [fRO 15 0, fRO 31 16, fRO 47 32, fRO 55 48, fRO 63 56] }
  , { base := 0x400018, n1 := 14, s1 := 0x10000, width := 8, flds := [fRO 15 0, fRO 31 16, fRO 47 32, fRO 55 48, fRO 63 56] }
  , { base := 0x400020, n1 := 14, s1 := 0x10000, width := 8, flds := [fRO 15 0, fRO 31 16, fRO 47 32, fRO 63 48] }
  , { base := 0x400400, n1 := 14, s1 := 0x10000, n2 := 64, s2 := 8, width := 4, flds := [fRWL 15 0, fRO 30 16, fRWL 31 31]
      writers := [.pf, .mg, .jt], lock := .ylv }
  , { base := 0x401000, n1 := 14, s1 := 0x10000, n2 := 256, s2 := 0x10, width := 8
      flds := [fRW 0 0, fRW 1 1, fRW 2 2, fRW 3 3, fRW 7 4, fRW 15 8, fRW 31 16, fRO 63 32], writers := [.pf, .mg, .jt] }
  , { base := 0x401008, n1 := 14, s1 := 0x10000, n2 := 256, s2 := 0x10, width := 8, flds := [fRO 31 0, fRO 63 32] } ]

/-- R648, R649, R510, R515, R564: a partition block. -/
def regPart : List RDesc :=
  [ { base := 0x500000, n1 := 12, s1 := 0x40000, width := 8
      flds := [fRWL 11 0, fRO 13 12, fWO 14 14, fWO 15 15, fRO 19 16, fRO 30 20, fRWL 31 31, fRO 47 32, fRO 63 48]
      writers := [.pf, .mg, .jt], lock := .part }
  , { base := 0x500040, n1 := 12, s1 := 0x40000, n2 := 8, s2 := 8, width := 4, flds := [fRWL 15 0, fRO 30 16, fRWL 31 31]
      writers := [.pf, .mg, .jt], lock := .part }
  , { base := 0x500100, n1 := 12, s1 := 0x40000, width := 8, flds := [fRW 0 0, fRW 1 1, fRO 11 2, fRW 51 12, fRO 63 52]
      writers := [.pf, .vf] }
  , { base := 0x500108, n1 := 12, s1 := 0x40000, width := 8
      flds := [fRO 15 0, fRW 47 16, fRO 59 48, fRW 60 60, fWO 61 61, fRO 62 62, fW1C 63 63], writers := [.pf, .vf] }
  , { base := 0x500110, n1 := 12, s1 := 0x40000, width := 8, flds := [fRW 31 0, fRO 63 32], writers := [.pf, .vf] }
  , { base := 0x500118, n1 := 12, s1 := 0x40000, width := 8
      flds := [fRO 47 0, fRO 55 48, fRO 58 56, fRO 59 59, fRO 62 60, fW1C 63 63], writers := [.pf, .vf] }
  , { base := 0x500120, n1 := 12, s1 := 0x40000, width := 8, flds := [fRW 39 0, fRO 63 40], writers := [.pf, .vf] }
  , { base := 0x501000, n1 := 12, s1 := 0x40000, n2 := 16, s2 := 0x20, width := 8, flds := [fRO 11 0, fRW 63 12], writers := [.pf, .vf] }
  , { base := 0x501008, n1 := 12, s1 := 0x40000, n2 := 16, s2 := 0x20, width := 4, flds := [fRW 0 0, fRW 5 1 6, fWO 6 6, fRO 31 7]
      writers := [.pf, .vf] }
  , { base := 0x501010, n1 := 12, s1 := 0x40000, n2 := 16, s2 := 0x20, width := 8
      flds := [fRO 31 0, fRO 32 32 1, fRO 33 33, fRO 34 34, fRO 63 35] }
  , { base := 0x501200, n1 := 12, s1 := 0x40000, n2 := 5, s2 := 0x20, width := 8, flds := [fRO 11 0, fRW 63 12], writers := [.pf, .vf] }
  , { base := 0x501208, n1 := 12, s1 := 0x40000, n2 := 5, s2 := 0x20, width := 4
      flds := [fRW 0 0, fRW 5 1 6, fRW 6 6, fRO 7 7, fRW 10 8, fRO 31 11], writers := [.pf, .vf] }
  , { base := 0x501210, n1 := 12, s1 := 0x40000, n2 := 5, s2 := 0x20, width := 8, flds := [fRO 31 0, fRO 32 32 1, fRO 47 33, fRO 63 48] }
  , { base := 0x502000, n1 := 12, s1 := 0x40000, width := 4, flds := [fRW 7 0, fRW 11 8, fRO 31 12], writers := [.pf, .vf] }
  , { base := 0x502008, n1 := 12, s1 := 0x40000, width := 8
      flds := [fRW 0 0, fRW 1 1, fRW 2 2, fRW 3 3, fRW 7 4, fRW 15 8, fRW 31 16, fRO 63 32], writers := [.pf, .vf] }
  , { base := 0x502010, n1 := 12, s1 := 0x40000, width := 8, flds := [fRO 31 0, fRO 63 32] } ]

/-- R629: every setup register. -/
def regMap : List RDesc := regSyn ++ regDev1 ++ regDev2 ++ regSlice ++ regPort ++ regPart

/-- Does an 8-byte slot offset belong to a description; with the two indices. -/
def descHas (d : RDesc) (off : Nat) : Option (Nat × Nat) :=
  if off < d.base then none
  else
    let r := off - d.base
    let i := if d.s1 = 0 then 0 else r / d.s1
    let r2 := r - i * d.s1
    let j := if d.s2 = 0 then 0 else r2 / d.s2
    if i < d.n1 ∧ j < d.n2 ∧ r2 = j * d.s2 then some (i, j) else none

/-- The first description of a list that holds the slot. -/
def descFind : List RDesc → Nat → Option (RDesc × Nat × Nat)
  | [], _ => none
  | d :: r, off =>
    match descHas d off with
    | some (i, j) => some (d, i, j)
    | none => descFind r off

/-- R629: the block lists by address, so that a lookup stays short. -/
def regBlock (off : Nat) : List RDesc :=
  if off < 0x10000 then regSyn
  else if off < 0x40000 then regDev1
  else if off < 0x80000 then regDev2
  else if off < 0x100000 then []
  else if off < 0x400000 then regSlice
  else if off < 0x500000 then regPort
  else if off < 0x800000 then regPart
  else []

/-- R629, R630: the register at an 8-byte slot offset; none at a reserved offset. -/
def regFind (off : Nat) : Option (RDesc × Nat × Nat) := descFind (regBlock off) off

/-- R650: the value of the Reset column. -/
def fldsReset (l : List RFld) : Nat := l.foldl (fun a f => a + f.reset * 2 ^ f.lo) 0

/-- R650: the reset value of the register at an offset (0 at a reserved offset) (DESIGN CHOICE, assumption log 92). -/
def regReset (off : Nat) : W64 :=
  match regFind off with
  | some (d, _, _) => BitVec.ofNat 64 (fldsReset d.flds)
  | none => 0

/-- R635, R636: the offset and bit of the lock that governs a register. `i`: the register's first index. -/
def lockBit (l : RLock) (i : Nat) : Option (Nat × Nat) :=
  match l with
  | .none => none
  | .tns => some (aTNS_CTL, 31)
  | .aud => some (aAUD_CTL, 31)
  | .pwr => some (aPWR_LIMIT, 63)
  | .ras => some (aRAS_CTL, 63)
  | .ylv => some (aYLV_TOPO, 63)
  | .hbm => some (aHBM_CTL i, 31)
  | .part => some (aPART_CFG i, 31)

end Sys2Proof.Machine
end

