-- ==== Sys2Proof/Machine/TypesTrain.lean ====
section
/-! DEFINITION. What a context holds of its step table, its inputs and its Gloss (chapters 14 and 15). -/

namespace Sys2Proof.Machine

/-- A retention list entry (R480): its area, policy, release Conjunction, present target and advance. -/
structure Reten where
  area : Nat
  bytes : Nat
  policy : Nat
  conj : Nat
  target : Nat
  adv : Nat
  retained : Bool := false
deriving DecidableEq, Repr

/-- A declared step table (R456 to R461) beside the views and the step counter: gate groups and mask, the step record's area,
decisions so far, committed generator counters, retention entries. -/
structure StepTab where
  gateMask : Nat
  gates : List Nat
  rec_ : Nat
  commits : Nat := 0
  skips : Nat := 0
  genC : List Nat
  rets : List Reten := []
  /-- R465: generations of the gate groups that have ended since the last decision: GROUP, aborted, NAN_STICKY -/
  ended : List (Nat × Bool × Bool) := []
  /-- R470: the step flags sampled into them -/
  sampled : Nat := 0
deriving DecidableEq, Repr

/-- An accepted input that is held for its step (R440, R445), with where its copy lies (R452). -/
structure Input where
  isid : Nat
  iseq : Nat
  step : Nat
  digest : List Byte
  len : Nat
  copy : Option Nat := none
deriving DecidableEq, Repr

/-- A Gloss (R443 to R448): its setup record and what its state record shows. -/
structure Gloss where
  record : Bool
  replay : Bool
  journal : Nat
  jcount : Nat
  pre : Nat
  wlist : Nat
  wcount : Nat
  copyArea : Nat
  copyBytes : Nat
  addr : Nat
  step : Nat
  p : List Byte
  w0 : List Byte
  gloss : List Byte
  lastWd : List Byte := []
  lastWstep : Nat := 2 ^ 64 - 1
  jpos : Nat := 0
  copyUsed : Nat := 0
  inputs : Nat := 0
  poison : Bool := false
  mismatch : Bool := false
  copyFull : Bool := false
deriving DecidableEq, Repr

end Sys2Proof.Machine
end

