-- ==== Sys2Proof/Machine/Types.lean ====
section
/-! DEFINITION. The records that State holds: memories, Conjunctions, contexts, queues, accepted work and the Verbs. -/

namespace Sys2Proof.Machine

/-- A byte memory with poison kept per 32-byte unit (R279, R347). Unlisted bytes read as zero. -/
structure Mem where
  cells : List (Nat × Byte) := []
  poison : Map Bool := []
deriving DecidableEq, Repr

/-- A pending arm of a Conjunction (R312): its comparator, Tense value, increment, and whether its match was decided. -/
structure Arm where
  lc : Nat
  time : Nat
  inc : Nat
  fired : Bool := false
deriving DecidableEq, Repr

/-- One Conjunction (R305). -/
structure Conj where
  count : W32 := 0
  key : BitVec 16 := 0
  error : Bool := false
  arm : Option Arm := none
deriving DecidableEq, Repr

/-- A region hint (R287). -/
structure Hint where
  page : Nat
  pages : Nat
  role : Nat
  reuse : Nat
deriving DecidableEq, Repr

/-- The four page states of R300. -/
inductive PageSt where
  | resident | saving | saved | restoring
deriving DecidableEq, Repr

/-- One page of a context: its physical place (slice, page) where it has one, its state, and whether it was written since its last restore. -/
structure Page where
  phys : Option (Nat × Nat) := none
  st : PageSt := .resident
  written : Bool := false
  /-- the image in SAVE_SPM holds this page's contents; the image slot, where an exchange of views has moved it (R467) -/
  imaged : Bool := false
  img : Option Nat := none
deriving DecidableEq, Repr

/-- The four issue queues of a Particle (R270). -/
inductive QKind where
  | tile | element | solve | assembly
deriving DecidableEq, Repr

/-- A record waiting in an issue queue: its sequence number and its 32 bytes (R138). -/
structure QRec where
  seq : Nat
  bytes : List Byte
  /-- the step of the context at the push, and whether the work is deferrable (R482) -/
  deferrable : Bool := false
deriving DecidableEq, Repr

/-- An issue queue of a context's Particle: waiting records, next sequence number. -/
structure IQueue where
  recs : List QRec := []
  next : Nat := 0
deriving DecidableEq, Repr

/-- A binding table entry (R156), as it stood when the program was accepted (R155). -/
structure Bind where
  key : Nat
  valid : Bool
  keyRsv : Nat
  enable : Nat
  srcFmt : Nat
  act : Nat
  rfMask : Nat
  gidx : Nat
  vscale : Nat
  vbias : Nat
  stats : Nat
  rfC : Nat
  rfOffset : Nat
  lsev : Nat
  chandle : Nat
  rsv : Bool
deriving DecidableEq, Repr

/-- A tensor descriptor (R113) with the binding that governs it (R155). -/
structure TDesc where
  base : Nat
  scale : Nat
  esc : Nat
  hist : Nat
  rows : Nat
  cols : Nat
  pitch : Nat
  tid : Nat
  flags : Nat
  tstride : Nat
  rsv : Bool
  bind : Option Bind := none
deriving DecidableEq, Repr

/-- The resolved operands of an MMA pass (R122, R123). -/
structure MmaP where
  ip : Nat
  itag : Nat
  fa : Fmt
  fb : Fmt
  facc : Fmt
  slot : Nat
  trows : Nat
  tcols : Nat
  kbCount : Nat
  kbFirst : Nat
  i0 : Nat
  j0 : Nat
  kLo : Nat
  kHi : Nat
  tlev : Nat
  first : Bool
  last : Bool
  a : TDesc
  b : TDesc
  seed : Option TDesc
  tree : Option TDesc
  tang : Nat
  /-- step depth d (R75) -/
  depth : Nat
  /-- the A panel comes from the handoff (R154) -/
  handoff : Bool
  /-- first row of B read by the second product of a sweep (R163) -/
  bRow0 : Nat
  /-- second product of a sweep: the running correction applies (R164) -/
  correct : Bool
deriving DecidableEq, Repr

/-- A panel in one half of a stage buffer (R97): its chunk and its decoded values, primal first and then each tangent;
row-major over the tile's rows (A) or columns (B), each `depth` long. -/
structure Panel where
  chunk : Nat
  vals : List (List (List Num))
deriving DecidableEq, Repr

/-- The checksum strip's operand sums for one product (R103, R104). -/
structure Strip where
  rowR : List Num := []
  rowW : List Num := []
  colR : List Num := []
  colW : List Num := []
deriving DecidableEq, Repr

/-- An MMA pass in progress on a Verb. -/
structure Pass where
  p : MmaP
  /-- chunk within the pass, output block, and tangent phase of the next step (R101) -/
  chunk : Nat := 0
  blk : Nat := 0
  phase : Nat := 0
  sba : List Panel := []
  sbb : List Panel := []
  fillA : Nat := 0
  fillB : Nat := 0
  /-- OCC of the tree area at the start of the current K-block (R89) -/
  occ : Nat := 0
  /-- partial steps since the K-block began, or since the last interim comparison (R590) -/
  since : Nat := 0
  strips : List Strip := []
  poisoned : Bool := false
  sliceOff : Bool := false
  chkFail : Bool := false
  flushed : Bool := false
deriving DecidableEq, Repr

/-- The row state of a sweep (R163, R164). -/
structure SweepRow where
  /-- running maximum; none is minus infinity -/
  m : Option Int := none
  l : Num := numZero
  /-- a NaN or +infinity among the row's unmasked y (R165) -/
  bad : Bool := false
  /-- the last correction exponent, applied to o when the second product of the key tile ends -/
  delta : Option Int := some 0
  dl : List Num := []
deriving DecidableEq, Repr

/-- A handoff in progress (R154): the converted tile and its tangents, and the sweep it belongs to. -/
structure Hand where
  tiles : List (List (List Num))
  dest : Nat
  poison : Bool := false
deriving DecidableEq, Repr

/-- A compound in progress (R151, R152). -/
structure Comp where
  verb : Nat
  first : Nat
  links : Nat := 0
  prevOp : Nat := 0
  trows : Nat := 0
  tcols : Nat := 0
  mmas : Nat := 0
  /-- the D flag and tangent count of the first D-capable link (R167) -/
  dflag : Option (Bool × Nat) := none
  hand : Option Hand := none
  /-- first MMA of a sweep, and the present key tile (R163) -/
  sweepIp : Option Nat := none
  keyTile : Nat := 0
  rows : List SweepRow := []
  /-- o of the second product before the present key tile (primal, then tangents) -/
  oPrev : List (List (List Num)) := []
  /-- the compound's standing before the first MMA of a sweep: links, opcode of the link before, tile columns -/
  swBack : Nat × Nat × Nat := (0, 0, 0)
  /-- slot of the second product once the sweep has ended, and its last key tile's sums (R164) -/
  swSlot : Option Nat := none
deriving DecidableEq, Repr

/-- Where an accumulator space lies (R293, R294). -/
inductive SpaceAt where
  | nowhere
  | verb (v : Nat)
  | spilled (slot : Nat)
deriving DecidableEq, Repr

/-- How a program ended (R147). -/
structure EndSt where
  status : Nat
  index : Nat
  itag : Nat := 0
deriving DecidableEq, Repr

/-- A held wait of a program on a Conjunction (R136): its target and the Tense value at which it times out. -/
structure CWaitSt where
  conj : Nat
  target : Nat
  deadline : Option Nat
deriving DecidableEq, Repr

/-- The fields of an issue record (R138). -/
structure IssueRec where
  prog : Nat
  statusAddr : Nat
  cconj : Nat
  cvalid : Bool
  cinc : Nat
  rtag : Nat
  /-- (slice, unit index) of a valid MTARGET -/
  mtarget : Option (Nat × Nat)
  rsv : Bool
deriving DecidableEq, Repr

/-- A piece of work that the dispatcher has accepted: a tile or Inflector program, a solve or an assembly. -/
structure Prog where
  kind : QKind
  /-- context (8 × partition + index) -/
  cid : Nat
  /-- issuing logical Particle, or 6144 for the host (LAUNCH PROGRAM and ring descriptors) -/
  owner : Nat
  seq : Nat
  issue : IssueRec
  len : Nat := 0
  ttable : Nat := 0
  tcount : Nat := 0
  nany : Bool := false
  deferrable : Bool := false
  binds : List Bind := []
  ip : Nat := 0
  completed : Nat := 0
  seen : Nat := 0
  mark : Option EndSt := none
  ended : Option EndSt := none
  abort : Bool := false
  comp : Option Comp := none
  wait : Option CWaitSt := none
  acc : List (Nat × Byte) := []
  tsw : Map Nat := []
  written : Map Bool := []
  space : SpaceAt := .nowhere
  /-- SPILL_PRESSURE has been posted for it (R294) -/
  pressed : Bool := false
  inject : Option (Nat × Nat × Nat × Bool) := none
  /-- unit that runs it (Inflector, Parser or Lexer index) -/
  unit : Option Nat := none
  /-- no status record is written, or nothing is signalled (R667 orders 1 to 3) -/
  noStatus : Bool := false
  noSignal : Bool := false
  /-- LAUNCH PROGRAM work: descriptor entry to complete (R526) -/
  desc : Option Nat := none
deriving DecidableEq, Repr

/-- One Verb (R74): the program whose compound it holds, the program whose space it holds, and the pass in progress. -/
structure Verb where
  prog : Option Nat := none
  space : Option Nat := none
  pass : Option Pass := none
  busyFrom : Nat := 0
deriving DecidableEq, Repr

/-- A region's two views (R457): addresses, length, role, CARRY, the BITMAP area reference, and whether the banks stand exchanged. -/
structure View where
  spad : Bool
  vc : Nat
  vs : Nat
  bytes : Nat
  role : Nat
  carry : Bool
  bitmap : Nat
  swapped : Bool := false
deriving DecidableEq, Repr

/-- A context (R283): descriptor fields, map, counters. -/
structure Ctx where
  live : Bool := false
  strict : Bool := false
  priority : Nat := 0
  ckey : BitVec 16 := 0
  spillCount : Nat := 0
  vmode : Nat := 0
  emode : Nat := 0
  seed : Nat := 0
  pentry : Nat := 0
  pstart : Nat := 0
  bindtab : Nat := 0
  bindcount : Nat := 0
  conjCount : Nat := 0
  conjBase : Nat := 0
  quantum : Nat := 0
  hints : List Hint := []
  saveSpm : Nat := 0
  saveAcc : Nat := 0
  saveCore : Nat := 0
  cstatus : Nat := 0
  pages : Map Page := []
  /-- R457, R462: the views of the step table, and the step flags -/
  views : List View := []
  sflags : Nat := 0
  /-- R438: INDET and UNRECORDED, as the Gloss state record shows them -/
  indet : Bool := false
  unrec : Bool := false
  /-- the context's Gloss is open (R444) -/
  glossOpen : Bool := false
  /-- the step table (R455), the Gloss (R443), the inputs held (R445), and the copy area used before OPEN has formed it -/
  table : Option StepTab := none
  gloss : Option Gloss := none
  inputs : List Input := []
deriving DecidableEq, Repr

/-- Scheduling state of a context (R297, R298, R301). -/
inductive RunSt where
  | ready | running | stopping | saving | restoring
deriving DecidableEq, Repr

/-- Scheduling and counters of a context. -/
structure CtxRun where
  st : RunSt := .ready
  runFrom : Nat := 0
  /-- T0 of a decided switch -/
  t0 : Nat := 0
  accepting : Bool := true
  /-- a switch away from it is decided; it has run before; it was the last to be switched out -/
  out : Bool := false
  begun : Bool := false
  justOut : Bool := false
  switches : Nat := 0
  moves : Nat := 0
  spills : Nat := 0
  runNs : Nat := 0
  lastOut : Nat := 0
  lastSave : Nat := 0
  /-- the step counter of R65 -/
  step : Nat := 0
  /-- digest held of the SAVE_CORE image (R299) -/
  coreDigest : Option Nat := none
  /-- programs whose spaces a spill slot holds -/
  slots : Map Nat := []
deriving DecidableEq, Repr

/-- A page move whose copy is under way (R296): context, page, and its new slice and physical page. -/
structure PMove where
  cid : Nat
  page : Nat
  sl : Nat
  q : Nat
deriving DecidableEq, Repr

/-- A report record (R596): class, cause, partition, slice, unit, event count, and the words of DETAIL. -/
structure Rpt where
  tense : Nat
  seq : Nat
  cls : Nat
  cause : Nat
  part : Nat := 0xFF
  slice : Nat := 0xFF
  unit : Nat := 0xFF
  count : Nat := 1
  detail : List Nat := []
deriving DecidableEq, Repr

/-- A tile that waits to be counted toward its continuation handle (R168): its context, handle, and written byte ranges. -/
structure ContCount where
  cid : Nat
  handle : Nat
  ranges : List (Nat × Nat)
  poison : Bool := false
  /-- R169: a program under the continuation was flushed or aborted -/
  lost : Bool := false
deriving DecidableEq, Repr

/-- A handle table entry (R427). -/
inductive HandleEnt where
  | none
  /-- destination DEVID, CID, CKT bit, report Conjunction -/
  | route (devid cid : Nat) (ckt : Bool) (report : Nat)
  /-- group -/
  | cont (group : Nat)
deriving DecidableEq, Repr

/-- A remote signal on its way out (R316, R428). -/
structure OutSig where
  part : Nat
  handle : Nat
  index : Nat
  inc : Nat
  error : Bool := false
  key : BitVec 16
deriving DecidableEq, Repr

/-- A Particle held inside a load or store of its control window (R271, R273). -/
inductive PHold where
  | none
  /-- a push to a full queue: the queue, and the store's length in bytes -/
  | push (queue len : Nat)
  /-- a load from PRT_WAIT: destination register (32 and above: f), the Tense value at which the load began, and the load's
  length in bytes -/
  | wait (rd since len : Nat)
  /-- a load of the host aperture: the address asked for -/
  | host (a : Nat)
  /-- WFI -/
  | wfi
deriving DecidableEq, Repr

/-- The machine-mode CSRs of a Particle that hold state (R249, R252, R257; the RISC-V privileged specification) (DESIGN CHOICE, assumption log 14). -/
structure PCsr where
  mstatus : W64 := 0
  mtvec : W64 := 0
  mepc : W64 := 0
  mcause : W64 := 0
  mtval : W64 := 0
  mscratch : W64 := 0
  mie : W64 := 0
  menvcfg : W64 := 0
  mcounteren : W32 := 0
  mcountinhibit : W32 := 0
  mcycle : W64 := 0
  minstret : W64 := 0
  pmpcfg : Map Nat := []
  pmpaddr : Map W64 := []
  fcsr : BitVec 8 := 0
  pvxcfg : W64 := 0
  pvxctl : W64 := 0
deriving DecidableEq, Repr

/-- The control window of a Particle (R270). -/
structure PCtl where
  stage : Map W64 := []
  qseq : Nat := 0
  qseqQ : Nat := 0
  waitset : W64 := 0
  waitto : W64 := 0
  irqPend : Nat := 0
  irqEn : Nat := 0
  timecmp : W64 := BitVec.allOnes 64
  /-- a value written to PRT_TIMECMP has yet to match -/
  armed : Bool := false
  fault : Nat := 0
deriving DecidableEq, Repr

/-- A Particle's architectural state (R249 to R276), as it runs and as R276 saves it (DESIGN CHOICE, assumption log 14). -/
structure PCore where
  pc : W64 := 0
  x : Map W64 := []
  f : Map W64 := []
  /-- mode: true machine, false user -/
  mach : Bool := true
  csr : PCsr := {}
  ctl : PCtl := {}
  /-- LR reservation: address and size -/
  resv : Option (Nat × Nat) := none
  lmem : Mem := {}
  v : Map (BitVec 512) := []
  m : Map (BitVec 512) := []
  vl : Nat := 0
  overlay : Bool := false
  hold : PHold := .none
  /-- registers that hold a poisoned value, with the address it was loaded from (R254); vector bytes by 64 × register + byte -/
  px : Map Nat := []
  pf : Map Nat := []
  pv : Map Nat := []
  /-- the instruction cache (R253): bytes by address -/
  icache : Map Byte := []
  /-- doublewords that the host has answered for a load of the held instruction, by address -/
  hgot : Map (Nat × Bool) := []
deriving DecidableEq, Repr

/-- The saved state of a logical Particle (R276), and whether it was running. -/
structure SavedCore where
  core : PCore
  running : Bool
deriving DecidableEq, Repr

/-- A physical Particle: the logical Particle it runs, if any, and whether it is executing. -/
structure Particle where
  /-- logical Particle: 64 × context + index within the partition -/
  lp : Option Nat := none
  running : Bool := false
  core : PCore := {}
  /-- the pipelines mismatched at the last instruction (R593) -/
  retry : Bool := false
deriving DecidableEq, Repr

end Sys2Proof.Machine
end

