-- ==== Sys2Proof/Machine/TypesDev.lean ====
section
/-! DEFINITION. The management targets, pins, non-volatile storage, supplies and calibration records
(spec/18_partitions_and_custody.md to spec/23_package_and_signals.md). -/

namespace Sys2Proof.Machine

/-- The I3C target (R631, R661): the I3C_ADDR straps as sampled, the dynamic address, the status and data of the last command, and
what private reads have returned. -/
structure I3c where
  strap : Nat := 0
  dyn : Option Nat := none
  status : Nat := 0
  data : List Byte := []
  out : List (List Byte) := []
deriving DecidableEq, Repr

/-- The JTAG port (R631, R662): instruction register, boundary cells' update latches, what the last scan shifted out, and the status
and data of the previous setup access. -/
structure Jtag where
  ir : Nat := 1
  bnd : Nat := 0
  tdo : Nat := 0
  status : Nat := 0
  data : Nat := 0
deriving DecidableEq, Repr

/-- Pins of R660 and R656. `reset`: the device is held in reset; `coldLow`: COLD_RST_N is low; `perst`: PERST_N is asserted;
`ready`: DEV_READY; `trip`: THERMTRIP_N is low; `railEn`: RAIL_EN; `alert`: PMB_ALERT_N was last seen asserted. -/
structure Pins where
  reset : Bool := true
  coldLow : Bool := true
  perst : Bool := true
  ready : Bool := false
  trip : Bool := false
  railEn : Bool := false
  alert : Bool := false
deriving DecidableEq, Repr

/-- A calibration record of a slice (R577): captured class, state (0 VALID, 1 PROVISIONAL, 2 STALE), Tense of its capture, and its
contents: VRATE's VMIN of the compute, scratchpad and stack controller domains first. -/
structure CalRec where
  cls : Nat
  st : Nat := 0
  tense : Nat := 0
  data : List Nat := []
deriving DecidableEq, Repr

/-- The fuse block and the Syntax core's flash (R553 to R557, R599, R615): lifecycle state, allowance, serial number, OWNER_HASH,
the hash of the provisioning key, the hashes of the firmware key slots, the slots revoked, whether the owner class is revoked, minimum
SVN, trim codes by 32 × slice + unit; both flash banks and the newer one; health records (images of RAS_UNIT) and calibration
records (4 × slice + kind) (DESIGN CHOICE, assumption log 7) (DESIGN CHOICE, assumption log 13). -/
structure Nvm where
  lc : Nat := 0
  allow : Nat := 15
  serial : Nat := 0
  owner : List Byte := []
  prov : List Byte := []
  fwKeys : List (List Byte) := []
  revoked : List Nat := []
  ownerRevoked : Bool := false
  minSvn : Nat := 0
  trims : Map Nat := []
  banks : List (List Byte) := [[], []]
  newer : Nat := 0
  health : Map Nat := []
  cal : Map CalRec := []
deriving DecidableEq, Repr

/-- An open dip event (R574): its start, its domains with the Tense since which each reads above its warning level plus 10 mV, and
the lowest reading (mV) with its domain. -/
structure Dip where
  start : Nat
  doms : Map (Option Nat) := []
  minV : Nat
  minDom : Nat
deriving DecidableEq, Repr

/-- Power, thermal and calibration beside the registers (chapter 19). Voltages are in units of 5 mV unless they say mV. -/
structure Pwr where
  /-- ceilings from temperature and from the power limit, by domain; unlisted: 0.85 V -/
  tceil : Map Nat := []
  pceil : Map Nat := []
  /-- slices on which nothing is placed: for power (R569), and in thermal hold (R572; 12 and 13 are the switch halves) -/
  held : List Nat := []
  therm : List Nat := []
  /-- hottest sensor of a slice or switch half, two's complement of 8 bits; sensors ignored (R589) -/
  tj : Map Nat := []
  badSens : List Nat := []
  /-- the estimates of the last 100 µs, newest first: module power (0.1 W) and domain powers; the compute powers of the last
  millisecond by slice; R570's correction (0.1 W) -/
  est : List (Nat × List Nat) := []
  load : Map (List Nat) := []
  corr : Int := 0
  /-- since when a slice holds its load class (R579) -/
  clsAt : Map Nat := []
  /-- regulators (0 to 8: 40h to 48h): transactions failed in a row, those that cannot be reached, STATUS_WORD as last read, and the
  VIN_CORE rails as last commanded -/
  fails : Map Nat := []
  lost : List Nat := []
  word : Map Nat := []
  vin : List Nat := [0, 0]
  /-- board rails commanded on, by regulator -/
  rails : List Nat := []
  /-- samples in a row below 0.50 V by domain, domains monitored, set points in motion: old set point and Tense of arrival -/
  low : Map Nat := []
  seen : List Nat := []
  moves : Map (Nat × Nat) := []
  dip : Option Dip := none
  /-- dip events of the last 60 s: start and end -/
  dips : List (Nat × Nat) := []
  /-- dip raises by domain: the Tense at which each ends -/
  raise : Map Nat := []
  /-- domains whose monitors disagree (R592) -/
  mism : List Nat := []
  /-- offset of the ring stops and bridge pairs, in units of 5 mV (R602, R620) -/
  ring : Nat := 0
  /-- slices for which a calibration activity is scheduled -/
  calDue : List Nat := []
  /-- T0 of the wake under way, and the Tense at which accepted work last ended -/
  t0 : Nat := 0
  workAt : Nat := 0
  /-- Tense at which each periodic reading last took place: 0 set points, 1 estimate, 2 PMBus, 3 junction sensors, 100 + d the rail
  monitors of domain d -/
  lastAt : Map Nat := []
deriving DecidableEq, Repr

/-- Custody in progress: the request that the Syntax core decides and its origin (R640), the origin of a firmware stage (R641) and its
bytes so far, the slices that a wipe has yet to write (R551), Tense of FORM and of TEARDOWN by partition. -/
structure Custody where
  lcOrg : Nat := 0
  fwOrg : Nat := 0
  fwAsked : Bool := false
  fwData : List Byte := []
  wiping : List Nat := []
  formAt : Map Nat := []
deriving DecidableEq, Repr

/-- Field tests (R600 to R603, R591, R595, R597): last STRESS by slice, quick tests passed by unit (32 × slice + unit, newest first), last
latent scrub, last resend, and what a boot has to report. -/
structure Field where
  stressAt : Map Nat := []
  passed : Map (List Nat) := []
  scrubAt : Nat := 0
  resentAt : Nat := 0
  /-- failures of a boot, to be reported at READY (R620): class, cause, slice, unit, DETAIL -/
  bootRpt : List (Nat × Nat × Nat × Nat × Nat) := []
deriving DecidableEq, Repr

end Sys2Proof.Machine
end

