-- ==== Sys2Proof/Machine/TypesHost.lean ====
section
/-! DEFINITION. Records of the host link and the descriptor rings (chapters 16 and 17). -/

namespace Sys2Proof.Machine

/-- A finished translation (R505): output address, HOST, W, level, NOSNOOP and RO of the leaf. -/
structure XEnt where
  oa : Nat
  host : Bool
  w : Bool
  lvl : Nat
  noSnoop : Bool := false
  relaxed : Bool := false
deriving DecidableEq, Repr

/-- What the device puts on the host link: its own requests (R493) and its completions of requests it received. -/
inductive HostOut where
  /-- memory read: function, tag, address, bytes, Relaxed Ordering, No Snoop -/
  | read (fn tag addr len : Nat) (ro ns : Bool)
  /-- memory write: function, address, payload, EP, Relaxed Ordering, No Snoop -/
  | write (fn addr : Nat) (bytes : List Byte) (ep ro ns : Bool)
  /-- MSI-X message of a vector -/
  | msix (fn vector : Nat)
  /-- completion of a received request: function, status (0 successful, 1 Unsupported Request, 4 Completer Abort, 2 Request
  Retry), data, EP -/
  | cpl (fn status : Nat) (bytes : List Byte) (ep : Bool)
deriving DecidableEq, Repr

/-- The work that an outstanding read serves (R493). -/
inductive HostWork where
  /-- slots of submission ring 16 × partition + i -/
  | fetch (ring count n : Nat)
  /-- data of a descriptor -/
  | desc (id : Nat)
  /-- a load or fetch of a Particle through the host aperture -/
  | particle (p : Nat)
  /-- a segment of a group's SRC -/
  | coll (group seg : Nat)
  /-- a staged firmware image (R557) -/
  | firmware
deriving DecidableEq, Repr

/-- A tracker: an outstanding read (R498). -/
structure Tracker where
  fn : Nat
  gen : Nat
  work : HostWork
  addr : Nat
  len : Nat
  /-- bytes that have arrived: offset, data, EP -/
  got : List (Nat × List Byte × Bool) := []
  /-- R500: its data is dropped -/
  dropped : Bool := false
deriving DecidableEq, Repr

/-- A finished read: its data by increasing address, or its failure. -/
structure HostAns where
  work : HostWork
  addr : Nat
  len : Nat
  got : List (Nat × List Byte × Bool) := []
  failed : Bool := false
  dropped : Bool := false
deriving DecidableEq, Repr

/-- A function of the host port (R489): 0 is PF0, n is VFn. -/
structure Fn where
  enabled : Bool := false
  /-- Bus Master Enable -/
  bme : Bool := false
  /-- R499: generation, modulo 16 -/
  gen : Nat := 0
  /-- R501: sequence that a function-level reset has reached; 0 while none runs -/
  flr : Nat := 0
  /-- entries held under R500, oldest first -/
  held : List HostOut := []
  /-- MSI-X pending bits (R500) -/
  msixPend : Nat := 0
  d3hot : Bool := false
  /-- AER uncorrectable error status bits (R497): 12 Poisoned TLP Received, 14 Completion Timeout -/
  aer : Nat := 0
deriving DecidableEq, Repr

/-- A submission ring beside its registers (R513, R519, R532). -/
structure Sq where
  tc : Nat := 0
  /-- the fetch buffer: count and descriptor -/
  buf : List (Nat × List Byte) := []
  /-- count at which the next fetch request begins -/
  nextReq : Nat := 0
  /-- fetching stopped at an uncommitted slot, and when it was last read (R519) -/
  stall : Option Nat := none
  /-- accepted WAIT or FENCE that holds the ring -/
  hold : Option Nat := none
deriving DecidableEq, Repr

/-- Where an accepted descriptor stands. -/
inductive DescSt where
  /-- accepted: its own command has not begun -/
  | accepted
  /-- its work is under way -/
  | running
  /-- its outcome is decided: status, DETAIL, RESULT -/
  | ended (status detail result : Nat)
deriving DecidableEq, Repr

/-- An accepted descriptor (R521). -/
structure Desc where
  part : Nat
  /-- submission ring of the partition -/
  sq : Nat
  count : Nat
  bytes : List Byte
  st : DescSt := .accepted
  /-- completion ring in which a slot is reserved -/
  cq : Option Nat := none
  /-- the completion slot is reserved (R521); a descriptor lost to a flush has none -/
  resv : Bool := false
  /-- CCONJ passed the checks of R523, and has not been signalled -/
  signals : Bool := true
  /-- Tense at acceptance, or when a wait began -/
  since : Nat := 0
  /-- bytes moved so far, of a COPY or SNAPSHOT transfer -/
  pos : Nat := 0
  /-- status noted so far (POISONED) -/
  note : Nat := 0
  /-- a host read is outstanding -/
  asked : Bool := false
  /-- DEFER: start released (R482) -/
  deferGo : Bool := false
  /-- bytes of records read so far, or the phase reached, by the chapter that governs the descriptor -/
  aux : List Nat := []
  /-- chunks that wait for a hash lane, and chunk digests formed (R440, R450): chunk number and bytes -/
  chunks : List (Nat × List Byte) := []
  digs : List (Nat × List Byte) := []
deriving DecidableEq, Repr

/-- The servo of Tense (R324) and the exchange of R395 beside their registers. -/
structure Servo where
  /-- consecutive measurements with |OFFSET| ≤ 2, and missing ones in a row -/
  good : Nat := 0
  miss : Nat := 0
  /-- phase still to move, phase moved since the last whole nanosecond (125 ps units), and clocks since the last move -/
  left : Int := 0
  phase : Int := 0
  clk : Nat := 0
  /-- Tense at which the next measurement is due -/
  due : Nat := 0
  /-- a PPS edge has been stamped since reset -/
  edge : Bool := false
  /-- T1 of the outstanding TSYNC request, and Tense of the last one sent -/
  t1 : Option Nat := none
  sent : Option Nat := none
  /-- DEVID of the time master as the last TSYNC beat named it -/
  master : Nat := 0
deriving DecidableEq, Repr

/-- An audit ring entry (R559), with the RSEQ under which it went to the management network (R561). -/
structure AudEnt where
  tense : Nat := 0
  seq : Nat := 0
  origin : Nat := 0
  kind : Nat
  part : Nat := 0xFF
  aflags : Nat := 0
  addr : Nat := 0
  detail : Nat := 0
  value : Nat := 0
  rseq : Option Nat := none
deriving DecidableEq, Repr

/-- A maintenance activity that holds its slice's token (R601 to R605, R533). -/
structure Act where
  /-- 1 STRESS, 2 CALIBRATE, 3 SCRUB, 4 STACK_TEST, 5 UNIT_TEST -/
  kind : Nat
  slice : Nat
  /-- the unit that a UNIT_TEST names -/
  unit : Nat := 0xFF
  /-- the partition whose MAINT descriptor started it; 0xFF: management or the Syntax core -/
  part : Nat := 0xFF
  /-- RESULT area reference (none: management or the Syntax core), DONE_CONJ, and the traffic generator settings of a STACK_TEST -/
  result : Option Nat := none
  conj : Option Nat := none
  tg : Nat := 0
  since : Nat := 0
  /-- the slice is evacuated, or needs no evacuation -/
  out : Bool := false
deriving DecidableEq, Repr

end Sys2Proof.Machine
end

