-- ==== Sys2Proof/Machine/TypesInf.lean ====
section
/-! DEFINITION. The records of a running Inflector program and its Agreement channels (spec/06_inflector.md). -/

namespace Sys2Proof.Machine

/-- A stream descriptor (R172). -/
structure IStream where
  d : TDesc
  /-- SFMT code -/
  fmt : Nat
  raw : Bool
  map : Nat
  gs : Nat
  layer : Nat
  tap : Nat
  expv : Nat
  rsv : Bool
deriving DecidableEq, Repr

/-- A channel descriptor (R185). -/
structure IChan where
  op : Nat
  inF : Nat
  outF : Nat
  tanred : Bool
  imp : Bool
  exp : Bool
  seglen : Nat
  out : Nat
  xrec : Nat
  index0 : Nat
  rsv : Bool
deriving DecidableEq, Repr

/-- An element register (R174). -/
structure IReg where
  v : Nat := 0
  poison : Bool := false
  tan : List Nat := []
deriving DecidableEq, Repr

/-- A stream element as a lane read it: its pattern, exact value, tangents, poison, and whether its position was out of range. -/
structure IRead where
  pat : Nat := 0
  x : Num := numZero
  tan : List Num := []
  poison : Bool := false
  flushed : Bool := false
deriving DecidableEq, Repr

/-- The state of a channel's current segment, for the primal or one tangent: the long accumulators in units of 2^-320 (R188),
the positional leaf and its tree levels (R191, R193), and the best value so far (R195). -/
structure SegSt where
  n : Nat := 0
  s : Int := 0
  q : Int := 0
  nan : Bool := false
  pinf : Bool := false
  ninf : Bool := false
  poison : Bool := false
  /-- the leaf: one binary64 pattern, or n, mean and M2 -/
  leaf : List Nat := []
  lev : Map (List Nat) := []
  best : Option (Num × Nat) := none
deriving DecidableEq, Repr

/-- A channel: the segment in progress (primal, then tangents). -/
structure ChanSt where
  segs : List SegSt := []
deriving DecidableEq, Repr

/-- A running Inflector program: what its check read, and its progress. -/
structure InfRun where
  ucount : Nat := 0
  nin : Nat := 0
  nout : Nat := 0
  tang : Nat := 0
  histo : Bool := false
  length : Nat := 0
  ucode : List Nat := []
  ins : List IStream := []
  outs : List IStream := []
  consts : List Nat := []
  chans : List IChan := []
  summary : Nat := 0
  srid : Nat := 0
  cellkind : Nat := 0
  normcount : Nat := 0
  normtab : Nat := 0
  /-- next group, and the micro-operation of the group in the lanes -/
  group : Nat := 0
  upos : Option Nat := none
  lanes : List (List IReg) := []
  reads : List (List IRead) := []
  cells : List Nat := []
  flags : Nat := 0
  ch : List ChanSt := []
  /-- the program was refused, so no summary record is written (R183) -/
  refused : Bool := false
  /-- elements whose groups completed -/
  elements : Nat := 0
  /-- the Lexer's kernels take their streams from the Lexer (chapter 07) and write no summary record -/
  kernel : Bool := false
  /-- a kernel run: ELEMS, nodes per element, first element, and what it has given: stream, element, value, tangents, poison -/
  kelems : Nat := 0
  knpe : Nat := 1
  kfirst : Nat := 0
  kout : List (Nat × Nat × Num × List Num × Bool) := []
deriving DecidableEq, Repr

end Sys2Proof.Machine
end

