-- ==== Sys2Proof/Machine/TypesSolve.lean ====
section
/-! DEFINITION. Records of a solve on a Parser and of an assembly on the Lexers (spec/07_parser_and_lexer.md). -/

namespace Sys2Proof.Machine

/-- The inner solve in progress (R223). -/
structure Kry where
  /-- the scaled residual, and the norm at which the inner solve stops -/
  rhat : List Num
  tol : Num
  d : List Num
  res : List Num
  /-- search direction, and the shadow residual of BiCGSTAB -/
  p : List Num := []
  shadow : List Num := []
  v : List Num := []
  rho : Num := numZero
  alpha : Num := numZero
  omega : Num := numZero
  /-- GMRES: the basis, the columns of the triangular factor, the rotations, and the right-hand side -/
  basis : List (List Num) := []
  cols : List (List Num) := []
  rots : List (Num × Num) := []
  g : List Num := []
  /-- the inner solve has converged -/
  done : Bool := false
deriving DecidableEq, Repr

/-- A solve (R213 to R235). -/
structure Solve where
  /-- the descriptor's 256 bytes -/
  desc : List Byte
  started : Bool := false
  /-- 0 the primal, t tangent t (R231) -/
  sys : Nat := 0
  /-- the present system's solution, and a tangent's right-hand side -/
  x : List Num := []
  rhs : List Num := []
  /-- outer iterations of the present system; outer and inner iterations of the solve -/
  nouter : Nat := 0
  outer : Nat := 0
  inner : Nat := 0
  fell : Bool := false
  fallAt : Nat := 0xFFFFFFFF
  /-- R221; -32,768 where every value was zero -/
  obs : List Int := List.replicate 8 (-32768)
  poison : Bool := false
  sigma : Int := 0
  kry : Option Kry := none
  /-- reciprocal diagonal; inverse blocks; rows of the IC0 factor (R224) -/
  jac : List Num := []
  blocks : List (List (List Num)) := []
  ic : List (List (Nat × Num)) := []
  bnorm : Num := numZero
  rnorm : Num := numZero
  trn : List Num := []
  /-- LC63 has matched (R227) -/
  late : Bool := false
  blockFail : Nat := 0
  cause : Nat := 0
deriving DecidableEq, Repr

/-- A contribution that an element kernel gave: element of the list, local row and column, value, tangents, poison. -/
structure Contrib where
  elem : Nat
  row : Int
  col : Int
  /-- to the right-hand side -/
  rhs : Bool
  v : Num
  tan : List Num
  poison : Bool
deriving DecidableEq, Repr

/-- An assembly (R238 to R246). -/
structure Asm where
  desc : List Byte
  started : Bool := false
  /-- colours completed -/
  done : Nat := 0
  elem : Nat := 0xFFFFFFFF
  skip : Nat := 0
  written : Nat := 0
  poison : Bool := false
  contribs : List Contrib := []
deriving DecidableEq, Repr

end Sys2Proof.Machine
end

