-- ==== Sys2Proof/Machine/TypesStack.lean ====
section
/-! DEFINITION. What a stack controller holds (spec/11_stacked_memory.md). -/

namespace Sys2Proof.Machine

/-- A row of a stack: pseudo-channel, bank (bits [7:2] of the local address), row (bits [21:8]) (R334). -/
structure HRow where
  pc : Nat
  bank : Nat
  row : Nat
deriving DecidableEq, Repr

/-- An entry of the remap table (R350): the row, and the controller row that stands for it. -/
structure HRemap where
  row : HRow
  spare : Nat
deriving DecidableEq, Repr

/-- An access in the queues of a pseudo-channel (R340 to R344): granule and beat, its class (reads), whether it writes, whether it
begins a locked sequence, and when it came. -/
structure HReq where
  l : Nat
  beat : Nat
  cls : Nat := 2
  write : Bool := false
  part : Bool := false
  since : Nat := 0
deriving DecidableEq, Repr

/-- A pseudo-channel's scheduler (R343): its two queues, whether it drains writes, the shares left of the round, the rows open by
bank, and the beat of a locked sequence that waits for its write, with how often the thermal cap has held that. -/
structure HQueue where
  reads : List HReq := []
  writes : List HReq := []
  drain : Bool := false
  share : List Nat := [4, 2, 1]
  openRow : Map Nat := []
  lock : Option (Nat × Nat) := none
  heldFor : Nat := 0
deriving DecidableEq, Repr

/-- A run of the traffic generator (R356): destructive, and stopped by STOP. -/
structure HRun where
  destr : Bool
  stop : Bool := false
deriving DecidableEq, Repr

/-- A stack controller beside its registers. -/
structure Stack where
  /-- R352: consecutive readings below the level's threshold less 3 °C; the Tense of the last reading; since when readings are
  below 95 °C; nanoseconds at level 2 not yet counted in CAP_MS -/
  cool : Nat := 0
  readAt : Nat := 0
  coolSince : Option Nat := none
  hotNs : Nat := 0
  /-- R350: the remap table; candidates that wait to be remapped; R349: the pending list, the candidates dropped from it, and the
  times of controller corrections by row -/
  remap : List HRemap := []
  cands : List HRow := []
  pend : List HRow := []
  dropped : Nat := 0
  fixes : List (HRow × List Nat) := []
  /-- R346: granules that the patrol has read, modulo the stack -/
  patrol : Nat := 0
  /-- R353: refresh commands issued -/
  refreshes : Nat := 0
  queues : Map HQueue := []
  run : Option HRun := none
deriving DecidableEq, Repr

end Sys2Proof.Machine
end

