-- ==== Sys2Proof/Machine/TypesYlv.lean ====
section
/-! DEFINITION. Records of the Yilvo ports and of the collectives (chapters 12 and 13). -/

namespace Sys2Proof.Machine

/-- A sequenced packet (R368 to R370): the 64 bytes of its first beat, whose SEQ, ACK and HCRC each link fills, its payload, and
the trailer's POISON, NAN_STICKY and STOMP. -/
structure Pkt where
  hdr : List Byte
  payload : List Byte := []
  poison : Nat := 0
  nan : Bool := false
  stomp : Bool := false
deriving DecidableEq, Repr

/-- A request at a switch egress (R389 to R393): its requester (0 to 13 the ingress ports, 14 local sources, 15 the reduction
arithmetic), packet, LOCK, and the Tense value at which it came. -/
structure EReq where
  id : Nat
  from_ : Nat
  pkt : Pkt
  lock : Bool := false
  since : Nat := 0
deriving DecidableEq, Repr

/-- A port beside its registers (R373 to R379, R389 to R391). -/
structure Port where
  next : Nat := 0
  oldest : Nat := 0
  /-- the replay buffer: sent packets by SEQ, oldest first -/
  replay : List (Nat × Pkt) := []
  /-- the expected number E; a NAK has been sent for the present gap; beats are discarded until REPLAY_START -/
  exp : Nat := 0
  nakSent : Bool := false
  deaf : Bool := false
  /-- credit held for the peer's buffers and credit to return, VC0 to VC3, in beats -/
  cred : List Nat := [0, 0, 0, 0]
  give : List Nat := [0, 0, 0, 0]
  /-- sequenced packets accepted since the last acknowledgement, and Tense of the last LINKCTL sent -/
  unacked : Nat := 0
  ctlAt : Nat := 0
  /-- Tense since which packets are outstanding with no acknowledgement that frees one, and replays since -/
  waitFrom : Nat := 0
  fruitless : Nat := 0
  /-- Tense at which a LINKCTL last came (R609) -/
  heard : Nat := 0
  /-- trainings failed in a row, and Tense at which the port went DOWN with packets buffered -/
  fails : Nat := 0
  /-- E of the peer's LINK_STATE, while this end still trains -/
  peerE : Option Nat := none
  downAt : Option Nat := none
  /-- replays and retrains since reset (R422) -/
  hits : Nat := 0
  /-- waiting requests, in arrival order; last requester granted; locked sequence: requester and transfers so far -/
  wait : List EReq := []
  last : Nat := 15
  lock : Option (Nat × Nat) := none
deriving DecidableEq, Repr

/-- What a port sends: a packet or link-local beat, or a LINK_STATE, whose bytes the spec does not lay out (R365, R377): DEVID,
port number, E, and the port and E of a down port that it names. -/
inductive WireOut where
  | beats (bytes : List Byte)
  | linkState (devid port e : Nat) (down : Option (Nat × Nat))
deriving DecidableEq, Repr

/-- A cell of the reduction buffer (R407, R411): an exact value or a raw one, with the flags NaN, +∞, −∞ and poison. -/
structure RCell where
  /-- exact value in units of 2^-149, or the integer -/
  v : Int := 0
  /-- raw element bits, of an F64 SUM, MAX, MIN or an all-gather -/
  raw : Nat := 0
  nan : Bool := false
  pinf : Bool := false
  ninf : Bool := false
  poison : Bool := false
deriving DecidableEq, Repr

/-- A segment at a member in one step of a generation: arriving elements by element offset. -/
structure RSeg where
  got : Map RCell := []
  full : Bool := false
  /-- DEVID of its sender -/
  src : Nat := 0
deriving DecidableEq, Repr

/-- A packet of a later generation that is held until the local launch (R418). -/
structure GHeld where
  port : Nat
  pkt : Pkt
deriving DecidableEq, Repr

/-- What a DONE or CLOSE carries (R420). -/
structure RDone where
  sticky : Bool := false
  poison : Bool := false
  cause : Nat := 0
  slowRank : Nat := 0
  slowT : Nat := 0
  fastT : Nat := 0
  count : Nat := 0
deriving DecidableEq, Repr

/-- A running generation (R416 to R423). -/
structure RRun where
  launched : Nat := 0
  /-- launched by a LAUNCH: every segment is ready (R417) -/
  whole : Bool := true
  /-- segments sent, by 2^32 × step + segment -/
  sent : Map Bool := []
  /-- arrivals, by 2^32 × step + segment -/
  segs : Map RSeg := []
  /-- segments of the own share finalised or written to DST -/
  done : Map Bool := []
  /-- FREEs received, by 2^32 × step + segment -/
  freed : Map Nat := []
  /-- launched before the last decision of the context's step gate (R465) -/
  old : Bool := false
  sticky : Bool := false
  poison : Bool := false
  srcPoison : Bool := false
  /-- R422: THERMAL and HOST_STALL have held; hits of the ports at launch -/
  thermal : Bool := false
  hostStall : Bool := false
  hits : Nat := 0
  /-- segments ready, and Tense at which the last became so (LOCAL_T) -/
  readyT : Option Nat := none
  localLate : Nat := 0
  upLate : Nat := 0
  /-- DONE received from the children, by child entry 0 or 1; DONE has been sent -/
  kids : Map RDone := []
  doneSent : Bool := false
deriving DecidableEq, Repr

/-- A group that is set up (R405 to R408): its record's 128 bytes, its peer table, its generation and its run. -/
structure Group where
  cid : Nat
  group : Nat
  rec_ : List Byte
  peers : List Nat
  gen : Nat := 0
  run : Option RRun := none
  /-- bytes counted toward each segment under a bound handle (R417), and the handle -/
  bound : Option Nat := none
  counts : Map Nat := []
  held : List GHeld := []
  /-- generations for which an ABORT has been seen (by generation number), kept for the latest one -/
  aborted : Option Nat := none
deriving DecidableEq, Repr

/-- The pair engine beside its registers (R607 to R613). -/
structure Pair where
  /-- what the partner's LAYOUT spells: region count, then view sizes -/
  seen : Option (List Nat) := none
  /-- own and received compare words that wait for their match: step and word -/
  own : List (Nat × List Byte) := []
  got : List (Nat × List Byte) := []
deriving DecidableEq, Repr

end Sys2Proof.Machine
end

