-- ==== Sys2Proof/Machine/State.lean ====
section
/-! DEFINITION. The state of the block, the reasons a step can stop, and the state after reset. -/

namespace Sys2Proof.Machine

/-- Why a command stops the machine. -/
inductive Fault where
  /-- Raised by a command whose unit index names no unit of R17's table (a Verb 96, a port 14). Safe: the hardware has no such event. -/
  | noSuchUnit
deriving DecidableEq, Repr

/-- Why a command has no meaning here. -/
inductive Refusal where
  /-- Raised by the dispatch for a command whose meaning is not written. Safe. -/
  | notModelled (mnemonic : String)
deriving DecidableEq, Repr

/-- The state of the HXN-7680. Unlisted keys of a map read as the default that the accessor names. -/
structure State where
  /-- commands waiting, first in, first out -/
  pending : List Instr := []
  /-- the model's own counter of free values drawn -/
  free : Nat := 0
  /-- R322 -/
  tense : W64 := 0
  /-- setup registers by PF0 BAR0 offset (R629); an unlisted offset holds its reset value -/
  regs : Map W64 := []
  /-- physical scratchpad: slice × 48 MiB + page × 64 KiB + offset (R278) -/
  spm : Mem := {}
  /-- stacked memory: stack × 2^36 + pseudo-channel × 2^30 + granule × 256 + offset (R334) -/
  hbm : Mem := {}
  /-- bytes of SYN_LC_REQ, the request that the Syntax core has copied (R640), and the staging buffer (R641) -/
  lcReq : Map Byte := []
  lcWork : List Byte := []
  fwBuf : Map Byte := []
  /-- stack controllers (R333 to R361), and slices scheduled for a STACK_TEST after a detection escape (R598) -/
  hstk : Map Stack := []
  escaped : List Nat := []
  /-- corrected events that wait for their CORRECTED record, and when the last one was sent, by 2^16 × cause + 2^8 × slice +
  unit (R598) -/
  corrected : Map Nat := []
  corrAt : Map Nat := []
  /-- Conjunctions by device index (R305) -/
  conj : Map Conj := []
  /-- contexts by 8 × partition + index (R283) -/
  ctxs : Map Ctx := []
  runs : Map CtxRun := []
  /-- issue queues by 4 × logical Particle + queue (R139, R270) -/
  queues : Map IQueue := []
  /-- accepted work by acceptance number -/
  progs : Map Prog := []
  nextProg : Nat := 0
  verbs : Map Verb := []
  /-- pending report records, oldest first, the next RSEQ, and the records discarded and not yet reported LOST (R596, R597) -/
  reports : List Rpt := []
  rseq : Nat := 0
  rptLost : Nat := 0
  /-- the report buffer's places (R643), by RSEQ mod 1,024, and the datagrams sent on the management port (R597) -/
  rptBuf : Map Rpt := []
  mgmtOut : List (List Rpt) := []
  /-- audit ring by SEQ mod 8,192 (R559), and the entries lost since the last KIND 0Ch entry with the SEQ of the first -/
  audit : Map AudEnt := []
  audLost : Nat := 0
  audFirst : Nat := 0
  /-- ports Y0 to Y11 and M0, M1 (12, 13), requests numbered so far, what the ports have sent, and packets that the device
  delivers to itself -/
  ports : Map Port := []
  nextReq : Nat := 0
  wire : List (Nat × WireOut) := []
  loop : List Pkt := []
  /-- requests cancelled before their commit (R393) -/
  cancelled : List Nat := []
  /-- ACKREQ writes outstanding, and the worst status that their WRITE_ACKs carried, by tag -/
  ackWait : Map (Nat × Nat) := []
  /-- what asked for a wake in Ellipsis (R583): 0 to 4 the sources of PWR_WAKE_EN, 5 management, a collective or a teardown -/
  wakeWant : Option Nat := none
  /-- groups by 2^16 × context + GROUP (R405) -/
  groups : Map Group := []
  /-- writes to staged views that wait to be sent to the partner (R610): context, area reference, bytes, poison -/
  mirror : List (Nat × Nat × List Byte × Bool) := []
  pair : Pair := {}
  /-- R324, R395 -/
  servo : Servo := {}
  /-- units that wait for a quick test: 32 × slice + unit index (R600) -/
  quickQ : List Nat := []
  /-- OUT_OF_SERVICE of the units without a status register: Particles and Agreement units, by 32 × slice + unit index -/
  oos : Map Bool := []
  /-- Inflector programs by acceptance number, and the program on each Inflector (2 × slice + i) -/
  infRuns : Map InfRun := []
  infUnits : Map Nat := []
  /-- solves and assemblies by acceptance number (R207), and the program or solve on each Parser, the assembly on each Lexer -/
  solves : Map Solve := []
  asms : Map Asm := []
  parsers : Map Nat := []
  lexers : Map Nat := []
  /-- tiles to count toward continuation handles (R168) -/
  contQ : List ContCount := []
  /-- handle tables, 1,024 × partition + handle (R427) -/
  handles : Map HandleEnt := []
  /-- remote signals waiting to leave (R316) -/
  outSigs : List OutSig := []
  particles : Map Particle := []
  /-- Particles saved with their contexts (R276, R298), by logical Particle; page moves under way, and the number of the last
  placement epoch that ended, by partition (R288) -/
  saved : Map SavedCore := []
  pmoves : List PMove := []
  epochs : Map Nat := []
  /-- strobes written to write-only setup bits and changes of enable bits, by 64 × offset + bit: 1 + the writer's origin code -/
  strobes : Map Nat := []
  /-- translations cached at the ring stops (R508), by 2^32 × slice + 64 KiB page number -/
  xcache : Map XEnt := []
  /-- cached table entries of levels 0 to 2 (R508), by 2^48 × partition + 2^40 × level + index bits -/
  xtab : Map Nat := []
  /-- faults that a walk has recorded and that its requester has yet to meet: partition, DVA, write -/
  xseen : List (Nat × Nat × Bool) := []
  /-- host functions (R489), outstanding reads by tracker index (R498), finished reads, and what has been sent -/
  fns : Map Fn := []
  trackers : Map Tracker := []
  answers : List HostAns := []
  hostOut : List HostOut := []
  /-- submission rings by 16 × partition + i, released counts and reservations by 5 × partition + ring (4 is the event ring) -/
  sqs : Map Sq := []
  rcs : Map Nat := []
  cqRes : Map Nat := []
  /-- events lost since the last EVENTS_LOST, by partition -/
  eqLost : Map Nat := []
  /-- accepted descriptors by acceptance number -/
  descs : Map Desc := []
  nextDesc : Nat := 0
  /-- activities that hold maintenance tokens (R604) -/
  acts : List Act := []
  /-- I3C, JTAG and the pins (R631, R656, R660 to R662) -/
  i3c : I3c := {}
  jtag : Jtag := {}
  pins : Pins := {}
  /-- fuses and flash (R553 to R557, R599); power and calibration (chapter 19); custody and field tests in progress -/
  nvm : Nvm := {}
  pwr : Pwr := {}
  cust : Custody := {}
  field : Field := {}
deriving DecidableEq, Repr

/-- The machine right after reset (DESIGN CHOICE, assumption log 7) (DESIGN CHOICE, assumption log 92). -/
def State.reset : State := {}

end Sys2Proof.Machine
end

