-- ==== Sys2Proof/Machine/Ops.lean ====
section
/-! DEFINITION. The named operations over registers, memories and Conjunctions that the meanings share. -/

namespace Sys2Proof.Machine

/-- What a command answers. -/
abbrev Res := Host.Outcome State Fault Refusal

/-- A command that names a unit that exists, or stops (DESIGN CHOICE, assumption log 3). -/
def guardUnit (ok : Bool) (r : Res) : Res := if ok then r else .fault .noSuchUnit
/-- What a command does: its effect `t` on everything but the queue of commands that wait (DESIGN CHOICE, assumption log 4). -/
def ran (s t : State) : Res := .next { t with pending := s.pending }

/-! ### Setup registers as the hardware reads and writes them -/

/-- The value of the register at an offset. -/
def regGet (s : State) (off : Nat) : Nat := (mapGet (regReset off) s.regs off).toNat

/-- Writes a whole register (hardware). -/
def regSet (s : State) (off v : Nat) : State :=
  { s with regs := mapSet (regReset off) s.regs off (BitVec.ofNat 64 v) }

/-- A field of a register. -/
def fld (s : State) (off hi lo : Nat) : Nat := bits (regGet s off) hi lo

/-- R619, R628: STATE of the boot: 0 FUSES to 8 READY, 14 FW_FAIL, 15 FUSE_FAIL. -/
def bootState (s : State) : Nat := fld s aSYN_BOOT 3 0
/-- R619: do the clocks run, Tense among them (DESIGN CHOICE, assumption log 1) (DEDUCED, assumption log 91). -/
def clocksRun (s : State) : Bool := decide (2 ≤ bootState s) && bootState s != 15
/-- R625: is the device READY. -/
def devReady (s : State) : Bool := bootState s == 8

/-- A timed command: the Tense value it carries never runs backward (R322), and Tense stands still until the clocks run (DESIGN CHOICE, assumption log 5). -/
def atTime (s : State) (now : Nat) : State :=
  if clocksRun s then { s with tense := BitVec.ofNat 64 (max s.tense.toNat now) } else s

/-- R569, R572, R603: does the dispatcher place nothing on a slice: work held for power, thermal hold, or an activity that takes the
slice out of service. -/
def sliceHeld (s : State) (sl : Nat) : Bool :=
  s.pwr.held.contains sl || s.pwr.therm.contains sl || s.acts.any fun a => a.slice == sl && (a.kind == 1 || a.kind == 2 || a.kind == 4)
/-- R586: STATE of PWR_STATUS: 0 RUN, 1 ENTERING, 2 ELLIPSIS, 3 WAKING. -/
def pwrState (s : State) : Nat := fld s aPWR_STATUS 1 0
/-- R583: is the device in Ellipsis. -/
def inEllipsis (s : State) : Bool := pwrState s == 2
/-- R583, R585: an arrival asks for a wake: source `src` where PWR_WAKE_EN enables it, 5 always. -/
def wakeBy (s : State) (src : Nat) : State :=
  if (pwrState s == 1 || pwrState s == 2) && s.wakeWant.isNone && (decide (5 ≤ src) || bit (fld s aPWR_WAKE_EN 4 0) src) then
    { s with wakeWant := some src }
  else s

/-- Writes a field of a register (hardware). -/
def setFld (s : State) (off hi lo v : Nat) : State := regSet s off (setBits (regGet s off) hi lo v)

/-- Sets one bit of a register. -/
def setBitOf (s : State) (off i : Nat) : State := setFld s off i i 1

/-- Clears one bit of a register. -/
def clrBitOf (s : State) (off i : Nat) : State := setFld s off i i 0

/-- R11: adds to a saturating counter field. -/
def satFld (s : State) (off hi lo n : Nat) : State := setFld s off hi lo (satAdd (hi + 1 - lo) (fld s off hi lo) n)

/-! ### Domains, partitions and routes -/

/-- R566: is power domain `n` on. -/
def domOn (s : State) (n : Nat) : Bool := fld s (aPWR_DOM n) 16 16 == 1
/-- R566: compute domain of a slice. -/
def computeOn (s : State) (k : Nat) : Bool := domOn s k
/-- R566: scratchpad domain of a slice. -/
def scratchOn (s : State) (k : Nat) : Bool := domOn s (12 + k)
/-- R566: stack controller domain of a slice. -/
def stackOn (s : State) (k : Nat) : Bool := domOn s (24 + k)
/-- R354, R360: is stack `k` online. -/
def stackOnline (s : State) (k : Nat) : Bool := fld s (aHBM_STATUS k) 10 10 == 1

/-- R564: STATE of PART_CFG: 0 FREE, 1 FORMING, 2 ACTIVE, 3 TEARDOWN. -/
def partState (s : State) (k : Nat) : Nat := fld s (aPART_CFG k) 13 12
/-- R564: is partition `k` ACTIVE. -/
def partActive (s : State) (k : Nat) : Bool := partState s k == 2
/-- R544: the slices of a partition, rising; none while it is FREE. -/
def partSlices (s : State) (k : Nat) : List Nat :=
  if partState s k = 0 then [] else (List.range 12).filter fun i => bit (fld s (aPART_CFG k) 11 0) i
/-- R544: the partition that owns a slice. -/
def sliceOwner (s : State) (sl : Nat) : Option Nat := (List.range 12).find? fun k => (partSlices s k).contains sl

/-- R18: hops between two ring positions of one die. -/
def ringHops (i j : Nat) : Nat := let d := if i ≤ j then j - i else i - j; min d (6 - d)

/-- R19, R23: the stages that ring and bridge add between two slices. -/
def ringH (a b : Nat) : Nat :=
  if a / 6 = b / 6 then 4 * ringHops (a % 6) (b % 6)
  else
    let w := if a < 6 then a else b
    let e := if a < 6 then b - 6 else a - 6
    -- pair A joins S1 and S10, pair B joins S4 and S7
    let ha := ringHops w 1 + ringHops e 4
    let hb := ringHops w 4 + ringHops e 1
    4 * min ha hb + 8

/-- The slice of least R23 entry from `from_`, lowest slice number on a tie (DEDUCED, assumption log 40). -/
def nearest (from_ : Nat) : List Nat → Option Nat
  | [] => none
  | k :: r =>
    match nearest from_ r with
    | none => some k
    | some b => if ringH from_ k < ringH from_ b ∨ (ringH from_ k = ringH from_ b ∧ k < b) then some k else some b

/-! ### Contexts -/

/-- The context record. -/
def ctxOf (s : State) (c : Nat) : Ctx := mapGet {} s.ctxs c
/-- The scheduling record of a context. -/
def runOf (s : State) (c : Nat) : CtxRun := mapGet {} s.runs c
/-- Changes a context record. -/
def updCtx (s : State) (c : Nat) (f : Ctx → Ctx) : State := { s with ctxs := mapUpd {} s.ctxs c f }
/-- R438: sets INDET of a context. -/
def markIndet (s : State) (c : Nat) : State := updCtx s c fun x => { x with indet := true }
/-- R438: sets UNRECORDED of a context where its Gloss is open. -/
def markUnrec (s : State) (c : Nat) : State := updCtx s c fun x => { x with unrec := x.unrec || x.glossOpen }
/-- R462: ORs step flags into a context's. -/
def orSflags (s : State) (c fl : Nat) : State := if fl = 0 then s else updCtx s c fun x => { x with sflags := x.sflags ||| fl }
/-- Changes a scheduling record. -/
def updRun (s : State) (c : Nat) (f : CtxRun → CtxRun) : State := { s with runs := mapUpd {} s.runs c f }
/-- Contexts of a partition that exist. -/
def liveCtxs (s : State) (k : Nat) : List Nat := ((List.range 8).map (8 * k + ·)).filter fun c => (ctxOf s c).live
/-- Is a context the running one of its partition (R297). -/
def ctxRunning (s : State) (c : Nat) : Bool :=
  (ctxOf s c).live && ((runOf s c).st == .running || (runOf s c).st == .stopping)
/-- R546: is a key assigned to partition `k`. -/
def partHasKey (s : State) (k key : Nat) : Bool :=
  (List.range 8).any fun j => fld s (aPART_KEY k j) 31 31 == 1 && fld s (aPART_KEY k j) 15 0 == key
/-- Does any partition hold a context (R324). -/
def anyContext (s : State) : Bool := s.ctxs.any fun p => p.2.live

/-! ### Byte memories with poison -/

/-- One byte (DESIGN CHOICE, assumption log 10). -/
def memByte (m : Mem) (a : Nat) : Byte := mapGet 0#8 m.cells a
/-- `n` bytes. -/
def memBytes (m : Mem) (a n : Nat) : List Byte := (List.range n).map fun i => memByte m (a + i)
/-- Is any 32-byte unit of a range poisoned (DESIGN CHOICE, assumption log 10). -/
def memPoison (m : Mem) (a n : Nat) : Bool :=
  m.poison.any fun p => p.2 && decide (a / 32 ≤ p.1) && decide (p.1 * 32 < a + n)
/-- Writes one byte, keeping the canonical form. -/
def memSetByte (m : Mem) (a : Nat) (b : Byte) : Mem := { m with cells := mapSet 0#8 m.cells a b }
/-- Writes bytes, without touching poison. -/
def memPut (m : Mem) : Nat → List Byte → Mem
  | _, [] => m
  | a, b :: r => memPut (memSetByte m a b) (a + 1) r
/-- R279, R340, R347: what a write does to the poison of each unit it touches (DEDUCED, assumption log 93). -/
def memMark (m : Mem) (a n : Nat) (poison : Bool) : Mem :=
  if n = 0 then m
  else
    let us := (List.range ((a + n - 1) / 32 + 1 - a / 32)).map (a / 32 + ·)
    { m with poison := us.foldl (fun pm u =>
        if poison then mapIns pm u true
        else if decide (a ≤ u * 32) && decide (u * 32 + 32 ≤ a + n) then mapDel pm u else pm) m.poison }
/-- A write: bytes, and poison as R279 and R340 say (DEDUCED, assumption log 93). -/
def memWrite (m : Mem) (a : Nat) (bs : List Byte) (poison : Bool) : Mem := memMark (memPut m a bs) a bs.length poison
/-- The canonical form of a memory. -/
def Mem.wf (m : Mem) : Bool := mapWf 0#8 m.cells && mapWf false m.poison
/-- Drops every byte and every mark of poison in a range (a wipe, or a page zeroed with whole-unit writes). -/
def memZero (m : Mem) (a n : Nat) : Mem :=
  { cells := m.cells.filter fun p => decide (p.1 < a) || decide (a + n ≤ p.1)
    poison := m.poison.filter fun p => decide (p.1 * 32 + 32 ≤ a) || decide (a + n ≤ p.1 * 32) }

/-! ### Stacked memory (R334 to R336) -/

/-- R335: bytes of partition memory per stack: 64 pseudo-channels of 4,192,256 granules. -/
def stackBytes : Nat := 64 * 4192256 * 256

/-- R336: the place of partition memory address `a` in a partition of the given stacks. -/
def locate (stks : List Nat) (a : Nat) : Nat × Nat × Nat × Nat :=
  let g := a / 256
  let n := 64 * stks.length
  let q := g / n
  let r := g % n
  let f := (bits q 9 0 ^^^ bits q 19 10) ^^^ bits q 21 20
  let p := (r + f) % n
  (stks.getD (p / 64) 0, p % 64, q, a % 256)

/-- The model's index of a byte of stacked memory. -/
def hbmIx (stack pc l off : Nat) : Nat := stack * 2 ^ 36 + pc * 2 ^ 30 + l * 256 + off

/-- The model's index of partition memory address `a` of partition `k`. -/
def pmIx (s : State) (k a : Nat) : Nat :=
  let (st, pc, l, o) := locate (partSlices s k) a
  hbmIx st pc l o

/-- R336: size of a partition's memory. -/
def pmSize (s : State) (k : Nat) : Nat := stackBytes * (partSlices s k).length

/-- R354: does a range of partition memory touch an offline stack. -/
def pmOffline (s : State) (k a n : Nat) : Bool :=
  (List.range ((a + n - 1) / 256 + 1 - a / 256)).any fun i =>
    !stackOnline s (locate (partSlices s k) (256 * (a / 256 + i))).1

/-- R340, R354: reads partition memory: zeros with poison from an offline stack. -/
def pmRead (s : State) (k a n : Nat) : List Byte × Bool :=
  let bs := (List.range n).map fun i =>
    if stackOnline s (locate (partSlices s k) (a + i)).1 then memByte s.hbm (pmIx s k (a + i)) else 0
  (bs, pmOffline s k a n ||
    (List.range ((a + n + 31) / 32 - a / 32)).any fun i => memPoison s.hbm (pmIx s k (32 * (a / 32 + i))) 1)

/-- Bytes cut where granules of 256 bytes end. -/
def splitAtGran (g : Nat) : Nat → Nat → List Byte → List (Nat × List Byte)
  | 0, _, _ => []
  | fuel + 1, a, bs =>
    if bs.isEmpty then []
    else
      let k := g - a % g
      (a, bs.take k) :: splitAtGran g fuel (a + k) (bs.drop k)

/-- R338, R354: writes partition memory; writes to an offline stack are discarded. -/
def pmWrite (s : State) (k a : Nat) (bs : List Byte) (poison : Bool) : State :=
  (splitAtGran 256 (bs.length / 256 + 2) a bs).foldl (fun s p =>
    if stackOnline s (locate (partSlices s k) p.1).1 then
      { s with hbm := memWrite s.hbm (pmIx s k p.1) p.2 poison } else s) s

/-! ### Translation (R501 to R507) -/

/-- R505: page size at a level. -/
def xPage (lvl : Nat) : Nat := match lvl with | 1 => 2 ^ 30 | 2 => 2 ^ 21 | 3 => 2 ^ 16 | _ => 2 ^ 39
/-- Index into the table of a level (spec/16_host_link.md, Address translation). -/
def xIndex (dva lvl : Nat) : Nat :=
  match lvl with | 0 => bits dva 47 39 | 1 => bits dva 38 30 | 2 => bits dva 29 21 | _ => bits dva 20 16
/-- R503: is a table-space address in the setup or the Conjunction window. -/
def inWindow (t : Nat) : Bool :=
  (decide (0xF000000000 ≤ t) && decide (t ≤ 0xF000FFFFFF)) || (decide (0xF100000000 ≤ t) && decide (t ≤ 0xF10002FFFF))

/-- R506: fault causes. -/
def xNOT_VALID : Nat := 1
/-- R506. -/
def xRESERVED : Nat := 2
/-- R506. -/
def xWRITE : Nat := 3
/-- R506. -/
def xOUTSIDE : Nat := 4
/-- R506. -/
def xWALK_TARGET : Nat := 5
/-- R506. -/
def xPOISON : Nat := 6
/-- R506. -/
def xHOST_OFF : Nat := 7

/-- R505: the walk, from level `lvl`; the error is (cause, level). -/
def xWalk (s : State) (k dva : Nat) : Nat → Nat → Nat → Except (Nat × Nat) XEnt
  | 0, _, lvl => .error (xRESERVED, lvl)
  | fuel + 1, t, lvl =>
    if inWindow t then .error (xWALK_TARGET, lvl)
    else if pmSize s k < t + 8 * (xIndex dva lvl + 1) then .error (xOUTSIDE, lvl)
    else
      let (bs, po) := pmRead s k (t + 8 * xIndex dva lvl) 8
      let e := leNat bs
      if po then .error (xPOISON, lvl)
      else if !bit e 0 then .error (xNOT_VALID, lvl)
      else if bit e 1 then
        let oa := e / 65536 * 65536
        if !bit e 3 && decide (pmSize s k < oa + xPage lvl) then .error (xOUTSIDE, lvl)
        else if lvl = 0 || bits e 7 6 != 0 || bits e 15 8 != 0 || oa % xPage lvl != 0
            || (!bit e 3 && (bit e 4 || bit e 5)) then .error (xRESERVED, lvl)
        else .ok { oa := oa + dva % xPage lvl, host := bit e 3, w := bit e 2, lvl := lvl, noSnoop := bit e 4, relaxed := bit e 5 }
      else if lvl = 3 || bits e 7 2 != 0 then .error (xRESERVED, lvl)
      else
        let nx := e / 256 * 256
        if lvl != 2 && nx % 4096 != 0 then .error (xRESERVED, lvl)
        else xWalk s k dva fuel nx (lvl + 1)

/-- What an access meets. -/
inductive XRes where
  /-- partition memory address -/
  | pm (a : Nat)
  /-- host address, with NOSNOOP and RO -/
  | host (a : Nat) (ns ro : Bool)
  /-- cause and level -/
  | fault (cause lvl : Nat)
deriving DecidableEq, Repr

/-- R508: the ring stop that serves a request from slice `sl` (48 and above: outside the slices) of partition `k`. -/
def xStop (s : State) (k sl : Nat) : Nat := if (partSlices s k).contains sl then sl else (partSlices s k).headD 0

/-- R510: translation of one access: the cached entry of the ring stop, else a walk; while EN is 0, NOT_VALID at level 0. -/
def xFind (s : State) (k stop dva : Nat) : Except (Nat × Nat) XEnt :=
  if fld s (aPART_XLAT k) 0 0 = 0 then .error (xNOT_VALID, 0)
  else
    match mapFind s.xcache (stop * 2 ^ 32 + dva / 65536) with
    | some e => .ok { e with oa := e.oa + dva % 65536 }
    | none => xWalk s k dva 4 (fld s (aPART_XLAT k) 51 12 * 4096) 0

/-- R505: use, at every access. -/
def xUse (s : State) (k : Nat) (e : XEnt) (write : Bool) : XRes :=
  if write && !e.w then .fault xWRITE e.lvl
  else if e.host && fld s (aPART_XLAT k) 1 1 == 0 then .fault xHOST_OFF e.lvl
  else if e.host then .host e.oa e.noSnoop e.relaxed
  else .pm e.oa

/-- R458: the views of a partition's contexts: context and view. -/
def partViews (s : State) (k : Nat) : List (Nat × View) :=
  (s.ctxs.filter fun c => c.1 / 8 == k).flatMap fun c => c.2.views.map fun v => (c.1, v)

/-- R458, R467: where a device virtual address lies after the exchanges of the views that hold it. -/
def viewPlace (s : State) (k dva : Nat) : Nat :=
  (partViews s k).foldl (fun a cv =>
    let v := cv.2
    if v.spad || !v.swapped then a
    else if v.vc ≤ dva ∧ dva < v.vc + v.bytes then v.vs + (dva - v.vc)
    else if v.vs ≤ dva ∧ dva < v.vs + v.bytes then v.vc + (dva - v.vs)
    else a) dva

/-- Translates one access by a unit of slice `sl`. A DVA is 48 bits. -/
def xlat (s : State) (k sl dva : Nat) (write : Bool) : XRes :=
  match xFind s k (xStop s k sl) (viewPlace s k (dva % 2 ^ 48)) with
  | .ok e => xUse s k e write
  | .error (c, l) => .fault c l

/-- The pieces of a DVA range, cut at 64 KiB pages: address and length. -/
def dvaPieces : Nat → Nat → Nat → List (Nat × Nat)
  | 0, _, _ => []
  | fuel + 1, a, n =>
    if n = 0 then []
    else
      let m := min n (65536 - a % 65536)
      (a, m) :: dvaPieces fuel (a + m) (n - m)

/-- The first translation fault of a range: DVA, cause and level. -/
def dvaFault (s : State) (k sl a n : Nat) (write : Bool) : Option (Nat × Nat × Nat) :=
  (dvaPieces (n / 65536 + 2) a n).findSome? fun p =>
    match xlat s k sl p.1 write with
    | .fault c l => some (p.1, c, l)
    | _ => none

/-- Does a DVA range reach host memory anywhere. -/
def dvaHost (s : State) (k sl a n : Nat) (write : Bool) : Bool :=
  (dvaPieces (n / 65536 + 2) a n).any fun p => match xlat s k sl p.1 write with | .host _ _ _ => true | _ => false

/-- Reads a DVA range that lies in partition memory: bytes and poison. -/
def dvaRead (s : State) (k sl a n : Nat) : List Byte × Bool :=
  (dvaPieces (n / 65536 + 2) a n).foldl (fun acc p =>
    match xlat s k sl p.1 false with
    | .pm x => let (bs, po) := pmRead s k x p.2; (acc.1 ++ bs, acc.2 || po)
    | _ => (acc.1 ++ List.replicate p.2 0, acc.2)) ([], false)

/-- Writes a DVA range that lies in partition memory, whatever view it belongs to. -/
def dvaPut (s : State) (k sl a : Nat) (bs : List Byte) (poison : Bool) : State :=
  (splitAtGran 65536 (bs.length / 65536 + 2) a bs).foldl (fun s p =>
    match xlat s k sl p.1 true with
    | .pm x => pmWrite s k x p.2 poison
    | _ => s) s

/-! ### Conjunctions (R305 to R316) -/

/-- Number of Conjunctions (R17). -/
def conjTotal : Nat := 12288
/-- One Conjunction. -/
def conjOf (s : State) (j : Nat) : Conj := mapGet {} s.conj j
/-- Changes one Conjunction. -/
def updConj (s : State) (j : Nat) (f : Conj → Conj) : State := { s with conj := mapSet {} s.conj j (f (conjOf s j)) }
/-- R306: has count `c` reached target `t`. -/
def reached (c t : W32) : Bool := decide ((c - t).toNat < 2 ^ 31)
/-- R306, R307: does a wait on a Conjunction end. -/
def waitOver (c : Conj) (t : W32) : Bool := reached c.count t || c.error

/-- R274, R308: does a Conjunction carry the key. -/
def conjKeyOk (s : State) (j : Nat) (key : BitVec 16) : Bool :=
  decide (j < conjTotal) && decide (key ≠ 0#16) && decide ((conjOf s j).key = key)

/-- The Particle record. -/
def partOf (s : State) (p : Nat) : Particle := mapGet {} s.particles p
/-- Changes a Particle record. -/
def updPart (s : State) (p : Nat) (f : Particle → Particle) : State := { s with particles := mapUpd {} s.particles p f }
/-- Changes a Particle's core. -/
def updCore (s : State) (p : Nat) (f : PCore → PCore) : State := updPart s p fun q => { q with core := f q.core }
/-- Changes a Particle's control window. -/
def updCtl (s : State) (p : Nat) (f : PCtl → PCtl) : State := updCore s p fun c => { c with ctl := f c.ctl }

/-- R270: interrupt numbers of PRT_IRQ_PEND. -/
def irqWAIT : Nat := 0
/-- R270. -/
def irqQSPACE : Nat := 1
/-- R270. -/
def irqTIMER : Nat := 2
/-- R270. -/
def irqNOTICE : Nat := 3

/-- R275: raises an interrupt of a Particle. -/
def raiseIrq (s : State) (p i : Nat) : State :=
  updCtl s p fun c => { c with irqPend := c.irqPend ||| 2 ^ i }

/-- R273: with WAIT enabled, the WAIT interrupt is raised in every Particle whose PRT_WAITSET condition is met. -/
def wakeWaiters (s : State) (j : Nat) : State :=
  s.particles.foldl (fun s p =>
    let c := p.2.core.ctl
    if p.2.lp.isSome && bit c.irqEn irqWAIT && c.waitset.toNat % 2 ^ 14 == j
        && waitOver (conjOf s j) (c.waitset.extractLsb' 32 32) then raiseIrq s p.1 irqWAIT else s) s

/-- R306, R307, R309: SIGNAL (n, error), without a key check. -/
def conjApply (s : State) (j n : Nat) (err : Bool) : State :=
  wakeWaiters (updConj s j fun c => { c with count := c.count + BitVec.ofNat 32 n, error := c.error || err }) j

/-- R308, R316, R148: a signal whose key fails at the Conjunction is discarded and counted in SLC_CONJ_DROP. -/
def conjSignal (s : State) (j n : Nat) (err : Bool) (key : BitVec 16) : State :=
  if conjKeyOk s j key then conjApply s j n err
  else
    let a := aSLC_CONJ_DROP (j / 1024)
    if conjTotal ≤ j then s
    else setFld (setFld (satFld s a 31 0 1) a 47 32 key.toNat) a 61 48 j

/-- R305: a freed Conjunction takes its reset state. -/
def conjFree (s : State) (j : Nat) : State := { s with conj := mapDel s.conj j }

/-! ### Scratchpad of a context (R281, R282, R288, R300) -/

/-- R278. -/
def pageBytes : Nat := 65536
/-- R281: bytes of a partition's scratchpad space. -/
def spaceBytes (s : State) (k : Nat) : Nat := 47 * 1048576 * (partSlices s k).length
/-- The model's index of a byte of physical scratchpad. -/
def spmIx (sl page off : Nat) : Nat := sl * 50331648 + page * 65536 + off

/-- R281: does a range lie inside the partition's scratchpad. -/
def inSpace (s : State) (k a n : Nat) : Bool := decide (a + n ≤ spaceBytes s k)

/-- Physical pages of a slice that contexts hold. -/
def usedPages (s : State) (sl : Nat) : List Nat :=
  (s.ctxs.flatMap fun c => c.2.pages.filterMap fun p =>
    match p.2.phys with
    | some (k, q) => if k = sl then some q else none
    | none => none) ++ s.pmoves.filterMap fun m => if m.sl = sl then some m.q else none

/-- The lowest physical page of a slice that nothing holds, below a limit on pages in use. -/
def freePage (s : State) (sl limit : Nat) : Option Nat :=
  let u := usedPages s sl
  if u.length < limit then (List.range 768).find? fun q => !u.contains q else none

/-- R287: the hint that governs a page: role, reuse and the page's index within its region. -/
def hintOf (hs : List Hint) (page : Nat) : Nat × Nat × Nat :=
  hs.foldl (fun a h => if h.page ≤ page ∧ page < h.page + h.pages then (h.role, h.reuse, page - h.page) else a) (0, 1, 0)

/-- R282, R288: the slice and physical page that a first write allocates. `w`: the writer's slice. -/
def allocPage (s : State) (c page w : Nat) : Option (Nat × Nat) :=
  let sls := partSlices s (c / 8)
  let (role, _, ix) := hintOf (ctxOf s c).hints page
  let want := if role = 1 ∨ role = 4 then sls.getD (ix % max 1 sls.length) 0
    else if sls.contains w then w else sls.headD 0
  -- R508, R541: a writer outside the partition's slices counts from the partition's lowest slice (DEDUCED, assumption log 40)
  match freePage s want 752 with
  | some q => some (want, q)
  | none =>
    match nearest want (sls.filter fun k => (freePage s k 752).isSome) with
    | some k => (freePage s k 752).map fun q => (k, q)
    | none => none

/-- One page of a context. -/
def pageOf (s : State) (c page : Nat) : Page := mapGet {} (ctxOf s c).pages page

/-- R282, R300: allocates the pages of a range that a write touches, zeroed with whole-unit writes; an unallocated page of a
context that is not running counts as saved (DEDUCED, assumption log 40). -/
def spAlloc (s : State) (c w a n : Nat) : State :=
  if n = 0 then s
  else
    ((List.range ((a + n - 1) / pageBytes + 1 - a / pageBytes)).map (a / pageBytes + ·)).foldl (fun s pg =>
      let p := pageOf s c pg
      let s := match p.phys, p.st with
        | none, .resident =>
          if !ctxRunning s c then updCtx s c fun x => { x with pages := mapIns x.pages pg { p with st := .saved } }
          else
            match allocPage s c pg w with
            | some (k, q) =>
              updCtx { s with spm := memZero s.spm (spmIx k q 0) pageBytes } c
                fun x => { x with pages := mapIns x.pages pg { p with phys := some (k, q) } }
            | none => s
        | _, _ => s
      updCtx s c fun x => { x with pages := mapIns x.pages pg { (pageOf s c pg) with written := true } }) s

/-- R22: does a range touch an allocated page whose slice's scratchpad domain is off. -/
def spOff (s : State) (c a n : Nat) : Bool :=
  (List.range ((a + n + pageBytes - 1) / pageBytes - a / pageBytes)).any fun i =>
    match (pageOf s c (a / pageBytes + i)).phys with
    | some (k, _) => !scratchOn s k
    | none => false

/-- R299, R467: device virtual address of a page of a context in its save image. -/
def imageAt (s : State) (c page : Nat) : Nat := (ctxOf s c).saveSpm + pageBytes * (pageOf s c page).img.getD page

/-- R300: does the save image hold a page. -/
def inImage (p : Page) : Bool := p.phys.isNone && p.st == .saved && p.imaged

/-- The model's index of a scratchpad address of a context, where its page has a physical place that is powered. -/
def spIx (s : State) (c a : Nat) : Option Nat :=
  match (pageOf s c (a / pageBytes)).phys with
  | some (k, q) => if scratchOn s k then some (spmIx k q (a % pageBytes)) else none
  | none => none

/-- R22, R282, R300: one byte of a context's scratchpad: zero from an unallocated page or a slice that is off, the image's
from a saved page. -/
def spByte (s : State) (c a : Nat) : Byte :=
  match spIx s c a with
  | some i => memByte s.spm i
  | none =>
    if inImage (pageOf s c (a / pageBytes)) then
      (dvaRead s (c / 8) 48 (imageAt s c (a / pageBytes) + a % pageBytes) 1).1.headD 0
    else 0

/-- Bytes of a context's scratchpad. -/
def spBytes (s : State) (c a n : Nat) : List Byte := (List.range n).map fun i => spByte s c (a + i)

/-- Is any unit of a range of a context's scratchpad poisoned. -/
def spPoison (s : State) (c a n : Nat) : Bool :=
  (List.range ((a + n + 31) / 32 - a / 32)).any fun i =>
    let x := 32 * (a / 32 + i)
    match spIx s c x with
    | some ix => memPoison s.spm ix 1
    | none =>
      inImage (pageOf s c (x / pageBytes)) &&
        (dvaRead s (c / 8) 48 (imageAt s c (x / pageBytes) + x % pageBytes) 1).2

/-- A little-endian number in a context's scratchpad. -/
def spNat (s : State) (c a n : Nat) : Nat := leNat (spBytes s c a n)

/-- Zeroes whole granules of device virtual space. -/
def dvaZero (s : State) (k a n : Nat) : State :=
  (List.range (n / 256)).foldl (fun s i => dvaPut s k 48 (a + 256 * i) (List.replicate 256 0) false) s

/-- R251: a write ends the reservation of every Particle of the context that it meets (DEDUCED, assumption log 21). -/
def breakResv (s : State) (c a n : Nat) : State :=
  if s.particles.any fun p => p.2.core.resv.isSome && p.2.lp.map (· / 64) == some c then
    { s with particles := s.particles.map fun p =>
        match p.2.core.resv with
        | some (r, m) =>
          if p.2.lp.map (· / 64) == some c && decide (r < 2 ^ 32 + a + n) && decide (2 ^ 32 + a < r + m) then
            (p.1, { p.2 with core := { p.2.core with resv := none } })
          else p
        | none => p }
  else s

/-- R22, R279, R282, R300: a write to a context's scratchpad by a unit of slice `w`, whatever view it belongs to: a page of a
context that is saved is written in its image, which the first write allocates. -/
def spPut (s : State) (c w a : Nat) (bs : List Byte) (poison : Bool) : State :=
  let s := breakResv (spAlloc s c w a bs.length) c a bs.length
  (splitAtGran pageBytes (bs.length / pageBytes + 2) a bs).foldl (fun s p =>
    match spIx s c p.1 with
    | some ix => { s with spm := memWrite s.spm ix p.2 poison }
    | none =>
      let pg := p.1 / pageBytes
      let q := pageOf s c pg
      if q.phys.isNone && q.st == .saved then
        let s := if q.imaged then s
          else updCtx (dvaZero s (c / 8) (imageAt s c pg) pageBytes) c fun x =>
            { x with pages := mapIns x.pages pg { q with imaged := true } }
        dvaPut s (c / 8) 48 (imageAt s c pg + p.1 % pageBytes) p.2 poison
      else s) s

/-! ### Views (R458, R459) -/

/-- R208: an area reference's bytes, written whatever view they belong to. -/
def areaPut (s : State) (c w r : Nat) (bs : List Byte) : State :=
  if bit r 63 then spPut s c w (r % 2 ^ 32) bs false else dvaPut s (c / 8) w (r % 2 ^ 48) bs false

/-- R208: an area reference's bytes. -/
def areaGet (s : State) (c w r n : Nat) : List Byte :=
  if bit r 63 then spBytes s c (r % 2 ^ 32) n else (dvaRead s (c / 8) w (r % 2 ^ 48) n).1

/-- What the views make of a write to one 64 KiB piece: `none` where a committed view takes it (with the context whose step
flag VIEW_WRITE it sets), else the context and view of a staged view under CARRY. -/
def viewHit (vs : List (Nat × View)) (spad : Bool) (a : Nat) : Option (Bool × Nat × View) :=
  vs.findSome? fun cv =>
    let v := cv.2
    if v.spad != spad then none
    else if v.vc ≤ a ∧ a < v.vc + v.bytes then some (true, cv.1, v)
    else if v.vs ≤ a ∧ a < v.vs + v.bytes then some (false, cv.1, v)
    else none

/-- R459: sets the bit of a staged page in the region's BITMAP. -/
def carryMark (s : State) (c w : Nat) (v : View) (a : Nat) : State :=
  if v.carry then
    let i := (a - v.vs) / 65536
    let b := leNat (areaGet s c w (v.bitmap + i / 8) 1)
    areaPut s c w (v.bitmap + i / 8) (natLe 1 (b ||| 2 ^ (i % 8)))
  else s

/-- R607, R610, R614: is a context the primary of a MIRROR pair that is PAIRED. -/
def mirrorOn (s : State) (c : Nat) : Bool :=
  fld s aRAS_PAIR 0 0 == 1 && fld s aRAS_PAIR 2 1 == 1 && fld s aRAS_PAIR 3 3 == 0 && fld s aRAS_PAIR_STATUS 2 0 == 2
    && fld s aRAS_PAIR 11 8 == c / 8 && fld s aRAS_PAIR 31 16 == (ctxOf s c).ckey.toNat

/-- R610: a write to a staged view is to be sent to the partner. -/
def mirrorNote (s : State) (c area : Nat) (bs : List Byte) (poison : Bool) : State :=
  if mirrorOn s c then { s with mirror := s.mirror ++ [(c, area, bs, poison)] } else s

/-- R458, R459: a write met by the views, piece by piece: `put` writes one piece. -/
def viewWrite (vs : List (Nat × View)) (spad : Bool) (w : Nat) (put : State → Nat → List Byte → State) (poison : Bool) (s : State)
    (ps : List (Nat × List Byte)) : State :=
  ps.foldl (fun s p =>
    match viewHit vs spad p.1 with
    | some (true, c, _) => updCtx s c fun x => { x with sflags := x.sflags ||| 64 }
    | some (false, c, v) => mirrorNote (carryMark (put s p.1 p.2) c w v p.1) c (if spad then 2 ^ 63 + p.1 else p.1) p.2 poison
    | none => put s p.1 p.2) s

/-- R22, R279, R282, R458: a write to a context's scratchpad by a unit of slice `w`. -/
def spWrite (s : State) (c w a : Nat) (bs : List Byte) (poison : Bool) : State :=
  if ((ctxOf s c).views.any (·.spad)) then
    viewWrite ((ctxOf s c).views.map fun v => (c, v)) true w (fun s a bs => spPut s c w a bs poison) poison s
      (splitAtGran pageBytes (bs.length / pageBytes + 2) a bs)
  else spPut s c w a bs poison

/-- R458: writes a DVA range that lies in partition memory. -/
def dvaWrite (s : State) (k sl a : Nat) (bs : List Byte) (poison : Bool) : State :=
  if (partViews s k).any (fun v => !v.2.spad) then
    viewWrite (partViews s k) false sl (fun s a bs => dvaPut s k sl a bs poison) poison s
      (splitAtGran 65536 (bs.length / 65536 + 2) (a % 2 ^ 48) bs)
  else dvaPut s k sl a bs poison

/-- Adds one to 32-bit saturating counters of a histogram record (R71, R73). -/
def histAdd (s : State) (c w rec_ : Nat) (ixs : List Nat) : State :=
  ixs.foldl (fun s i => spWrite s c w (rec_ + 4 * i) (natLe 4 (satAdd 32 (spNat s c (rec_ + 4 * i) 4) 1)) false) s

end Sys2Proof.Machine
end

