-- ==== Sys2Proof/Machine/Report.lean ====
section
/-! DEFINITION. Report records to the management network, and what a unit's fault does (spec/20_fault_handling.md R593 to R600). -/

namespace Sys2Proof.Machine

/-- R596: classes. -/
def clCORRECTED : Nat := 1
/-- R596. -/
def clCONTAINED : Nat := 2
/-- R596. -/
def clUNIT : Nat := 3
/-- R596. -/
def clFATAL : Nat := 4
/-- R596. -/
def clEVENT : Nat := 5
/-- R596. -/
def clAUDIT : Nat := 6
/-- R596. -/
def clLOST : Nat := 7

/-- R597: drops the oldest pending record of class CORRECTED or EVENT. -/
def rptDrop : List Rpt → Option (List Rpt)
  | [] => none
  | r :: rest =>
    if r.cls = clCORRECTED ∨ r.cls = clEVENT then some rest
    else (rptDrop rest).map (r :: ·)

/-- R597, R614: with RPT_EN set, records go to the management network, at most 16 to a datagram. -/
def mgmtSend (s : State) (rs : List Rpt) : State :=
  if fld s aRAS_CTL 0 0 = 0 then s
  else { s with mgmtOut := s.mgmtOut ++ (List.range ((rs.length + 15) / 16)).map fun i => (rs.drop (16 * i)).take 16 }

/-- R597: a record takes the next RSEQ and is sent; after a discard, a record of class LOST goes first. The record as it
stands in the stream is answered with it (DEDUCED, assumption log 56). -/
def sendRpt (s : State) (r : Rpt) : State × Rpt :=
  let s := if s.rptLost = 0 then s
    else { mgmtSend s [{ tense := s.tense.toNat, seq := s.rseq % 2 ^ 32, cls := clLOST, cause := 0, count := s.rptLost }] with
      rseq := s.rseq + 1, rptLost := 0 }
  let r := { r with tense := s.tense.toNat, seq := s.rseq % 2 ^ 32 }
  ({ mgmtSend s [r] with rseq := s.rseq + 1, rptBuf := mapIns s.rptBuf (s.rseq % 1024) r }, r)

/-- R596, R597: a report record enters the buffer. A class other than FATAL has 960 of the 1,024 places; where they are all
held, the oldest pending CORRECTED or EVENT record gives way, and where there is none the new record is the one counted lost. -/
def postRpt (s : State) (r : Rpt) : State :=
  let limit := if r.cls = clFATAL then 1024 else 960
  let hold (s : State) : State :=
    let (s, r) := sendRpt s r
    { s with reports := s.reports ++ [r] }
  if s.reports.length < limit then hold s
  else
    match rptDrop s.reports with
    | some l => hold (lose { s with reports := l })
    | none => lose s
where
  /-- a record is discarded and counted (R597, R614) -/
  lose (s : State) : State := satFld { s with rptLost := s.rptLost + 1 } aRAS_RPT_STATUS 63 48 1

/-- R596: the 64 bytes of a record. -/
def rptBytes (r : Rpt) : List Byte :=
  natLe 8 r.tense ++ natLe 4 r.seq ++ natLe 1 r.cls ++ natLe 1 r.cause ++ natLe 1 r.part ++ natLe 1 r.slice ++ natLe 1 r.unit ++ natLe 3 0 ++
  natLe 4 r.count ++ ((r.detail.flatMap (natLe 8)) ++ List.replicate 32 0).take 32 ++ natLe 8 0

/-- R597: the records up to RSEQ `seq` are acknowledged. -/
def rptAck (s : State) (seq : Nat) : State :=
  { s with reports := s.reports.filter fun r => !decide ((seq + 2 ^ 32 - r.seq) % 2 ^ 32 < 2 ^ 31) }

/-- R599: the health record of a unit follows RAS_UNIT: STATE, TRIM, OFFSET and FAULTS. -/
def unitSave (s : State) (sl u : Nat) : State :=
  { s with nvm := { s.nvm with health := mapIns s.nvm.health (32 * sl + u) (regGet s (aRAS_UNIT sl u) &&& 0xFFFF00FF) } }

/-- R598: a report; FAULTS of RAS_UNIT counts the reports that name a unit (DESIGN CHOICE, assumption log 81). -/
def report (s : State) (cls cause part slice unit : Nat) (detail : List Nat) : State :=
  let s := if slice < 12 ∧ unit < 18 then unitSave (satFld s (aRAS_UNIT slice unit) 31 16 1) slice unit else s
  postRpt s { tense := 0, seq := 0, cls := cls, cause := cause, part := part, slice := slice, unit := unit, detail := detail }

/-- The partition that owns a slice, as report records name it (R596). -/
def partByte (s : State) (sl : Nat) : Nat := (sliceOwner s sl).getD 0xFF

/-- R599: the status register of a unit of a slice; Particles and Agreement units have none of their own. -/
def unitStatus (sl u : Nat) : Option Nat :=
  if u < 8 then some (aVRB_STATUS sl u)
  else if u = 12 ∨ u = 13 then some (aINF_STATUS sl (u - 12))
  else if u = 16 then some (aPRS_STATUS sl)
  else if u = 17 then some (aLEX_STATUS sl)
  else none

/-- Sets or clears OUT_OF_SERVICE of a unit: in its status register, or in the state where it has none. -/
def unitOos (s : State) (sl u : Nat) (on : Bool) : State :=
  match unitStatus sl u with
  | some a => setFld s a 9 9 (if on then 1 else 0)
  | none => { s with oos := mapSet false s.oos (32 * sl + u) on }

/-- Is a unit OUT_OF_SERVICE. -/
def unitIsOos (s : State) (sl u : Nat) : Bool :=
  match unitStatus sl u with
  | some a => bit (regGet s a) 9
  | none => mapGet false s.oos (32 * sl + u)

/-- Is a unit OUT_OF_SERVICE or RETIRED. -/
def unitOut (s : State) (sl u : Nat) : Bool := unitIsOos s sl u || fld s (aRAS_UNIT sl u) 1 0 == 2
/-- Does a unit take no new work. -/
def unitDown (s : State) (sl u : Nat) : Bool := sliceHeld s sl || unitOut s sl u

/-- R600: a unit waits for its quick test. -/
def wantQuick (s : State) (sl u : Nat) : State :=
  if s.quickQ.contains (32 * sl + u) then s else { s with quickQ := s.quickQ ++ [32 * sl + u] }

end Sys2Proof.Machine
end

