-- ==== Sys2Proof/Machine/Audit.lean ====
section
/-! DEFINITION. The audit log (spec/18_partitions_and_custody.md R559 to R561). -/

namespace Sys2Proof.Machine

/-- R561: entries are sent to the management network. -/
def audMirror (s : State) : Bool := fld s aAUD_CTL 0 0 == 1
/-- R561: pending entries. -/
def audPending (s : State) : Nat := fld s aAUD_STATUS 45 32
/-- R559: SEQ of the next entry. -/
def audNext (s : State) : Nat := fld s aAUD_STATUS 31 0

/-- R559: the 32 bytes of an entry. -/
def audBytes (e : AudEnt) : List Byte :=
  natLe 8 e.tense ++ natLe 4 e.seq ++ natLe 1 e.origin ++ natLe 1 e.kind ++ natLe 1 e.part ++ natLe 1 e.aflags ++
  natLe 4 e.addr ++ natLe 4 e.detail ++ natLe 8 e.value

/-- R596: the record that carries an entry. -/
def audRpt (e : AudEnt) : Rpt :=
  { tense := e.tense, seq := 0, cls := clAUDIT, cause := 0, part := e.part
    detail := (List.range 4).map fun i => leNat (((audBytes e).drop (8 * i)).take 8) }

/-- R559, R561: puts an entry in the ring; with MIRROR_EN it is sent and is pending, and where it overwrites a pending entry
that one is counted lost (DEDUCED, assumption log 56). -/
def audPut (s : State) (e : AudEnt) : State :=
  let n := audNext s
  let e := { e with tense := s.tense.toNat, seq := n }
  let s := if audMirror s ∧ audPending s = 8192 then
      { s with audFirst := if s.audLost = 0 then (n + 2 ^ 32 - 8192) % 2 ^ 32 else s.audFirst, audLost := s.audLost + 1 }
    else s
  let (s, e) := if audMirror s then
      let (s, r) := sendRpt s (audRpt e)
      (setFld s aAUD_STATUS 45 32 (min 8192 (audPending s + 1)), { e with rseq := some r.seq })
    else (s, e)
  setFld { s with audit := mapIns s.audit (n % 8192) e } aAUD_STATUS 31 0 (n + 1)

/-- R560, R561: records a change; after a loss, the entry written next is one of KIND 0Ch. -/
def audit (s : State) (e : AudEnt) : State :=
  let s := if audMirror s ∧ s.audLost ≠ 0 then
      audPut { s with audLost := 0, audFirst := 0 } { kind := 0xC, detail := s.audLost, value := s.audFirst }
    else s
  audPut s e

/-- R561: does HOLD refuse a change, of an origin other than the Syntax core, that is no teardown and no lifecycle request. -/
def audFull (s : State) : Bool := audMirror s && fld s aAUD_CTL 1 1 == 1 && audPending s == 8192

/-- R561: counts a change that HOLD refused, or a refused write that it leaves unrecorded. -/
def audRefused (s : State) : State := satFld s aAUD_STATUS 63 48 1

/-- Records a change made by the Syntax core. -/
def auditCore (s : State) (kind part addr detail value : Nat) : State :=
  audit s { kind := kind, part := part, addr := addr, detail := detail, value := value }

/-- R561: an acknowledgement up to `seq`. -/
def audAck (s : State) (seq : Nat) : State :=
  let n := audNext s
  let behind := (n + 2 ^ 32 - 1 - seq) % 2 ^ 32
  if behind < audPending s then setFld s aAUD_STATUS 45 32 behind else s

end Sys2Proof.Machine
end

