-- ==== Sys2Proof/Machine/Tense.lean ====
section
/-! DEFINITION. The servo of Tense and the PPS input (spec/10_conjunctions_and_tense.md R322 to R329,
spec/23_package_and_signals.md R659). -/

namespace Sys2Proof.Machine

/-- R327: SOURCE. -/
def tnsSource (s : State) : Nat := fld s aTNS_CTL 1 0
/-- R324, R328: LOCKED as it reads: 1 under FREE. -/
def tnsLocked (s : State) : Bool := tnsSource s == 0 || fld s aTNS_STATUS 0 0 == 1
/-- R324, R328: HOLDOVER as it reads: 0 under FREE. -/
def tnsHoldover (s : State) : Bool := tnsSource s != 0 && fld s aTNS_STATUS 2 2 == 1

/-- Changes the servo. -/
def updServo (s : State) (f : Servo → Servo) : State := { s with servo := f s.servo }

/-- R328: SLEWING follows what is left to move. -/
def noteSlew (s : State) : State := setFld s aTNS_STATUS 3 3 (if s.servo.left = 0 then 0 else 1)

/-- R324, R328: LOCKED falls. -/
def tnsUnlock (s : State) : State :=
  if fld s aTNS_STATUS 0 0 = 1 then satFld (setBitOf (clrBitOf s aTNS_STATUS 0) aTNS_STATUS 5) aTNS_STATUS 31 16 1 else s

/-- R329: OFFSET as its 32-bit field holds it; an offset beyond the field shows its nearest end (DEDUCED, assumption log 47). -/
def offField (off : Int) : Nat := toTwos 32 (max (-(2 ^ 31 : Int)) (min (2 ^ 31 - 1) off))

/-- R324: a measurement of `off` units of 125 ps (DEDUCED, assumption log 48). -/
def tnsMeasure (s : State) (off : Int) : State :=
  let s := setFld s aTNS_OFFSET 31 0 (offField off)
  let s := updServo (clrBitOf s aTNS_STATUS 2) fun v => { v with miss := 0 }
  let s :=
    if fld s aTNS_STATUS 4 4 = 0 ∧ !anyContext s ∧ 8000 < off.natAbs then
      -- the single step
      let ns : Int := off / 8
      let s := { s with tense := BitVec.ofNat 64 ((s.tense.toNat : Int) + ns).toNat }
      auditCore (setBitOf (updServo s fun v => { v with left := 0 }) aTNS_STATUS 4) 0xA 0xFF 0 0 (toTwos 64 ns)
    else updServo s fun v => { v with left := off }
  let s := if off.natAbs ≤ 2 then
      let s := updServo s fun v => { v with good := min 8 (v.good + 1) }
      if 8 ≤ s.servo.good then setBitOf s aTNS_STATUS 0 else s
    else
      let s := updServo s fun v => { v with good := 0 }
      if 8 < off.natAbs then tnsUnlock s else s
  noteSlew s

/-- R323, R395: nanoseconds from one expected measurement to the next. -/
def tnsPeriod (s : State) : Nat := if tnsSource s = 1 then 1000000000 else 125000

/-- R324: an expected measurement is missing. -/
def tnsMissing (s : State) : State :=
  let s := updServo s fun v => { v with miss := min 8 (v.miss + 1), good := 0 }
  if 8 ≤ s.servo.miss then setBitOf (tnsUnlock s) aTNS_STATUS 2 else s

/-- R329, R659: a selected edge at Tense `t` and `sub` eighths of a nanosecond: stamped, and measured under SOURCE 01b where it
lies between 0.999 s and 1.001 s after the one before; an earlier edge is ignored (DEDUCED, assumption log 47). -/
def ppsEdge (s : State) (sub : Nat) : State :=
  let t := s.tense.toNat
  let last := regGet s aTNS_PPS_STAMP
  let gap := t - last
  if s.servo.edge ∧ gap < 999000000 then s
  else
    let fresh := !s.servo.edge || decide (1001000000 < gap)
    let s := setBitOf (regSet s aTNS_PPS_STAMP t) aTNS_STATUS 1
    let s := updServo s fun v => { v with edge := true, due := t + tnsPeriod s }
    if tnsSource s ≠ 1 then s
    else if fresh then tnsMissing s
    else
      let x : Int := 8 * t + sub % 8
      let sec : Int := 8000000000
      tnsMeasure s ((x + sec / 2) / sec * sec - x)

/-- PPS_EDGE (R659). `fall`: the edge's direction; `now` and `sub`: Tense at the edge, in whole nanoseconds and eighths. -/
def execPpsEdge (fall : Bool) (now sub : Nat) (s : State) : Res :=
  ran s (if devReady s && fall == (fld s aTNS_CTL 2 2 == 1) then ppsEdge (atTime s now) sub else s)

/-- MISSING_MEASUREMENT (R324): none has come by the time that it was due. -/
def execMissingMeasurement (now : Nat) (s : State) : Res :=
  ran s (
    let s := atTime s now
    if tnsSource s ≠ 0 ∧ s.servo.due < s.tense.toNat then
      tnsMissing (updServo s fun v => { v with due := s.tense.toNat + tnsPeriod s, t1 := none })
    else s)

/-- PPS_ABSENCE (R328). -/
def execPpsAbsence (now : Nat) (s : State) : Res :=
  ran s (
    let s := atTime s now
    if fld s aTNS_STATUS 1 1 = 1 ∧ regGet s aTNS_PPS_STAMP + 1001000000 < s.tense.toNat then
      let s := clrBitOf s aTNS_STATUS 1
      if tnsSource s = 1 then setBitOf s aTNS_STATUS 6 else s
    else s)

/-- R324: one CK90 clock: the phase moves by one step of 125 ps where the slew limit allows, and Tense counts 1, 0 or 2 (DEDUCED, assumption log 48). -/
def tenseClock (s : State) : State :=
  let v := s.servo
  let slew := fld s aTNS_CTL 7 4
  if v.left ≠ 0 ∧ tnsSource s ≠ 0 ∧ 5000 ≤ (v.clk + 1) * slew then
    let d : Int := if 0 < v.left then 1 else -1
    let ph := v.phase + d
    let add : Nat := if ph = 8 then 2 else if ph = -8 then 0 else 1
    noteSlew { s with
      tense := s.tense + BitVec.ofNat 64 add
      servo := { v with left := v.left - d, phase := if ph = 8 ∨ ph = -8 then 0 else ph, clk := 0 } }
  else { s with tense := s.tense + 1, servo := { v with clk := if v.left = 0 then 0 else v.clk + 1 } }

end Sys2Proof.Machine
end

