-- ==== Sys2Proof/Machine/Clock.lean ====
section
/-! DEFINITION. What passes while no command waits: one clock of CK90 once the clocks run (DESIGN CHOICE, assumption log 1). -/

namespace Sys2Proof.Machine

/-- R322: one CK90 clock of Tense; nothing before the clocks run (DESIGN CHOICE, assumption log 1). -/
def idleClock (s : State) : State := if clocksRun s then tenseClock s else s

end Sys2Proof.Machine
end

