-- ==== Sys2Proof/Machine/HostOps.lean ====
section
/-! DEFINITION. Shared operations of the host link: requests, entries, events, strobes and translation
(spec/16_host_link.md, spec/17_command_rings.md). -/

namespace Sys2Proof.Machine

/-- R625, R627: is the host link there: domain 39 is powered and PERST_N is not asserted. -/
def hostUp (s : State) : Bool := domOn s 39 && !s.pins.perst
/-- R625: are memory requests to the BARs answered normally. -/
def barOpen (s : State) : Bool := hostUp s && devReady s

/-! ### Functions and requests (R489, R493 to R500) -/

/-- A function record. -/
def fnOf (s : State) (f : Nat) : Fn := mapGet {} s.fns f
/-- Changes a function record. -/
def updFn (s : State) (f : Nat) (g : Fn → Fn) : State := { s with fns := mapUpd {} s.fns f g }
/-- The function of a partition (R489). -/
def vfOf (k : Nat) : Nat := k + 1
/-- Does a function send requests: enabled, Bus Master Enable set, no function-level reset past sequence 1, and its partition not torn
down (R549). PF0 is always enabled. -/
def fnSends (s : State) (f : Nat) : Bool :=
  let x := fnOf s f
  (f == 0 || x.enabled) && x.bme && x.flr == 0 && (f == 0 || partState s (f - 1) != 3)
/-- Puts something on the host link. -/
def hostSend (s : State) (o : HostOut) : State := { s with hostOut := s.hostOut ++ [o] }

/-- R500: an entry write or its MSI-X message: sent, or held in order. -/
def hostEntry (s : State) (f : Nat) (o : HostOut) : State :=
  if fnSends s f then hostSend s o else updFn s f fun x => { x with held := x.held ++ [o] }

/-- R500: an MSI-X message: sent, or held as a pending bit (DESIGN CHOICE, assumption log 9). -/
def hostMsix (s : State) (f v : Nat) : State :=
  if fnSends s f then hostSend s (.msix f v)
  else updFn s f fun x => { x with msixPend := x.msixPend ||| 2 ^ v }

/-- The lowest tracker index that is free, while the function holds fewer than 256 (R498). -/
def freeTracker (s : State) (f : Nat) : Option Nat :=
  if 256 ≤ (s.trackers.filter fun t => t.2.fn == f).length then none
  else (List.range 768).find? fun i => (mapFind s.trackers i).isNone

/-- R510: TRACKERS of PCI_HOST_STATUS follows the trackers held. -/
def noteTrackers (s : State) : State := setFld s aPCI_HOST_STATUS 41 32 s.trackers.length

/-- R494: how many bytes one read request asks for at most: to the next 4 KiB boundary. -/
def readSpan (addr len : Nat) : Nat := min len (4096 - addr % 4096)

/-- R493 to R498: sends a read request and holds its tracker; `none` while the function may send none (DESIGN CHOICE, assumption log 20). -/
def hostRead (s : State) (f : Nat) (w : HostWork) (addr len : Nat) (ro ns : Bool) : Option State :=
  if fnSends s f then
    match freeTracker s f with
    | some i =>
      let g := (fnOf s f).gen
      let s := { s with trackers := mapIns s.trackers i { fn := f, gen := g, work := w, addr := addr, len := len } }
      some (noteTrackers (hostSend s (.read f (i + 1024 * g) addr len ro ns)))
    | none => none
  else none

/-- R494: the write requests that carry bytes to a host address: at most 512 bytes, none across a 4 KiB boundary (DESIGN CHOICE, assumption log 20). -/
def hostWrite (s : State) (f : Nat) : Nat → Nat → List Byte → Bool → Bool → Bool → State
  | 0, _, _, _, _, _ => s
  | fuel + 1, addr, bs, ep, ro, ns =>
    if bs.isEmpty then s
    else
      let n := min 512 (4096 - addr % 4096)
      hostWrite (hostSend s (.write f addr (bs.take n) ep ro ns)) f fuel (addr + n) (bs.drop n) ep ro ns

/-- Takes the oldest finished read of a piece of work. -/
def takeAnswer (w : HostWork) : List HostAns → Option (HostAns × List HostAns)
  | [] => none
  | a :: r =>
    if a.work = w then some (a, r)
    else (takeAnswer w r).map fun x => (x.1, a :: x.2)

/-- The bytes of a finished read, by increasing address (R495), and whether any arrived with EP. -/
def ansBytes (a : HostAns) : List Byte :=
  a.got.foldl (fun bs g => bs.take g.1 ++ g.2.1 ++ bs.drop (g.1 + g.2.1.length)) (List.replicate a.len 0)
/-- Did any data of a finished read arrive poisoned. -/
def ansPoison (a : HostAns) : Bool := a.got.any fun g => g.2.2

/-! ### Entries and events (R513, R534, R535) -/

/-- R513: the phase of a count. -/
def phaseOf (n c : Nat) : Nat := 1 - c / n % 2

/-- R513, R534, R525: writes the entry of count WC of completion ring `m` (4 is the event ring) and advances WC. `body` is the
first 31 bytes. -/
def ringEntry (s : State) (k m : Nat) (body : List Byte) : State :=
  let a := aPART_CQ_CTL k m
  let n := 2 ^ fld s a 5 1
  let st := aPART_CQ_STATE k m
  let wc := fld s st 31 0
  let bytes := body.take 31 ++ [BitVec.ofNat 8 (128 * phaseOf n wc)]
  let s := hostEntry s (vfOf k) (.write (vfOf k) (regGet s (aPART_CQ_BASE k m) / 4096 * 4096 + wc % n * 32) bytes false false false)
  let wc := (wc + 1) % 2 ^ 32
  let s := setFld (setFld s st 31 0 wc) st 32 32 (phaseOf n wc)
  if fld s a 6 6 = 1 then hostMsix s (vfOf k) (fld s a 10 8) else s

/-- Released count of a ring (R513). -/
def rcOf (s : State) (k m : Nat) : Nat := mapGet 0 s.rcs (5 * k + m)
/-- Reservations held in a completion ring (R521). -/
def resOf (s : State) (k m : Nat) : Nat := mapGet 0 s.cqRes (5 * k + m)
/-- R520, R521: has a ring a free entry beside the reservations. -/
def ringRoom (s : State) (k m : Nat) : Bool :=
  decide ((fld s (aPART_CQ_STATE k m) 31 0 + resOf s k m + 2 ^ 32 - rcOf s k m) % 2 ^ 32 < 2 ^ fld s (aPART_CQ_CTL k m) 5 1)

/-- R535: the first 31 bytes of an event entry. -/
def eventBody (s : State) (code source ckey d0 d1 : Nat) : List Byte :=
  natLe 2 code ++ natLe 2 source ++ natLe 2 ckey ++ natLe 2 0 ++ natLe 8 s.tense.toNat ++ natLe 8 d0 ++ natLe 7 d1

/-- R534: an event that the ring cannot take is counted in LOST (DEDUCED, assumption log 56). -/
def eventLost (s : State) (k : Nat) : State :=
  let s := satFld s (aPART_CQ_STATE k 4) 63 48 1
  { s with eqLost := mapSet 0 s.eqLost k (mapGet 0 s.eqLost k + 1) }

/-- R534, R535: posts an event to a partition's event ring; the first one after a loss follows EVENTS_LOST (DEDUCED, assumption log 56). -/
def postEvent (s : State) (k code source ckey d0 d1 : Nat) : State :=
  if fld s (aPART_CQ_CTL k 4) 0 0 = 1 ∧ ringRoom s k 4 then
    let l := mapGet 0 s.eqLost k
    if l = 0 then ringEntry s k 4 (eventBody s code source ckey d0 d1)
    else
      let s := ringEntry { s with eqLost := mapSet 0 s.eqLost k 0 } k 4 (eventBody s 5 0 0 l 0)
      if ringRoom s k 4 then ringEntry s k 4 (eventBody s code source ckey d0 d1) else eventLost s k
  else eventLost s k

/-! ### Strobes: a one written to a write-only bit, or a change of an enable bit, that its own command carries out -/

/-- Latches a strobe. `v`: 1 + the writer's origin code, or the new value of an enable bit + 1. -/
def strobeSet (s : State) (off b v : Nat) : State := { s with strobes := mapIns s.strobes (64 * off + b) v }
/-- A latched strobe. -/
def strobeOf (s : State) (off b : Nat) : Option Nat := mapFind s.strobes (64 * off + b)
/-- Drops a strobe. -/
def strobeClr (s : State) (off b : Nat) : State := { s with strobes := mapDel s.strobes (64 * off + b) }

/-! ### Translation faults (R506) -/

/-- R506, R510: the image of PART_XLAT_FAULT. -/
def xFaultImage (dva cause lvl : Nat) (write : Bool) : Nat :=
  dva % 2 ^ 48 + cause * 2 ^ 48 + lvl * 2 ^ 56 + (if write then 2 ^ 59 else 0) + 2 ^ 63

/-- R506: records a fault and posts it to the event ring, where its walk has not done so already. -/
def xFault (s : State) (k ckey dva cause lvl : Nat) (write : Bool) : State :=
  if s.xseen.contains (k, dva % 2 ^ 48, write) then
    { s with xseen := s.xseen.erase (k, dva % 2 ^ 48, write) }
  else
  let im := xFaultImage dva cause lvl write
  postEvent (regSet s (aPART_XLAT_FAULT k) im) k 1 0 ckey im 0

/-! ### Area references (R208) -/

/-- R208: does an area reference name the scratchpad. -/
def arSpad (r : Nat) : Bool := bit r 63
/-- R208: the address of an area reference. -/
def arAddr (r : Nat) : Nat := if arSpad r then r % 2 ^ 32 else r % 2 ^ 48
/-- R208: is a reserved bit of an area reference set. -/
def arRsv (r : Nat) : Bool := if arSpad r then bits r 62 32 != 0 else bits r 62 48 != 0

/-- What reaching an area gives: readable here, outside the space, in host memory, or a translation fault (DVA, cause, level). -/
inductive ArRes where
  | ok | outside | host
  | fault (dva cause lvl : Nat)
deriving DecidableEq, Repr

/-- Can `n` bytes of an area of context `c` be reached by a unit of slice `sl`. -/
def arReach (s : State) (c sl r n : Nat) (write : Bool) : ArRes :=
  let k := c / 8
  if arSpad r then (if inSpace s k (arAddr r) n then .ok else .outside)
  else if 2 ^ 48 < arAddr r + n then .outside
  else
    match dvaFault s k sl (arAddr r) n write with
    | some (d, ca, l) => .fault d ca l
    | none => if dvaHost s k sl (arAddr r) n write then .host else .ok

/-- Reads an area that `arReach` finds readable: bytes and poison. -/
def arRead (s : State) (c sl r n : Nat) : List Byte × Bool :=
  if arSpad r then (spBytes s c (arAddr r) n, spPoison s c (arAddr r) n || spOff s c (arAddr r) n)
  else dvaRead s (c / 8) sl (arAddr r) n

/-- Writes an area. -/
def arWrite (s : State) (c sl r : Nat) (bs : List Byte) (poison : Bool) : State :=
  if arSpad r then spWrite s c sl (arAddr r) bs poison
  else dvaWrite s (c / 8) sl (arAddr r) bs poison

/-- A little-endian number in an area, at an offset. -/
def arNat (s : State) (c sl r off n : Nat) : Nat := leNat (arRead s c sl (r + off) n).1

end Sys2Proof.Machine
end

