-- ==== Sys2Proof/Config.lean ====
section
/-! DEFINITION. What an implementation fixes and the values that the spec leaves open: constants without a body. -/

namespace Sys2Proof.Config

/-- A free value for the `n`-th draw of State's counter (DESIGN CHOICE, assumption log 15) (DESIGN CHOICE, assumption log 17) (DESIGN CHOICE, assumption log 76). -/
opaque freeWord : Nat → BitVec 64

/-- Stands for a correctly rounded elementary function where the model's enclosures do not decide the rounding
(function number, sign, mantissa, exponent of the argument) (DESIGN CHOICE, assumption log 2). -/
opaque undecidedFn : Nat → Bool → Nat → Int → BitVec 64

/-- As `undecidedFn`, for the product of a derivative and a tangent (the tangent's sign, mantissa, exponent follow) (DESIGN CHOICE, assumption log 2). -/
opaque undecidedTan : Nat → Bool → Nat → Int → Bool → Nat → Int → BitVec 64

/-- R607, R608: how a LAYOUT message spells its region counts and view sizes: the byte at an offset of the message (DESIGN CHOICE, assumption log 67). -/
opaque pairLayout : List Nat → Nat → BitVec 8

/-- The tangent of FMIN and FMAX where a NaN operand means that neither operand is chosen (R179), by the operands' patterns (DESIGN CHOICE, assumption log 35). -/
opaque nanChoiceTan : BitVec 64 → BitVec 64 → BitVec 64

/-- The derivative of HARM where a + b = 0 (R239 states none), by the binary64 patterns of a and b (DESIGN CHOICE, assumption log 37). -/
opaque harmDeriv : BitVec 64 → BitVec 64 → BitVec 64

/-- R299: the Syntax core's own format of SAVE_CORE: bytes of the image of a save, by draw and offset (DESIGN CHOICE, assumption log 43). -/
opaque coreByte : Nat → Nat → BitVec 8

/-- mvendorid, marchid and mimpid (by CSR number), and mhartid by Particle: the RISC-V specifications leave them to the
implementation (DESIGN CHOICE, assumption log 16). -/
opaque prtIdent : Nat → Nat → BitVec 64

end Sys2Proof.Config
end

