-- ==== Sys2Proof/Machine/Elem.lean ====
section
/-! DEFINITION. Elementary functions as enclosures: each returns its exact mathematical value up to a last sticky bit,
so that one rounding of it is the rounding of the exact value (spec/05_compounds.md R160, R164; spec/06_inflector.md R177, R178). -/

namespace Sys2Proof.Machine

/-- A real enclosed between `lo 2^e` and `hi 2^e`. -/
structure Iv where
  lo : Int
  hi : Int
  e : Int
deriving DecidableEq, Repr

/-- Working precision of the enclosures, in bits. -/
def ivP : Nat := 448

/-- Floor of `a / 2^k`. -/
def flShift (a : Int) (k : Nat) : Int := a.fdiv (2 ^ k : Nat)
/-- Ceiling of `a / 2^k`. -/
def ceShift (a : Int) (k : Nat) : Int := -((-a).fdiv (2 ^ k : Nat))

/-- Outward rounding to `p` bits. -/
def ivNorm (p : Nat) (x : Iv) : Iv :=
  let n := Nat.log2 (max x.lo.natAbs x.hi.natAbs)
  if n ≤ p then x else { lo := flShift x.lo (n - p), hi := ceShift x.hi (n - p), e := x.e + (n - p : Nat) }

/-- An exact value. -/
def ivOf (m e : Int) : Iv := { lo := m, hi := m, e := e }
/-- Sum. -/
def ivAdd (p : Nat) (x y : Iv) : Iv :=
  let e := min x.e y.e
  let a := (x.e - e).toNat
  let b := (y.e - e).toNat
  ivNorm p { lo := x.lo * 2 ^ a + y.lo * 2 ^ b, hi := x.hi * 2 ^ a + y.hi * 2 ^ b, e := e }
/-- Negation. -/
def ivNeg (x : Iv) : Iv := { lo := -x.hi, hi := -x.lo, e := x.e }
/-- Difference. -/
def ivSub (p : Nat) (x y : Iv) : Iv := ivAdd p x (ivNeg y)
/-- Product. -/
def ivMul (p : Nat) (x y : Iv) : Iv :=
  let a := x.lo * y.lo
  let b := x.lo * y.hi
  let c := x.hi * y.lo
  let d := x.hi * y.hi
  ivNorm p { lo := min (min a b) (min c d), hi := max (max a b) (max c d), e := x.e + y.e }
/-- Multiplication by `2^k`. -/
def ivScale (x : Iv) (k : Int) : Iv := { x with e := x.e + k }
/-- Quotient by an enclosure that does not hold zero. -/
def ivDiv (p : Nat) (x y : Iv) : Iv :=
  let s := p + 2 + Nat.log2 (max y.lo.natAbs y.hi.natAbs)
  let fl (a b : Int) : Int := if b = 0 then 0 else (a * 2 ^ s).fdiv b
  let ce (a b : Int) : Int := if b = 0 then 0 else -((-(a * 2 ^ s)).fdiv b)
  ivNorm p
    { lo := min (min (fl x.lo y.lo) (fl x.lo y.hi)) (min (fl x.hi y.lo) (fl x.hi y.hi))
      hi := max (max (ce x.lo y.lo) (ce x.lo y.hi)) (max (ce x.hi y.lo) (ce x.hi y.hi))
      e := x.e - y.e - s }
/-- Quotient by a small natural number. -/
def ivDivNat (p : Nat) (x : Iv) (n : Nat) : Iv := ivDiv p x (ivOf n 0)

/-- Widens an enclosure by the magnitude of another (a bound on a dropped tail). -/
def ivWiden (p : Nat) (x t : Iv) : Iv :=
  let b := max t.lo.natAbs t.hi.natAbs
  ivAdd p x { lo := -(b : Int), hi := b, e := t.e }

/-- The series `Σ_k t_k` with `t_{k+1} = t_k * q / (c k)`: `n` terms, the tail bounded by twice the first term dropped. -/
def ivSeries (p : Nat) (q : Iv) (c : Nat → Nat) : Nat → Nat → Iv → Iv → Iv
  | 0, _, t, acc => ivWiden p acc (ivScale t 1)
  | n + 1, k, t, acc => ivSeries p q c n (k + 1) (ivDivNat p (ivMul p t q) (c k)) (ivAdd p acc t)

/-- `Σ_k z^(2k+1) (±1)^k / (2k+1)`: the powers carried apart from the divisors. -/
def ivOddSeries (p : Nat) (z2 : Iv) : Nat → Nat → Iv → Iv → Iv
  | 0, _, t, acc => ivWiden p acc (ivScale t 1)
  | n + 1, k, t, acc => ivOddSeries p z2 n (k + 1) (ivMul p t z2) (ivAdd p acc (ivDivNat p t (2 * k + 1)))

/-- `atanh z` for `|z| ≤ 1/4`. -/
def ivAtanh (p : Nat) (z : Iv) : Iv := ivOddSeries p (ivMul p z z) (p / 4 + 4) 0 z (ivOf 0 0)
/-- `atan z` for `|z| ≤ 1/4`. -/
def ivAtan (p : Nat) (z : Iv) : Iv := ivOddSeries p (ivNeg (ivMul p z z)) (p / 4 + 4) 0 z (ivOf 0 0)

/-- `1 / n`. -/
def ivInv (p n : Nat) : Iv := ivDiv p (ivOf 1 0) (ivOf n 0)
/-- `ln 2 = 18 atanh(1/26) - 2 atanh(1/4801) + 8 atanh(1/8749)`. -/
def ivLn2 (p : Nat) : Iv :=
  ivAdd p (ivSub p (ivMul p (ivOf 18 0) (ivAtanh p (ivInv p 26))) (ivMul p (ivOf 2 0) (ivAtanh p (ivInv p 4801))))
    (ivMul p (ivOf 8 0) (ivAtanh p (ivInv p 8749)))
/-- `π = 16 atan(1/5) - 4 atan(1/239)`. -/
def ivPi (p : Nat) : Iv :=
  ivSub p (ivMul p (ivOf 16 0) (ivAtan p (ivInv p 5))) (ivMul p (ivOf 4 0) (ivAtan p (ivInv p 239)))

/-- `e^r` for `|r| ≤ 1`. -/
def ivExpSmall (p : Nat) (r : Iv) : Iv := ivSeries p r (fun k => k + 1) (p / 4 + 24) 0 (ivOf 1 0) (ivOf 0 0)
/-- `sinh r / r` or, with the square negated, `sin r / r`, from `±r²`. -/
def ivSinc (p : Nat) (r2 : Iv) : Iv :=
  ivSeries p r2 (fun k => (2 * k + 2) * (2 * k + 3)) (p / 6 + 24) 0 (ivOf 1 0) (ivOf 0 0)
/-- `cosh r` or `cos r`, from `±r²`. -/
def ivCosc (p : Nat) (r2 : Iv) : Iv :=
  ivSeries p r2 (fun k => (2 * k + 1) * (2 * k + 2)) (p / 6 + 24) 0 (ivOf 1 0) (ivOf 0 0)

/-- The integer nearest to the lower end of an enclosure. -/
def ivRound (x : Iv) : Int :=
  if 0 ≤ x.e then x.lo * 2 ^ x.e.toNat else flShift (x.lo + 2 ^ ((-x.e).toNat - 1)) (-x.e).toNat

/-- `e^x`; beyond 2^13 in magnitude a value past every format's range stands in. -/
def ivExp (p : Nat) (x : Iv) : Iv :=
  let n := ivRound x
  if 8192 < n then ivOf 1 11000
  else if n < -8192 then { lo := 0, hi := 1, e := -11000 }
  else
    let ln2 := ivLn2 (p + 16)
    let k := ivRound (ivDiv (p + 16) x ln2)
    let r := ivSub (p + 16) x (ivMul (p + 16) (ivOf k 0) ln2)
    ivNorm p (ivScale (ivExpSmall (p + 16) r) k)

/-- `2^(m 2^e)`. -/
def ivExp2 (p : Nat) (m e : Int) : Iv :=
  let n : Int := if 0 ≤ e then m * 2 ^ e.toNat else flShift m (-e).toNat
  if 8192 < n then ivOf 1 11000
  else if n < -8192 then { lo := 0, hi := 1, e := -11000 }
  else
    let f := ivSub (p + 16) (ivOf m e) (ivOf n 0)
    ivNorm p (ivScale (ivExpSmall (p + 16) (ivMul (p + 16) f (ivLn2 (p + 16)))) n)

/-- `ln(m 2^e)` for a positive `m`. -/
def ivLn (p m : Nat) (e : Int) : Iv :=
  let b : Int := Nat.log2 m
  -- x = 2^(e + b) y with y in [1, 2); y above 3/2 is halved
  let up := decide (3 * 2 ^ (Nat.log2 m) < 2 * m)
  let ex := e + b + (if up then 1 else 0)
  let y := ivOf m (-(b + (if up then 1 else 0)))
  let z := ivDiv (p + 16) (ivSub (p + 16 + Nat.log2 m) y (ivOf 1 0)) (ivAdd (p + 16 + Nat.log2 m) y (ivOf 1 0))
  ivAdd p (ivMul (p + 16) (ivOf ex 0) (ivLn2 (p + 16))) (ivScale (ivAtanh (p + 16) z) 1)

/-- `ln(1 + t)` for an enclosure of a positive `t`. -/
def ivLog1p (p : Nat) (t : Iv) : Iv :=
  -- small t: 2 atanh(t / (2 + t)); otherwise through the ends of 1 + t
  if decide (t.hi.natAbs = 0) || decide ((Nat.log2 t.hi.natAbs : Int) + t.e < -2) then
    ivScale (ivAtanh p (ivDiv p t (ivAdd p t (ivOf 2 0)))) 1
  else
    let u := ivAdd (p + 16) t (ivOf 1 0)
    let a := ivLn p u.lo.natAbs u.e
    let b := ivLn p u.hi.natAbs u.e
    let e := min a.e b.e
    { lo := a.lo * 2 ^ (a.e - e).toNat, hi := b.hi * 2 ^ (b.e - e).toNat, e := e }

/-- `tanh x` for a non-zero `x = m 2^e`. -/
def ivTanh (p : Nat) (m e : Int) : Iv :=
  let x := ivOf m e
  if (Nat.log2 m.natAbs : Int) + e < -1 then
    let r2 := ivMul p x x
    ivMul p x (ivDiv p (ivSinc p r2) (ivCosc p r2))
  else
    let a : Int := m.natAbs
    let t := ivExp p (ivOf (-2 * a) e)
    let v := ivDiv p (ivSub p (ivOf 1 0) t) (ivAdd p (ivOf 1 0) t)
    if m < 0 then ivNeg v else v

/-- `σ(x) = 1 / (1 + e^(-x))`. -/
def ivSigmoid (p : Nat) (m e : Int) : Iv :=
  if m < 0 then
    let t := ivExp p (ivOf m e)
    ivDiv p t (ivAdd p (ivOf 1 0) t)
  else ivDiv p (ivOf 1 0) (ivAdd p (ivOf 1 0) (ivExp p (ivOf (-m) e)))

/-- `φ(x) = e^(-x²/2) / √(2π)`: the root through `isqrt` of a scaled enclosure. -/
def ivSqrt (p : Nat) (x : Iv) : Iv :=
  let k : Nat := 2 * p
  let k := if (x.e - k) % 2 = 0 then k else k + 1
  let r (v : Nat) : Nat := isqrt (v * 2 ^ k)
  ivNorm p { lo := r x.lo.natAbs, hi := r x.hi.natAbs + 1, e := (x.e - k) / 2 }

/-- The standard normal density. -/
def ivPhi (p : Nat) (m e : Int) : Iv :=
  ivDiv p (ivExp p (ivOf (-(m * m)) (2 * e - 1))) (ivSqrt p (ivScale (ivPi p) 1))

/-- `Φ(x)`: beyond 64 in magnitude, 1 or a value past every format's range; otherwise
`Φ(x) = 1/2 + φ(x) Σ x^(2k+1) / (1·3···(2k+1))`, at a precision that survives the cancellation for negative `x`. -/
def ivBigPhi (p : Nat) (m e : Int) : Iv :=
  let n := if 0 ≤ e then m * 2 ^ e.toNat else flShift m (-e).toNat
  if 64 < n then { lo := 2 ^ p - 1, hi := 2 ^ p, e := -(p : Int) }
  else if n < -64 then { lo := 0, hi := 1, e := -11000 }
  else
    let big := 2 * (n.natAbs + 1) * (n.natAbs + 1)
    let q := p + 64 + big
    let x := ivOf m e
    let s := ivSeries q (ivMul q x x) (fun k => 2 * k + 3) (p + big) 0 x (ivOf 0 0)
    ivNorm p (ivAdd q (ivOf 1 (-1)) (ivMul q (ivPhi q m e) s))

/-- `sin x` and `cos x`. -/
def ivSinCos (p : Nat) (m e : Int) : Iv × Iv :=
  let q := p + 32 + ((Nat.log2 m.natAbs : Int) + e).toNat
  let hp := ivScale (ivPi q) (-1)
  let x := ivOf m e
  let k := ivRound (ivDiv q x hp)
  let r := ivSub q x (ivMul q (ivOf k 0) hp)
  let r2 := ivNeg (ivMul q r r)
  let sn := ivMul p r (ivSinc q r2)
  let cs := ivNorm p (ivCosc q r2)
  match (k % 4).toNat with
  | 0 => (sn, cs)
  | 1 => (cs, ivNeg sn)
  | 2 => (ivNeg sn, ivNeg cs)
  | _ => (ivNeg cs, sn)

/-- The bits within which no rounding boundary of any format may fall for an enclosure to decide the rounding. -/
def decideBits : Nat := 160

/-- The value an enclosure decides: exact when the ends meet; otherwise a value strictly inside, if no number of
`decideBits` significant bits lies strictly inside. Such a value rounds as the enclosed irrational does. -/
def ivNum (x : Iv) : Option Num :=
  if x.lo = x.hi then some (.fin (decide (x.lo < 0)) x.lo.natAbs x.e)
  else
    let n := Nat.log2 (max x.lo.natAbs x.hi.natAbs)
    let k := n - decideBits
    let f := flShift x.lo k
    if decide (0 ≤ x.lo * x.hi) && decide (x.hi ≤ (f + 1) * 2 ^ k) then
      let m := x.lo + x.hi
      some (.fin (decide (m < 0)) (2 * m.natAbs) (x.e - 2))
    else none

/-- Signed mantissa of a finite value. -/
def sgnM (neg : Bool) (m : Nat) : Int := if neg then -(m : Int) else m

/-- The elementary functions of R160 and R178. -/
inductive EFn where
  | exp2 | log2 | exp | log | tanh | sigmoid | gelu | silu | softplus | sin | cos | relu | ident
deriving DecidableEq, Repr

/-- A value whose magnitude lies just above (or below) that of a value, past every rounding boundary's reach. -/
def numNear (x : Num) (above : Bool) : Num :=
  match x with
  | .fin n m e => if m = 0 then x else .fin n (if above then m * 2 ^ 200 + 1 else m * 2 ^ 200 - 1) (e - 200)
  | x => x

/-- Below this exponent an argument is so small that a function's value lies between its first term and any boundary. -/
def tinyExp : Int := -150

/-- The value of a function at a tiny non-zero argument: its first term, and on which side of it the value lies.
None where the enclosures decide. -/
def eTiny (f : EFn) (n : Bool) (m : Nat) (e : Int) : Option Num :=
  if tinyExp ≤ magLog2 m e then none
  else
    let x := Num.fin n m e
    match f with
    | .tanh | .sin => some (numNear x false)
    | .gelu | .silu => some (numNear (numScale x (-1)) (!n))
    | .sigmoid => some (numNear (.fin false 1 (-1)) (!n))
    | .exp | .exp2 => some (numNear (.fin false 1 0) (!n))
    | .cos => some (numNear (.fin false 1 0) false)
    | _ => none

/-- The derivative at a tiny non-zero argument, as `eTiny`. -/
def eTinyDeriv (f : EFn) (n : Bool) (m : Nat) (e : Int) : Option Num :=
  if tinyExp ≤ magLog2 m e then none
  else
    match f with
    | .tanh | .sin => some (numNear (.fin false 1 0) false)
    | .gelu | .silu | .softplus => some (numNear (.fin false 1 (-1)) (!n))
    | .sigmoid => some (numNear (.fin false 1 (-2)) false)
    | .exp => some (numNear (.fin false 1 0) (!n))
    | .cos => some (numNear (.fin (!n) m e) false)
    | _ => none

/-- The value of a function: none where the enclosure does not decide it. NaN gives NaN; infinities give the limits (R160). -/
def eFn (f : EFn) (x : Num) : Option Num :=
  let p := ivP
  match x with
  | .nan => some .nan
  | .inf n =>
    match f with
    | .exp2 | .exp => some (if n then numZero else .inf false)
    | .log2 | .log => some (if n then .nan else .inf false)
    | .tanh => some (.fin n 1 0)
    | .sigmoid => some (if n then numZero else .fin false 1 0)
    | .gelu | .silu => some (if n then .fin true 0 0 else .inf false)
    | .softplus => some (if n then numZero else .inf false)
    | .sin | .cos => some .nan
    | .relu => some (if n then numZero else .inf false)
    | .ident => some x
  | .fin n m e =>
    let z := sgnM n m
    match if m = 0 then none else eTiny f n m e with
    | some v => some v
    | none =>
    match f with
    | .ident => some x
    | .relu => some (if n || m = 0 then numZero else x)
    | .exp2 => if m = 0 then some (.fin false 1 0) else ivNum (ivExp2 p z e)
    | .exp => if m = 0 then some (.fin false 1 0) else ivNum (ivExp p (ivOf z e))
    | .log2 =>
      if m = 0 then some (.inf true) else if n then some .nan
      else if m = 2 ^ Nat.log2 m then some (numInt ((Nat.log2 m : Int) + e))
      else ivNum (ivDiv p (ivLn (p + 8) m e) (ivLn2 (p + 8)))
    | .log =>
      if m = 0 then some (.inf true) else if n then some .nan
      else if m = 2 ^ Nat.log2 m ∧ (Nat.log2 m : Int) + e = 0 then some numZero
      else ivNum (ivLn p m e)
    | .tanh => if m = 0 then some x else ivNum (ivTanh p z e)
    | .sigmoid => if m = 0 then some (.fin false 1 (-1)) else ivNum (ivSigmoid p z e)
    | .gelu => if m = 0 then some x else ivNum (ivMul p (ivOf z e) (ivBigPhi p z e))
    | .silu => if m = 0 then some x else ivNum (ivMul p (ivOf z e) (ivSigmoid p z e))
    | .softplus =>
      if m = 0 then ivNum (ivLn2 p)
      else if n then ivNum (ivLog1p p (ivExp p (ivOf z e)))
      -- ln(1 + e^x) = x + ln(1 + e^(-x))
      else ivNum (ivAdd p (ivOf z e) (ivLog1p p (ivExp p (ivOf (-z) e))))
    | .sin => if m = 0 then some x else ivNum (ivSinCos p z e).1
    | .cos => if m = 0 then some (.fin false 1 0) else ivNum (ivSinCos p z e).2

/-- The enclosure of a function's derivative at a finite point. -/
def ivDeriv (f : EFn) (n : Bool) (m : Nat) (e : Int) : Iv :=
  let p := ivP
  let z := sgnM n m
  let one := ivOf 1 0
  match f with
  | .ident => one
  | .relu => if n || m = 0 then ivOf 0 0 else one
  | .exp2 => ivMul p (ivExp2 p z e) (ivLn2 p)
  | .exp => if m = 0 then one else ivExp p (ivOf z e)
  | .log2 => ivDiv p one (ivMul p (ivOf z e) (ivLn2 p))
  | .log => ivDiv p one (ivOf z e)
  | .tanh =>
    if m = 0 then one
    else
      let t := ivExp p (ivOf (-2 * (m : Int)) e)
      let u := ivAdd p one t
      ivDiv p (ivScale t 2) (ivMul p u u)
  | .sigmoid =>
    if m = 0 then ivOf 1 (-2)
    else ivMul p (ivSigmoid p z e) (ivSigmoid p (-z) e)
  | .gelu =>
    if m = 0 then ivOf 1 (-1)
    else ivAdd p (ivBigPhi (p + 64) z e) (ivMul (p + 64) (ivOf z e) (ivPhi (p + 64) z e))
  | .silu =>
    if m = 0 then ivOf 1 (-1)
    else ivMul p (ivSigmoid p z e) (ivAdd p one (ivMul p (ivOf z e) (ivSigmoid p (-z) e)))
  | .softplus => if m = 0 then ivOf 1 (-1) else ivSigmoid p z e
  | .sin => if m = 0 then one else (ivSinCos p z e).2
  | .cos => if m = 0 then ivOf 0 0 else ivNeg (ivSinCos p z e).1

/-- The derivative at an infinity: its limit, none where there is none. -/
def derivInf (f : EFn) (n : Bool) : Num :=
  match f with
  | .ident => .fin false 1 0
  | .relu | .gelu | .silu | .softplus => if n then numZero else .fin false 1 0
  | .tanh | .sigmoid => numZero
  | .exp2 | .exp => if n then numZero else .inf false
  | .log2 | .log => if n then .nan else numZero
  | .sin | .cos => .nan

/-- R160 under D, R178: `f'(x) * dx` formed exactly; none where the enclosure does not decide it. -/
def eTan (f : EFn) (x dx : Num) : Option Num :=
  match x with
  | .nan => some .nan
  | .inf n => some (numMul (derivInf f n) dx)
  | .fin n m e =>
    -- the logarithms have no derivative at or below zero: 1/0 is an infinity, and a negative operand gives NaN
    if (f = .log2 ∨ f = .log) ∧ m = 0 then some (numDiv dx (.fin n 0 0))
    else if (f = .log2 ∨ f = .log) ∧ n then some .nan
    else if f = .log then some (numDiv dx x)
    else
      match if m = 0 then none else eTinyDeriv f n m e with
      | some v => some (numMul v dx)
      | none =>
      let d := ivDeriv f n m e
      match dx with
      | .fin dn dm de =>
        if d.lo = d.hi then some (numMul (.fin (decide (d.lo < 0)) d.lo.natAbs d.e) dx)
        else if dm = 0 then some (.fin (dn != decide (d.hi ≤ 0)) 0 0)
        else ivNum (ivMul ivP d (ivOf (sgnM dn dm) de))
      | .inf dn => some (if d.lo = 0 ∧ d.hi = 0 then .nan else .inf (dn != decide (d.hi ≤ 0)))
      | .nan => some .nan

/-- The number of a function, for the free values. -/
def eNum (f : EFn) : Nat :=
  match f with
  | .exp2 => 0 | .log2 => 1 | .exp => 2 | .log => 3 | .tanh => 4 | .sigmoid => 5 | .gelu => 6 | .silu => 7
  | .softplus => 8 | .sin => 9 | .cos => 10 | .relu => 11 | .ident => 12

/-- The value of a function; a free value where the enclosures do not decide it (DESIGN CHOICE, assumption log 2). -/
def eVal (f : EFn) (x : Num) : Num :=
  match eFn f x with
  | some v => v
  | none =>
    match x with
    | .fin n m e => dF64 (Config.undecidedFn (eNum f) n m e).toNat
    | _ => .nan

/-- `f'(x) * dx`; a free value where the enclosures do not decide it (DESIGN CHOICE, assumption log 2). -/
def eTanVal (f : EFn) (x dx : Num) : Num :=
  match eTan f x dx with
  | some v => v
  | none =>
    match x, dx with
    | .fin n m e, .fin n' m' e' => dF64 (Config.undecidedTan (eNum f) n m e n' m' e').toNat
    | _, _ => .nan

/-- R160: the activation of a code. -/
def actFn (c : Nat) : Option EFn :=
  match c with
  | 0 => some .ident | 1 => some .relu | 2 => some .gelu | 3 => some .silu | 4 => some .tanh | 5 => some .sigmoid
  | 6 => some .softplus | _ => none

end Sys2Proof.Machine
end

