-- ==== Sys2Proof/Machine/Mx.lean ====
section
/-! DEFINITION. Block-scaled tensors, the escape slot and the exponent histogram (spec/02_number_formats.md R49 to R56, R70 to R73). -/

namespace Sys2Proof.Machine

/-- R51: element emax of a code that may be block-scaled. -/
def mxEmax (f : Fmt) : Option Int :=
  match f with
  | .e4m3 => some 8 | .e5m2 => some 15 | .e3m2 => some 4 | .e2m3 => some 2 | .e2m1 => some 2
  | .i8 => some 0 | .i4 => some 0 | _ => none

/-- R49: bytes of one MX block's elements. -/
def mxBlockBytes (f : Fmt) : Nat := 4 * fmtWidth f

/-- R51: the value of an element code before scaling. -/
def mxElem (f : Fmt) (x : Nat) : Num :=
  match f with
  | .i8 => numScale (decNum .i8 0 x) (-6)
  | .i4 => numScale (decNum .i4 0 x) (-2)
  | f => decNum f 0 x

/-- R52: the value of element `i` of a block, from its code, the block's scale and its escape word (0 where escape is off). -/
def mxDecode (f : Fmt) (scale esc i code : Nat) : Num :=
  if bit esc 21 && bits esc 20 16 == i then decNum .bf16 0 (esc % 2 ^ 16)
  else if scale % 256 = 255 then .nan
  else numScale (mxElem f code) ((scale % 256 : Nat) - 127 : Int)

/-- R53, R56: one element converted into a block-scaled code, saturating at the largest magnitude of R51. -/
def mxConvert (f : Fmt) (r : Rnd) (flush : Bool) (u : Nat) (x : Num) : Cvt :=
  match f with
  | .i8 => encIntAt 8 true r u (numScale x 6) 0
  | .i4 => encIntAt 4 true r u (numScale x 2) 0
  | .e5m2 =>
    let c := encNum .e5m2 0 r flush u x
    -- R53: 57,344 in place of infinity
    if c.pat % 128 = 124 then { c with pat := c.pat - 1, saturated := true } else c
  | f => encNum f 0 r flush u x

/-- What R53 writes for one block, and what it counts. -/
structure MxBlock where
  codes : List Nat
  scale : Nat
  esc : Nat
  /-- indices of histogram counters to increment (R71: word index within the record) -/
  counts : List Nat
deriving DecidableEq, Repr

/-- R53: lowest index of the largest magnitude. -/
def mxArgMax : List Num → Nat → Nat → Num → Nat
  | [], _, best, _ => best
  | v :: r, i, best, b => if magRankLt b v then mxArgMax r (i + 1) i v else mxArgMax r (i + 1) best b

/-- Largest magnitude of the values other than index `j`. -/
def mxAmax (j : Option Nat) (vs : List Num) : Num :=
  (vs.zipIdx).foldl (fun a p => if some p.2 = j then a else if magRankLt a p.1 then numAbs p.1 else a) numZero

/-- R71: word indices of the record's side counters. -/
def hZERO : Nat := 72
/-- R71. -/
def hSUBNORMAL : Nat := 73
/-- R71. -/
def hFLUSHED : Nat := 74
/-- R71. -/
def hINF : Nat := 75
/-- R71. -/
def hNAN : Nat := 76
/-- R71. -/
def hZERO_BLOCK : Nat := 77
/-- R71. -/
def hVANISHED : Nat := 78
/-- R71. -/
def hSATURATED : Nat := 79

/-- R70: the bin of a value, or the counter it falls into. -/
def histBin (x : Num) : Nat :=
  match x with
  | .nan => hNAN
  | .inf _ => hINF
  | .fin _ m e => if m = 0 then hZERO else (min (max (magLog2 m e) (-64)) 7 + 64).toNat

/-- R57, R69: the outcome counters of one conversion. -/
def cvtCounts (c : Cvt) : List Nat :=
  (if c.flushed then [hFLUSHED] else []) ++ (if c.saturated then [hSATURATED] else [])

/-- R71, R72: the counters of one plain output element, written as pattern `c.pat` from the exact value `x`. -/
def histPlain (f : Fmt) (E : Int) (x : Num) (c : Cvt) : List Nat :=
  let y := decNum f E c.pat
  [histBin y] ++ (if isSubPat f c.pat then [hSUBNORMAL] else []) ++ cvtCounts c ++
    (if numIsFin x && !numIsZero x && numIsZero y then [hVANISHED] else [])

/-- R72: the counters of one presented value of a block-scaled output; `src`: its source format. -/
def histPresented (src : Fmt) (x : Num) : List Nat :=
  [histBin x] ++ (if belowNormal src x then [hSUBNORMAL] else [])

/-- R53, R54, R55: quantises 32 values; `n` of them lie inside the tensor, the rest are +0. `u i`: R64's bits of element `i`. -/
def mxQuantise (f : Fmt) (r : Rnd) (flush escOn : Bool) (n : Nat) (u : Nat → Nat) (vs : List Num) : MxBlock :=
  let j0 := mxArgMax vs 0 0 numZero
  let big := vs.getD j0 numZero
  let j : Option Nat := if escOn && !numIsZero big then some j0 else none
  let escC : Cvt := encNum .bf16 0 r flush (u j0) big
  let esc := match j with
    | some k => escC.pat + k * 2 ^ 16 + 2 ^ 21
    | none => 0
  -- with escape on, an all-zero block still names index j0 = 0, whose value is a zero
  let amax := mxAmax j vs
  let allZero := vs.all numIsZero
  let scale : Nat := match amax with
    | .nan => 255
    | .inf _ => 255
    | .fin _ m e =>
      if m = 0 then 0
      else (min (max (magLog2 m e - (mxEmax f).getD 0) (-127)) 127 + 127).toNat
  let x : Int := (scale : Int) - 127
  let zeroed := numIsZero amax || scale == 255
  let cs : List (Nat × Cvt) := vs.zipIdx.map fun p =>
    (p.2, if some p.2 = j || zeroed then { pat := 0 } else mxConvert f r flush (u p.2) (numScale p.1 (-x)))
  let van := (vs.zip cs).filter fun p =>
    scale != 255 && some p.2.1 != j && numIsFin p.1 && !numIsZero p.1 && numIsZero (mxElem f p.2.2.pat)
  { codes := cs.map fun p => p.2.pat
    scale := scale
    esc := esc
    counts := (cs.flatMap fun p => cvtCounts p.2) ++ (if j.isSome then cvtCounts escC else []) ++
      List.replicate van.length hVANISHED ++ (if allZero && n != 0 then [hZERO_BLOCK] else []) }

end Sys2Proof.Machine
end

