-- ==== Sys2Proof/Machine/Flags.lean ====
section
/-! DEFINITION. Flags: the tile status word (R95), VRB_STATUS outcomes (R107), SEEN (R147, R201), the Inflector flags (R183), step flags
(R462), the completion error bit (R148). -/

namespace Sys2Proof.Machine

/-! ### Tiles -/

/-- R95: bits of the tile status word. -/
def tsSAT : Nat := 1
/-- R95. -/
def tsPOISON : Nat := 2
/-- R95. -/
def tsCHK : Nat := 4
/-- R95. -/
def tsNAN : Nat := 8
/-- R95. -/
def tsINF : Nat := 16
/-- R95. -/
def tsFLUSH : Nat := 32

/-- R95: NAN and INF of a value. -/
def tsOfVal (x : Num) : Nat := match x with | .nan => tsNAN | .inf _ => tsINF | _ => 0

/-- R95: the status outcomes of a value written to a slot. -/
def tsOfCvt (f : Fmt) (c : Cvt) : Nat :=
  (if f == .i32 && c.saturated then tsSAT else 0) ||| (if c.flushed then tsFLUSH else 0) ||| tsOfVal (decNum f 0 c.pat)

/-- R147: the SEEN bits that status-word outcomes give. -/
def seenOf (ts : Nat) : Nat :=
  (if bit ts 5 then 1 else 0) + (if bit ts 2 then 2 else 0) + (if bit ts 0 then 4 else 0) + (if bit ts 1 then 8 else 0) +
  (if bit ts 3 then 16 else 0) + (if bit ts 4 then 32 else 0)

/-- R107: the VRB_STATUS bits that status-word outcomes set. -/
def vstatOf (ts : Nat) : Nat :=
  (if bit ts 5 then 1 else 0) + (if bit ts 2 then 2 else 0) + (if bit ts 0 then 4 else 0) + (if bit ts 1 then 8 else 0)

/-! ### Inflectors -/

/-- R183: flag bits. -/
def ifNAN : Nat := 1
/-- R183. -/
def ifINF : Nat := 2
/-- R183. -/
def ifRANGE : Nat := 4
/-- R183. -/
def ifSAT : Nat := 8
/-- R183. -/
def ifFLUSH : Nat := 16
/-- R183. -/
def ifGATHER : Nat := 32
/-- R183. -/
def ifPOISON : Nat := 64

/-- Flags of a value read or produced. -/
def flOfNum (x : Num) : Nat := match x with | .nan => ifNAN | .inf _ => ifINF | _ => 0
/-- Flags of a conversion. -/
def flOfCvt (c : Cvt) : Nat := (if c.range then ifRANGE else 0) ||| (if c.saturated then ifSAT else 0) ||| (if c.flushed then ifFLUSH else 0)

/-! ### Completion and step flags -/

/-- R146, R234, R511, R595: does a status set the completion Conjunction's error bit. -/
def statusErr (c : Nat) : Bool := decide (3 ≤ c) && c != 0x61 && c != 0x90 && c != 0x93

/-- R201: SEEN of an Inflector program. -/
def infSeen (fl : Nat) : Nat :=
  (if bit fl 4 then 1 else 0) + (if bit fl 6 then 8 else 0) + (if bit fl 0 then 16 else 0) + (if bit fl 1 then 32 else 0)

/-- R462: step flags of SEEN bits of R147. -/
def seenFlags (seen : Nat) : Nat :=
  (if bit seen 4 then 1 else 0) + (if bit seen 5 then 2 else 0) + (if bit seen 2 then 4 else 0) + (if bit seen 3 then 8 else 0)
    + (if bit seen 1 then 32 else 0)

end Sys2Proof.Machine
end

