-- ==== Sys2Proof/Machine/Operands.lean ====
section
/-! DEFINITION. Operand forms of tile programs: issue records, instruction words, tensor descriptors, bindings, tensor
elements, and accumulator slots (spec/04_tile_programs.md R112 to R124, R138; spec/05_compounds.md R155 to R159; spec/03_verb_engines.md R93, R95). -/

namespace Sys2Proof.Machine

/-- A little-endian field of a byte string. -/
def bfield (bs : List Byte) (off n : Nat) : Nat := leNat ((bs.drop off).take n)

/-- R138: the issue record. -/
def parseIssue (bs : List Byte) : IssueRec :=
  let c := bfield bs 8 2
  let m := bfield bs 16 2
  { prog := bfield bs 0 4, statusAddr := bfield bs 4 4, cconj := c % 2 ^ 14, cvalid := bit c 15, cinc := bfield bs 10 2
    rtag := bfield bs 12 4
    mtarget := if bit m 15 then some (bits m 11 8, bits m 4 0) else none
    rsv := bit c 14 || bits m 7 5 != 0 || bits m 14 12 != 0 || bfield bs 18 14 != 0 }

/-- R156: a binding entry. -/
def parseBind (bs : List Byte) : Bind :=
  let k := bfield bs 0 4
  let x := bfield bs 6 1
  { key := k % 2 ^ 29, valid := bit k 31, keyRsv := bits k 30 29, enable := bfield bs 4 2, srcFmt := x % 16, act := x / 16
    rfMask := bfield bs 7 1, gidx := bfield bs 8 4, vscale := bfield bs 12 4, vbias := bfield bs 16 4, stats := bfield bs 20 4
    rfC := bfield bs 24 4, rfOffset := bfield bs 28 4, lsev := bfield bs 32 4, chandle := bfield bs 36 2
    rsv := bfield bs 38 26 != 0 }

/-- R155: the binding table of a context as it stands now. -/
def readBinds (s : State) (c : Nat) : List Bind :=
  let x := ctxOf s c
  (List.range x.bindcount).map fun i => parseBind (spBytes s c (x.bindtab + 64 * i) 64)

/-- R155: the lowest-indexed valid entry whose KEY matches bits [28:0] of a TENSOR_ID. -/
def bindFor (bs : List Bind) (tid : Nat) : Option Bind := bs.find? fun b => b.valid && b.key == tid % 2 ^ 29

/-- R156: the parts of ENABLE. -/
def bnSRCCONV : Nat := 0
/-- R156. -/
def bnSCALE : Nat := 1
/-- R156. -/
def bnBIAS : Nat := 2
/-- R156. -/
def bnGATHER : Nat := 3
/-- R156. -/
def bnROWSTAT : Nat := 4
/-- R156. -/
def bnROWFN : Nat := 5
/-- R156. -/
def bnTRANSIENT : Nat := 6
/-- R156. -/
def bnLSE : Nat := 7
/-- R156. -/
def bnCONTINUE : Nat := 8

/-- R113: a tensor descriptor, with its binding. -/
def parseTDesc (binds : List Bind) (bs : List Byte) : TDesc :=
  let tid := bfield bs 28 4
  { base := bfield bs 0 4, scale := bfield bs 4 4, esc := bfield bs 8 4, hist := bfield bs 12 4, rows := bfield bs 16 4
    cols := bfield bs 20 4, pitch := bfield bs 24 4, tid := tid, flags := bfield bs 32 4, tstride := bfield bs 36 4
    rsv := bfield bs 40 24 != 0, bind := bindFor binds tid }

/-- R113: SCALED. -/
def tdScaled (d : TDesc) : Bool := bit d.flags 0
/-- R113: ESCAPE. -/
def tdEscape (d : TDesc) : Bool := bit d.flags 1
/-- R113: COLMAJOR. -/
def tdCol (d : TDesc) : Bool := bit d.flags 2
/-- R113: HISTV. -/
def tdHistv (d : TDesc) : Bool := bit d.flags 3
/-- R113: TANGENTS. -/
def tdTang (d : TDesc) : Nat := bits d.flags 6 4

/-- Is a part of the binding enabled. -/
def tdOn (d : TDesc) (part : Nat) : Bool := match d.bind with | some b => bit b.enable part | none => false
/-- A field of the binding. -/
def tdB (d : TDesc) (f : Bind → Nat) : Nat := match d.bind with | some b => f b | none => 0

/-- Rows (row-major) or columns (column-major) of a tensor, and the elements of each. -/
def tdLines (d : TDesc) : Nat × Nat := if tdCol d then (d.cols, d.rows) else (d.rows, d.cols)

/-- R113, R114: packed bytes of one line. -/
def tdLineBytes (f : Fmt) (d : TDesc) : Nat :=
  let n := (tdLines d).2
  if tdScaled d then (n + 31) / 32 * mxBlockBytes f else plainBytes f n

/-- R114: reserved bits. -/
def tdRsv (d : TDesc) : Bool := d.rsv || bits d.flags 31 7 != 0 || bits d.tid 31 29 != 0

/-- R113, R114: the rules that are refused with FORMAT_INVALID. A tree area or a histogram tensor has no element format
(`f` none), and the packed length of PITCH does not apply to it. -/
def tdRules (f : Option Fmt) (d : TDesc) : Bool :=
  decide (1 ≤ d.rows) && decide (d.rows ≤ 2 ^ 20) && decide (1 ≤ d.cols) && decide (d.cols ≤ 2 ^ 20) &&
  d.pitch % 64 == 0 && (match f with | some f => decide (tdLineBytes f d ≤ d.pitch) | none => true) && d.tstride % 64 == 0 && decide (tdTang d ≤ 4) &&
  (!tdScaled d || tdTang d == 0) && (!tdEscape d || d.esc % 4 == 0)

/-- R114: every area inside the partition's scratchpad, BASE and HIST aligned. -/
def tdAreas (s : State) (k : Nat) (f : Option Fmt) (d : TDesc) : Bool :=
  let (n, len) := tdLines d
  let body := match f with | some f => (n - 1) * d.pitch + tdLineBytes f d | none => 0
  let q := n * ((len + 31) / 32)
  d.base % 64 == 0 &&
  (List.range (tdTang d + 1)).all (fun t => inSpace s k (d.base + t * d.tstride) body) &&
  (!tdScaled d || inSpace s k d.scale q) && (!tdEscape d || inSpace s k d.esc (4 * q)) &&
  (!tdHistv d || (d.hist % 64 == 0 && inSpace s k d.hist 320))

/-- R113: a descriptor of a program's tensor table. -/
def readTDesc (s : State) (p : Prog) (i : Nat) : TDesc := parseTDesc p.binds (spBytes s p.cid (p.ttable + 64 * i) 64)

/-! ### Tensor elements -/

/-- R49, R113, R114: the bit address of a plain element of tangent `t`. -/
def elemBit (f : Fmt) (d : TDesc) (t r c : Nat) : Nat :=
  let (line, i) := if tdCol d then (c, r) else (r, c)
  8 * (d.base + t * d.tstride + line * d.pitch) + fmtWidth f * i

/-- The pattern at a bit address of a context's scratchpad, `w` bits wide. -/
def spBits (s : State) (c ba w : Nat) : Nat :=
  (spNat s c (ba / 8) ((ba % 8 + w + 7) / 8) >>> (ba % 8)) % 2 ^ w

/-- An element as it is read: its exact value, whether it arrived poisoned, whether its slice was off, and whether FLUSH
changed it. -/
structure Rd where
  x : Num
  poison : Bool := false
  off : Bool := false
  flushed : Bool := false
deriving DecidableEq, Repr

/-- R124, R52, R57: element (r, c) of tangent `t` read in format `f`; +0 beyond the declared extent. -/
def elemRead (s : State) (cid : Nat) (flush : Bool) (f : Fmt) (d : TDesc) (t r c : Nat) : Rd :=
  if d.rows ≤ r ∨ d.cols ≤ c then { x := numZero }
  else if tdScaled d then
    let (line, i) := if tdCol d then (c, r) else (r, c)
    let nq := ((tdLines d).2 + 31) / 32
    let q := i / 32
    let a := d.base + line * d.pitch + q * mxBlockBytes f
    let code := spBits s cid (8 * a + fmtWidth f * (i % 32)) (fmtWidth f)
    let ix := line * nq + q
    let esc := if tdEscape d then spNat s cid (d.esc + 4 * ix) 4 else 0
    { x := mxDecode f (spNat s cid (d.scale + ix) 1) esc (i % 32) code
      poison := spPoison s cid a (mxBlockBytes f) || spPoison s cid (d.scale + ix) 1 || (tdEscape d && spPoison s cid (d.esc + 4 * ix) 4)
      off := spOff s cid a (mxBlockBytes f) }
  else
    let ba := elemBit f d t r c
    let (x, fl) := readFlush f 0 flush (spBits s cid ba (fmtWidth f))
    let n := (ba % 8 + fmtWidth f + 7) / 8
    { x := x, poison := spPoison s cid (ba / 8) n, off := spOff s cid (ba / 8) n, flushed := fl }

/-- An F32 element of a bound vector. -/
def vecF32 (s : State) (cid a i : Nat) : Num := dF32 (spNat s cid (a + 4 * i) 4)

/-- R158, R167: an operand element after its prologue, before the rounding into the operand's format, and whether a
prologue applies. `k`: the element's K coordinate. -/
def prologue (s : State) (cid : Nat) (flush : Bool) (f : Fmt) (d : TDesc) (t r c k : Nat) : Rd × Bool :=
  let conv := tdOn d bnSRCCONV
  let sc := tdOn d bnSCALE
  let bi := tdOn d bnBIAS
  let src := if conv then fmtOf (tdB d (·.srcFmt)) else f
  let e := elemRead s cid flush src d t r c
  if !(conv || sc || bi) || d.rows ≤ r || d.cols ≤ c then (e, false)
  else
    let y := if sc then numMul e.x (vecF32 s cid (tdB d (·.vscale)) k) else e.x
    let y := if bi && t == 0 then numAdd false y (vecF32 s cid (tdB d (·.vbias)) k) else y
    ({ e with x := y
              poison := e.poison || (sc && spPoison s cid (tdB d (·.vscale) + 4 * k) 4) ||
                (bi && t == 0 && spPoison s cid (tdB d (·.vbias) + 4 * k) 4) }, true)

/-- R158: an operand of MMA: the prologue's result rounded once, nearest even, into the operand's format. -/
def operandRead (s : State) (cid : Nat) (flush : Bool) (f : Fmt) (d : TDesc) (t r c k : Nat) : Rd :=
  let (e, pr) := prologue s cid flush f d t r c k
  if pr then
    let cv := encNum f 0 .rne flush 0 e.x
    { e with x := decNum f 0 cv.pat, flushed := e.flushed || cv.flushed }
  else e

/-- R159: the source row of tile row `r` under GATHER; none for an index outside the tensor. -/
def gatherRow (s : State) (cid : Nat) (d : TDesc) (r : Nat) : Option Nat :=
  if tdOn d bnGATHER then
    let i := sext 32 (spNat s cid (tdB d (·.gidx) + 4 * r) 4)
    if 0 ≤ i ∧ i < (d.rows : Int) then some i.toNat else none
  else some r

/-- Writes consecutive patterns of `w` bits from a bit address (I4 shares its end bytes with its neighbours). -/
def writeRun (s : State) (cid wsl ba w : Nat) (pats : List Nat) (poison : Bool) : State :=
  if pats.isEmpty then s
  else
    let head := if ba % 8 = 0 then [] else [spNat s cid (ba / 8) 1 % 2 ^ (ba % 8)]
    let endBit := ba + w * pats.length
    let x := match head with
      | [h] => h + 2 ^ (ba % 8) * packNat w pats
      | _ => packNat w pats
    let nbits := endBit - ba / 8 * 8
    let x := if endBit % 8 = 0 then x
      else x + 2 ^ nbits * (spNat s cid (endBit / 8) 1 >>> (endBit % 8))
    spWrite s cid wsl (ba / 8) (natLe ((nbits + 7) / 8) x) poison

/-! ### Accumulator slots (R93, R95) -/

/-- Bytes of an accumulator element. -/
def accBytes (f : Fmt) : Nat := fmtWidth f / 8

/-- R94: ACC_FMT. -/
def vmodeFmt (vm : Nat) : Fmt := match bits vm 13 12 with | 1 => .f64 | 2 => .i32 | _ => .f32

/-- A slot's place: byte offset, size, row pitch. -/
structure SlotGeom where
  at_ : Nat
  size : Nat
  pitch : Nat
deriving DecidableEq, Repr

/-- R93: the slot of an index for a tile shape; none is ACC_INDEX. -/
def slotGeom (vm slot rows cols : Nat) (f : Fmt) : Option SlotGeom :=
  if bit vm 1 then
    let size := rows * cols * accBytes f
    if slot < 1048576 / size then some ⟨slot * size, size, cols * accBytes f⟩ else none
  else
    let af := vmodeFmt vm
    let ar := 32 * (bits vm 7 4 + 1)
    let ac := 32 * (bits vm 11 8 + 1)
    let size := ar * ac * accBytes af
    if rows ≤ ar ∧ cols ≤ ac ∧ accBytes f ≤ accBytes af ∧ slot < 1048576 / size then
      some ⟨slot * size, size, ac * accBytes af⟩
    else none

/-- An element's pattern in a slot. -/
def accPat (p : Prog) (g : SlotGeom) (f : Fmt) (r c : Nat) : Nat :=
  leNat ((List.range (accBytes f)).map fun i => mapGet 0#8 p.acc (g.at_ + r * g.pitch + c * accBytes f + i))

/-- An element's value in a slot. -/
def accVal (p : Prog) (g : SlotGeom) (f : Fmt) (r c : Nat) : Num := decNum f 0 (accPat p g f r c)

/-- Granules a slot covers. -/
def granules (g : SlotGeom) : List Nat := (List.range ((g.size + 4095) / 4096)).map (g.at_ / 4096 + ·)

/-- R95: the tile status word of a slot. -/
def tswGet (p : Prog) (g : SlotGeom) : Nat := (granules g).foldl (fun a i => a ||| mapGet 0 p.tsw i) 0
/-- R95: writes every status entry of a slot. -/
def tswPut (p : Prog) (g : SlotGeom) (v : Nat) : Prog :=
  { p with tsw := (granules g).foldl (fun m i => mapSet 0 m i v) p.tsw }
/-- R95: ORs outcomes into a slot's status. -/
def tswOr (p : Prog) (g : SlotGeom) (v : Nat) : Prog := if v = 0 then p else tswPut p g (tswGet p g ||| v)

/-- Writes an element's pattern into a slot, setting its granule's written bit (R293). -/
def accPut (p : Prog) (g : SlotGeom) (f : Fmt) (r c pat : Nat) : Prog :=
  let a := g.at_ + r * g.pitch + c * accBytes f
  { p with acc := ((natLe (accBytes f) pat).zipIdx).foldl (fun m b => mapSet 0#8 m (a + b.2) b.1) p.acc
           written := mapIns p.written (a / 4096) true }

/-! ### Instruction words (R115, R122) -/

/-- A tile instruction: four 64-bit words. -/
structure Insn where
  w0 : Nat
  w1 : Nat
  w2 : Nat
  w3 : Nat
deriving DecidableEq, Repr

/-- R111: instruction `i` of a program. -/
def readInsn (s : State) (p : Prog) (i : Nat) : Insn :=
  let a := p.issue.prog + 32 * (i + 1)
  ⟨spNat s p.cid a 8, spNat s p.cid (a + 8) 8, spNat s p.cid (a + 16) 8, spNat s p.cid (a + 24) 8⟩

/-- R115. -/
def inOp (i : Insn) : Nat := bits i.w0 7 0
/-- R115. -/
def inFA (i : Insn) : Fmt := fmtOf (bits i.w0 11 8)
/-- R115. -/
def inFB (i : Insn) : Fmt := fmtOf (bits i.w0 15 12)
/-- R115. -/
def inACC (i : Insn) : Fmt := fmtOf (bits i.w0 19 16)
/-- R115. -/
def inOUT (i : Insn) : Fmt := fmtOf (bits i.w0 23 20)
/-- R115. -/
def inRND (i : Insn) : Nat := bits i.w0 26 24
/-- R115. -/
def inN (i : Insn) : Bool := bit i.w0 27
/-- R115. -/
def inD (i : Insn) : Bool := bit i.w0 28
/-- R115. -/
def inC (i : Insn) : Bool := bit i.w0 29
/-- R115. -/
def inH (i : Insn) : Bool := bit i.w0 30
/-- R115. -/
def inTAG (i : Insn) : Nat := bits i.w0 47 32
/-- R115: OPF[0]. -/
def inOPF0 (i : Insn) : Bool := bit i.w0 48
/-- R122. -/
def inTA (i : Insn) : Nat := bits i.w1 15 0
/-- R122. -/
def inTB (i : Insn) : Nat := bits i.w1 31 16
/-- R122. -/
def inTSEED (i : Insn) : Nat := bits i.w1 47 32
/-- R122. -/
def inTTREE (i : Insn) : Nat := bits i.w1 63 48
/-- R122. -/
def inSLOT (i : Insn) : Nat := bits i.w2 7 0
/-- R122: tile rows. -/
def inRows (i : Insn) : Nat := 32 * (bits i.w2 11 8 + 1)
/-- R122: tile columns. -/
def inCols (i : Insn) : Nat := 32 * (bits i.w2 15 12 + 1)
/-- R122. -/
def inKBC (i : Insn) : Nat := bits i.w2 31 16
/-- R122. -/
def inKBF (i : Insn) : Nat := bits i.w2 63 32
/-- R122. -/
def inI0 (i : Insn) : Nat := bits i.w3 19 0
/-- R122. -/
def inJ0 (i : Insn) : Nat := bits i.w3 39 20
/-- R122. -/
def inK0 (i : Insn) : Nat := bits i.w3 55 40
/-- R122: TREE_LEVELS. -/
def inTLEV (i : Insn) : Nat := bits i.w3 60 56 + 1
/-- R122. -/
def inFIRST (i : Insn) : Bool := bit i.w3 61
/-- R122. -/
def inLAST (i : Insn) : Bool := bit i.w3 62

/-- R121: the opcodes. -/
def opNOP : Nat := 0x00
/-- R121. -/
def opLDACC : Nat := 0x10
/-- R121. -/
def opZERO : Nat := 0x12
/-- R121. -/
def opMMA : Nat := 0x20
/-- R121. -/
def opTREECOMB : Nat := 0x22
/-- R121. -/
def opACCADD : Nat := 0x30
/-- R121. -/
def opCVT : Nat := 0x40
/-- R121. -/
def opQNT : Nat := 0x50
/-- R121. -/
def opST : Nat := 0x60
/-- R121. -/
def opHIST : Nat := 0x70
/-- R121. -/
def opCHKSTAT : Nat := 0x80
/-- R121. -/
def opCHKINJECT : Nat := 0x81
/-- R121. -/
def opCSIG : Nat := 0x90
/-- R121. -/
def opCWAIT : Nat := 0x91
/-- R121. -/
def opFENCE : Nat := 0x92
/-- R121. -/
def opTNSRD : Nat := 0x93
/-- R121. -/
def opPERFRD : Nat := 0x94

/-- R121: every opcode. -/
def tileOps : List Nat :=
  [opNOP, opLDACC, opZERO, opMMA, opTREECOMB, opACCADD, opCVT, opQNT, opST, opHIST, opCHKSTAT, opCHKINJECT, opCSIG, opCWAIT,
   opFENCE, opTNSRD, opPERFRD]

/-- A mask of bits [hi:lo]. -/
def msk (hi lo : Nat) : Nat := 2 ^ (hi + 1) - 2 ^ lo

/-- R122: the bits of each word that an opcode uses, beside OPCODE, N, D, C, H and ITAG of word 0. -/
def insnMask (op : Nat) : Nat × Nat × Nat × Nat :=
  let fA := msk 11 8
  let fB := msk 15 12
  let fAcc := msk 19 16
  let fOut := msk 23 20
  let rnd := msk 26 24
  let opf := 2 ^ 48
  let tile := msk 15 0
  let org := msk 39 0
  if op = opLDACC then (fA + fAcc + rnd, msk 15 0, tile, org)
  else if op = opZERO then (fAcc, 0, tile, 0)
  else if op = opMMA then (fA + fB + fAcc, msk 63 0, msk 63 0, msk 62 0)
  else if op = opTREECOMB then (fAcc + opf, msk 47 0, tile, 0)
  else if op = opACCADD then (fAcc + opf, msk 15 0, tile, org)
  else if op = opCVT ∨ op = opST then (fAcc + fOut + rnd, msk 15 0, tile, org)
  else if op = opQNT then (fAcc + fOut + rnd + opf, msk 15 0, tile, org)
  else if op = opHIST then (fAcc, msk 15 0, tile, 0)
  else if op = opCHKSTAT then (opf, msk 31 0, tile, 0)
  else if op = opCHKINJECT then (0, 0, msk 7 0, msk 8 0 + msk 24 16 + 2 ^ 32)
  else if op = opCSIG then (0, msk 13 0 + msk 32 16 + msk 63 48, 0, 0)
  else if op = opCWAIT then (0, msk 13 0 + msk 63 32, msk 31 0, 0)
  else if op = opTNSRD ∨ op = opPERFRD then (0, msk 31 0, 0, 0)
  else (0, 0, 0, 0)

/-- Bits of `x` outside a mask. -/
def outside (x m : Nat) : Bool := x &&& m != x

/-- R116, R122, R135: a reserved or unused field that is not zero, a KB_COUNT of zero, an INC of zero. -/
def insnRsv (i : Insn) : Bool :=
  let (m0, m1, m2, m3) := insnMask (inOp i)
  outside i.w0 (m0 + msk 7 0 + msk 30 27 + msk 47 32) || outside i.w1 m1 || outside i.w2 m2 || outside i.w3 m3 ||
  (inOp i == opMMA && inKBC i == 0) || (inOp i == opCSIG && bits i.w1 31 16 == 0)

end Sys2Proof.Machine
end

