-- ==== Sys2Proof/Machine/TileCheck.lean ====
section
/-! DEFINITION. The checks of a tile instruction in the order of R145 (spec/04_tile_programs.md, spec/05_compounds.md). -/

namespace Sys2Proof.Machine

/-! ### Status codes (R146, R234, R315, R355, R430, R511, R595) -/

/-- R146. -/
def stOK : Nat := 0x00
/-- R146. -/
def stPOISONED : Nat := 0x01
/-- R146. -/
def stCHECKSUM : Nat := 0x02
/-- R146. -/
def stSLICE_OFF : Nat := 0x03
/-- R146. -/
def stFORMAT : Nat := 0x10
/-- R146. -/
def stTREE_ORDER : Nat := 0x11
/-- R146. -/
def stTREE_OVERFLOW : Nat := 0x12
/-- R146. -/
def stTREE_AREA : Nat := 0x13
/-- R146. -/
def stACC_INDEX : Nat := 0x14
/-- R146. -/
def stADDRESS : Nat := 0x15
/-- R146. -/
def stTENSOR : Nat := 0x16
/-- R146. -/
def stSHAPE : Nat := 0x17
/-- R146. -/
def stFLAG : Nat := 0x18
/-- R146. -/
def stOPCODE : Nat := 0x19
/-- R146. -/
def stRESERVED : Nat := 0x1A
/-- R146. -/
def stN_REQUIRED : Nat := 0x1B
/-- R146. -/
def stN_UNDECLARED : Nat := 0x1C
/-- R146. -/
def stCHAIN : Nat := 0x1D
/-- R146. -/
def stCONJ_KEY : Nat := 0x1E
/-- R146. -/
def stMAINT_ONLY : Nat := 0x1F
/-- R146. -/
def stHEADER : Nat := 0x20
/-- R146. -/
def stSTRICT_N : Nat := 0x21
/-- R146. -/
def stFLUSHED : Nat := 0x22
/-- R146. -/
def stABORTED : Nat := 0x23
/-- R146. -/
def stCONJ_ERROR : Nat := 0x24
/-- R146. -/
def stWAIT_TIMEOUT : Nat := 0x25
/-- R355. -/
def stSTACK_OFFLINE : Nat := 0x50
/-- R511. -/
def stXLAT_FAULT : Nat := 0xA0
/-- R511. -/
def stHOST_ERROR : Nat := 0xA1
/-- R595. -/
def stUNIT_FAULT : Nat := 0xC0
/-- R595. -/
def stNO_UNIT : Nat := 0xC1

/-- The first violated check of a list. -/
def firstErr : List (Bool × Nat) → Option Nat
  | [] => none
  | (b, c) :: r => if b then some c else firstErr r

/-- A tile instruction about to issue: its program, compound, Verb and word. -/
structure TEnv where
  id : Nat
  p : Prog
  c : Comp
  i : Insn
deriving DecidableEq, Repr

/-- The context's VRB_MODE image (R94). -/
def envVm (s : State) (e : TEnv) : Nat := (ctxOf s e.p.cid).vmode
/-- R57: FLUSH of the Verb that runs the compound. -/
def envFlush (s : State) (e : TEnv) : Bool := bit (envVm s e) 0
/-- The partition of the program. -/
def envPart (e : TEnv) : Nat := e.p.cid / 8

/-- Plain codes of R126 and R129: 0 to 5 and 10 to 13. -/
def plainCode (f : Fmt) : Bool := decide (fmtCode f ≤ 5) || (decide (10 ≤ fmtCode f) && decide (fmtCode f ≤ 13))
/-- Accumulator codes (R40). -/
def accCode (f : Fmt) : Bool := f == .f64 || f == .f32 || f == .i32
/-- Codes that may be block-scaled (R49). -/
def mxCode (f : Fmt) : Bool := (mxEmax f).isSome

/-- R75: step depth of an operand pair and accumulator; none where the pair or the accumulator is not allowed (R76). -/
def pairDepth (fa fb acc : Fmt) (scaled : Bool) : Option Nat :=
  let is16 (f : Fmt) : Bool := f == .f16 || f == .bf16
  let is8 (f : Fmt) : Bool := f == .e4m3 || f == .e5m2
  let is6 (f : Fmt) : Bool := f == .e3m2 || f == .e2m3 || f == .e2m1
  if fa == .f64 && fb == .f64 then (if acc == .f64 then some 1 else none)
  else if fa == .f32 && fb == .f32 then (if acc == .f32 || acc == .f64 then some 3 else none)
  else if is16 fa && is16 fb then (if acc == .f32 then some 32 else none)
  else if is8 fa && is8 fb then (if acc == .f32 then some 64 else none)
  else if fa == .i8 && fb == .i8 then (if acc == (if scaled then .f32 else .i32) then some 64 else none)
  else if is6 fa && is6 fb then (if acc == .f32 then some 128 else none)
  else if fa == .i4 && fb == .i4 then (if acc == (if scaled then .f32 else .i32) then some 128 else none)
  else none

/-- R40, R77: may a tensor be an operand of a product in format `f`; `isA`: the A side. -/
def operandOk (f : Fmt) (d : TDesc) (isA : Bool) : Bool :=
  if tdScaled d then mxCode f && (if isA then !tdCol d else tdCol d)
  else f != .e3m2 && f != .e2m3 && f != .e2m1

/-- R123: the K extent of an operand: of A, COLS where it is row-major and ROWS where it is column-major; of B, ROWS in both layouts,
as R77, R114 and the worked example of chapter 5 have it (DEDUCED, assumption log 12). -/
def kOf (d : TDesc) (isA : Bool) : Nat := if isA && !tdCol d then d.cols else d.rows

/-- R123, R124: the extent of A across K (DEDUCED, assumption log 12). -/
def mOf (d : TDesc) : Nat := if tdCol d then d.cols else d.rows

/-- Tensors that an instruction names: (index, format read or written, role). Roles: 0 A operand of MMA, 1 B operand,
2 seed, 3 tree area, 4 source of LD.ACC, 5 node of TREE.COMB, 6 tile of ACC.ADD, 7 destination of CVT, 8 of QNT, 9 of ST, 10 HIST. -/
def opTensors (i : Insn) : List (Nat × Fmt × Nat) :=
  let op := inOp i
  let acc := inACC i
  let seed := if inTSEED i = 0xFFFF then [] else [(inTSEED i, acc, 2)]
  let tree := if inTTREE i = 0xFFFF then [] else [(inTTREE i, acc, 3)]
  if op = opLDACC then [(inTA i, inFA i, 4)]
  else if op = opMMA then [(inTA i, inFA i, 0), (inTB i, inFB i, 1)] ++ seed ++ tree
  else if op = opTREECOMB then [(inTA i, acc, 5), (inTB i, acc, 5)] ++ seed
  else if op = opACCADD then [(inTA i, acc, 6)]
  else if op = opCVT then [(inTA i, inOUT i, 7)]
  else if op = opQNT then [(inTA i, inOUT i, 8)]
  else if op = opST then [(inTA i, inOUT i, 9)]
  else if op = opHIST then [(inTA i, acc, 10)]
  else []

/-- The storage format of a tensor that is read (R156 SRC_FMT). -/
def storeFmt (f : Fmt) (role : Nat) (d : TDesc) : Option Fmt :=
  if role = 3 ∨ role = 10 then none
  else if (role = 0 ∨ role = 1 ∨ role = 4) ∧ tdOn d bnSRCCONV then some (fmtOf (tdB d (·.srcFmt)))
  else some f

/-- The next instruction, where it continues the compound. -/
def nextLink (s : State) (e : TEnv) : Option Insn :=
  if e.p.ip + 1 < e.p.len then
    let n := readInsn s e.p (e.p.ip + 1)
    if inC n then some n else none
  else none

/-- R153: is this CVT followed by the MMA of a handoff. -/
def isHandoffCvt (s : State) (e : TEnv) : Bool :=
  inOp e.i == opCVT && e.c.mmas == 1 &&
  match nextLink s e with
  | some n => inOp n == opMMA && inTA n == inTA e.i
  | none => false

/-- R153: is this MMA the second product of a handoff. -/
def isHandoffMma (e : TEnv) : Bool :=
  inOp e.i == opMMA && e.c.mmas == 1 && inC e.i && e.c.prevOp == opCVT &&
  match e.c.hand with
  | some h => h.dest == inTA e.i
  | none => false

/-- Links of a compound from instruction `k`, at most `n` of them (lookahead). -/
def linksFrom (s : State) (p : Prog) : Nat → Nat → List Insn
  | 0, _ => []
  | n + 1, k =>
    if k < p.len then
      let x := readInsn s p k
      if inC x then x :: linksFrom s p n (k + 1) else []
    else []

/-- R163: is this first MMA followed by a handoff CVT under ROWFN. -/
def startsSweep (s : State) (e : TEnv) : Bool :=
  if inOp e.i = opMMA ∧ e.c.mmas = 0 then
    let l := linksFrom s e.p 8 (e.p.ip + 1)
    (l.zip (l.drop 1)).any fun (x, y) =>
      inOp x == opCVT && inOp y == opMMA && inTA y == inTA x && decide (inTA x < e.p.tcount) &&
      tdOn (readTDesc s e.p (inTA x)) bnROWFN
  else false

/-- Class of an opcode (R151): 0 load, 1 product, 2 output, 3 none. -/
def linkClass (op : Nat) : Nat :=
  if op = opLDACC ∨ op = opZERO then 0
  else if op = opMMA ∨ op = opTREECOMB ∨ op = opACCADD then 1
  else if op = opCVT ∨ op = opQNT ∨ op = opST ∨ op = opHIST then 2
  else 3

/-- R118: opcodes on which D may be set. -/
def dCapable (op : Nat) : Bool := linkClass op != 3 && op != opQNT && op != opHIST

/-- R118: the tangent count that an instruction takes from its tensors. -/
def tangCount (ds : List TDesc) : Nat := ds.foldl (fun a d => max a (tdTang d)) 0

/-- R157, R162: is a binding part of the tensor out of place on this link. -/
def bindMisplaced (s : State) (e : TEnv) (role : Nat) (d : TDesc) : Bool :=
  match d.bind with
  | none => false
  | some b =>
    let en (k : Nat) : Bool := bit b.enable k
    let readSide := role = 0 ∨ role = 1 ∨ role = 2 ∨ role = 4 ∨ role = 5 ∨ role = 6
    let pro := en bnSRCCONV || en bnSCALE || en bnBIAS
    let rd := decide readSide && ((pro && !(role == 0 || role == 1 || role == 4)) || (en bnGATHER && !(role == 0 || role == 4)))
    let hand := isHandoffCvt s e
    let wr := (role == 7 && ((en bnROWFN && !hand) || (en bnLSE && !hand) || (en bnTRANSIENT && !en bnROWFN))) ||
      ((role == 8 || role == 9) && (en bnROWSTAT || en bnROWFN || en bnLSE)) ||
      (role == 9 && b.act != 0) ||
      ((role == 7 || role == 8 || role == 9) && en bnCONTINUE && (nextLink s e).isSome)
    let tr := en bnTRANSIENT && !(role == 7 && hand) && !(role == 0 && isHandoffMma e)
    rd || wr || tr

/-- R157: a bound tensor whose layout the part does not allow. -/
def bindLayout (role : Nat) (d : TDesc) : Bool :=
  (role == 0 || role == 1 || role == 4) &&
  (((tdOn d bnSRCCONV || tdOn d bnSCALE || tdOn d bnBIAS) && tdScaled d) || (tdOn d bnGATHER && tdCol d))

/-- R156: reserved bits of a matched entry. -/
def bindRsv (d : TDesc) : Bool :=
  match d.bind with
  | none => false
  | some b => b.keyRsv != 0 || bits b.enable 15 9 != 0 || bits b.rfMask 7 2 != 0 || b.rsv

/-- R156: values of a matched entry that the chapter does not define. -/
def bindVal (d : TDesc) : Bool :=
  match d.bind with
  | none => false
  | some b =>
    (bit b.enable bnSRCCONV && !plainCode (fmtOf b.srcFmt)) || decide (7 ≤ b.act) || b.rfMask % 4 == 3 ||
    (bit b.enable bnROWFN && !numIsFin (dF32 b.rfC))

/-- R156: addresses of a matched entry. -/
def bindAddr (s : State) (k : Nat) (d : TDesc) : Bool :=
  match d.bind with
  | none => false
  | some b =>
    let bad (on : Nat) (a al n : Nat) : Bool := bit b.enable on && (a % al != 0 || !inSpace s k a n)
    bad bnGATHER b.gidx 4 4 || bad bnSCALE b.vscale 4 4 || bad bnBIAS b.vbias 4 4 || bad bnROWSTAT b.stats 8 24 ||
    bad bnLSE b.lsev 4 4

/-- The slots an instruction touches: primal and tangents (R118). -/
def slotsOk (s : State) (e : TEnv) (t : Nat) : Bool :=
  (List.range (t + 1)).all fun k => (slotGeom (envVm s e) (inSLOT e.i + k) (inRows e.i) (inCols e.i) (inACC e.i)).isSome

/-- R163: the number of key tiles of a sweep (DEDUCED, assumption log 32). -/
def keyTiles (w j0 cols : Nat) : Nat := (cols - j0 + w - 1) / w

/-- The first MMA of a sweep in progress. -/
def sweepFirst (s : State) (e : TEnv) : Option Insn := e.c.sweepIp.map (readInsn s e.p)

/-- R145: the first failing check of an instruction. `handleOk`: does a handle of the partition name a CONT entry (R168) or a
ROUTE entry (R427). `maint`: is the Verb held under a maintenance token (R134) (DEDUCED, assumption log 31, 95). -/
def tileCheck (s : State) (e : TEnv) (contOk routeOk : Nat → Bool) (maint : Bool) : Option Nat :=
  let i := e.i
  let op := inOp i
  let k := envPart e
  let ts := opTensors i
  let known := ts.filter fun x => decide (x.1 < e.p.tcount)
  let ds := known.map fun x => (readTDesc s e.p x.1, x.2.1, x.2.2)
  let acc := inACC i
  let cls := linkClass op
  let hasAcc := cls != 3
  let role (r : Nat) : Option TDesc := (ds.find? fun x => x.2.2 == r).map (·.1)
  let t := if inD i then tangCount (ds.map (·.1)) else 0
  let scaledAny := ds.any fun x => (x.2.2 == 0 || x.2.2 == 1) && tdScaled x.1
  let sweepMma2 := isHandoffMma e && e.c.sweepIp.isSome
  let sweepMma1 := startsSweep s e || (op == opMMA && e.c.sweepIp == some e.p.ip)
  let outR : List Nat := [7, 8, 9]
  let prev := readInsn s e.p (e.p.ip - 1)
  -- order 1 to 4
  firstErr
    ([ (!tileOps.contains op, stOPCODE)
     , (insnRsv i, stRESERVED)
     -- order 3: C, links, D, H
     , (inC i && (cls == 3 || e.p.ip == e.c.first), stFLAG)
     , (inC i && e.c.links ≥ 8, stCHAIN)
     , (inC i && linkClass e.c.prevOp == 3, stFLAG)
     , (inC i && linkClass e.c.prevOp == 2 && cls != 2 && !isHandoffMma e, stFLAG)
     , (inC i && linkClass e.c.prevOp == 1 && cls == 0, stFLAG)
     , (op == opMMA && decide (1 ≤ e.c.mmas) && !isHandoffMma e && !sweepMma1, stFLAG)
     , (inD i && !dCapable op, stFLAG)
     , (dCapable op && inC i && (match e.c.dflag with | some (d, _) => d != inD i | none => false), stFLAG)
     , (inD i && op != opZERO && inC i && known.length == ts.length && (match e.c.dflag with | some (_, n) => n != t | none => false), stFLAG)
     , (inH i && !(op == opCVT || op == opQNT || op == opST || op == opHIST), stFLAG)
     , (!inH i && op == opHIST, stFLAG)
     , (inH i && ds.any (fun x => !tdHistv x.1), stFLAG)
     , (ds.any (fun x => bindMisplaced s e x.2.2 x.1), stFLAG)
     -- order 4
     , (!inN i && (op == opTNSRD || op == opPERFRD || (op == opCHKSTAT && inOPF0 i)), stN_REQUIRED)
     , (inN i && !e.p.nany, stN_UNDECLARED)
     -- order 5
     , (hasAcc && !accCode acc, stFORMAT)
     , ((op == opLDACC || op == opCVT || op == opQNT || op == opST) && decide (4 < inRND i), stFORMAT)
     , (op == opLDACC && !plainCode (inFA i), stFORMAT)
     , (op == opCVT && !plainCode (inOUT i), stFORMAT)
     , (op == opST && inOUT i != acc, stFORMAT)
     , (op == opQNT && !mxCode (inOUT i), stFORMAT)
     , (op == opQNT && ds.any (fun x => !tdScaled x.1 || tdCol x.1 != inOPF0 i), stFORMAT)
     , (op == opQNT && (if inOPF0 i then inI0 i % 32 != 0 else inJ0 i % 32 != 0), stFORMAT)
     , (ds.any (fun x => tdScaled x.1 && x.2.2 != 0 && x.2.2 != 1 && x.2.2 != 8 && x.2.2 != 10 && x.2.2 != 3), stFORMAT)
     , (op == opMMA && (pairDepth (inFA i) (inFB i) acc scaledAny).isNone, stFORMAT)
     , (ds.any (fun x => (x.2.2 == 0 && !operandOk (inFA i) x.1 true) || (x.2.2 == 1 && !operandOk (inFB i) x.1 false)), stFORMAT)
     , (isHandoffMma e && (inFA i != inOUT prev || (match role 0 with | some d => tdScaled d | none => false)), stFORMAT)
     , (ds.any (fun x => bindLayout x.2.2 x.1), stFORMAT)
     , (op == opMMA && !inLAST i && !sweepMma2 &&
         (match role 0 with | some d => decide (kOf d true < 1024 * (inK0 i + inKBC i)) | none => false), stFORMAT)
     , (op == opTREECOMB && !inOPF0 i && inTSEED i != 0xFFFF, stFORMAT)
     -- order 6
     , (ts.any (fun x => decide (e.p.tcount ≤ x.1)), stTENSOR) ] ++
     (ds.flatMap fun x =>
       [ (tdRsv x.1, stRESERVED), (!tdRules (storeFmt x.2.1 x.2.2 x.1) x.1, stFORMAT)
       , (bindRsv x.1, stRESERVED), (bindVal x.1, stFORMAT) ]) ++
     -- order 7
     (ds.flatMap fun x => [(!tdAreas s k (storeFmt x.2.1 x.2.2 x.1) x.1, stADDRESS), (bindAddr s k x.1, stADDRESS)]) ++
     [ (op == opMMA && (match role 3 with
         | some d => !inSpace s k (d.base + t * d.tstride) (64 + inTLEV i * (inRows i * inCols i * accBytes acc))
         | none => false), stADDRESS)
     , (op == opCHKSTAT && (bits i.w1 31 0 % 64 != 0 || !inSpace s k (bits i.w1 31 0) 64), stADDRESS)
     , (op == opTNSRD && (bits i.w1 31 0 % 8 != 0 || !inSpace s k (bits i.w1 31 0) 8), stADDRESS)
     , (op == opPERFRD && (bits i.w1 31 0 % 64 != 0 || !inSpace s k (bits i.w1 31 0) 64), stADDRESS)
     -- order 8
     , (inC i && hasAcc && e.c.links != 0 && e.c.trows != inRows i, stSHAPE)
     , (inC i && hasAcc && e.c.links != 0 && !isHandoffMma e && e.c.tcols != inCols i && !sweepMma1, stSHAPE)
     , (ds.any (fun x => (x.2.2 == 4 || x.2.2 == 6 || outR.contains x.2.2) &&
         ((decide (x.1.rows ≤ inI0 i) && !(x.2.2 == 4 && tdOn x.1 bnGATHER)) || decide (x.1.cols ≤ inJ0 i))), stSHAPE)
     , (op == opMMA && ds.any (fun x =>
         (x.2.2 == 0 && decide (mOf x.1 ≤ inI0 i) && !tdOn x.1 bnGATHER) || (x.2.2 == 1 && decide (x.1.cols ≤ inJ0 i)) ||
         (x.2.2 == 2 && (decide (x.1.rows ≤ inI0 i) || decide (x.1.cols ≤ inJ0 i)))), stSHAPE)
     , (op == opMMA && !sweepMma2 && (match role 0, role 1 with
         | some a, some b => kOf a true != kOf b false || decide (kOf a true ≤ 1024 * (inK0 i + inKBC i - 1))
         | _, _ => false), stSHAPE)
     , (inD i && ds.any (fun x => tdTang x.1 != 0 && tdTang x.1 != t), stSHAPE)
     , (isHandoffMma e && (inI0 i != 0 || inK0 i != 0), stSHAPE)
     , (isHandoffMma e && !sweepMma2 && (match role 0 with
         | some d => min (1024 * inKBC i) (kOf d true) != e.c.tcols || decide (512 < kOf d true)
         | none => false), stSHAPE)
     , (isHandoffMma e && (inI0 prev != 0 || inJ0 prev != 0 || (match role 0 with | some d => tdCol d | none => false)), stSHAPE)
     , (ds.any (fun x => x.2.2 == 7 && tdOn x.1 bnROWSTAT && inJ0 i % 32 != 0), stSHAPE)
     , ((sweepMma1 || sweepMma2) && (inKBF i != 0 || inKBC i != 1 || inK0 i != 0 || !inFIRST i || !inLAST i), stSHAPE)
     , (sweepMma2 && (inTTREE i != 0xFFFF || inTSEED i != 0xFFFF), stSHAPE)
     , (sweepMma2 && (match sweepFirst s e, role 1 with
         | some f, some b =>
           decide (b.rows < (e.c.keyTile + 1) * inCols f) || inCols f != e.c.tcols || decide (512 < inCols f)
         | _, _ => false), stSHAPE)
     -- order 9
     , (hasAcc && !slotsOk s e t, stACC_INDEX)
     , (op == opCHKSTAT && (slotGeom (envVm s e) (inSLOT i) (inRows i) (inCols i) (vmodeFmt (envVm s e))).isNone, stACC_INDEX)
     -- order 10
     , (op == opMMA && inTTREE i == 0xFFFF && !sweepMma2 && (inKBC i != 1 || !inFIRST i || !inLAST i), stTREE_AREA)
     , (op == opMMA && !inFIRST i && (match role 3 with
         | some d => spNat s e.p.cid (d.base + 4) 4 != inTLEV i
         | none => false), stTREE_AREA)
     , (op == opMMA && !inFIRST i && (match role 3 with
         | some d => spNat s e.p.cid (d.base + 8) 4 != inKBF i
         | none => false), stTREE_ORDER)
     , (op == opMMA && inTTREE i != 0xFFFF && decide (2 ^ inTLEV i ≤ inKBF i + inKBC i), stTREE_OVERFLOW)
     -- order 11
     , (op == opCSIG && !bit i.w1 32 && !conjKeyOk s (bits i.w1 13 0) (ctxOf s e.p.cid).ckey, stCONJ_KEY)
     , (op == opCSIG && bit i.w1 32 && !routeOk (bits i.w1 63 48), stCONJ_KEY)
     , (op == opCWAIT && !conjKeyOk s (bits i.w1 13 0) (ctxOf s e.p.cid).ckey, stCONJ_KEY)
     , (ds.any (fun x => outR.contains x.2.2 && tdOn x.1 bnCONTINUE && !contOk (tdB x.1 (·.chandle))), stCONJ_KEY)
     -- order 12
     , (op == opCHKINJECT && !maint, stMAINT_ONLY) ])

end Sys2Proof.Machine
end

