-- ==== Sys2Proof/Machine/TileOps.lean ====
section
/-! DEFINITION. Shared operations of the tile instructions: programs, marks and completion (R139 to R148), the arithmetic of a
step (R82 to R85), and the checksum strip (R103 to R106). -/

namespace Sys2Proof.Machine

/-! ### Programs -/

/-- An accepted program. -/
def progOf (s : State) (id : Nat) : Option Prog := mapFind s.progs id
/-- Puts a program record. -/
def setProg (s : State) (id : Nat) (p : Prog) : State := { s with progs := mapIns s.progs id p }
/-- Changes a program record that exists. -/
def updProg (s : State) (id : Nat) (f : Prog → Prog) : State :=
  match progOf s id with
  | some p => setProg s id (f p)
  | none => s
/-- A Verb record. -/
def verbOf (s : State) (v : Nat) : Verb := mapGet {} s.verbs v
/-- Changes a Verb record. -/
def updVerb (s : State) (v : Nat) (f : Verb → Verb) : State := { s with verbs := mapUpd {} s.verbs v f }

/-- VRB_STATUS of a Verb. -/
def vrbStatus (v : Nat) : Nat := aVRB_STATUS (v / 8) (v % 8)
/-- R645: adds to a counter of VRB_PERF (DESIGN CHOICE, assumption log 18). -/
def vrbPerf (s : State) (v j n : Nat) : State := satFld s (aVRB_PERF (v / 8) (v % 8) j) 63 0 n
/-- R107: sets VRB_STATUS bits that a mask names. -/
def vrbSet (s : State) (v m : Nat) : State := regSet s (vrbStatus v) (regGet s (vrbStatus v) ||| m)

/-- R95, R107, R147: ORs outcomes into a slot's status, VRB_STATUS and SEEN. -/
def applyTs (s : State) (id v : Nat) (g : SlotGeom) (ts : Nat) : State :=
  vrbSet (updProg s id fun p => { tswOr p g ts with seen := p.seen ||| seenOf ts }) v (vstatOf ts)

/-- R144, R147: ends a program with a status that instruction `ip` set. -/
def endAt (p : Prog) (status index itag : Nat) : Prog := { p with ended := some ⟨status, index, itag⟩ }

/-- Releases the Verb of a compound that has ended (R141); BUSY of R107 clears and BUSY_NS counts. -/
def endCompound (s : State) (id : Nat) : State :=
  match progOf s id with
  | none => s
  | some p =>
    match p.comp with
    | none => s
    | some c =>
      let s := vrbPerf s c.verb 5 (s.tense.toNat - (verbOf s c.verb).busyFrom)
      let s := clrBitOf s (vrbStatus c.verb) 8
      let s := updVerb s c.verb fun v => { v with prog := none, pass := none }
      setProg s id { p with comp := none }

/-- R593: a detected fault ends the unit's work with UNIT_FAULT and takes the unit out of service. -/
def unitFault (s : State) (sl u cause id : Nat) : State :=
  let s := updProg s id fun p => { p with ended := some ⟨stUNIT_FAULT, p.ip, 0⟩, comp := none, wait := none, space := .nowhere }
  let s := unitOos s sl u true
  let s := report s clCONTAINED cause (partByte s sl) sl u []
  wantQuick s sl u

/-- A tile instruction about to issue: the program runs, holds a Verb, waits on nothing, and its Verb makes no pass (R140, R141). -/
def tileEnv (s : State) (id : Nat) : Option TEnv :=
  match progOf s id with
  | none => none
  | some p =>
    match p.comp with
    | none => none
    | some c =>
      if p.kind == .tile && p.ended.isNone && p.wait.isNone && ctxRunning s p.cid && decide (p.ip < p.len)
          && (verbOf s c.verb).pass.isNone then
        some ⟨id, p, c, readInsn s p p.ip⟩
      else none

/-- R147: the first marked outcome in program order (the key tiles of a sweep pass its instructions again). -/
def markProg (p : Prog) (status itag : Nat) : Prog :=
  if status = stOK then p
  else
    match p.mark with
    | some m => if p.ip < m.index then { p with mark := some ⟨status, p.ip, itag⟩ } else p
    | none => { p with mark := some ⟨status, p.ip, itag⟩ }

/-- Does a compound go on after instruction `ip` (R119). -/
def compoundGoesOn (s : State) (p : Prog) : Bool :=
  decide (p.ip + 1 < p.len) && inC (readInsn s p (p.ip + 1))

/-- R147: at the end of the last instruction the program ends, with its first marked outcome or OK. -/
def endIfLast (p : Prog) : Prog :=
  if p.ip < p.len then p
  else { p with ended := some (p.mark.getD ⟨stOK, p.len, 0⟩) }

/-- R163: is a sweep in progress that has key tiles after the present one (DEDUCED, assumption log 32). -/
def sweepMore (s : State) (p : Prog) : Bool :=
  match p.comp with
  | none => false
  | some c =>
    match c.sweepIp with
    | none => false
    | some ip =>
      let f := readInsn s p ip
      c.swSlot.isNone && decide (c.keyTile + 1 < keyTiles (inCols f) (inJ0 f) (readTDesc s p (inTB f)).cols)

/-- Completes the instruction at `ip`: counts it, marks its outcome, moves on, ends the compound where the next instruction
opens another, and ends the program after its last instruction (R140, R146, R147). -/
def tileDone (s : State) (id : Nat) (e : TEnv) (status : Nat) : State :=
  match progOf s id with
  | none => s
  | some p =>
    -- an instruction of a sweep completes with the last key tile
    let n := if sweepMore s p then 0 else 1
    let s := vrbPerf s e.c.verb 1 n
    let goes := compoundGoesOn s p
    let p := markProg p status (inTAG e.i)
    let cls := linkClass (inOp e.i)
    let p := { p with
      completed := p.completed + n, ip := p.ip + 1
      comp := p.comp.map fun c => { c with
        links := c.links + 1, prevOp := inOp e.i
        trows := if cls = 3 then c.trows else inRows e.i
        tcols := if cls = 3 then c.tcols else inCols e.i
        mmas := c.mmas + (if inOp e.i = opMMA then 1 else 0) } }
    let s := setProg s id (endIfLast p)
    if goes then s else endCompound s id

/-- R145, R146: a refusal ends the program at the refused instruction, with no effect. -/
def tileRefuse (s : State) (id : Nat) (e : TEnv) (code : Nat) : State :=
  endCompound (updProg s id fun p => endAt p code p.ip (inTAG e.i)) id

/-- The Verb of an issued instruction. -/
def envVerb (e : TEnv) : Nat := e.c.verb
/-- The slice of the Verb. -/
def envSlice (e : TEnv) : Nat := e.c.verb / 8

/-- R168, R427: is a handle of the partition a CONT entry. -/
def contOk (s : State) (k h : Nat) : Bool :=
  decide (h < 1024) && match mapGet .none s.handles (1024 * k + h) with | .cont _ => true | _ => false
/-- R427: is a handle of the partition a ROUTE entry. -/
def routeOk (s : State) (k h : Nat) : Bool :=
  decide (h < 1024) && match mapGet .none s.handles (1024 * k + h) with | .route _ _ _ _ => true | _ => false

/-- R145: the refusal of the instruction about to issue, if any. -/
def tileRefusal (s : State) (e : TEnv) : Option Nat :=
  tileCheck s e (contOk s (envPart e)) (routeOk s (envPart e)) (bit (regGet s (vrbStatus e.c.verb)) 9)

/-- Issues the instruction at a program's `ip` where it is of opcode `op` (any reserved opcode is refused by whichever
command issues it); `body` is the instruction's own effect (DEDUCED, assumption log 31). -/
def tileIssue (s : State) (id op : Nat) (body : State → TEnv → State) : State :=
  match tileEnv s id with
  | none => s
  | some e =>
    if inOp e.i = op ∨ !tileOps.contains (inOp e.i) then
      match tileRefusal s e with
      | some code => tileRefuse s id e code
      | none => body s e
    else s

/-- R118, R167: the tangent count of an instruction that carries D. ZERO, which names no tensor, takes the count of its
compound's first link that names one. -/
def tangOf (s : State) (e : TEnv) : Nat :=
  let of (i : Insn) : Nat := tangCount (((opTensors i).filter fun x => decide (x.1 < e.p.tcount)).map fun x => readTDesc s e.p x.1)
  if !inD e.i then 0
  else if inOp e.i = opZERO then
    match (linksFrom s e.p 8 (e.p.ip + 1)).find? fun i => inD i && inOp i != opZERO with
    | some i => of i
    | none => 0
  else of e.i

/-- R167: notes the D flag and the tangent count of the compound's first D-capable link. -/
def noteD (s : State) (id : Nat) (e : TEnv) : State :=
  if dCapable (inOp e.i) then
    updProg s id fun p => { p with comp := p.comp.map fun c =>
      { c with dflag := match c.dflag with | some x => some x | none => some (inD e.i, tangOf s e) } }
  else s

/-- Slot `t` of an instruction (R118). -/
def envSlot (s : State) (e : TEnv) (t : Nat) : SlotGeom :=
  (slotGeom (envVm s e) (inSLOT e.i + t) (inRows e.i) (inCols e.i) (inACC e.i)).getD ⟨0, 4096, 128⟩

/-- Row and column pairs of a tile, row-major. -/
def tileCoords (rows cols : Nat) : List (Nat × Nat) := (List.range rows).flatMap fun r => (List.range cols).map fun c => (r, c)

/-! ### The arithmetic of a step (R82 to R85) -/

/-- Precision of an accumulator format (R82). -/
def accPrec (f : Fmt) : Nat := if f == .f64 then 53 else 24

/-- R82, R84: the sum of an alignment group, kept in a window of p + 3 bits. -/
def alignGroup (p : Nat) (prods : List Num) : Num :=
  if prods.any numIsNan then .nan
  else if prods.any (fun x => x == .inf true) && prods.any (fun x => x == .inf false) then .nan
  else if prods.any (fun x => x == .inf true) then .inf true
  else if prods.any (fun x => x == .inf false) then .inf false
  else
    let exps := prods.filterMap fun x => match x with | .fin _ m e => if m = 0 then none else some (magLog2 m e) | _ => none
    match exps with
    | [] => numZero
    | e0 :: r =>
      let u : Int := r.foldl max e0 - p - 2
      let tot : Int := prods.foldl (fun a x => match x with
        | .fin n m e =>
          let k : Nat := if u ≤ e then m <<< (e - u).toNat else m >>> (u - e).toNat
          if n then a - k else a + k
        | _ => a) 0
      if tot = 0 then numZero else .fin (decide (tot < 0)) tot.natAbs u

/-- R82, R85: adds an alignment group to an accumulator value: the new pattern and the outcomes. -/
def accStep (f : Fmt) (flush : Bool) (a : Num) (prods : List Num) : Cvt :=
  if f == .i32 then
    let tot := prods.foldl (numAdd false) a
    encIntAt 32 false .rne 0 tot 0
  else encNum f 0 .rne flush 0 (numAdd false a (alignGroup (accPrec f) prods))

/-- One rounded addition in accumulator format (R87, R127, R128). -/
def accAdd (f : Fmt) (flush : Bool) (a b : Num) : Cvt :=
  if f == .i32 then encIntAt 32 false .rne 0 (numAdd false a b) 0 else encNum f 0 .rne flush 0 (numAdd false a b)

/-! ### The checksum strip (R103 to R106) -/

/-- R104: an integer value modulo 255. -/
def mod255 (x : Num) : Int :=
  match x with
  | .fin n m e =>
    let k : Int := if 0 ≤ e then ((m <<< e.toNat : Nat) : Int) else ((m >>> (-e).toNat : Nat) : Int)
    (if n then -k else k) % 255
  | _ => 0

/-- R103: the tolerance of a line. `d`: step depth (DEDUCED, assumption log 33). -/
def chkTol (f : Fmt) (nr d n : Nat) (w : Num) : Num :=
  numMul (numInt nr) (numAdd false
    (numMul (.fin false (d + 8) (-(accPrec f : Int) - 2)) w) (.fin false n (fmtEmin f)))

/-- R103, R104: does a line pass. `c`: the sum of its accumulator values; `r`, `w`: the strip's sums. -/
def chkPass (f : Fmt) (nr d n : Nat) (c r w : Num) : Bool :=
  if f == .i32 then mod255 c == mod255 r
  else numLe (numAbs (numSub false c r)) (chkTol f nr d n w)

/-- The outcome of comparing a tile: failing rows and columns, comparisons skipped and made, and whether a forced failure fired. -/
structure ChkOut where
  rows : List Nat := []
  cols : List Nat := []
  skips : Nat := 0
  made : Nat := 0
  fired : Bool := false
deriving DecidableEq, Repr

/-- R105: a line that holds a NaN or an infinity, or whose tile has ACC_SAT set, is skipped. -/
def chkSkip (sat : Bool) (vals : List Num) : Bool := sat || vals.any fun x => !numIsFin x

/-- R103 to R105, R134: compares the rows and columns of a tile. `inj`: an armed failure (line, column side). -/
def chkTile (f : Fmt) (nr d : Nat) (sat : Bool) (vals : List (List Num)) (st : Strip) (inj : Option (Nat × Nat × Bool)) : ChkOut :=
  let rows := vals.length
  let cols := (vals.headD []).length
  let go (lines : List (List Num)) (n : Nat) (rs ws : List Num) (hit : Nat → Bool) : List Nat × Nat × Bool :=
    (lines.zipIdx).foldl (fun (a : List Nat × Nat × Bool) p =>
      if chkSkip sat p.1 then (a.1, a.2.1 + 1, a.2.2)
      else
        let bad := !chkPass f nr d n (numSum p.1) (rs.getD p.2 numZero) (ws.getD p.2 numZero)
        (if bad || hit p.2 then a.1 ++ [p.2] else a.1, a.2.1, a.2.2 || hit p.2)) ([], 0, false)
  let colLines := (List.range cols).map fun j => vals.map fun r => r.getD j numZero
  let inTile := match inj with | some (r, c, _) => decide (r < rows) && decide (c < cols) | none => false
  let rowHit (i : Nat) : Bool := inTile && match inj with | some (r, _, false) => r == i | _ => false
  let colHit (j : Nat) : Bool := inTile && match inj with | some (_, c, true) => c == j | _ => false
  let (fr, sr, hr) := go vals cols st.rowR st.rowW rowHit
  let (fc, sc, hc) := go colLines rows st.colR st.colW colHit
  { rows := fr, cols := fc, skips := sr + sc, made := rows + cols - sr - sc, fired := hr || hc }

/-- The values of a tile in a slot. -/
def tileVals (p : Prog) (g : SlotGeom) (f : Fmt) (rows cols : Nat) : List (List Num) :=
  (List.range rows).map fun r => (List.range cols).map fun c => accVal p g f r c

/-- Sums of the rows and columns of a tile and of their magnitudes, for the check of a fold (R103). -/
def foldStrip (a b : List (List Num)) : Strip :=
  let both := (a.zip b).map fun (x, y) => x.zip y
  let cols := (both.headD []).length
  let sum (l : List (Num × Num)) : Num := numSum (l.flatMap fun p => [p.1, p.2])
  let mag (l : List (Num × Num)) : Num := numSum (l.flatMap fun p => [numAbs p.1, numAbs p.2])
  let cl := (List.range cols).map fun j => both.filterMap fun r => r[j]?
  { rowR := both.map sum, rowW := both.map mag, colR := cl.map sum, colW := cl.map mag }

/-- R103: adds one chunk of a product to the strip's sums. `a`: rows × depth, `b`: columns × depth. -/
def stripAdd (st : Strip) (a b : List (List Num)) : Strip :=
  let depth := (a.headD []).length
  let colSum (m : List (List Num)) (abs : Bool) : List Num := (List.range depth).map fun k =>
    numSum (m.map fun r => if abs then numAbs (r.getD k numZero) else r.getD k numZero)
  let sb := colSum b false
  let sbw := colSum b true
  let sa := colSum a false
  let saw := colSum a true
  let dot (x y : List Num) (abs : Bool) : Num :=
    numSum ((x.zip y).map fun p => numMul (if abs then numAbs p.1 else p.1) p.2)
  let acc (old : List Num) (new : List Num) : List Num := (new.zipIdx).map fun p => numAdd false (old.getD p.2 numZero) p.1
  { rowR := acc st.rowR (a.map fun r => dot r sb false), rowW := acc st.rowW (a.map fun r => dot r sbw true)
    colR := acc st.colR (b.map fun c => dot c sa false), colW := acc st.colW (b.map fun c => dot c saw true) }

/-- R106, R134: takes up a comparison's outcome: counters, forced failure, status marks and the report. -/
def applyChk (s : State) (id v slot kblock : Nat) (g : SlotGeom) (o : ChkOut) : State :=
  let s := satFld s (aVRB_CHK_SKIP (v / 8) (v % 8)) 31 0 o.skips
  let s := vrbPerf s v 6 o.made
  let s := if o.fired then updProg s id fun p => { p with inject := none } else s
  if o.rows.isEmpty && o.cols.isEmpty then s
  else
    let s := applyTs s id v g (tsCHK ||| tsPOISON)
    -- R598: DETAIL holds the tile, the K-block, the failing rows and columns
    let s := report s clCONTAINED 0x04 (partByte s (v / 8)) (v / 8) (v % 8) ([id, slot, kblock, o.rows.length] ++ o.rows ++ o.cols)
    wantQuick s (v / 8) (v % 8)

/-- R134: the armed failure that matches an instruction's slot. -/
def injFor (p : Prog) (slot : Nat) : Option (Nat × Nat × Bool) :=
  match p.inject with
  | some (sl, r, c, t) => if sl = slot then some (r, c, t) else none
  | none => none

/-- R95: does a slot's status carry ACC_SAT. -/
def slotSat (p : Prog) (g : SlotGeom) : Bool := bit (tswGet p g) 0

/-- Checks `out` against the two inputs of a fold (R103 with one step of the least depth). -/
def chkFold (s : State) (id v slot kblock : Nat) (g : SlotGeom) (f : Fmt) (d : Nat) (a b out : List (List Num)) : State :=
  match progOf s id with
  | none => s
  | some p => applyChk s id v slot kblock g (chkTile f 1 d (slotSat p g) out (foldStrip a b) (injFor p slot))

/-- The tile values of a rounded addition of two tiles: patterns and outcomes (DEDUCED, assumption log 33). -/
def foldTiles (f : Fmt) (flush : Bool) (a b : List (List Num)) : List (List Cvt) :=
  (a.zip b).map fun (x, y) => (x.zip y).map fun (u, w) => accAdd f flush u w

/-- Values of converted tiles. -/
def cvtVals (f : Fmt) (m : List (List Cvt)) : List (List Num) := m.map fun r => r.map fun c => decNum f 0 c.pat
/-- Status outcomes of a tile of conversions. -/
def cvtTs (f : Fmt) (m : List (List Cvt)) : Nat := m.foldl (fun a r => r.foldl (fun a c => a ||| tsOfCvt f c) a) 0

/-- Writes a tile of patterns into a slot. -/
def putTile (p : Prog) (g : SlotGeom) (f : Fmt) (m : List (List Nat)) : Prog :=
  (m.zipIdx).foldl (fun p r => (r.1.zipIdx).foldl (fun p c => accPut p g f r.2 c.2 c.1) p) p

/-- Applies an environment's upset (element index, exclusive-or mask) to a tile of patterns (R103's fault model). -/
def upsetTile (cols : Nat) (up : Option (Nat × Nat)) (m : List (List Nat)) : List (List Nat) :=
  match up with
  | none => m
  | some (ix, mask) =>
    (m.zipIdx).map fun r => (r.1.zipIdx).map fun c => if r.2 * cols + c.2 = ix then c.1 ^^^ mask else c.1

/-- A tile read from a tensor in accumulator format at an origin, as R124 reads it: values, and whether it arrived poisoned or
from a slice that is off, or was flushed. -/
structure TileRd where
  vals : List (List Num)
  poison : Bool
  off : Bool
  flushed : Bool
deriving DecidableEq, Repr

/-- Reads a tile of tangent `t` of a tensor; a tensor without tangents gives zeros to every tangent (R118). -/
def readTile (s : State) (cid : Nat) (flush : Bool) (f : Fmt) (d : TDesc) (t i0 j0 rows cols : Nat) : TileRd :=
  if t ≠ 0 ∧ tdTang d = 0 then { vals := List.replicate rows (List.replicate cols numZero), poison := false, off := false, flushed := false }
  else
    let m := (List.range rows).map fun r => (List.range cols).map fun c => elemRead s cid flush f d t (i0 + r) (j0 + c)
    let any (q : Rd → Bool) : Bool := m.any fun r => r.any q
    { vals := m.map fun r => r.map (·.x), poison := any (·.poison), off := any (·.off), flushed := any (·.flushed) }

/-- R146: which marked outcome an instruction completes with (DEDUCED, assumption log 31). -/
def markOf (off chk poison : Bool) : Nat := if off then stSLICE_OFF else if chk then stCHECKSUM else if poison then stPOISONED else stOK

end Sys2Proof.Machine
end

