-- ==== Sys2Proof/Machine/InfOps.lean ====
section
/-! DEFINITION. Inflector programs: headers, streams, channels and their checks, stream reads and writes, norm taps, and the
Agreement channels (spec/06_inflector.md R171 to R197). -/

namespace Sys2Proof.Machine

/-! ### Headers and descriptors (R171, R172, R185) -/

/-- R171: the header's fields as numbers. -/
structure InfHead where
  ucount : Nat
  streams : Nat
  pflags : Nat
  length : Nat
  ucode : Nat
  stable : Nat
  ktable : Nat
  ctable : Nat
  summary : Nat
  srid : Nat
  cellkind : Nat
  normcount : Nat
  normtab : Nat
  rsvBytes : Nat
deriving DecidableEq, Repr

/-- R171: reads a header. -/
def readInfHead (s : State) (cid a : Nat) : InfHead :=
  let n (o k : Nat) : Nat := spNat s cid (a + o) k
  { ucount := n 0 1, streams := n 1 1, pflags := n 2 2, length := n 4 8, ucode := n 0xC 4, stable := n 0x10 4, ktable := n 0x14 4
    ctable := n 0x18 4, summary := n 0x1C 4, srid := n 0x20 4, cellkind := n 0x24 2, normcount := n 0x26 2, normtab := n 0x28 4
    rsvBytes := n 0x2C 20 }

/-- R178: opcode of a micro-operation word. -/
def uOP (w : Nat) : Nat := bits w 5 0
/-- R176. -/
def uDST (w : Nat) : Nat := bits w 9 6
/-- R176. -/
def uSA (w : Nat) : Nat := bits w 13 10
/-- R176. -/
def uSB (w : Nat) : Nat := bits w 17 14
/-- R176. -/
def uSC (w : Nat) : Nat := bits w 21 18
/-- R176. -/
def uRND (w : Nat) : Nat := bits w 24 22
/-- R176. -/
def uAUX (w : Nat) : Nat := bits w 31 26

/-- R178: opcodes. -/
def uRED : Nat := 0x38

/-- R171: NIN, NOUT and TANGENTS. -/
def ihNin (h : InfHead) : Nat := bits h.streams 2 0
/-- R171. -/
def ihNout (h : InfHead) : Nat := bits h.streams 4 3
/-- R171. -/
def ihTang (h : InfHead) : Nat := bits h.pflags 3 1
/-- R171. -/
def ihNany (h : InfHead) : Bool := bit h.pflags 0

/-- R171: does a header obey its rules. Areas that are read at every program lie inside the partition's scratchpad. -/
def infHeadOk (s : State) (k cid a : Nat) : Bool :=
  a % 64 == 0 && inSpace s k a 64 &&
  let h := readInfHead s cid a
  let ucode := (List.range h.ucount).map fun i => spNat s cid (h.ucode + 4 * i) 4
  decide (1 ≤ h.ucount) && decide (h.ucount ≤ 64) && decide (ihNin h ≤ 4) && decide (ihNout h ≤ 2) && bits h.streams 7 5 == 0 &&
  decide (ihTang h ≤ 4) && bits h.pflags 15 5 == 0 && decide (1 ≤ h.length) && decide (h.length < 2 ^ 40) &&
  h.ucode % 4 == 0 && inSpace s k h.ucode (4 * h.ucount) &&
  h.stable % 64 == 0 && inSpace s k h.stable (64 * (ihNin h + ihNout h)) &&
  h.ktable % 8 == 0 && inSpace s k h.ktable 128 &&
  (!(ucode.any fun w => uOP w == uRED) || (h.ctable % 64 == 0 && inSpace s k h.ctable 128)) &&
  h.summary % 64 == 0 && inSpace s k h.summary 128 && decide (h.srid < 2 ^ 29) && decide (h.normcount ≤ 4096) &&
  (h.normcount == 0 || (h.normtab % 256 == 0 && inSpace s k h.normtab (256 * h.normcount))) && h.rsvBytes == 0

/-- R172: a stream descriptor. -/
def parseIStream (bs : List Byte) : IStream :=
  let d := parseTDesc [] (bs.take 40 ++ List.replicate 24 0)
  let f := bfield bs 0x28 1
  let m := bfield bs 0x29 1
  let tp := bfield bs 0x2C 1
  { d := d, fmt := f % 16, raw := bit f 4, map := m % 4, gs := bits m 3 2, layer := bfield bs 0x2A 2, tap := tp % 4
    expv := bfield bs 0x30 4
    rsv := tdRsv d || bits f 7 5 != 0 || bits m 7 4 != 0 || bits tp 7 2 != 0 || bfield bs 0x2D 3 != 0 || bfield bs 0x34 12 != 0 }

/-- R185: a channel descriptor. -/
def parseIChan (bs : List Byte) : IChan :=
  let i := bfield bs 1 1
  let o := bfield bs 2 1
  let c := bfield bs 3 1
  let x := bfield bs 0x10 8
  { op := bfield bs 0 1, inF := i % 16, outF := o % 16, tanred := bit c 0, imp := bit c 1, exp := bit c 2, seglen := bfield bs 4 4
    out := bfield bs 8 4, xrec := bfield bs 0xC 4, index0 := x % 2 ^ 40
    rsv := bits i 7 4 != 0 || bits o 7 4 != 0 || bits c 7 3 != 0 || bits x 63 40 != 0 || bfield bs 0x18 40 != 0 }

/-- R185: operations. -/
def chSUM : Nat := 0
/-- R185. -/
def chSUMSQ : Nat := 1
/-- R185. -/
def chMEANVAR : Nat := 2
/-- R185. -/
def chMERGE : Nat := 3
/-- R185. -/
def chMAXIDX : Nat := 4
/-- R185. -/
def chMININDX : Nat := 5
/-- R185. -/
def chNORM1 : Nat := 6
/-- R185. -/
def chNORM2 : Nat := 7
/-- R185. -/
def chNORMINF : Nat := 8

/-- R188, R191: operations that sum. -/
def chSums (op : Nat) : Bool := op == chSUM || op == chSUMSQ || op == chNORM1 || op == chNORM2 || op == chMEANVAR
/-- R188: does the channel take the exact path. -/
def chExact (c : IChan) : Bool := chSums c.op && c.inF != 0
/-- R191, R193: does the channel take the positional path. -/
def chPositional (c : IChan) : Bool := chSums c.op && c.inF == 0

/-- R187: result width. -/
def chWidth (c : IChan) : Nat :=
  if c.op = chMEANVAR ∨ c.op = chMERGE then 24
  else if c.op = chMAXIDX ∨ c.op = chMININDX then 16
  else fmtWidth (fmtOf c.outF) / 8

/-- R187: results per segment. -/
def chPer (c : IChan) (tang : Nat) : Nat := if c.tanred then tang + 1 else 1
/-- R186: segments of a stream. -/
def chSegs (c : IChan) (len : Nat) : Nat := if c.seglen = 0 then 1 else (len + c.seglen - 1) / c.seglen
/-- R192: does a segment of the channel form an aligned part. -/
def chAligned (c : IChan) (len : Nat) : Bool :=
  let m := ((if c.seglen = 0 then len else min c.seglen len) + 1023) / 1024
  c.index0 % 1024 == 0 && c.index0 / 1024 % 2 ^ clog2 m == 0

/-! ### The check of R199 -/

/-- R173, R172, R181, R197, R202: the first failing rule of a stream. `ix`: its number among inputs; `out`: an output. -/
def streamErr (s : State) (k len tang normcount : Nat) (ins : List IStream) (histo0 : Bool) (ix : Nat) (out : Bool) (x : IStream) : Option Nat :=
  let f := fmtOf x.fmt
  let d := x.d
  let n := d.rows * d.cols
  let fx := decide (14 ≤ x.fmt)
  let ex := (n + 255) / 256
  firstErr
    [ (x.rsv, stRESERVED)
    , (histo0 && !tdHistv d, stFLAG)
    , (!tdRules (some f) d, stFORMAT)
    , (out && x.fmt == 9, stFORMAT)
    , (tdScaled d && !mxCode f, stFORMAT)
    , (!tdScaled d && decide (6 ≤ x.fmt) && decide (x.fmt ≤ 8), stFORMAT)
    , (out && decide (2 ≤ x.map), stFORMAT)
    , (x.map == 2 && !(decide (x.gs < ix) && match ins[x.gs]? with
        | some g => g.map == 0 && decide (10 ≤ g.fmt) && decide (g.fmt ≤ 13)
        | none => false), stFORMAT)
    , (out && tdScaled d && (tdCol d || x.map != 0 || d.cols % 32 != 0), stFORMAT)
    , (x.tap != 0 && !((decide (1 ≤ x.fmt) && decide (x.fmt ≤ 8)) || (decide (10 ≤ x.fmt) && decide (x.fmt ≤ 13))), stFORMAT)
    , (!tdAreas s k (some f) d, stADDRESS)
    , (fx && (x.expv % 2 != 0 || !inSpace s k x.expv (2 * ex)), stADDRESS)
    , (decide (x.map ≤ 1) && n != len, stSHAPE)
    , (tdTang d != 0 && tdTang d != tang, stSHAPE)
    , (x.tap != 0 && decide (normcount ≤ x.layer), stSHAPE) ]

/-- R185 to R192, R195: the first failing rule of a channel (DEDUCED, assumption log 34). -/
def chanErr (s : State) (k len tang : Nat) (c : IChan) : Option Nat :=
  let w := chWidth c
  let al := if w = 24 then 8 else w
  let segs := chSegs c len
  firstErr
    [ (c.rsv || decide (8 < c.op), stRESERVED)
    , (c.tanred && !(c.op == chSUM || c.op == chSUMSQ), stFLAG)
    , (!plainCode (fmtOf c.inF), stFORMAT)
    , (!(c.outF == 0 || c.outF == 1 || (c.outF == 10 && c.op == chSUM && decide (10 ≤ c.inF))), stFORMAT)
    , ((c.op == chMEANVAR || c.op == chMERGE || c.op == chMAXIDX || c.op == chMININDX) && c.outF != 0, stFORMAT)
    , ((c.imp || c.exp) && !chExact c, stFORMAT)
    , (c.out % al != 0 || !inSpace s k c.out (segs * chPer c tang * w), stADDRESS)
    , ((c.imp || c.exp) && (c.xrec % 64 != 0 || !inSpace s k c.xrec (192 * segs)), stADDRESS)
    , (chPositional c && !chAligned c len, stSHAPE) ]

/-- What R176 and R178 say of an opcode: which fields it uses (DST, SA, SB, SC, RND) and how many bits of AUX. -/
def uopUse (merge : Bool) (op : Nat) : Option (Bool × Bool × Bool × Bool × Bool × Nat) :=
  let f2 := some (true, true, true, false, true, 0)
  let f1 := some (true, true, false, false, true, 0)
  let i2 := some (true, true, true, false, false, 0)
  match op with
  | 0x00 => some (false, false, false, false, false, 0)
  | 0x01 => some (true, false, false, false, true, 2)
  | 0x02 => some (true, false, false, false, false, 2)
  | 0x03 => some (false, true, false, false, true, 1)
  | 0x04 => some (false, true, false, false, false, 1)
  | 0x05 => some (true, false, false, false, false, 4)
  | 0x06 => some (true, true, false, false, false, 0)
  | 0x07 => some (true, false, false, false, false, 0)
  | 0x08 => f2 | 0x09 => f2 | 0x0A => f2 | 0x0B => f2
  | 0x0C => some (true, true, true, true, true, 0)
  | 0x0D => f1 | 0x0E => f1 | 0x0F => f2 | 0x10 => f2 | 0x11 => f1 | 0x12 => f1 | 0x13 => f1 | 0x14 => f1 | 0x15 => f1
  | 0x16 => f1 | 0x17 => f1 | 0x18 => f1 | 0x19 => f1 | 0x1A => f1 | 0x1B => f1 | 0x1C => f1 | 0x1D => f1
  | 0x20 => i2 | 0x21 => i2 | 0x22 => i2
  | 0x23 => some (true, true, false, false, false, 0)
  | 0x24 => some (true, true, true, true, false, 0)
  | 0x25 => f1 | 0x26 => f1
  | 0x28 => i2 | 0x29 => i2 | 0x2A => i2 | 0x2B => i2 | 0x2C => i2 | 0x2D => i2 | 0x2E => i2 | 0x2F => i2 | 0x30 => i2
  | 0x31 => i2 | 0x32 => i2
  | 0x33 => some (true, true, true, false, false, 6)
  | 0x34 => some (true, true, true, true, false, 6)
  | 0x36 => i2
  | 0x38 => some (false, true, merge, merge, false, 1)
  | 0x39 => some (false, true, false, false, false, 3)
  | 0x3A => some (false, true, false, false, false, 3)
  | 0x3B => some (false, true, false, false, false, 3)
  | 0x3C => some (false, true, false, false, false, 3)
  | _ => none

/-- R176: a field that the operation does not use is not zero. -/
def uopRsv (w : Nat) (u : Bool × Bool × Bool × Bool × Bool × Nat) : Bool :=
  let (d, a, b, c, r, x) := u
  bit w 25 || (!d && uDST w != 0) || (!a && uSA w != 0) || (!b && uSB w != 0) || (!c && uSC w != 0) ||
  (!r && uRND w != 0) || decide (2 ^ x ≤ uAUX w)

/-- R182: the cell kind that a summary operation needs. -/
def cellOp (op : Nat) : Option Nat :=
  match op with | 0x39 => some 0 | 0x3A => some 1 | 0x3B => some 2 | 0x3C => some 3 | _ => none

/-- R176 to R180: the first failing rule of the micro-operation at position `i` (DEDUCED, assumption log 34). -/
def uopErr (r : InfRun) (i : Nat) : Option Nat :=
  let w := r.ucode.getD i 0
  let op := uOP w
  let merge := match r.chans[uAUX w % 2]? with | some c => c.op == chMERGE | none => false
  match uopUse merge op with
  | none => some stOPCODE
  | some u =>
    let before := r.ucode.take i
    let isSt (x : Nat) : Bool := uOP x == 3 || uOP x == 4
    firstErr
      [ (uopRsv w u, stRESERVED)
      , (decide (4 < uRND w), stFORMAT)
      , ((op == 1 || op == 2) && decide (r.nin ≤ uAUX w), stFORMAT)
      , (isSt w && decide (r.nout ≤ uAUX w), stFORMAT)
      , (isSt w && before.any (fun x => isSt x && uAUX x == uAUX w), stFORMAT)
      , (op == uRED && before.any (fun x => uOP x == uRED && uAUX x == uAUX w), stFORMAT)
      , ((op == 0x33 || op == 0x34) && uAUX w == 0, stFORMAT)
      , ((cellOp op).isSome && cellOp op != some (bits r.cellkind (2 * uAUX w + 1) (2 * uAUX w)), stFORMAT) ]

/-- R171 to R185: everything the check reads of a program whose header stands. -/
def readInfRun (s : State) (cid a : Nat) : InfRun :=
  let h := readInfHead s cid a
  let ucode := (List.range h.ucount).map fun i => spNat s cid (h.ucode + 4 * i) 4
  let st (i : Nat) : IStream := parseIStream (spBytes s cid (h.stable + 64 * i) 64)
  { ucount := h.ucount, nin := ihNin h, nout := ihNout h, tang := ihTang h, histo := bit h.pflags 4, length := h.length
    ucode := ucode
    ins := (List.range (ihNin h)).map st, outs := (List.range (ihNout h)).map fun i => st (ihNin h + i)
    consts := (List.range 16).map fun i => spNat s cid (h.ktable + 8 * i) 8
    chans := if ucode.any (fun w => uOP w == uRED) then
      (List.range 2).map fun i => parseIChan (spBytes s cid (h.ctable + 64 * i) 64) else []
    summary := h.summary, srid := h.srid, cellkind := h.cellkind, normcount := h.normcount, normtab := h.normtab
    cells := (List.range 8).map fun c => match bits h.cellkind (2 * c + 1) (2 * c) with
      | 0 => 0xFFF0000000000000 | 1 => 0x7FF0000000000000 | _ => 0
    ch := [{}, {}] }

/-- The first entry of a list of checks, with the index it is reported under (R201). -/
def firstAt (l : List (Nat × Option Nat)) : Option (Nat × Nat) :=
  match l with
  | [] => none
  | (i, some c) :: _ => some (c, i)
  | (_, none) :: r => firstAt r

/-- R199: the first failure of streams, channels and micro-operations: status and INDEX (R201) (DEDUCED, assumption log 34). -/
def infCheck (s : State) (k : Nat) (r : InfRun) : Option (Nat × Nat) :=
  let used (c : Nat) : Bool := r.ucode.any fun w => uOP w == uRED && uAUX w == c
  -- R242: IS0, IS1, OS0 and OS1 of a kernel belong to the Lexer and carry BASE 0
  firstAt (
    ((r.ins.zipIdx).map fun x => (64 + x.2,
      if r.kernel ∧ x.2 ≤ 1 then (if x.1.d.base ≠ 0 then some stFORMAT else if x.1.fmt ≠ 10 ∨ x.1.map ≠ 0 then some stFORMAT else none)
      else streamErr s k r.length r.tang r.normcount r.ins false x.2 false x.1)) ++
    ((r.outs.zipIdx).map fun x => (64 + r.nin + x.2,
      if r.kernel then (if x.1.d.base ≠ 0 then some stFORMAT else none) else streamErr s k r.length r.tang r.normcount r.ins (r.histo && x.2 == 0) (r.nin + x.2) true x.1)) ++
    [(64 + r.nin, if r.histo && r.nout == 0 then some stFLAG else none)] ++
    ((r.chans.zipIdx).map fun x => (72 + x.2, if used x.2 then chanErr s k r.length r.tang x.1 else none)) ++
    ((List.range r.ucount).map fun i => (i, uopErr r i)))

/-! ### Streams (R173, R197) -/

/-- R47: is a block exponent in range. -/
def expOk (e : Int) : Bool := decide (-1024 ≤ e) && decide (e ≤ 1024)

/-- R47: the block exponent of row-major position `pos` of an FX stream. -/
def streamExp (s : State) (cid : Nat) (x : IStream) (pos : Nat) : Int :=
  if 14 ≤ x.fmt then sext 16 (spNat s cid (x.expv + 2 * (pos / 256)) 2) else 0

/-- R173: the row and column of a flat row-major position. -/
def posRC (d : TDesc) (pos : Nat) : Nat × Nat := (pos / d.cols, pos % d.cols)

/-- R173: the row-major position of element `i` of a linear, transposed or broadcast stream. -/
def mapPos (x : IStream) (i : Nat) : Nat :=
  match x.map with
  | 1 => i % x.d.rows * x.d.cols + i / x.d.rows
  | 3 => i % (x.d.rows * x.d.cols)
  | _ => i

/-- Reads the element at a row-major position (R52, R57, R175, R181). -/
def streamAt (s : State) (cid tang : Nat) (flush : Bool) (x : IStream) (pos : Nat) : IRead :=
  let f := fmtOf x.fmt
  let (r, c) := posRC x.d pos
  if tdScaled x.d then
    let e := elemRead s cid flush f x.d 0 r c
    let (line, i) := (if tdCol x.d then (c, r) else (r, c))
    let code := spBits s cid (8 * (x.d.base + line * x.d.pitch + i / 32 * mxBlockBytes f) + fmtWidth f * (i % 32)) (fmtWidth f)
    { pat := code, x := e.x, tan := List.replicate tang numZero, poison := e.poison, flushed := e.flushed }
  else
    let E := streamExp s cid x pos
    let at_ (t : Nat) : Nat × Num × Bool × Bool :=
      let ba := elemBit f x.d t r c
      let p := spBits s cid ba (fmtWidth f)
      let (v, fl) := readFlush f E flush p
      (p, v, fl, spPoison s cid (ba / 8) ((ba % 8 + fmtWidth f + 7) / 8))
    let (p, v, fl, po) := at_ 0
    let tans := (List.range tang).map fun t => if tdTang x.d = 0 then (0, numZero, false, false) else at_ (t + 1)
    { pat := p, x := v, tan := tans.map fun t => t.2.1, poison := po || tans.any (fun t => t.2.2.2)
      flushed := fl || tans.any fun t => t.2.2.1 }

/-- R242: the global node number that the Lexer supplies as element `i` of IS0 (`col` false) or IS1. -/
def kernelNode (s : State) (cid : Nat) (r : InfRun) (col : Bool) (i : Nat) : IRead :=
  let e := r.kfirst + i / (r.knpe * r.knpe)
  let a := if col then i % r.knpe else i / r.knpe % r.knpe
  let (bs, po) := arRead s cid 0 (r.kelems + 4 * (e * r.knpe + a)) 4
  { pat := leNat bs, x := numInt (sext 32 (leNat bs)), tan := List.replicate r.tang numZero, poison := po }

/-- R173: element `i` of input stream `n`: the read, and whether a gather position was out of range. -/
def streamRead (s : State) (cid : Nat) (flush : Bool) (r : InfRun) (n i : Nat) : IRead × Bool :=
  match r.ins[n]? with
  | none => ({}, false)
  | some x =>
    if r.kernel ∧ n ≤ 1 then (kernelNode s cid r (n == 1) i, false)
    else if x.map = 2 then
      match r.ins[x.gs]? with
      | none => ({}, false)
      | some g =>
        let gi := if r.kernel ∧ x.gs ≤ 1 then kernelNode s cid r (x.gs == 1) i else streamAt s cid 0 false g (mapPos g i)
        let p := sext (fmtWidth (fmtOf g.fmt)) gi.pat
        if 0 ≤ p ∧ p < ((x.d.rows * x.d.cols : Nat) : Int) then
          let e := streamAt s cid r.tang flush x p.toNat
          ({ e with poison := e.poison || gi.poison }, false)
        else ({ tan := List.replicate r.tang numZero, poison := true }, true)
    else (streamAt s cid r.tang flush x (mapPos x i), false)

/-- R196: the offset of a role's accumulator in a norm table entry. -/
def tapOff (tap : Nat) : Nat := 0x50 * (tap - 1)

/-- Adds to a little-endian two's-complement number of `n` bytes in scratchpad. -/
def spAddInt (s : State) (cid w a n : Nat) (k : Int) : State :=
  spWrite s cid w a (natLe n (toTwos (8 * n) (sext (8 * n) (spNat s cid a n) + k))) false

/-- A finite value in units of 2^-320 (R188); the value is a multiple of that unit. -/
def fix320 (x : Num) : Int :=
  match x with
  | .fin n m e =>
    let k : Nat := if -320 ≤ e then m <<< (e + 320).toNat else m >>> (-320 - e).toNat
    if n then -(k : Int) else (k : Int)
  | _ => 0

/-- The exact value of a long accumulator. -/
def numFix (i : Int) : Num := .fin (decide (i < 0)) i.natAbs (-320)

/-- R196, R197: a tapped element adds its square to the norm table entry of its stream. -/
def normTap (s : State) (cid w : Nat) (r : InfRun) (x : IStream) (v : Num) : State :=
  if x.tap = 0 then s
  else
    let e := r.normtab + 256 * x.layer
    match v with
    | .fin _ _ _ => spAddInt s cid w (e + tapOff x.tap) 80 (fix320 (numMul v v))
    | .nan => spWrite s cid w (e + 0xF0) (natLe 4 (spNat s cid (e + 0xF0) 4 ||| 2 ^ (x.tap - 1))) false
    | .inf _ => spWrite s cid w (e + 0xF0) (natLe 4 (spNat s cid (e + 0xF0) 4 ||| 2 ^ (x.tap + 2))) false

/-- Elements to write: bit address, pattern, poison. -/
abbrev OutElem := Nat × Nat × Bool

/-- Writes elements of one width: consecutive elements of one 32-byte unit go as one write, so that poison stays per unit (R279). -/
def writeElems (s : State) (cid wsl w : Nat) (es : List OutElem) : State :=
  let flushRun (s : State) (run : Option (Nat × List Nat × Bool)) : State :=
    match run with
    | none => s
    | some (ba, pats, po) => writeRun s cid wsl ba w pats.reverse po
  let (s, run) := es.foldl (fun (a : State × Option (Nat × List Nat × Bool)) e =>
    match a.2 with
    | some (ba, pats, po) =>
      if e.1 = ba + w * pats.length ∧ e.1 / 256 = ba / 256 then (a.1, some (ba, e.2.1 :: pats, po || e.2.2))
      else (flushRun a.1 a.2, some (e.1, [e.2.1], e.2.2))
    | none => (a.1, some (e.1, [e.2.1], e.2.2))) (s, none)
  flushRun s run

/-! ### Agreement channels (R186 to R195) -/

/-- Adds two binary64 patterns, one rounding under RNE (R191). -/
def add64 (flush : Bool) (a b : Nat) : Nat := (encNum .f64 0 .rne flush 0 (numAdd false (dF64 a) (dF64 b))).pat
/-- Rounds into binary64 under RNE. -/
def rnd64 (flush : Bool) (x : Num) : Nat := (encNum .f64 0 .rne flush 0 x).pat

/-- R194: merges state (nb, mb, M2b) into (n, mean, M2). -/
def mergeMV (flush : Bool) (a b : List Nat) : List Nat :=
  match a, b with
  | [n, mean, m2], [nb, mb, m2b] =>
    if nb = 0 then a
    else
      let nn := n + nb
      let delta := numSub false (dF64 mb) (dF64 mean)
      let k (i : Nat) : Num := numInt i
      let mean' := rnd64 flush (numDiv (numAdd false (numMul (dF64 mean) (k nn)) (numMul delta (k nb))) (k nn))
      let m2' := rnd64 flush (numDiv (numAdd false (numMul (numAdd false (dF64 m2) (dF64 m2b)) (k nn))
        (numMul (numMul delta delta) (k (n * nb)))) (k nn))
      if n = 0 then [nb, rnd64 flush (dF64 mb), rnd64 flush (dF64 m2b)] else [nn, mean', m2']
  | _, _ => a

/-- R87 with leaf blocks: folds a finished leaf into the levels. `comb`: the node rule. -/
def leafFold (comb : List Nat → List Nat → List Nat) (b : Nat) : Nat → Nat → Map (List Nat) → List Nat → Map (List Nat)
  | 0, l, lev, v => mapIns lev l v
  | n + 1, l, lev, v =>
    match mapFind lev l with
    | some x => if bit b l then leafFold comb b n (l + 1) (mapDel lev l) (comb x v) else mapIns lev l v
    | none => mapIns lev l v

/-- R89's finalise over the levels, lowest first. -/
def leafFinal (comb : List Nat → List Nat → List Nat) (lev : Map (List Nat)) : Option (List Nat) :=
  lev.foldl (fun a x => match a with | none => some x.2 | some v => some (comb x.2 v)) none

/-- R191, R193: the node rule of a positional channel. -/
def nodeRule (flush : Bool) (c : IChan) (a b : List Nat) : List Nat :=
  if c.op = chMEANVAR then mergeMV flush a b
  else
    match a, b with
    | [x], [y] => [add64 flush x y]
    | _, _ => a

/-- R188: adds a term to the exact accumulators; a non-finite input sets its flag. -/
def exactAdd (g : SegSt) (op : Nat) (x : Num) (sq : Num) : SegSt :=
  let g := { g with n := g.n + 1 }
  let magn := op == chNORM1 || op == chNORM2 || op == chSUMSQ
  match x with
  | .nan => { g with nan := true }
  | .inf n => if n && !magn then { g with ninf := true } else { g with pinf := true }
  | .fin _ _ _ =>
    if op = chSUM then { g with s := g.s + fix320 x }
    else if op = chNORM1 then { g with s := g.s + fix320 (numAbs x) }
    else if op = chMEANVAR then { g with s := g.s + fix320 x, q := g.q + fix320 sq }
    else { g with q := g.q + fix320 sq }

/-- R195: -0 below +0. -/
def ltZ (a b : Num) : Bool :=
  if numLt a b then true
  else match a, b with
    | .fin na ma _, .fin nb mb _ => ma == 0 && mb == 0 && na && !nb
    | _, _ => false

/-- R195: one element of MAXIDX, MINIDX or NORMINF. -/
def bestStep (op : Nat) (b : Option (Num × Nat)) (x : Num) (g : Nat) : Option (Num × Nat) :=
  match b with
  | none => some (x, g)
  | some (y, k) =>
    match x, y with
    | _, .nan => some (y, k)
    | .nan, _ => some (x, g)
    | _, _ =>
      let win := if op = chMININDX then ltZ x y else ltZ y x
      if win then some (x, g) else some (y, k)

/-- R191, R193: one element of a positional segment at global position `g`. -/
def posStep (flush : Bool) (c : IChan) (st : SegSt) (x sq : Num) (g : Nat) : SegSt :=
  let leaf := if st.leaf.isEmpty then (if c.op = chMEANVAR then [0, 0, 0] else [0]) else st.leaf
  let leaf := if c.op = chMEANVAR then
      match leaf with
      | [n, mean, m2] =>
        let n := n + 1
        let delta := numSub false x (dF64 mean)
        let mean' := rnd64 flush (numDiv (numAdd false (numMul (dF64 mean) (numInt n)) delta) (numInt n))
        [n, mean', rnd64 flush (numAdd false (dF64 m2) (numMul delta (numSub false x (dF64 mean'))))]
      | l => l
    else
      let term := if c.op = chSUM then x else if c.op = chNORM1 then numAbs x else sq
      [rnd64 flush (numAdd false (dF64 (leaf.headD 0)) term)]
  let st := { st with n := st.n + 1, leaf := leaf }
  if (g + 1) % 1024 = 0 then
    { st with lev := leafFold (nodeRule flush c) (g / 1024) 41 0 st.lev leaf, leaf := [] }
  else st

/-- R186: one element presented to a segment. `x`: the converted input; `sq`: its square, or 2x·dx for a tangent of SUMSQ;
`b`, `m`: MERGE's other operands. -/
def segStep (flush : Bool) (c : IChan) (st : SegSt) (x sq b m : Num) (g : Nat) (poison : Bool) : SegSt :=
  let st := { st with poison := st.poison || poison }
  if c.op = chMERGE then
    let leaf := if st.leaf.isEmpty then [0, 0, 0] else st.leaf
    let nb : Option Nat := match x with
      | .fin n mm e =>
        let v : Nat := if 0 ≤ e then mm <<< e.toNat else mm >>> (-e).toNat
        if mm ≠ 0 ∧ (n ∨ (e < 0 ∧ (v <<< (-e).toNat) ≠ mm) ∨ 2 ^ 53 < v) then none else some v
      | _ => none
    match nb with
    | none => { st with nan := true, n := st.n + 1 }
    | some nb => { st with leaf := mergeMV flush leaf [nb, eF64 b, eF64 m], n := st.n + 1 }
  else if c.op = chMAXIDX ∨ c.op = chMININDX then { st with best := bestStep c.op st.best x g, n := st.n + 1 }
  else if c.op = chNORMINF then { st with best := bestStep chMAXIDX st.best (numAbs x) g, n := st.n + 1 }
  else if chExact c then exactAdd st c.op x sq
  else posStep flush c st x sq g

/-- R161, R189: a record of COUNT, MEAN and M2. -/
def mvRecord (n mean m2 : Nat) : List Byte := natLe 8 n ++ natLe 8 mean ++ natLe 8 m2

/-- R189, R191, R193 to R195: the bytes of a closed segment's result, and the flags of its rounding. -/
def segResult (flush : Bool) (c : IChan) (g0 : Nat) (st : SegSt) : List Byte × Nat :=
  let f := fmtOf c.outF
  let nanP := canonNan f
  let w := fmtWidth f / 8
  let out (x : Num) : List Byte × Nat :=
    let cv := if f == .i32 then encIntAt 32 false .rne 0 x 0 else encNum f 0 .rne flush 0 x
    (natLe w cv.pat, flOfCvt { cv with range := false })
  if c.op = chMAXIDX ∨ c.op = chMININDX then
    match st.best with
    | some (x, g) => (natLe 8 (eF64 x) ++ natLe 8 g, 0)
    | none => (List.replicate 16 0, 0)
  else if c.op = chNORMINF then out ((st.best.map (·.1)).getD numZero)
  else if c.op = chMERGE then
    match (if st.leaf.isEmpty then [0, 0, 0] else st.leaf) with
    | [n, a, b] => if st.nan then (mvRecord n (canonNan .f64) (canonNan .f64), 0) else (mvRecord n a b, 0)
    | _ => (mvRecord 0 0 0, 0)
  else if chExact c then
    let bad := st.nan || (st.pinf && st.ninf)
    if c.op = chMEANVAR then
      if st.nan || st.pinf || st.ninf then (mvRecord st.n (canonNan .f64) (canonNan .f64), 0)
      else if st.n = 0 then (mvRecord 0 0 0, 0)
      else
        let sS := numFix st.s
        let nn := numInt st.n
        let q := numDiv (numSub false (numMul nn (numFix st.q)) (numMul sS sS)) nn
        (mvRecord st.n (rnd64 flush (numDiv sS nn)) (rnd64 flush q), 0)
    else if bad then (natLe w nanP, 0)
    else if st.pinf then out (.inf false)
    else if st.ninf then out (.inf true)
    else if c.op = chSUM ∨ c.op = chNORM1 then out (numFix st.s)
    else if c.op = chSUMSQ then out (numFix st.q)
    else out (numSqrt (numFix st.q))
  else
    -- an unfinished leaf folds as the last block of the segment
    let lev := if st.leaf.isEmpty then st.lev else leafFold (nodeRule flush c) ((g0 + st.n - 1) / 1024) 41 0 st.lev st.leaf
    let v := (leafFinal (nodeRule flush c) lev).getD []
    if c.op = chMEANVAR then
      match v with
      | [n, a, b] => (mvRecord n a b, 0)
      | _ => (mvRecord 0 0 0, 0)
    else
      let x := dF64 (v.headD 0)
      if c.op = chNORM2 then out (numSqrt x) else out x

/-- R190: a segment's long record. -/
def longRecord (st : SegSt) : List Byte :=
  natLe 80 (toTwos 640 st.s) ++ natLe 80 (toTwos 640 st.q) ++ natLe 8 st.n ++
  natLe 4 ((if st.nan then 1 else 0) + (if st.pinf then 2 else 0) + (if st.ninf then 4 else 0) + (if st.poison then 8 else 0)) ++
  List.replicate 20 0

/-- R190: a segment started from a long record. -/
def importRecord (s : State) (cid a : Nat) : SegSt :=
  let fl := spNat s cid (a + 0xA8) 4
  { s := sext 640 (spNat s cid a 80), q := sext 640 (spNat s cid (a + 0x50) 80), n := spNat s cid (a + 0xA0) 8
    nan := bit fl 0, pinf := bit fl 1, ninf := bit fl 2, poison := bit fl 3 || spPoison s cid a 192 }

end Sys2Proof.Machine
end

