-- ==== Sys2Proof/Machine/Inflector.lean ====
section
/-! DEFINITION. The Inflector: lane groups and the micro-operations (spec/06_inflector.md R173 to R200). Each micro-operation
acts on the 32 lanes of the group in the Inflector. -/

namespace Sys2Proof.Machine

/-- What a micro-operation sees: the program, its context, and its own word and position. -/
structure UEnv where
  id : Nat
  cid : Nat
  wsl : Nat
  flush : Bool
  seed : Nat
  step : Nat
  run : InfRun
  pos : Nat
  word : Nat
deriving DecidableEq, Repr

/-- Index of lane `l`'s element. -/
def laneIx (e : UEnv) (l : Nat) : Nat := 32 * e.run.group + l
/-- Is a lane active. -/
def laneOn (e : UEnv) (l : Nat) : Bool := decide (laneIx e l < e.run.length)
/-- A register of a lane. -/
def laneReg (e : UEnv) (l r : Nat) : IReg := (e.run.lanes.getD l []).getD r {}
/-- SA of a lane. -/
def rA (e : UEnv) (l : Nat) : IReg := laneReg e l (uSA e.word)
/-- SB of a lane. -/
def rB (e : UEnv) (l : Nat) : IReg := laneReg e l (uSB e.word)
/-- SC of a lane. -/
def rC (e : UEnv) (l : Nat) : IReg := laneReg e l (uSC e.word)
/-- R57: a register read by an F-class operation. -/
def fRead (e : UEnv) (p : Nat) : Num × Bool := readFlush .f64 0 e.flush p
/-- The value of a register read by an F-class operation. -/
def fVal (e : UEnv) (r : IReg) : Num := (fRead e r.v).1
/-- Tangent `t` of a register. -/
def fTan (e : UEnv) (r : IReg) (t : Nat) : Num := (fRead e (r.tan.getD t 0)).1
/-- R177: the random bits of a micro-operation on element `i`, tangent number `t` (0 the primal). -/
def uBits (e : UEnv) (l t : Nat) : Nat :=
  srBits e.seed e.step (e.run.srid + t * 2 ^ 29) (laneIx e l * 64 + e.pos)
/-- R177: rounds an exact result into binary64 under RND. -/
def fRound (e : UEnv) (l t : Nat) (x : Num) : Cvt :=
  encNum .f64 0 ((rndOf (uRND e.word)).getD .rne) e.flush (uBits e l t) x

/-- Zero tangents. -/
def noTan (e : UEnv) : List Nat := List.replicate e.run.tang 0

/-- What a lane's operation gives: the destination register and the flags it raises. -/
abbrev LaneOut := IReg × Nat

/-- Flags of F-class operands read. -/
def rdFlags (e : UEnv) (rs : List IReg) : Nat :=
  rs.foldl (fun a r => let (x, f) := fRead e r.v; a ||| flOfNum x ||| (if f then ifFLUSH else 0)) 0

/-- An F-class result: exact primal and tangents, each rounded once (R177, R178). -/
def fOut (e : UEnv) (l : Nat) (rs : List IReg) (x : Num) (dx : Nat → Num) : LaneOut :=
  let c := fRound e l 0 x
  let ts := (List.range e.run.tang).map fun t => fRound e l (t + 1) (dx t)
  ({ v := c.pat, poison := rs.any (·.poison), tan := ts.map (·.pat) },
   rdFlags e rs ||| flOfNum (dF64 c.pat) ||| flOfCvt { c with range := false } ||| (ts.foldl (fun a c => a ||| (if c.flushed then ifFLUSH else 0)) 0))

/-- An operation on one F operand. -/
def fUn (e : UEnv) (l : Nat) (f : Num → Num) (df : Num → Num → Num) : LaneOut :=
  let a := rA e l
  fOut e l [a] (f (fVal e a)) fun t => df (fVal e a) (fTan e a t)

/-- An operation on two F operands. -/
def fBin (e : UEnv) (l : Nat) (f : Num → Num → Num) (df : Num → Num → Num → Num → Num) : LaneOut :=
  let a := rA e l
  let b := rB e l
  fOut e l [a, b] (f (fVal e a) (fVal e b)) fun t => df (fVal e a) (fVal e b) (fTan e a t) (fTan e b t)

/-- An elementary function of R178 or R160. -/
def fElem (e : UEnv) (l : Nat) (f : EFn) : LaneOut := fUn e l (eVal f) (eTanVal f)

/-- R179: FMIN and FMAX; `pickB`: is SB the choice when neither is NaN (DESIGN CHOICE, assumption log 35). -/
def fChoice (e : UEnv) (l : Nat) (pickB : Num → Num → Bool) : LaneOut :=
  let a := rA e l
  let b := rB e l
  let x := fVal e a
  let y := fVal e b
  if numIsNan x || numIsNan y then
    ({ v := canonNan .f64, poison := a.poison || b.poison
       tan := (List.range e.run.tang).map fun t =>
         (Config.nanChoiceTan (BitVec.ofNat 64 (a.tan.getD t 0)) (BitVec.ofNat 64 (b.tan.getD t 0))).toNat },
     rdFlags e [a, b] ||| ifNAN)
  else
    let q := if pickB x y then b else a
    fOut e l [a, b] (fVal e q) fun t => fTan e q t

/-- R179: a comparison; a NaN operand gives 0. -/
def fCmp (e : UEnv) (l : Nat) (f : Num → Num → Bool) : LaneOut :=
  let a := rA e l
  let b := rB e l
  let x := fVal e a
  let y := fVal e b
  let r := !numIsNan x && !numIsNan y && f x y
  ({ v := if r then 1 else 0, poison := a.poison || b.poison, tan := noTan e }, rdFlags e [a, b])

/-- An I-class result on two operands, modulo 2^64. -/
def iBin (e : UEnv) (l : Nat) (f : Nat → Nat → Nat) : LaneOut :=
  let a := rA e l
  let b := rB e l
  ({ v := f a.v b.v % 2 ^ 64, poison := a.poison || b.poison, tan := noTan e }, 0)

/-! ### The group and the micro-operation sequence -/

/-- The program on an Inflector, with the micro-operation it is at, where a group is in the lanes. -/
def infEnv (s : State) (inf op : Nat) : Option UEnv :=
  match mapFind s.infUnits inf with
  | none => none
  | some id =>
    match progOf s id, mapFind s.infRuns id with
    | some p, some r =>
      match r.upos with
      | none => none
      | some pos =>
        let w := r.ucode.getD pos 0
        if uOP w = op ∧ p.ended.isNone ∧ ctxRunning s p.cid then
          some { id := id, cid := p.cid, wsl := inf / 2, flush := bit (ctxOf s p.cid).emode 0, seed := (ctxOf s p.cid).seed
                 step := (runOf s p.cid).step, run := r, pos := pos, word := w }
        else none
    | _, _ => none

/-- Changes a running Inflector program. -/
def updInf (s : State) (id : Nat) (f : InfRun → InfRun) : State :=
  match mapFind s.infRuns id with
  | some r => { s with infRuns := mapIns s.infRuns id (f r) }
  | none => s

/-- R183, R204: raises flags: the program's and the Inflector's sticky bits. -/
def infFlags (s : State) (inf id fl : Nat) : State :=
  let s := updInf s id fun r => { r with flags := r.flags ||| fl }
  let m := (if bit fl 4 then 1 else 0) + (if bit fl 2 then 2 else 0) + (if bit fl 3 then 4 else 0) + (if bit fl 6 then 8 else 0)
  let a := aINF_STATUS (inf / 2) (inf % 2)
  if m = 0 then s else regSet s a (regGet s a ||| m)

/-- Frees the Inflector of a program that has ended. -/
def infRelease (s : State) (inf : Nat) : State :=
  clrBitOf { s with infUnits := mapDel s.infUnits inf } (aINF_STATUS (inf / 2) (inf % 2)) 8

/-- R201: ends an Inflector program. -/
def infEnd (s : State) (inf id status index : Nat) : State :=
  infRelease (updProg s id fun p => { p with ended := some ⟨status, index, 0⟩ }) inf

/-- An output stream that no micro-operation stores is written as +0 in every element (R180). -/
def zeroOuts (s : State) (inf : Nat) (cid : Nat) (r : InfRun) : State :=
  if r.kernel then s else
  (r.outs.zipIdx).foldl (fun s x =>
    if r.ucode.any fun w => (uOP w == 3 || uOP w == 4) && uAUX w == x.2 then s
    else
      let f := fmtOf x.1.fmt
      (List.range (tdTang x.1.d + 1)).foldl (fun s t =>
        writeElems s cid (inf / 2) (fmtWidth f) ((List.range 32).filterMap fun l =>
          let i := 32 * r.group + l
          if i < r.length then
            let (row, c) := posRC x.1.d (mapPos x.1 i)
            some (elemBit f x.1.d t row c, 0, false)
          else none)) s) s

/-- Moves past a micro-operation; after the last one the group completes, and after the last group the program ends. -/
def infNext (s : State) (inf : Nat) (e : UEnv) : State :=
  match mapFind s.infRuns e.id with
  | none => s
  | some r =>
    if e.pos + 1 < r.ucount then updInf s e.id fun r => { r with upos := some (e.pos + 1) }
    else
      let s := zeroOuts s inf e.cid r
      let n := min 32 (r.length - 32 * r.group)
      let s := updInf s e.id fun r => { r with upos := none, group := r.group + 1, elements := r.elements + n, lanes := [], reads := [] }
      let s := updProg s e.id fun p => { p with completed := min (p.completed + 1) 0xFFFFFFFF }
      if 32 * (r.group + 1) < r.length then s
      else
        let po := bit (((mapFind s.infRuns e.id).map (·.flags)).getD 0) 6
        -- R175: a program with POISON_SEEN completes with POISONED
        infEnd s inf e.id (if po then stPOISONED else stOK) r.ucount

/-- Runs a micro-operation that writes DST in every active lane. -/
def infAlu (s : State) (inf op : Nat) (f : UEnv → Nat → LaneOut) : State :=
  match infEnv s inf op with
  | none => s
  | some e =>
    let outs := (List.range 32).map fun l => if laneOn e l then f e l else ({}, 0)
    let fl := outs.foldl (fun a o => a ||| o.2) 0
    let s := updInf s e.id fun r => { r with lanes := (r.lanes.zip outs).map fun p => p.1.set (uDST e.word) p.2.1 }
    infNext (infFlags s inf e.id fl) inf e

/-- A stream element of a lane, as the group's read delivered it. -/
def laneRead (e : UEnv) (l : Nat) : IRead := (e.run.reads.getD l []).getD (uAUX e.word % 4) {}

/-- R178: LD. -/
def laneLd (e : UEnv) (l : Nat) : LaneOut :=
  let x := laneRead e l
  let c := fRound e l 0 x.x
  let ts := (List.range e.run.tang).map fun t => fRound e l (t + 1) (x.tan.getD t numZero)
  ({ v := c.pat, poison := x.poison, tan := ts.map (·.pat) },
   flOfNum x.x ||| flOfNum (dF64 c.pat) ||| (if c.flushed || x.flushed then ifFLUSH else 0))

/-- R178: LDI. -/
def laneLdi (e : UEnv) (l : Nat) : LaneOut :=
  let x := laneRead e l
  let st := e.run.ins[uAUX e.word % 4]?
  let f := match st with | some q => fmtOf q.fmt | none => .f64
  let raw := match st with | some q => q.raw | none => false
  let w := fmtWidth f
  let (v, fl) : Nat × Nat :=
    if raw then (x.pat, 0)
    else if ((fmtInt f).isSome && !(match st with | some q => tdScaled q.d | none => false)) || (fmtFx f).isSome then (toTwos 64 (sext w x.pat), 0)
    else let c := encIntAt 64 false .rne 0 x.x 0; (c.pat, flOfNum x.x ||| (if c.saturated then ifSAT else 0))
  ({ v := v, poison := x.poison, tan := noTan e }, fl)

/-- What a store writes: exact primal and tangents per lane, or raw bits. -/
structure StVal where
  x : Num
  raw : Option Nat := none
  tan : List Num := []
  poison : Bool := false
deriving DecidableEq, Repr

/-- The random bits of a store's conversion (R172). -/
def stBits (e : UEnv) (x : IStream) (t pos : Nat) : Nat := srBits e.seed e.step (x.d.tid % 2 ^ 29 + t * 2 ^ 29) pos

/-- Histogram of output stream 0 (R202). -/
def stHist (s : State) (e : UEnv) (x : IStream) (k : Nat) (cs : List Nat) : State :=
  if e.run.histo ∧ k = 0 then histAdd s e.cid e.wsl x.d.hist cs else s

/-- R53, R173: a group's block of a block-scaled output. -/
def storeBlock (s : State) (inf : Nat) (e : UEnv) (k : Nat) (x : IStream) (vals : List StVal) : State :=
  let f := fmtOf x.fmt
  let rnd := (rndOf (uRND e.word)).getD .rne
  let (row, c) := posRC x.d (32 * e.run.group)
  let q := c / 32
  let ix := row * ((x.d.cols + 31) / 32) + q
  let b := mxQuantise f rnd e.flush (tdEscape x.d) 32 (fun i => stBits e x 0 (32 * e.run.group + i)) (vals.map (·.x))
  let po := vals.any (·.poison)
  let s := spWrite s e.cid e.wsl (x.d.base + row * x.d.pitch + q * mxBlockBytes f) (natLe (mxBlockBytes f) (packNat (fmtWidth f) b.codes)) po
  let s := spWrite s e.cid e.wsl (x.d.scale + ix) (natLe 1 b.scale) po
  let s := if tdEscape x.d then spWrite s e.cid e.wsl (x.d.esc + 4 * ix) (natLe 4 b.esc) po else s
  let s := stHist s e x k ((vals.flatMap fun v => histPresented .f64 v.x) ++ b.counts)
  let s := (b.codes.zipIdx).foldl (fun s cx => normTap s e.cid e.wsl e.run x (mxDecode f b.scale b.esc cx.2 cx.1)) s
  infFlags s inf e.id ((if b.counts.contains hFLUSHED then ifFLUSH else 0) ||| (if b.counts.contains hSATURATED then ifSAT else 0) |||
    (if po then ifPOISON else 0))

/-- R178, R175, R181: a group's store to a plain output stream. -/
def storePlain (s : State) (inf : Nat) (e : UEnv) (k : Nat) (x : IStream) (vals : List StVal) : State :=
  let f := fmtOf x.fmt
  let w := fmtWidth f
  let rnd := (rndOf (uRND e.word)).getD .rne
  let one (t l : Nat) (v : StVal) : OutElem × Num × Cvt :=
    let pos := mapPos x (laneIx e l)
    let (row, c) := posRC x.d pos
    let ex := if t = 0 then v.x else v.tan.getD (t - 1) numZero
    let cv : Cvt := match v.raw with
      | some bits_ => if t = 0 then { pat := bits_ % 2 ^ w } else { pat := 0 }
      | none => encNum f (streamExp s e.cid x pos) rnd e.flush (stBits e x t pos) ex
    ((elemBit f x.d t row c, cv.pat, v.poison), ex, cv)
  let lanes : List (Nat × StVal) := ((vals.zipIdx).map fun p => (p.2, p.1)).filter fun p => laneOn e p.1
  let all := (List.range (tdTang x.d + 1)).map fun t => lanes.map fun p => one t p.1 p.2
  let s := all.foldl (fun s m => writeElems s e.cid e.wsl w (m.map (·.1))) s
  let prim := all.headD []
  let E (i : Nat) : Int := streamExp s e.cid x (mapPos x i)
  let s := stHist s e x k ((prim.zip lanes).flatMap fun p => histPlain f (E (laneIx e p.2.1)) p.1.2.1 p.1.2.2)
  let s := (prim.zip lanes).foldl (fun s p => normTap s e.cid e.wsl e.run x (decNum f (E (laneIx e p.2.1)) p.1.2.2.pat)) s
  let fl := all.foldl (fun a m => m.foldl (fun a p => a ||| flOfCvt p.2.2) a) 0
  infFlags s inf e.id (fl ||| (if vals.any (·.poison) then ifPOISON else 0))

/-- ST and STI: R173's FX exponent check, then the group's writes. -/
def infStore (s : State) (inf op : Nat) (val : UEnv → IStream → Nat → StVal × Nat) : State :=
  match infEnv s inf op with
  | none => s
  | some e =>
    let k := uAUX e.word % 2
    match e.run.outs[k]? with
    | none => infNext s inf e
    | some x =>
      let bad := !e.run.kernel && (List.range 32).any fun l => laneOn e l && !expOk (streamExp s e.cid x (mapPos x (laneIx e l)))
      if bad then infEnd s inf e.id stFORMAT (64 + e.run.nin + k)
      else
        let vs := (List.range 32).map fun l => if laneOn e l then val e x l else ({ x := numZero }, 0)
        let s := infFlags s inf e.id (vs.foldl (fun a v => a ||| v.2) 0)
        let vals := vs.map (·.1)
        -- R242: what a kernel stores goes to the Lexer
        let s := if e.run.kernel then
            updInf s e.id fun r => { r with kout := r.kout ++ ((List.range 32).filter (laneOn e)).map fun l =>
              let v := vals.getD l { x := numZero }
              (k, laneIx e l, (match v.raw with | some b => numInt (sext 64 b) | none => v.x), v.tan, v.poison) }
          else if tdScaled x.d then storeBlock s inf e k x vals else storePlain s inf e k x vals
        infNext s inf e

/-! ### Group entry (R173, R197, R200, R291) -/

/-- R291: the Inflectors that may take a program: in service, free, and powered, in the partition. -/
def infFree (s : State) (k : Nat) : List Nat :=
  (partSlices s k).flatMap fun sl => if computeOn s sl then
    [2 * sl, 2 * sl + 1].filter fun u => (mapFind s.infUnits u).isNone && !unitDown s sl (12 + u % 2) else []

/-- The physical slice of the first page of an area, where it is allocated. -/
def areaSlice (s : State) (cid a : Nat) : Option Nat := ((pageOf s cid (a / pageBytes)).phys).map (·.1)

/-- R291: the nearest free unit to an area: least R23 entry, then lowest slice, then lowest unit. `per`: units of a slice. -/
def nearUnit (at_ : Option Nat) (per : Nat) (free : List Nat) : Option Nat :=
  let cost (u : Nat) : Nat := match at_ with | some sl => ringH sl (u / per) | none => 0
  free.foldl (fun b u => match b with
    | none => some u
    | some v => if cost u < cost v ∨ (cost u = cost v ∧ u < v) then some u else some v) none

/-- R292: accepted work of a context that has no unit yet, in the order it is taken up: acceptance order, deferrable work last. -/
def waitingBefore (s : State) (id : Nat) (p : Prog) : List Nat :=
  (s.progs.filter fun q => q.2.kind == p.kind && q.2.cid == p.cid && q.2.unit.isNone && q.2.ended.isNone
    && q.2.issue.mtarget.isNone && q.1 != id
    && ((q.2.deferrable == p.deferrable && decide (q.1 < id)) || (!q.2.deferrable && p.deferrable))).map (·.1)

/-- R290, R291, R292: places an accepted Inflector program that has no unit. -/
def infPlace (s : State) (id : Nat) : State :=
  match progOf s id, mapFind s.infRuns id with
  | some p, some r =>
    if p.unit.isSome || p.ended.isSome || p.abort || (runOf s p.cid).st != .running || !(ctxOf s p.cid).live then s
    else
      let free := infFree s (p.cid / 8)
      let target : Option Nat := match p.issue.mtarget with
        | some (sl, u) => if (mapFind s.infUnits (2 * sl + (u - 12))).isNone then some (2 * sl + (u - 12)) else none
        | none =>
          if free.length ≤ (waitingBefore s id p).length then none
          else nearUnit (match r.ins with
            | x :: _ => areaSlice s p.cid x.d.base
            | [] => match r.outs with | x :: _ => areaSlice s p.cid x.d.base | [] => none) 2 free
      match target with
      | none => s
      | some u =>
        let s := updProg s id fun p => { p with unit := some u }
        let s := { s with infUnits := mapIns s.infUnits u id }
        -- R203: INF_MODE is loaded from the context; R204: BUSY
        let s := setFld s (aINF_MODE (u / 2) (u % 2)) 0 0 (bits (ctxOf s p.cid).emode 0 0)
        setBitOf s (aINF_STATUS (u / 2) (u % 2)) 8
  | _, _ => s

/-- R173, R174: a lane group enters: its stream elements are read, its registers start at +0 (DEDUCED, assumption log 34). -/
def infGroup (s : State) (id : Nat) (fault : Bool) : State :=
  let s := infPlace s id
  match progOf s id, mapFind s.infRuns id with
  | some p, some r =>
    match p.unit with
    | none => s
    | some inf =>
      if p.ended.isSome || r.upos.isSome || !ctxRunning s p.cid then s
      else if fault then infRelease (unitFault s (inf / 2) (12 + inf % 2) 0x05 id) inf
      -- R200: at a checkpoint an abort, a switch of contexts or a move comes first
      else if r.group % 1024 = 0 && (p.abort || (runOf s p.cid).st != .running) then s
      else
        let flush := bit (ctxOf s p.cid).emode 0
        let lanes := List.range 32
        let on (l : Nat) : Bool := decide (32 * r.group + l < r.length)
        let badExp := (r.ins.zipIdx).find? fun x => x.1.map != 2 && !(r.kernel && decide (x.2 ≤ 1)) && lanes.any fun l =>
          on l && !expOk (streamExp s p.cid x.1 (mapPos x.1 (32 * r.group + l)))
        match badExp with
        | some x => infEnd s inf id stFORMAT (64 + x.2)
        | none =>
          let rds := lanes.map fun l => (List.range r.nin).map fun n => if on l then streamRead s p.cid flush r n (32 * r.group + l) else ({}, false)
          let gath := rds.any fun m => m.any (·.2)
          let s := if gath then infFlags s inf id ifGATHER else s
          let s := (r.ins.zipIdx).foldl (fun s x => (rds.zipIdx).foldl (fun s m =>
            if on m.2 then normTap s p.cid (inf / 2) r x.1 ((m.1.getD x.2 ({}, false)).1.x) else s) s) s
          updInf s id fun r => { r with
            upos := some 0, reads := rds.map fun m => m.map (·.1)
            lanes := List.replicate 32 (List.replicate 16 { tan := List.replicate r.tang 0 }) }
  | _, _ => s

/-! ### Agreement (R186, R187) and summary cells (R182) -/

/-- Closes a segment: its result and, under EXPORT, its long record (R187, R190). -/
def segClose (s : State) (inf : Nat) (e : UEnv) (c : IChan) (seg : Nat) (st : ChanSt) : State :=
  let w := chWidth c
  let per := chPer c e.run.tang
  let (s, fl) := (st.segs.zipIdx).foldl (fun (a : State × Nat) g =>
    let (bs, fl) := segResult e.flush c c.index0 g.1
    (spWrite a.1 e.cid e.wsl (c.out + (seg * per + g.2) * w) bs g.1.poison, a.2 ||| fl)) (s, 0)
  let s := if c.exp then
      let g := st.segs.headD {}
      spWrite s e.cid e.wsl (c.xrec + 192 * seg) (longRecord g) g.poison
    else s
  infFlags s inf e.id fl

/-- R186: presents lane `l`'s values to channel `k`. -/
def redLane (s : State) (inf : Nat) (e : UEnv) (k : Nat) (c : IChan) (l : Nat) : State :=
  match mapFind s.infRuns e.id with
  | none => s
  | some r =>
    let i := laneIx e l
    let seg := if c.seglen = 0 then 0 else i / c.seglen
    let j := if c.seglen = 0 then i else i % c.seglen
    let a := rA e l
    let merge := c.op == chMERGE
    let po := a.poison || (merge && ((rB e l).poison || (rC e l).poison))
    let f := fmtOf c.inF
    let conv (x : Num) : Cvt := encNum f 0 .rne e.flush 0 x
    let cv := conv (fVal e a)
    let x := if merge then fVal e a else decNum f 0 cv.pat
    let n := chPer c e.run.tang
    let cur := r.ch.getD k {}
    let segs := if j = 0 then
        (List.range n).map fun t => if c.imp && t == 0 then importRecord s e.cid (c.xrec + 192 * seg) else {}
      else cur.segs
    let segs := (segs.zipIdx).map fun g =>
      if g.2 = 0 then segStep e.flush c g.1 x (numMul x x) (fVal e (rB e l)) (fVal e (rC e l)) (c.index0 + j) po
      else
        let dx := decNum f 0 (conv (fTan e a (g.2 - 1))).pat
        if c.op = chSUM then segStep e.flush c g.1 dx dx numZero numZero (c.index0 + j) po
        else segStep e.flush c g.1 (numMul (numScale x 1) dx) (numMul (numScale x 1) dx) numZero numZero (c.index0 + j) po
    let st : ChanSt := { segs := segs }
    let s := updInf s e.id fun r => { r with ch := r.ch.set k st }
    let s := infFlags s inf e.id (flOfNum (fVal e a) ||| (if merge then 0 else flOfCvt { cv with range := false }))
    let last := decide (i + 1 = e.run.length) || (c.seglen != 0 && decide (j + 1 = c.seglen))
    if last then segClose s inf e c seg st else s

/-- INF_RED's effect. -/
def infRed (s : State) (inf : Nat) : State :=
  match infEnv s inf uRED with
  | none => s
  | some e =>
    let k := uAUX e.word % 2
    match e.run.chans[k]? with
    | none => infNext s inf e
    | some c =>
      let s := (List.range 32).foldl (fun s l => if laneOn e l then redLane s inf e k c l else s) s
      infNext s inf e

/-- R182: one offer to a cell. -/
def cellOffer (e : UEnv) (op : Nat) (cell : Nat) (a : IReg) : Nat :=
  let x := fVal e a
  let c := dF64 cell
  if op = 0x39 then (if numIsNan x || numIsNan c then canonNan .f64 else if ltZ c x then (fRound e 0 0 x).pat else cell)
  else if op = 0x3A then (if numIsNan x || numIsNan c then canonNan .f64 else if ltZ x c then (fRound e 0 0 x).pat else cell)
  else if op = 0x3B then (if a.v = 0 then cell else satAdd 64 cell 1)
  else cell ||| a.v

/-- R175, R182: a summary operation over the active lanes. -/
def infCell (s : State) (inf op : Nat) : State :=
  match infEnv s inf op with
  | none => s
  | some e =>
    let k := uAUX e.word % 8
    let on := (List.range 32).filter (laneOn e)
    let regs := on.map (rA e)
    let cell := regs.foldl (fun c a => if a.poison then c else cellOffer e op c a) (e.run.cells.getD k 0)
    let s := updInf s e.id fun r => { r with cells := r.cells.set k cell }
    let fl := (if regs.any (·.poison) then ifPOISON else 0) ||| (if op = 0x39 ∨ op = 0x3A then rdFlags e regs else 0)
    infNext (infFlags s inf e.id fl) inf e

/-! ### UNPACK, PACK and the bit operations -/

/-- R179: UNPACK and PACK whose field runs past bit 63 refuse the program. -/
def infField (s : State) (inf op : Nat) (f : UEnv → Nat → Nat → Nat → LaneOut) : State :=
  match infEnv s inf op with
  | none => s
  | some e =>
    let w := uAUX e.word
    if (List.range 32).any fun l => laneOn e l && decide (64 < (rB e l).v % 64 + w) then
      infEnd (updInf s e.id fun r => { r with refused := true }) inf e.id stFORMAT e.pos
    else infAlu s inf op fun e l => f e l ((rB e l).v % 64) w

/-- A unit index of the Inflectors. -/
def infOk (inf : Nat) : Bool := decide (inf < 24)

/-! ### The commands -/

/-- INF_GROUP (R173). -/
def execInfGroup (prog : Nat) (fault : Bool) (s : State) : Res := ran s (infGroup s prog fault)
/-- INF_NOP (R178). -/
def execInfNop (inf : Nat) (s : State) : Res := guardUnit (infOk inf) (ran s (match infEnv s inf 0x00 with | some e => infNext s inf e | none => s))
/-- INF_LD (R178). -/
def execInfLd (inf : Nat) (s : State) : Res := guardUnit (infOk inf) (ran s (infAlu s inf 0x01 laneLd))
/-- INF_LDI (R178). -/
def execInfLdi (inf : Nat) (s : State) : Res := guardUnit (infOk inf) (ran s (infAlu s inf 0x02 laneLdi))
/-- INF_ST (R178). -/
def execInfSt (inf : Nat) (s : State) : Res := guardUnit (infOk inf) (ran s (infStore s inf 0x03 fun e _ l =>
  let a := rA e l
  ({ x := fVal e a, tan := (List.range e.run.tang).map (fTan e a), poison := a.poison }, rdFlags e [a])))
/-- INF_STI (R178). -/
def execInfSti (inf : Nat) (s : State) : Res := guardUnit (infOk inf) (ran s (infStore s inf 0x04 fun e x l =>
  let a := rA e l
  ({ x := numInt (sext 64 a.v), raw := if x.raw then some a.v else none, poison := a.poison }, 0)))
/-- INF_LDK (R178). -/
def execInfLdk (inf : Nat) (s : State) : Res := guardUnit (infOk inf) (ran s (infAlu s inf 0x05 fun e _ =>
  ({ v := e.run.consts.getD (uAUX e.word % 16) 0, tan := noTan e }, 0)))
/-- INF_MOV (R178). -/
def execInfMov (inf : Nat) (s : State) : Res := guardUnit (infOk inf) (ran s (infAlu s inf 0x06 fun e l => (rA e l, 0)))
/-- INF_LANE (R178). -/
def execInfLane (inf : Nat) (s : State) : Res := guardUnit (infOk inf) (ran s (infAlu s inf 0x07 fun e l => ({ v := laneIx e l, tan := noTan e }, 0)))
/-- INF_FADD (R178). -/
def execInfFadd (inf : Nat) (s : State) : Res := guardUnit (infOk inf) (ran s (infAlu s inf 0x08 fun e l =>
  fBin e l (numAdd (uRND e.word == 3)) fun _ _ da db => numAdd (uRND e.word == 3) da db))
/-- INF_FSUB (R178). -/
def execInfFsub (inf : Nat) (s : State) : Res := guardUnit (infOk inf) (ran s (infAlu s inf 0x09 fun e l =>
  fBin e l (numSub (uRND e.word == 3)) fun _ _ da db => numSub (uRND e.word == 3) da db))
/-- INF_FMUL (R178). -/
def execInfFmul (inf : Nat) (s : State) : Res := guardUnit (infOk inf) (ran s (infAlu s inf 0x0A fun e l =>
  fBin e l numMul fun a b da db => numAdd (uRND e.word == 3) (numMul a db) (numMul da b)))
/-- INF_FDIV (R178). -/
def execInfFdiv (inf : Nat) (s : State) : Res := guardUnit (infOk inf) (ran s (infAlu s inf 0x0B fun e l =>
  fBin e l numDiv fun a b da db => numDiv (numSub (uRND e.word == 3) (numMul da b) (numMul a db)) (numMul b b)))
/-- INF_FMA (R178). -/
def execInfFma (inf : Nat) (s : State) : Res := guardUnit (infOk inf) (ran s (infAlu s inf 0x0C fun e l =>
  let a := rA e l
  let b := rB e l
  let c := rC e l
  let dn := uRND e.word == 3
  fOut e l [a, b, c] (numAdd dn (numMul (fVal e a) (fVal e b)) (fVal e c)) fun t =>
    numAdd dn (numAdd dn (numMul (fVal e a) (fTan e b t)) (numMul (fTan e a t) (fVal e b))) (fTan e c t)))
/-- INF_FSQRT (R178). -/
def execInfFsqrt (inf : Nat) (s : State) : Res := guardUnit (infOk inf) (ran s (infAlu s inf 0x0D fun e l =>
  fUn e l numSqrt fun a da =>
    if numIsZero a then (if numIsZero da then numZero else if numIsNan da then .nan else .inf (numNeg da))
    else numDiv da (numScale (numSqrt a) 1)))
/-- INF_RSQRT (R178). -/
def execInfRsqrt (inf : Nat) (s : State) : Res := guardUnit (infOk inf) (ran s (infAlu s inf 0x0E fun e l =>
  fUn e l (fun a => numDiv (numInt 1) (numSqrt a)) fun a da => numDiv (numNegate da) (numMul (numScale a 1) (numSqrt a))))
/-- INF_FMIN (R179). -/
def execInfFmin (inf : Nat) (s : State) : Res := guardUnit (infOk inf) (ran s (infAlu s inf 0x0F fun e l => fChoice e l fun a b => ltZ b a))
/-- INF_FMAX (R179). -/
def execInfFmax (inf : Nat) (s : State) : Res := guardUnit (infOk inf) (ran s (infAlu s inf 0x10 fun e l => fChoice e l fun a b => ltZ a b))
/-- INF_FABS (R178). -/
def execInfFabs (inf : Nat) (s : State) : Res := guardUnit (infOk inf) (ran s (infAlu s inf 0x11 fun e l =>
  let neg := bit (rA e l).v 63
  fUn e l numAbs fun _ da => if neg then numNegate da else da))
/-- INF_FNEG (R178). -/
def execInfFneg (inf : Nat) (s : State) : Res := guardUnit (infOk inf) (ran s (infAlu s inf 0x12 fun e l =>
  fUn e l numNegate fun _ da => numNegate da))
/-- INF_EXP2 (R178). -/
def execInfExp2 (inf : Nat) (s : State) : Res := guardUnit (infOk inf) (ran s (infAlu s inf 0x13 fun e l => fElem e l .exp2))
/-- INF_LOG2 (R178). -/
def execInfLog2 (inf : Nat) (s : State) : Res := guardUnit (infOk inf) (ran s (infAlu s inf 0x14 fun e l => fElem e l .log2))
/-- INF_EXP (R178). -/
def execInfExp (inf : Nat) (s : State) : Res := guardUnit (infOk inf) (ran s (infAlu s inf 0x15 fun e l => fElem e l .exp))
/-- INF_LOG (R178). -/
def execInfLog (inf : Nat) (s : State) : Res := guardUnit (infOk inf) (ran s (infAlu s inf 0x16 fun e l => fElem e l .log))
/-- INF_TANH (R178). -/
def execInfTanh (inf : Nat) (s : State) : Res := guardUnit (infOk inf) (ran s (infAlu s inf 0x17 fun e l => fElem e l .tanh))
/-- INF_SIGMOID (R178). -/
def execInfSigmoid (inf : Nat) (s : State) : Res := guardUnit (infOk inf) (ran s (infAlu s inf 0x18 fun e l => fElem e l .sigmoid))
/-- INF_GELU (R178). -/
def execInfGelu (inf : Nat) (s : State) : Res := guardUnit (infOk inf) (ran s (infAlu s inf 0x19 fun e l => fElem e l .gelu))
/-- INF_SILU (R178). -/
def execInfSilu (inf : Nat) (s : State) : Res := guardUnit (infOk inf) (ran s (infAlu s inf 0x1A fun e l => fElem e l .silu))
/-- INF_SOFTPLUS (R178). -/
def execInfSoftplus (inf : Nat) (s : State) : Res := guardUnit (infOk inf) (ran s (infAlu s inf 0x1B fun e l => fElem e l .softplus))
/-- INF_SIN (R178). -/
def execInfSin (inf : Nat) (s : State) : Res := guardUnit (infOk inf) (ran s (infAlu s inf 0x1C fun e l => fElem e l .sin))
/-- INF_COS (R178). -/
def execInfCos (inf : Nat) (s : State) : Res := guardUnit (infOk inf) (ran s (infAlu s inf 0x1D fun e l => fElem e l .cos))
/-- INF_FCMPLT (R179). -/
def execInfFcmplt (inf : Nat) (s : State) : Res := guardUnit (infOk inf) (ran s (infAlu s inf 0x20 fun e l => fCmp e l ltZ))
/-- INF_FCMPLE (R179). -/
def execInfFcmple (inf : Nat) (s : State) : Res := guardUnit (infOk inf) (ran s (infAlu s inf 0x21 fun e l => fCmp e l fun a b => !ltZ b a))
/-- INF_FCMPEQ (R179). -/
def execInfFcmpeq (inf : Nat) (s : State) : Res := guardUnit (infOk inf) (ran s (infAlu s inf 0x22 fun e l => fCmp e l fun a b => !ltZ a b && !ltZ b a))
/-- INF_FISNAN (R178). -/
def execInfFisnan (inf : Nat) (s : State) : Res := guardUnit (infOk inf) (ran s (infAlu s inf 0x23 fun e l =>
  let a := rA e l
  ({ v := if numIsNan (fVal e a) then 1 else 0, poison := a.poison, tan := noTan e }, rdFlags e [a])))
/-- INF_SEL (R179). -/
def execInfSel (inf : Nat) (s : State) : Res := guardUnit (infOk inf) (ran s (infAlu s inf 0x24 fun e l =>
  let a := rA e l
  let q := if a.v = 0 then rC e l else rB e l
  ({ q with poison := a.poison || (rB e l).poison || (rC e l).poison }, 0)))
/-- INF_FTOI (R178). -/
def execInfFtoi (inf : Nat) (s : State) : Res := guardUnit (infOk inf) (ran s (infAlu s inf 0x25 fun e l =>
  let a := rA e l
  let c := encIntAt 64 false ((rndOf (uRND e.word)).getD .rne) (uBits e l 0) (fVal e a) 0
  ({ v := c.pat, poison := a.poison, tan := noTan e }, rdFlags e [a] ||| (if c.saturated then ifSAT else 0))))
/-- INF_ITOF (R178). -/
def execInfItof (inf : Nat) (s : State) : Res := guardUnit (infOk inf) (ran s (infAlu s inf 0x26 fun e l =>
  let a := rA e l
  ({ v := (fRound e l 0 (numInt (sext 64 a.v))).pat, poison := a.poison, tan := noTan e }, 0)))
/-- INF_IADD (R178). -/
def execInfIadd (inf : Nat) (s : State) : Res := guardUnit (infOk inf) (ran s (infAlu s inf 0x28 fun e l => iBin e l (· + ·)))
/-- INF_ISUB (R178). -/
def execInfIsub (inf : Nat) (s : State) : Res := guardUnit (infOk inf) (ran s (infAlu s inf 0x29 fun e l => iBin e l fun a b => a + (2 ^ 64 - b)))
/-- INF_IMUL (R178). -/
def execInfImul (inf : Nat) (s : State) : Res := guardUnit (infOk inf) (ran s (infAlu s inf 0x2A fun e l => iBin e l (· * ·)))
/-- INF_AND (R178). -/
def execInfAnd (inf : Nat) (s : State) : Res := guardUnit (infOk inf) (ran s (infAlu s inf 0x2B fun e l => iBin e l (· &&& ·)))
/-- INF_OR (R178). -/
def execInfOr (inf : Nat) (s : State) : Res := guardUnit (infOk inf) (ran s (infAlu s inf 0x2C fun e l => iBin e l (· ||| ·)))
/-- INF_XOR (R178). -/
def execInfXor (inf : Nat) (s : State) : Res := guardUnit (infOk inf) (ran s (infAlu s inf 0x2D fun e l => iBin e l (· ^^^ ·)))
/-- INF_SHL (R178). -/
def execInfShl (inf : Nat) (s : State) : Res := guardUnit (infOk inf) (ran s (infAlu s inf 0x2E fun e l => iBin e l fun a b => a <<< (b % 64)))
/-- INF_SHR (R178). -/
def execInfShr (inf : Nat) (s : State) : Res := guardUnit (infOk inf) (ran s (infAlu s inf 0x2F fun e l => iBin e l fun a b => a >>> (b % 64)))
/-- INF_SAR (R178). -/
def execInfSar (inf : Nat) (s : State) : Res := guardUnit (infOk inf) (ran s (infAlu s inf 0x30 fun e l =>
  iBin e l fun a b => toTwos 64 ((sext 64 a).fdiv (2 ^ (b % 64) : Nat))))
/-- INF_ICMPLT (R178). -/
def execInfIcmplt (inf : Nat) (s : State) : Res := guardUnit (infOk inf) (ran s (infAlu s inf 0x31 fun e l =>
  iBin e l fun a b => if sext 64 a < sext 64 b then 1 else 0))
/-- INF_ICMPEQ (R178). -/
def execInfIcmpeq (inf : Nat) (s : State) : Res := guardUnit (infOk inf) (ran s (infAlu s inf 0x32 fun e l =>
  iBin e l fun a b => if a = b then 1 else 0))
/-- INF_UNPACK (R179). -/
def execInfUnpack (inf : Nat) (s : State) : Res := guardUnit (infOk inf) (ran s (infField s inf 0x33 fun e l p w =>
  ({ v := bits (rA e l).v (p + w - 1) p, poison := (rA e l).poison || (rB e l).poison, tan := noTan e }, 0)))
/-- INF_PACK (R179). -/
def execInfPack (inf : Nat) (s : State) : Res := guardUnit (infOk inf) (ran s (infField s inf 0x34 fun e l p w =>
  ({ v := setBits (rA e l).v (p + w - 1) p (rC e l).v, poison := (rA e l).poison || (rB e l).poison || (rC e l).poison
     tan := noTan e }, 0)))
/-- INF_SHFL (R178). -/
def execInfShfl (inf : Nat) (s : State) : Res := guardUnit (infOk inf) (ran s (infAlu s inf 0x36 fun e l =>
  let q := laneReg e ((rB e l).v % 32) (uSA e.word)
  ({ q with poison := q.poison || (rB e l).poison }, 0)))
/-- INF_RED (R186). -/
def execInfRed (inf : Nat) (s : State) : Res := guardUnit (infOk inf) (ran s (infRed s inf))
/-- INF_SMAX (R182). -/
def execInfSmax (inf : Nat) (s : State) : Res := guardUnit (infOk inf) (ran s (infCell s inf 0x39))
/-- INF_SMIN (R182). -/
def execInfSmin (inf : Nat) (s : State) : Res := guardUnit (infOk inf) (ran s (infCell s inf 0x3A))
/-- INF_SCNT (R182). -/
def execInfScnt (inf : Nat) (s : State) : Res := guardUnit (infOk inf) (ran s (infCell s inf 0x3B))
/-- INF_SOR (R182). -/
def execInfSor (inf : Nat) (s : State) : Res := guardUnit (infOk inf) (ran s (infCell s inf 0x3C))

/-- R183: the 128-byte summary record. -/
def summaryBytes (r : InfRun) : List Byte :=
  natLe 4 r.flags ++ natLe 4 0 ++ natLe 8 r.elements ++ (r.cells.flatMap (natLe 8)) ++ List.replicate 48 0

end Sys2Proof.Machine
end

