-- ==== Sys2Proof/Machine/LexOps.lean ====
section
/-! DEFINITION. Area checks, exact fractions, stencils and their templates, shared by the Parser and the Lexer
(spec/07_parser_and_lexer.md R208 to R211, R238 to R241). -/

namespace Sys2Proof.Machine

/-! ### Areas of a descriptor (R208) -/

/-- R208: the status with which an area of `n` bytes refuses: misaligned or outside the partition's memory (host memory
included), ADDRESS; a translation fault, XLAT_FAULT. -/
def areaErr (s : State) (cid sl r n al : Nat) (write : Bool) : Option Nat :=
  if arAddr r % al ≠ 0 then some stADDRESS
  else
    match arReach s cid sl r n write with
    | .ok => none
    | .outside | .host => some stADDRESS
    | .fault _ _ _ => some stXLAT_FAULT

/-- The first refusal of a list of areas: reference, bytes, alignment, written. -/
def areasErr (s : State) (cid sl : Nat) (l : List (Nat × Nat × Nat × Bool)) : Option Nat :=
  l.findSome? fun a => areaErr s cid sl a.1 a.2.1 a.2.2.1 a.2.2.2

/-- R506: the fault of the first area of a list that faults is recorded. -/
def areasFault (s : State) (cid sl : Nat) (l : List (Nat × Nat × Nat × Bool)) : State :=
  match l.findSome? (fun a => match arReach s cid sl a.1 a.2.1 a.2.2.2 with
    | .fault d c lv => some (d, c, lv, a.2.2.2)
    | _ => none) with
  | some (d, c, lv, w) => xFault s (cid / 8) (ctxOf s cid).ckey.toNat d c lv w
  | none => s

/-! ### Exact fractions -/

/-- A quotient of exact values: numerator and denominator. -/
structure Frac where
  n : Num
  d : Num := numInt 1
deriving DecidableEq, Repr

/-- A whole value as a fraction. -/
def fracOf (x : Num) : Frac := { n := x }
/-- The exact sum. -/
def fracAdd (a b : Frac) : Frac :=
  if numIsZero a.n && !numNeg a.n then b
  else if numIsZero b.n && numIsFin a.n then a
  else if a.d == b.d then { n := numAdd false a.n b.n, d := a.d }
  else { n := numAdd false (numMul a.n b.d) (numMul b.n a.d), d := numMul a.d b.d }
/-- The exact product with a value. -/
def fracMul (a : Frac) (x : Num) : Frac := { a with n := numMul a.n x }
/-- The negation. -/
def fracNeg (a : Frac) : Frac := { a with n := numNegate a.n }
/-- The value: exact where the denominator is 1. -/
def fracVal (a : Frac) : Num := if a.d == numInt 1 then a.n else numDiv a.n a.d

/-! ### Elements of vectors and value arrays -/

/-- Cuts a list of bytes into elements of `w` bytes, as numbers. -/
def elemNats (w : Nat) : Nat → List Byte → List Nat
  | 0, _ => []
  | n + 1, bs => leNat (bs.take w) :: elemNats w n (bs.drop w)

/-- `n` elements of `w` bytes of an area, and poison. -/
def arNats (s : State) (cid sl r w n : Nat) : List Nat × Bool :=
  let (bs, po) := arRead s cid sl r (w * n)
  (elemNats w n bs, po)

/-- Width in bytes of a Parser value format (R209). -/
def valWidth (f : Fmt) : Nat := fmtWidth f / 8

/-- `n` values of an area with its FX exponent vector (R47): values, poison, and whether a flush happened. -/
def arVals (s : State) (cid sl : Nat) (flush : Bool) (f : Fmt) (expv r n : Nat) : List Num × Bool × Bool :=
  let (ps, po) := arNats s cid sl r (valWidth f) n
  let (es, epo) := if (fmtFx f).isSome then arNats s cid sl expv 2 ((n + 255) / 256) else ([], false)
  let vs := (ps.zipIdx).map fun x => readFlush f (sext 16 (es.getD (x.2 / 256) 0)) flush x.1
  (vs.map (·.1), po || epo, vs.any (·.2))

/-- The vector of F64 elements of an area. -/
def arF64 (s : State) (cid sl : Nat) (flush : Bool) (r n : Nat) : List Num × Bool × Bool := arVals s cid sl flush .f64 0 r n

/-- The bytes of a list of patterns. -/
def patBytes (w : Nat) (ps : List Nat) : List Byte := ps.flatMap (natLe w)

/-! ### Stencils (R211) -/

/-- A grid. -/
structure Grid where
  nx : Nat
  ny : Nat
  nz : Nat
  pmask : Nat
deriving DecidableEq, Repr

/-- Number of cells. -/
def Grid.cells (g : Grid) : Nat := g.nx * g.ny * g.nz
/-- The points selected, rising. -/
def Grid.points (g : Grid) : List Nat := (List.range 27).filter fun q => bit g.pmask q
/-- R211: the neighbour of a cell at point `q`, where it lies inside the grid. -/
def gridNb (g : Grid) (c q : Nat) : Option Nat :=
  let x : Int := (c % g.nx : Nat) + ((q % 3 : Nat) : Int) - 1
  let y : Int := (c / g.nx % g.ny : Nat) + ((q / 3 % 3 : Nat) : Int) - 1
  let z : Int := (c / (g.nx * g.ny) : Nat) + ((q / 9 : Nat) : Int) - 1
  if 0 ≤ x ∧ x < g.nx ∧ 0 ≤ y ∧ y < g.ny ∧ 0 ≤ z ∧ z < g.nz then
    some (x.toNat + g.nx * (y.toNat + g.ny * z.toNat))
  else none

/-! ### Templates (R239 to R241) -/

/-- A template entry (R239). -/
structure TEntry where
  point : Nat
  comb : Nat
  field : Nat
  self : Bool
  w : Num
  rsv : Bool
deriving DecidableEq, Repr

/-- R239: DIRECT, SELF, ARITH, HARM, DIAGSUM. -/
def cmDIAGSUM : Nat := 4

/-- R239: reads an entry. -/
def parseTEntry (bs : List Byte) : TEntry :=
  { point := bfield bs 0 1, comb := bfield bs 1 1, field := bfield bs 2 1, self := bit (bfield bs 3 1) 0
    w := dF64 (bfield bs 8 8), rsv := bits (bfield bs 3 1) 7 1 != 0 || bfield bs 4 4 != 0 }

/-- R239: the template rules, reserved fields apart. -/
def templateOk (pmask : Nat) (l : List TEntry) : Bool :=
  l.all (fun e => decide (e.point < 27) && bit pmask e.point && decide (e.comb ≤ 4) && numIsFin e.w &&
    (e.comb != cmDIAGSUM || e.point == 13)) &&
  decide ((l.filter fun e => e.comb == cmDIAGSUM).length ≤ 1)

/-- R239: an entry's coefficient from a and b, without DIAGSUM's sum. -/
def entryCoef (e : TEntry) (a b : Num) : Frac :=
  match e.comb with
  | 0 => fracOf (numMul e.w b)
  | 2 => fracOf (numMul e.w (numScale (numAdd false a b) (-1)))
  | 3 =>
    let t := numAdd false a b
    if numIsZero t then fracOf numZero else { n := numMul e.w (numScale (numMul a b) 1), d := t }
  | _ => fracOf (numMul e.w a)

/-- R239: the partial derivatives of an entry's coefficient in a and in b, without DIAGSUM's sum. Those of HARM where a + b = 0
are not stated: a free value (DESIGN CHOICE, assumption log 37). -/
def entryDeriv (e : TEntry) (a b : Num) : Frac × Frac :=
  match e.comb with
  | 0 => (fracOf numZero, fracOf e.w)
  | 2 => let h := numScale e.w (-1); (fracOf h, fracOf h)
  | 3 =>
    let t := numAdd false a b
    if numIsZero t then
      let v := dF64 (Config.harmDeriv (BitVec.ofNat 64 (eF64 a)) (BitVec.ofNat 64 (eF64 b))).toNat
      (fracOf v, fracOf v)
    else
      let t2 := numMul t t
      ({ n := numMul e.w (numScale (numMul b b) 1), d := t2 }, { n := numMul e.w (numScale (numMul a a) 1), d := t2 })
  | _ => (fracOf e.w, fracOf numZero)

/-- What an assembly in STENCIL or ADJ mode reads: its grid, template and fields. -/
structure Stencil where
  g : Grid
  es : List TEntry
  /-- field f, primal then tangents, by cell; empty where it contributes +0 -/
  fields : Map (List (List Num))
  poison : Bool := false
  flushed : Bool := false
deriving DecidableEq, Repr

/-- Field offsets of the assembly descriptor (R238). -/
def lxGrid (b : List Byte) : Grid := { nx := bfield b 0x08 4, ny := bfield b 0x0C 4, nz := bfield b 0x10 4, pmask := bfield b 0x14 4 }
/-- R238: MODE. -/
def lxMode (b : List Byte) : Nat := bfield b 0 1
/-- R238: output value format. -/
def lxOfmt (b : List Byte) : Fmt := fmtOf (bfield b 1 1 % 16)
/-- R238: field format. -/
def lxFfmt (b : List Byte) : Fmt := fmtOf (bfield b 1 1 / 16)
/-- R238: LFLAGS. -/
def lxFlags (b : List Byte) : Nat := bfield b 2 2
/-- R238: TANGENTS. -/
def lxTang (b : List Byte) : Nat := bits (lxFlags b) 4 2
/-- R238: ACCUM. -/
def lxAccum (b : List Byte) : Bool := bit (lxFlags b) 1

/-- R238, R239: reads the template and the fields of a STENCIL or ADJ assembly. `tang`: field tangents to read. -/
def readStencil (s : State) (cid sl : Nat) (flush : Bool) (b : List Byte) (tang : Nat) : Stencil :=
  let g := lxGrid b
  let n := bfield b 7 1
  let (tb, tpo) := arRead s cid sl (bfield b 0x18 8) (16 * n)
  let es := (List.range n).map fun i => parseTEntry ((tb.drop (16 * i)).take 16)
  let f := lxFfmt b
  es.foldl (fun (a : Stencil) e =>
    if (mapFind a.fields e.field).isSome then a
    else
      let base := bfield b 0x20 8 + e.field * bfield b 0x28 8
      let rd (t : Nat) : List Num × Bool × Bool :=
        if t ≠ 0 ∧ bfield b 0x30 8 = 0 then ([], false, false)
        else arVals s cid sl flush f 0 (base + t * bfield b 0x30 8) g.cells
      let all := (List.range (tang + 1)).map rd
      { a with fields := mapIns a.fields e.field (all.map (·.1)), poison := a.poison || all.any (·.2.1)
               flushed := a.flushed || all.any (·.2.2) })
    { g := g, es := es, fields := [], poison := tpo }

/-- The value of a field, or of tangent `t` of it, at a cell. -/
def stField (st : Stencil) (f t c : Nat) : Num := ((mapGet [] st.fields f).getD t []).getD c numZero

/-- R239: a and b of an entry at a cell, and of their tangents; which cell b reads. -/
def entryAB (st : Stencil) (e : TEntry) (t c : Nat) : Num × Num × Option Nat :=
  let a := stField st e.field t c
  match gridNb st.g c e.point with
  | some nb => (a, stField st e.field t nb, some nb)
  | none => if e.self then (a, a, some c) else (a, numZero, none)

/-- R241: an entry's exact value for the primal (`t = 0`) or for tangent `t`, without DIAGSUM's sum. -/
def entryTerm (st : Stencil) (e : TEntry) (t c : Nat) : Frac :=
  let (a, b, nb) := entryAB st e 0 c
  if t = 0 then entryCoef e a b
  else
    let (da, db, _) := entryAB st e t c
    let (pa, pb) := entryDeriv e a b
    fracAdd (fracMul pa da) (if nb.isSome then fracMul pb db else fracOf numZero)

/-- R239, R240: the exact coefficient of point `q` at a cell, before R211's rule for neighbours outside the grid. -/
def pointCoef (st : Stencil) (q t c : Nat) : Frac :=
  let sum (l : List TEntry) : Frac := l.foldl (fun a e => fracAdd a (entryTerm st e t c)) (fracOf numZero)
  let own := sum (st.es.filter fun e => e.point == q)
  if st.es.any fun e => e.point == q && e.comb == cmDIAGSUM then
    fracAdd own (fracNeg (sum (st.es.filter fun e => e.point != q)))
  else own

/-- R240, R211: the exact coefficient that is stored: +0 where the neighbour lies outside the grid. -/
def storedCoef (st : Stencil) (q t c : Nat) : Num :=
  if (gridNb st.g c q).isSome then fracVal (pointCoef st q t c) else numZero

/-- R240: conversion into OFMT, with the block exponent at the value's position. -/
def lxEnc (f : Fmt) (flush : Bool) (es : List Nat) (pos : Nat) (x : Num) : Cvt :=
  encNum f (sext 16 (es.getD (pos / 256) 0)) .rne flush 0 x

/-- R240: the exponent vector for `n` values of OUT (`t = 0`) or of tangent `t` of DOUT. -/
def lxExps (s : State) (cid sl : Nat) (b : List Byte) (t n : Nat) : List Nat :=
  if (fmtFx (lxOfmt b)).isSome then (arNats s cid sl (bfield b 0xB0 8 + t * bfield b 0xB8 8) 2 ((n + 255) / 256)).1 else []

/-- R240: is every exponent in the range of R47. -/
def lxExpsOk (es : List Nat) : Bool := es.all fun e => decide (-1024 ≤ sext 16 e) && decide (sext 16 e ≤ 1024)

/-- R240, R241: the coefficients of an array (primal or tangent `t`), in the order of R211. -/
def stencilArray (s : State) (cid sl : Nat) (flush : Bool) (b : List Byte) (st : Stencil) (t : Nat) : List Cvt :=
  let g := st.g
  let es := lxExps s cid sl b t (g.points.length * g.cells)
  (g.points.zipIdx).flatMap fun q => (List.range g.cells).map fun c =>
    lxEnc (lxOfmt b) flush es (q.2 * g.cells + c) (storedCoef st q.1 t c)

end Sys2Proof.Machine
end

