-- ==== Sys2Proof/Machine/ParserOps.lean ====
section
/-! DEFINITION. The Parser's descriptor, matrices, preconditioners and inner arithmetic (spec/07_parser_and_lexer.md R207 to
R226, R231, R232). -/

namespace Sys2Proof.Machine

/-! ### The solve descriptor (R213) -/

/-- R213: METHOD. -/
def svMethod (b : List Byte) : Nat := bfield b 0 1
/-- R213: PRECOND. -/
def svPre (b : List Byte) : Nat := bfield b 1 1
/-- R209: STORAGE. -/
def svStor (b : List Byte) : Nat := bfield b 2 1
/-- R213: matrix value format. -/
def svFmt (b : List Byte) : Fmt := fmtOf (bfield b 3 1 % 16)
/-- R213: inner format. -/
def svInner (b : List Byte) : Fmt := fmtOf (bfield b 3 1 / 16)
/-- R213: SFLAGS. -/
def svFlags (b : List Byte) : Nat := bfield b 4 2
/-- R213: TRANSPOSE. -/
def svTrans (b : List Byte) : Bool := bit (svFlags b) 1
/-- R213: FALLBACK. -/
def svFallback (b : List Byte) : Bool := bit (svFlags b) 2
/-- R213: DEADLINE_V. -/
def svDeadV (b : List Byte) : Bool := bit (svFlags b) 3
/-- R213: X0. -/
def svX0 (b : List Byte) : Bool := bit (svFlags b) 4
/-- R213: RANGEV. -/
def svRangeV (b : List Byte) : Bool := bit (svFlags b) 5
/-- R213: MATRIX_FREE. -/
def svFree (b : List Byte) : Bool := bit (svFlags b) 6
/-- R213: TANGENTS. -/
def svTang (b : List Byte) : Nat := bits (svFlags b) 9 7
/-- R213: restart length. -/
def svM (b : List Byte) : Nat := bfield b 6 1
/-- R213: block-Jacobi block size. -/
def svBJ (b : List Byte) : Nat := bfield b 7 1
/-- R213: NROWS. -/
def svN (b : List Byte) : Nat := bfield b 8 4
/-- R213: BATCH. -/
def svBatch (b : List Byte) : Nat := bfield b 0xC 4
/-- R213: NNZ. -/
def svNnz (b : List Byte) : Nat := bfield b 0x10 8
/-- R213: an area or 64-bit field at an offset. -/
def sv64 (b : List Byte) (o : Nat) : Nat := bfield b o 8
/-- R216: bound B_o. -/
def svLB (b : List Byte) (o : Nat) : Int := sext 16 (bfield b (0xB0 + 2 * o) 2)
/-- R213: the stencil grid. -/
def svGrid (b : List Byte) : Grid := { nx := bfield b 0xC0 4, ny := bfield b 0xC4 4, nz := bfield b 0xC8 4, pmask := bfield b 0xCC 4 }
/-- R213: ITER_BUDGET. -/
def svBudget (b : List Byte) : Nat := bfield b 0xA0 4
/-- R213: OUTER_MAX. -/
def svOuterMax (b : List Byte) : Nat := bfield b 0xA4 2
/-- R213: is the solve dense and direct. -/
def svDense (b : List Byte) : Bool := decide (3 ≤ svMethod b) && decide (svMethod b ≤ 5)
/-- Block edge of blocked CSR. -/
def svEdge (b : List Byte) : Nat := if svStor b = 1 then 4 else if svStor b = 2 then 8 else 1
/-- Number of stored values of the matrix. -/
def svVals (b : List Byte) : Nat :=
  match svStor b with
  | 3 => (svGrid b).points.length * (svGrid b).cells
  | 4 => svN b * svN b * svBatch b
  | _ => svNnz b * svEdge b * svEdge b
/-- Bytes of one vector. -/
def svVec (b : List Byte) : Nat := 8 * svN b * (if svDense b then svBatch b else 1)
/-- R215: bytes of WORK. -/
def svWork (b : List Byte) : Nat :=
  let n := svN b
  let bj := if svPre b = 2 then n * svBJ b * 8 else 0
  match svMethod b with
  | 0 => 4096 + 6 * n * 8 + (if svPre b = 3 then svNnz b * 8 else 0) + bj
  | 1 => 4096 + 10 * n * 8 + bj
  | 2 => 4096 + (svM b + 4) * n * 8 + 8 * (svM b + 1) * (svM b + 1) + bj
  | _ => 4096 + svBatch b * n * 8

/-- R213: a reserved or unused field that is not zero. -/
def svRsv (b : List Byte) : Bool :=
  let z (c : Bool) (o n : Nat) : Bool := c && bfield b o n != 0
  let st := svStor b
  let dense := svDense b
  bits (svFlags b) 15 10 != 0 || bits (bfield b 0xCC 4) 31 27 != 0 || z true 0xA6 2 || (b.drop 0xD0).any (· != 0) ||
  [0x18, 0x20, 0x28, 0x30, 0x38, 0x40, 0x48, 0x50, 0x58, 0x60, 0x68, 0x70].any (fun o => arRsv (sv64 b o)) ||
  z (svMethod b != 2) 6 1 || z (svPre b != 2) 7 1 || z (decide (3 ≤ st)) 0x10 8 || z (decide (3 ≤ st)) 0x20 8 ||
  z (decide (3 ≤ st)) 0x28 8 || z (!(svRangeV b || (fmtFx (svFmt b)).isSome)) 0x30 8 ||
  z (svTang b == 0) 0x48 8 || z (svTang b == 0) 0x50 8 || z (svTang b == 0) 0x58 8 || z (svTang b == 0) 0x78 8 ||
  z (svTang b == 0) 0x80 8 || z (!dense) 0x70 8 || z (!svDeadV b) 0xA8 8 || z (st != 3) 0xC0 16

/-- R214: the allowed combinations and ranges. -/
def svFormatOk (s : State) (cid sl : Nat) (b : List Byte) : Bool :=
  let st := svStor b
  let n := svN b
  let f := bfield b 3 1 % 16
  let g := svGrid b
  let inn := bfield b 3 1 / 16
  let tolOk (o : Nat) : Bool := let x := dF64 (sv64 b o); numIsFin x && (!numNeg x || numIsZero x)
  (f == 0 || f == 1 || f == 14 || f == 15) && decide (svTang b ≤ 4) && tolOk 0x88 && tolOk 0x90 && tolOk 0x98 &&
  (List.range 8).all (fun o => decide (-1024 ≤ svLB b o) && decide (svLB b o ≤ 1024)) &&
  (svTang b == 0 || sv64 b 0x50 != 0) && sv64 b 0x78 % 8 == 0 && sv64 b 0x80 % 64 == 0 &&
  (if svDense b then
    svPre b == 0 && st == 4 && f == 0 && !svRangeV b && !svFree b && !svFallback b &&
    decide (1 ≤ n) && decide (n ≤ 256) && decide (1 ≤ svBatch b) && decide (svBatch b ≤ 2 ^ 20) && (inn == 0 || inn == 14 || inn == 15)
  else
    decide (svMethod b ≤ 2) && decide (svPre b ≤ (if svMethod b = 0 then 3 else 2)) && decide (st ≤ 3) &&
    (svPre b != 3 || st == 0) && (svMethod b != 2 || (decide (1 ≤ svM b) && decide (svM b ≤ 64))) &&
    (svPre b != 2 || ((svBJ b == 4 || svBJ b == 8) && (svEdge b == 1 || svBJ b == svEdge b))) &&
    (inn == 14 || inn == 15) && svBatch b == 1 && decide (1 ≤ n) && decide (n < 2 ^ 31) && n % svEdge b == 0 &&
    decide (svNnz b < 2 ^ 32) && decide (1 ≤ svBudget b) && decide (1 ≤ svOuterMax b) &&
    (st != 3 || (decide (1 ≤ g.nx) && decide (g.nx ≤ 65535) && decide (1 ≤ g.ny) && decide (g.ny ≤ 65535) &&
      decide (1 ≤ g.nz) && decide (g.nz ≤ 65535) && g.cells == n)) &&
    (!svFree b || (st == 3 &&
      let a := (arRead s cid sl (sv64 b 0x18) 256).1
      lxMode a == 0 && bfield a 1 1 % 16 == f && lxGrid a == g && templateOk g.pmask (readStencil s cid sl false a 0).es)))

/-- R208, R213: the areas of a solve: reference, bytes, alignment, written. -/
def svAreas (b : List Byte) : List (Nat × Nat × Nat × Bool) :=
  let n := svN b
  let nnz := svNnz b
  let w := valWidth (svFmt b)
  let t := svTang b
  let none_ (o : Nat) : Bool := sv64 b o == 0
  (if svFree b then [(sv64 b 0x18, 256, 64, false)]
   else if svStor b ≤ 2 then
    [(sv64 b 0x18, 8 * (n / svEdge b + 1), 8, false), (sv64 b 0x20, 4 * nnz, 8, false), (sv64 b 0x28, w * svVals b, 8, false)]
   else [(sv64 b 0x18, w * svVals b, 8, svDense b)]) ++
  (if svRangeV b || (fmtFx (svFmt b)).isSome then [(sv64 b 0x30, 2 * ((svVals b + 255) / 256), 8, false)] else []) ++
  [(sv64 b 0x38, svVec b, 8, false), (sv64 b 0x40, svVec b, 8, true)] ++
  (if t = 0 then [] else
    (if none_ 0x48 then [] else [(sv64 b 0x48, (t - 1) * sv64 b 0x78 + svVec b, 8, false)]) ++
    [(sv64 b 0x50, (t - 1) * sv64 b 0x78 + svVec b, 8, true)] ++
    (if none_ 0x58 then [] else [(sv64 b 0x58, (t - 1) * sv64 b 0x80 + w * svVals b, 8, false)])) ++
  [(sv64 b 0x60, svWork b, 8, true), (sv64 b 0x68, 128, 64, true)] ++
  (if svDense b then [(sv64 b 0x70, svBatch b, 8, true)] else [])

/-- R208, R213, R214, R216, R229: the refusal of a solve descriptor, if any. -/
def svCheck (s : State) (cid sl : Nat) (b : List Byte) : Option Nat :=
  if svRsv b then some stRESERVED
  else if !svFormatOk s cid sl b then some stFORMAT
  else
    match areasErr s cid sl (svAreas b) with
    | some e => some e
    | none => if svDeadV b && !bit (svFlags b) 0 then some stN_REQUIRED else none

/-! ### Matrices (R209 to R211, R232, R240) -/

/-- A matrix as a pass reads it: by row, the columns with the number of the value; the values; is the structure sound. -/
structure MatR where
  pat : List (List (Nat × Nat))
  vals : Array Num
  ok : Bool := true
  poison : Bool := false
  flushed : Bool := false

/-- Do row pointers start at 0, not decrease, and end at NNZ (R210). -/
def ptrsOk (nnz : Nat) (l : List Nat) : Bool :=
  l.headD 1 == 0 && l.getLastD 0 == nnz && (l.zip (l.drop 1)).all fun p => decide (p.1 ≤ p.2)

/-- R210: do column indices strictly increase below the column count. -/
def colsRise (n : Nat) : List Nat → Bool
  | [] => true
  | [a] => decide (a < n)
  | a :: b :: r => decide (a < b) && colsRise n (b :: r)

/-- R209, R211: the pattern of a matrix. -/
def matPat (s : State) (cid sl : Nat) (b : List Byte) : List (List (Nat × Nat)) × Bool × Bool :=
  if svStor b = 3 then
    let g := svGrid b
    let pts := g.points.zipIdx
    ((List.range g.cells).map fun c => pts.filterMap fun q => (gridNb g c q.1).map fun nb => (nb, q.2 * g.cells + c), true, false)
  else
    let e := svEdge b
    let n := svN b / e
    let nnz := svNnz b
    let (ptr, p1) := arNats s cid sl (sv64 b 0x18) 8 (n + 1)
    let (col, p2) := arNats s cid sl (sv64 b 0x20) 4 nnz
    let rows := (ptr.zip (ptr.drop 1)).map fun p => ((col.drop p.1).take (p.2 - p.1), p.1)
    let ok := ptrsOk nnz ptr && rows.all fun r => colsRise n r.1
    (rows.flatMap fun r => (List.range e).map fun i =>
      (r.1.zipIdx).flatMap fun c => (List.range e).map fun j => (c.1 * e + j, (r.2 + c.2) * e * e + i * e + j), ok, p1 || p2)

/-- R232: the pattern of the transposed matrix. -/
def patTrans (pat : List (List (Nat × Nat))) : List (List (Nat × Nat)) :=
  ((pat.zipIdx).foldl (fun (a : Array (List (Nat × Nat))) r =>
    r.1.foldl (fun a e => a.modify e.1 fun l => l ++ [(r.2, e.2)]) a) (Array.replicate pat.length [])).toList

/-- R240, R209: the values of the matrix (`t = 0`) or of matrix tangent `t`. -/
def matVals (s : State) (cid sl : Nat) (flush : Bool) (b : List Byte) (t : Nat) : List Num × Bool × Bool :=
  if t = 0 then
    if svFree b then
      let a := (arRead s cid sl (sv64 b 0x18) 256).1
      let st := readStencil s cid sl flush a 0
      let es := lxExps s cid sl a 0 (svVals b)
      ((stencilArray s cid sl flush a st 0).zipIdx.map fun c => decNum (svFmt b) (sext 16 (es.getD (c.2 / 256) 0)) c.1.pat,
        st.poison, st.flushed)
    else arVals s cid sl flush (svFmt b) (sv64 b 0x30) (sv64 b (if svStor b ≤ 2 then 0x28 else 0x18)) (svVals b)
  else if sv64 b 0x58 = 0 then (List.replicate (svVals b) numZero, false, false)
  else arVals s cid sl flush (svFmt b) (sv64 b 0x30) (sv64 b 0x58 + (t - 1) * sv64 b 0x80) (svVals b)

/-- Reads the matrix, or matrix tangent `t`, in the orientation that is solved. -/
def readMat (s : State) (cid sl : Nat) (flush : Bool) (b : List Byte) (t : Nat) : MatR :=
  let (pat, ok, po) := matPat s cid sl b
  let (vs, vpo, fl) := matVals s cid sl flush b t
  { pat := if ok && svTrans b then patTrans pat else pat, vals := vs.toArray, ok := ok, poison := po || vpo, flushed := fl }

/-- The exact row sums of a matrix and a vector. -/
def matMul (pat : List (List (Nat × Nat))) (vals : Array Num) (x : List Num) : List Num :=
  let xa := x.toArray
  pat.map fun row => row.foldl (fun a e => numAdd false a (numMul (vals.getD e.2 numZero) (xa.getD e.1 numZero))) numZero

/-! ### Inner arithmetic (R216 to R221) -/

/-- How the inner iteration rounds: in F64, or into the inner format under the bounds. -/
structure InM where
  f64 : Bool
  fmt : Fmt
  lb : List Int
  flush : Bool

/-- What rounding has seen: R221's bounds and the first operand out of range. -/
structure RdAcc where
  obs : List Int
  bad : Option Nat := none

/-- R221: the least bound that holds a value. -/
def obsOf (x : Num) : Int := match x with | .fin _ m e => if m = 0 then -32768 else magLog2 m e + 1 | _ => -32768

/-- Rounds once to F64: a scalar (R218). -/
def scal (x : Num) : Num := dF64 (eF64 x)

/-- Rounds an element of operand `o` with block exponent `E`. -/
def rdAt (m : InM) (o : Nat) (E : Int) (a : RdAcc) (x : Num) : RdAcc × Num :=
  let see (y : Num) : List Int := a.obs.set o (max (a.obs.getD o (-32768)) (max (obsOf x) (obsOf y)))
  if m.f64 then
    let y := dF64 (encNum .f64 0 .rne m.flush 0 x).pat
    ({ a with obs := see y }, y)
  else
    let c := encNum m.fmt E .rne false 0 x
    let y := decNum m.fmt E c.pat
    ({ obs := see (if c.range then x else y), bad := if c.range then (match a.bad with | some k => some k | none => some o) else a.bad }, y)

/-- Rounds a vector of operand `o` (R216, R218). -/
def rdV (m : InM) (o : Nat) (a : RdAcc) (xs : List Num) : RdAcc × List Num :=
  let (a, ys) := xs.foldl (fun (p : RdAcc × List Num) x => let (a, y) := rdAt m o (m.lb.getD o 0) p.1 x; (a, y :: p.2)) (a, [])
  (a, ys.reverse)

/-- The exact dot product. -/
def dotX (a b : List Num) : Num := numSum ((a.zip b).map fun p => numMul p.1 p.2)
/-- R218: a dot product, rounded once. -/
def dot (a b : List Num) : Num := scal (dotX a b)
/-- R218: the 2-norm: the exact sum of squares rounded once, and its root rounded once. -/
def norm2 (a : List Num) : Num := scal (numSqrt (dot a a))
/-- The largest magnitude. -/
def normInf (a : List Num) : Num := a.foldl (fun m x => numMax m (numAbs x)) numZero
/-- `x + k y` per element, exact. -/
def axpy (k : Num) (x y : List Num) : List Num := (x.zip y).map fun p => numAdd false p.1 (numMul k p.2)
/-- A linear combination per element, exact. -/
def lincomb (l : List (Num × List Num)) (n : Nat) : List Num :=
  l.foldl (fun a t => axpy t.1 a t.2) (List.replicate n numZero)

/-- R216, R219: the matrix values of the inner iteration. -/
def innerVals (s : State) (cid sl : Nat) (b : List Byte) (m : InM) (a : RdAcc) (vals : Array Num) : RdAcc × Array Num :=
  if m.f64 then (a, vals)
  else
    let rv := if svRangeV b then (arNats s cid sl (sv64 b 0x30) 2 ((svVals b + 255) / 256)).1 else []
    let E (k : Nat) : Int := if svRangeV b then sext 16 (rv.getD (k / 256) 0) else svLB b 0
    let fx := (fmtFx (svFmt b)).isSome
    let (a, ys) := (vals.toList.zipIdx).foldl (fun (p : RdAcc × List Num) v =>
      let (a, y) := rdAt m 0 (E v.2) p.1 v.1
      (a, (if fx then v.1 else y) :: p.2)) (a, [])
    (a, ys.reverse.toArray)

/-! ### Dense factors (R212) -/

/-- The element of a matrix held by rows. -/
def dAt (a : Array (Array Num)) (i j : Nat) : Num := (a.getD i #[]).getD j numZero
/-- Sets an element. -/
def dSet (a : Array (Array Num)) (i j : Nat) (x : Num) : Array (Array Num) := a.modify i fun r => r.setIfInBounds j x

/-- R212: one element update: a value less an exact sum of products, rounded once into F64. -/
def crout (x : Num) (ps : List (Num × Num)) : Num :=
  scal (ps.foldl (fun a p => numSub false a (numMul p.1 p.2)) x)

/-- R212: column `j` of the Crout LU factorisation with partial pivoting; the pivot row chosen, and whether the pivot is zero. -/
def luCol (n j : Nat) (a : Array (Array Num)) (perm : List Nat) : Array (Array Num) × List Nat × Bool :=
  let a := (List.range j).foldl (fun a i =>
    dSet a i j (crout (dAt a i j) ((List.range i).map fun k => (dAt a i k, dAt a k j)))) a
  let rest := (List.range (n - j)).map (· + j)
  let a := rest.foldl (fun a i => dSet a i j (crout (dAt a i j) ((List.range j).map fun k => (dAt a i k, dAt a k j)))) a
  let pv := rest.foldl (fun best i => if magRankLt (dAt a best j) (dAt a i j) then i else best) j
  let (rj, rp) := (a.getD j #[], a.getD pv #[])
  let a := (a.setIfInBounds j rp).setIfInBounds pv rj
  let perm := (perm.set j (perm.getD pv 0)).set pv (perm.getD j 0)
  let piv := dAt a j j
  if numIsZero piv then (a, perm, true)
  else
    ((rest.drop 1).foldl (fun a i => dSet a i j (scal (numDiv (dAt a i j) piv))) a, perm, false)

/-- R212: LU of a block: factor, row order, broken. -/
def luFactor (n : Nat) (a : Array (Array Num)) : Array (Array Num) × List Nat × Bool :=
  (List.range n).foldl (fun st j => if st.2.2 then st else luCol n j st.1 st.2.1) (a, List.range n, false)

/-- R212: Cholesky of a block: L over the lower triangle; broken where a pivot is not positive. -/
def cholFactor (n : Nat) (a : Array (Array Num)) : Array (Array Num) × Bool :=
  (List.range n).foldl (fun st j =>
    if st.2 then st
    else
      let a := st.1
      let d := crout (dAt a j j) ((List.range j).map fun k => (dAt a j k, dAt a j k))
      if !numLt numZero d then (a, true)
      else
        let l := scal (numSqrt d)
        let a := dSet a j j l
        (((List.range (n - j - 1)).map (· + j + 1)).foldl (fun a i =>
          dSet a i j (scal (numDiv (crout (dAt a i j) ((List.range j).map fun k => (dAt a i k, dAt a j k))) l))) a, false)) (a, false)

/-- R212: Householder QR of a block: R over the upper triangle, reflectors below it, and their scalars. -/
def qrFactor (n : Nat) (a : Array (Array Num)) : Array (Array Num) × List Num :=
  (List.range n).foldl (fun st k =>
    let a := st.1
    let below := (List.range (n - k - 1)).map (· + k + 1)
    let alpha := dAt a k k
    if below.all fun i => numIsZero (dAt a i k) then (a, st.2 ++ [numZero])
    else
      let nrm := norm2 ((alpha :: below.map fun i => dAt a i k))
      let beta := if numNeg alpha then nrm else numNegate nrm
      let tau := scal (numDiv (numSub false beta alpha) beta)
      let den := scal (numSub false alpha beta)
      let a := below.foldl (fun a i => dSet a i k (scal (numDiv (dAt a i k) den))) a
      let a := below.foldl (fun a j =>
        let w := scal (numAdd false (dAt a k j) (dotX (below.map fun i => dAt a i k) (below.map fun i => dAt a i j)))
        let tw := numMul tau w
        let a' := dSet a k j (scal (numSub false (dAt a k j) tw))
        below.foldl (fun a2 i => dSet a2 i j (scal (numSub false (dAt a i j) (numMul tw (dAt a i k))))) a') a
      (dSet a k k beta, st.2 ++ [tau])) (a, [])

/-- Forward substitution with the lower triangle; `unit`: the diagonal is 1; `tr`: the upper triangle transposed. -/
def fwdSub (n : Nat) (a : Array (Array Num)) (unit tr : Bool) (b : List Num) : List Num :=
  let at_ (i j : Nat) := if tr then dAt a j i else dAt a i j
  ((List.range n).foldl (fun (y : Array Num) i =>
    let v := crout (y.getD i numZero) ((List.range i).map fun k => (at_ i k, y.getD k numZero))
    y.setIfInBounds i (if unit then v else scal (numDiv v (at_ i i)))) b.toArray).toList

/-- Back substitution with the upper triangle; `tr`: the lower triangle transposed. -/
def backSub (n : Nat) (a : Array (Array Num)) (unit tr : Bool) (b : List Num) : List Num :=
  let at_ (i j : Nat) := if tr then dAt a j i else dAt a i j
  ((List.range n).reverse.foldl (fun (y : Array Num) i =>
    let v := crout (y.getD i numZero) (((List.range (n - i - 1)).map (· + i + 1)).map fun k => (at_ i k, y.getD k numZero))
    y.setIfInBounds i (if unit then v else scal (numDiv v (at_ i i)))) b.toArray).toList

/-- Solves with an LU factor, or its transpose (R212, R232). -/
def luSolve (n : Nat) (f : Array (Array Num)) (perm : List Nat) (tr : Bool) (b : List Num) : List Num :=
  if tr then
    let z := backSub n f true true (fwdSub n f false true b)
    (List.range n).map fun i => match perm.findIdx? (· == i) with | some j => z.getD j numZero | none => numZero
  else backSub n f false false (fwdSub n f true false (perm.map fun i => b.getD i numZero))

/-- Applies one reflector. -/
def qrReflect (n : Nat) (f : Array (Array Num)) (tau : Num) (k : Nat) (b : List Num) : List Num :=
  let below := (List.range (n - k - 1)).map (· + k + 1)
  let ba := b.toArray
  let w := scal (numAdd false (ba.getD k numZero) (dotX (below.map fun i => dAt f i k) (below.map fun i => ba.getD i numZero)))
  let tw := numMul tau w
  let r := ba.setIfInBounds k (scal (numSub false (ba.getD k numZero) tw))
  (below.foldl (fun r i => r.setIfInBounds i (scal (numSub false (ba.getD i numZero) (numMul tw (dAt f i k))))) r).toList

/-- Solves with a QR factor, or its transpose (R212, R232). -/
def qrSolve (n : Nat) (f : Array (Array Num)) (taus : List Num) (tr : Bool) (b : List Num) : List Num :=
  if tr then
    (List.range n).reverse.foldl (fun x k => qrReflect n f (taus.getD k numZero) k x) (fwdSub n f false true b)
  else backSub n f false false ((List.range n).foldl (fun x k => qrReflect n f (taus.getD k numZero) k x) b)

/-! ### Preconditioners (R224) -/

/-- A diagonal block's inverse by LU; none where it is singular. -/
def blockInv (k : Nat) (a : Array (Array Num)) : Option (List (List Num)) :=
  let (f, perm, bad) := luFactor k a
  if bad then none
  else
    let cols := (List.range k).map fun j => luSolve k f perm false ((List.range k).map fun i => numInt (if i = j then 1 else 0))
    some ((List.range k).map fun i => cols.map fun c => c.getD i numZero)

/-- The value of a matrix at a row and column: the sum of what the row lists there. -/
def matAt (m : MatR) (row : List (Nat × Nat)) (j : Nat) : Option Num :=
  match row.filter (fun e => e.1 == j) with
  | [] => none
  | l => some (numSum (l.map fun e => m.vals.getD e.2 numZero))

/-- R224: the IC0 factor by rows; none where a pivot is not positive or missing. -/
def icFactor (m : MatR) : Option (List (List (Nat × Num))) :=
  (m.pat.zipIdx).foldl (fun acc r =>
    match acc with
    | none => none
    | some ls =>
      let i := r.2
      let low := ((r.1.filter fun e => decide (e.1 < i)).mergeSort fun a b => decide (a.1 ≤ b.1)).map fun e => (e.1, m.vals.getD e.2 numZero)
      let row := low.foldl (fun (row : List (Nat × Num)) e =>
        let lj := ls.getD e.1 []
        let ps := row.filterMap fun x => (lj.find? fun y => y.1 == x.1).map fun y => (x.2, y.2)
        let dj := ((lj.find? fun y => y.1 == e.1).map (·.2)).getD (numInt 1)
        row ++ [(e.1, scal (numDiv (crout e.2 ps) dj))]) []
      match matAt m r.1 i with
      | none => none
      | some d =>
        let p := crout d (row.map fun x => (x.2, x.2))
        if numLt numZero p then some (ls ++ [row ++ [(i, scal (numSqrt p))]]) else none) (some [])

/-- R224: sets up the preconditioner, from the matrix as stored; false where it breaks down. -/
def precSetup (sv : Solve) (m : MatR) : Solve × Bool :=
  let b := sv.desc
  match svPre b with
  | 0 => (sv, true)
  | 1 =>
    let ds := (m.pat.zipIdx).map fun r => matAt m r.1 r.2
    if ds.any fun d => match d with | none => true | some x => numIsZero x then (sv, false)
    else ({ sv with jac := ds.map fun d => scal (numDiv (numInt 1) (d.getD numZero)) }, true)
  | 2 =>
    let k := svBJ b
    let n := svN b
    let inv := (List.range ((n + k - 1) / k)).map fun q =>
      let sz := min k (n - q * k)
      blockInv sz (((List.range sz).map fun i => ((List.range sz).map fun j =>
        (matAt m (m.pat.getD (q * k + i) []) (q * k + j)).getD numZero).toArray).toArray)
    if inv.any (·.isNone) then (sv, false) else ({ sv with blocks := inv.map (·.getD []) }, true)
  | _ =>
    match icFactor m with
    | some l => ({ sv with ic := l }, true)
    | none => (sv, false)

/-- R224: applies the preconditioner in the inner format under bound B_5; with none the residual itself. -/
def precApply (sv : Solve) (m : InM) (a : RdAcc) (r : List Num) : RdAcc × List Num :=
  let b := sv.desc
  match svPre b with
  | 0 => (a, r)
  | 1 => rdV m 5 a ((r.zip sv.jac).map fun p => numMul p.1 p.2)
  | 2 =>
    let k := svBJ b
    rdV m 5 a ((sv.blocks.zipIdx).flatMap fun q =>
      let seg := (r.drop (q.2 * k)).take q.1.length
      if svTrans b then (List.range q.1.length).map fun i => dotX (q.1.map fun row => row.getD i numZero) seg
      else q.1.map fun row => dotX row seg)
  | _ =>
    let rd1 (a : RdAcc) (x : Num) := rdAt m 5 (m.lb.getD 5 0) a x
    let (a, y) := ((sv.ic.zip r).zipIdx).foldl (fun (p : RdAcc × Array Num) q =>
      let row := q.1.1
      let d := ((row.getLast?).map (·.2)).getD (numInt 1)
      let t := row.dropLast.foldl (fun t e => numSub false t (numMul e.2 (p.2.getD e.1 numZero))) q.1.2
      let (a, v) := rd1 p.1 (numDiv t d)
      (a, p.2.push v)) (a, #[])
    let (a, z) := (sv.ic.zipIdx).reverse.foldl (fun (p : RdAcc × Array Num) q =>
      let row := q.1
      let d := ((row.getLast?).map (·.2)).getD (numInt 1)
      let (a, v) := rd1 p.1 (numDiv (p.2.getD q.2 numZero) d)
      -- what row q.2 has taken from earlier unknowns is exact until each is rounded once
      (a, row.dropLast.foldl (fun z e => z.modify e.1 fun t => numSub false t (numMul e.2 v)) (p.2.setIfInBounds q.2 v))) (a, y)
    (a, z.toList)

end Sys2Proof.Machine
end

