-- ==== Sys2Proof/Machine/Parser.lean ====
section
/-! DEFINITION. Solves on a Parser (spec/07_parser_and_lexer.md R207 to R237). -/

namespace Sys2Proof.Machine

/-- R234: RANGE_EXCEEDED. -/
def stRANGE : Nat := 0x30
/-- R234: SOLVE_DEADLINE. -/
def stDEADLINE : Nat := 0x31
/-- R234: BREAKDOWN. -/
def stBREAKDOWN : Nat := 0x32
/-- R234: MATRIX_INVALID. -/
def stMATRIX : Nat := 0x33

/-- A solve record that exists. -/
def solveOf (s : State) (id : Nat) : Option Solve := mapFind s.solves id
/-- Puts a solve record. -/
def setSolve (s : State) (id : Nat) (v : Solve) : State := { s with solves := mapIns s.solves id v }

/-- R237: sets PRS_STATUS bits. -/
def prsSet (s : State) (sl m : Nat) : State :=
  if m = 0 then s else regSet s (aPRS_STATUS sl) (regGet s (aPRS_STATUS sl) ||| m)

/-- R237: notes poison and flushes that a pass met. -/
def prsNote (s : State) (id sl : Nat) (poison flushed : Bool) : State :=
  let s := prsSet s sl ((if flushed then 1 else 0) + (if poison then 8 else 0))
  match solveOf s id with
  | some v => setSolve s id { v with poison := v.poison || poison }
  | none => s

/-- A solve that is on a Parser, running, with its program. -/
structure SEnv where
  id : Nat
  p : Prog
  v : Solve
  sl : Nat
  flush : Bool

/-- The solve a command acts on: accepted, not ended, its context running. -/
def solveEnv (s : State) (id : Nat) : Option SEnv :=
  match progOf s id, solveOf s id with
  | some p, some v =>
    match p.unit with
    | some sl =>
      if p.kind == .solve && p.ended.isNone && v.started && ctxRunning s p.cid then
        some { id := id, p := p, v := v, sl := sl, flush := bit (ctxOf s p.cid).emode 1 }
      else none
    | none => none
  | _, _ => none

/-! ### Placement (R291) -/

/-- R291: the Parsers that may take a solve: in service, free, and powered, in the partition. -/
def prsFree (s : State) (k : Nat) : List Nat :=
  (partSlices s k).filter fun sl => computeOn s sl && (mapFind s.parsers sl).isNone && !unitDown s sl 16

/-- R291: the slice that a solve is placed nearest to. -/
def prsNear (s : State) (cid : Nat) (b : List Byte) : Option Nat :=
  let r := if arSpad (sv64 b 0x18) then sv64 b 0x18 else sv64 b 0x38
  if arSpad r then areaSlice s cid (arAddr r) else none

/-- R290, R291, R292, R227: places a solve that has no Parser. -/
def prsPlace (s : State) (id : Nat) : State :=
  match progOf s id, solveOf s id with
  | some p, some v =>
    if p.kind != .solve || p.unit.isSome || p.ended.isSome || p.abort || (runOf s p.cid).st != .running || !(ctxOf s p.cid).live then s
    else
      let free := prsFree s (p.cid / 8)
      let target : Option Nat := match p.issue.mtarget with
        | some (sl, _) => if (mapFind s.parsers sl).isNone then some sl else none
        | none => if free.length ≤ (waitingBefore s id p).length then none else nearUnit (prsNear s p.cid v.desc) 1 free
      match target with
      | none => s
      | some sl =>
        let s := updProg s id fun p => { p with unit := some sl }
        let s := { s with parsers := mapIns s.parsers sl id }
        -- R236: PRS_MODE is loaded from the context; R237: BUSY
        let s := setFld s (aPRS_MODE sl) 0 0 (bits (ctxOf s p.cid).emode 1 1)
        setBitOf s (aPRS_STATUS sl) 8
  | _, _ => s

/-- Frees the Parser of a solve. -/
def prsRelease (s : State) (sl : Nat) : State := clrBitOf { s with parsers := mapDel s.parsers sl } (aPRS_STATUS sl) 8

/-! ### Results (R228, R233) -/

/-- R233: the result record. -/
def solveResult (v : Solve) (status : Nat) (valid : Bool) : List Byte :=
  natLe 1 status ++ natLe 1 v.cause ++
  natLe 2 ((if valid then 1 else 0) + (if v.fell then 2 else 0) + (if v.poison then 4 else 0)) ++
  natLe 4 v.outer ++ natLe 4 v.inner ++ natLe 4 v.fallAt ++ natLe 8 (eF64 v.rnorm) ++ natLe 8 (eF64 v.bnorm) ++
  ((List.range 4).flatMap fun t => natLe 8 (eF64 (v.trn.getD t numZero))) ++
  ((List.range 8).flatMap fun o => natLe 2 (toTwos 16 (v.obs.getD o (-32768)))) ++ natLe 4 v.blockFail ++ List.replicate 44 0

/-- R215: a Krylov solve leaves values in WORK whose layout the spec does not give: free values (DESIGN CHOICE, assumption log 36). -/
def workFree (s : State) (cid sl : Nat) (b : List Byte) : State :=
  let n := svWork b / 8
  let s' := arWrite s cid sl (sv64 b 0x60) ((List.range n).flatMap fun i => natLe 8 (Config.freeWord (s.free + i)).toNat) false
  { s' with free := s.free + n }

/-- R233: ends a solve with its result record; a poisoned solve that is otherwise OK has the marked status POISONED. -/
def solveEnd (s : State) (id : Nat) (status cause : Nat) : State :=
  match progOf s id, solveOf s id with
  | some p, some v =>
    let sl := p.unit.getD 0
    let st := if status = stOK ∧ v.poison then stPOISONED else status
    let v := { v with cause := cause, kry := none }
    let s := setSolve s id v
    let s := if svDense v.desc then s else workFree s p.cid sl v.desc
    let s := arWrite s p.cid sl (sv64 v.desc 0x68) (solveResult v st (st == stOK)) false
    let s := setProg s id { p with ended := some ⟨st, 0, 0⟩ }
    prsRelease s sl
  | _, _ => s

/-- R228: writes a solution vector (`t = 0`) or tangent solution; it carries the solve's poison. -/
def solveWriteX (s : State) (e : SEnv) (v : Solve) (x : List Num) : State :=
  let a := if v.sys = 0 then sv64 v.desc 0x40 else sv64 v.desc 0x50 + (v.sys - 1) * sv64 v.desc 0x78
  let cs := x.map fun y => encNum .f64 0 .rne e.flush 0 y
  let s := prsSet s e.sl ((if cs.any (·.flushed) then 1 else 0) + (if v.poison then 8 else 0))
  arWrite s e.p.cid e.sl a (patBytes 8 (cs.map (·.pat))) v.poison

/-! ### Starting (R212, R222, R224) -/

/-- Starts a Krylov solve of a method: its Parser, R210's first pass, and the preconditioner. -/
def krylovStart (s : State) (id method : Nat) : State :=
  match solveOf s id with
  | none => s
  | some v =>
    if svMethod v.desc ≠ method ∨ v.started then s
    else
      let s := prsPlace s id
      match progOf s id with
      | none => s
      | some p =>
        match p.unit with
        | none => s
        | some sl =>
          let s := setSolve s id { v with started := true }
          let flush := bit (ctxOf s p.cid).emode 1
          let b := v.desc
          let (pat, ok, po) := matPat s p.cid sl b
          let (vs, vpo, fl) := matVals s p.cid sl flush b 0
          if !ok then solveEnd s id stMATRIX 0
          else
            let s := prsNote s id sl (po || vpo) fl
            let (bv, bpo, bfl) := arF64 s p.cid sl flush (sv64 b 0x38) (svN b)
            let (xv, xpo, xfl) := if svX0 b then arF64 s p.cid sl flush (sv64 b 0x40) (svN b)
              else (List.replicate (svN b) numZero, false, false)
            let s := prsNote s id sl (bpo || xpo) (bfl || xfl)
            match solveOf s id with
            | none => s
            | some v =>
              let (v, good) := precSetup { v with x := xv, rhs := bv, bnorm := norm2 bv } { pat := pat, vals := vs.toArray }
              let s := setSolve s id v
              if good then s else solveEnd s id stBREAKDOWN 4

/-- R212: the factor of a dense block by method: the block as overwritten, the words that go to WORK, and how to solve with it;
none where it breaks down. -/
def denseBlock (method n : Nat) (tr : Bool) (a : Array (Array Num)) :
    Array (Array Num) × List Nat × Option (List Num → List Num) :=
  match method with
  | 3 =>
    let (f, perm, bad) := luFactor n a
    (f, perm, if bad then none else some (luSolve n f perm tr))
  | 4 =>
    let (f, bad) := cholFactor n a
    (f, [], if bad then none else some fun b => backSub n f false true (fwdSub n f false false b))
  | _ =>
    let (f, taus) := qrFactor n a
    (f, taus.map eF64, some (qrSolve n f taus tr))

/-- R212, R231, R234: a dense batched solve of a method. -/
def denseRun (s : State) (id method : Nat) : State :=
  match solveOf s id with
  | none => s
  | some v =>
    if svMethod v.desc ≠ method ∨ v.started then s
    else
      let s := prsPlace s id
      match progOf s id with
      | none => s
      | some p =>
        match p.unit with
        | none => s
        | some sl =>
          let flush := bit (ctxOf s p.cid).emode 1
          let b := v.desc
          let n := svN b
          let nb := svBatch b
          let tr := svTrans b
          let (av, apo, afl) := arF64 s p.cid sl flush (sv64 b 0x18) (n * n * nb)
          let (bv, bpo, bfl) := arF64 s p.cid sl flush (sv64 b 0x38) (n * nb)
          let T := svTang b
          let rdT (o st cnt : Nat) (t : Nat) : List Num × Bool × Bool :=
            if sv64 b o = 0 then (List.replicate cnt numZero, false, false)
            else arF64 s p.cid sl flush (sv64 b o + t * sv64 b st) cnt
          let dbs := (List.range T).map (rdT 0x48 0x78 (n * nb))
          let das := (List.range T).map (rdT 0x58 0x80 (n * n * nb))
          let po := apo || bpo || (dbs ++ das).any (·.2.1)
          let fl := afl || bfl || (dbs ++ das).any (·.2.2)
          let s := prsNote (setSolve s id { v with started := true, bnorm := norm2 bv }) id sl po fl
          let aa := av.toArray
          let blk (m : Array Num) (k : Nat) : Array (Array Num) :=
            ((List.range n).map fun i => ((List.range n).map fun j => m.getD (k * n * n + i * n + j) numZero).toArray).toArray
          let wr (s : State) (a : Nat) (xs : List Num) : State :=
            arWrite s p.cid sl a (patBytes 8 (xs.map fun y => (encNum .f64 0 .rne flush 0 y).pat)) po
          let step (acc : State × Nat) (k : Nat) : State × Nat :=
            let (s, bad) := acc
            let (f, work, sol) := denseBlock method n tr (blk aa k)
            let s := wr s (sv64 b 0x18 + 8 * n * n * k) ((List.range n).flatMap fun i => (List.range n).map fun j => dAt f i j)
            let s := arWrite s p.cid sl (sv64 b 0x60 + 4096 + 8 * n * k) (patBytes 8 work) false
            match sol with
            | none => (arWrite s p.cid sl (sv64 b 0x70 + k) [BitVec.ofNat 8 6] false, bad + 1)
            | some sv =>
              let x := sv ((bv.drop (n * k)).take n)
              let s := wr s (sv64 b 0x40 + 8 * n * k) x
              let s := ((dbs.zip das).zipIdx).foldl (fun s q =>
                let da := blk q.1.2.1.toArray k
                let row (i : Nat) := if tr then (List.range n).map fun j => dAt da j i else (List.range n).map fun j => dAt da i j
                let rhs := (List.range n).map fun i => scal (numSub false (q.1.1.1.getD (n * k + i) numZero) (dotX (row i) x))
                wr s (sv64 b 0x50 + q.2 * sv64 b 0x78 + 8 * n * k)
                  (if rhs.all numIsZero then List.replicate n numZero else sv rhs)) s
              (arWrite s p.cid sl (sv64 b 0x70 + k) [0] false, bad)
          let (s, bad) := (List.range nb).foldl step (s, 0)
          match solveOf s id with
          | none => s
          | some v =>
            let s := setSolve s id { v with blockFail := bad }
            solveEnd s id (if bad = 0 then stOK else stBREAKDOWN) (if bad = 0 then 0 else 6)

/-! ### The boundary checks and the outer loop (R222, R226) -/

/-- R226: the budget and deadline checks of a boundary, convergence apart: the cause of SOLVE_DEADLINE. -/
def boundaryFail (v : Solve) : Option Nat :=
  if svBudget v.desc ≤ v.inner then some 1
  else if svDeadV v.desc && v.late then some 3
  else none

/-- The inner arithmetic of a solve. -/
def solveInM (e : SEnv) (v : Solve) : InM :=
  { f64 := v.fell, fmt := svInner v.desc, lb := (List.range 8).map (svLB v.desc), flush := e.flush }

/-- R223: the state at the start of an inner solve. -/
def kryStart (v : Solve) (m : InM) (a : RdAcc) (rhat : List Num) : RdAcc × Kry :=
  let b := v.desc
  let n := rhat.length
  let (a, res) := rdV m 2 a rhat
  let rn := norm2 rhat
  let tol := scal (numMul (dF64 (sv64 b 0x98)) rn)
  let k : Kry := { rhat := rhat, tol := tol, d := List.replicate n numZero, res := res }
  match svMethod b with
  | 0 =>
    let (a, z) := precApply v m a res
    let (a, p) := rdV m 3 a z
    (a, { k with p := p, rho := dot res z })
  | 1 =>
    let (a, p) := rdV m 3 a res
    (a, { k with p := p, shadow := res, rho := dot res res })
  | _ =>
    let beta := norm2 res
    let (a, v0) := rdV m 6 a (res.map fun x => numDiv x beta)
    (a, { k with basis := [v0], g := [beta], done := numIsZero beta })

/-- R219: what an operand out of range does: the solve ends, or its inner solve restarts in F64. -/
def rangeHit (s : State) (e : SEnv) (v : Solve) (o : Nat) (redo : State → Solve → State) : State :=
  let s := prsSet s e.sl 2
  if svFallback v.desc && !v.fell then
    let s := prsSet s e.sl 4
    redo s { v with fell := true, fallAt := v.outer, kry := none }
  else solveEnd (setSolve s e.id v) e.id stRANGE o

/-- Begins the inner solve of the present outer iteration (R217, R222). -/
def innerBegin (s : State) (e : SEnv) (v : Solve) (r : List Num) : State :=
  let rhat := r.map fun x => numScale x (-v.sigma)
  let go (v : Solve) : Solve × Option Nat :=
    let m := solveInM e v
    let (a, _) := innerVals s e.p.cid e.sl v.desc m { obs := v.obs } (readMat s e.p.cid e.sl e.flush v.desc 0).vals
    let (a, k) := kryStart v m a rhat
    ({ v with obs := a.obs, kry := some k }, a.bad)
  let (v1, bad) := go v
  match bad with
  | none => setSolve s e.id v1
  | some o => rangeHit s e { v1 with kry := none } o fun s v => setSolve s e.id (go v).1

/-- R231: begins the tangent after system `v.sys`, or ends the solve. A right-hand side of zero gives +0 with no iteration. -/
def nextTangent (s : State) (e : SEnv) (xp : List Num) : Nat → Solve → State
  | 0, v => solveEnd (setSolve s e.id v) e.id stOK 0
  | fuel + 1, v =>
    let b := v.desc
    let t := v.sys + 1
    if svTang b < t then solveEnd (setSolve s e.id v) e.id stOK 0
    else
      let n := svN b
      let (db, dpo, dfl) := if sv64 b 0x48 = 0 then (List.replicate n numZero, false, false)
        else arF64 s e.p.cid e.sl e.flush (sv64 b 0x48 + (t - 1) * sv64 b 0x78) n
      let m := readMat s e.p.cid e.sl e.flush b t
      let rhs := ((db.zip (matMul m.pat m.vals xp)).map fun p => scal (numSub false p.1 p.2))
      let s := prsSet s e.sl ((if dfl || m.flushed then 1 else 0) + (if dpo || m.poison then 8 else 0))
      let v := { v with sys := t, rhs := rhs, x := List.replicate n numZero, nouter := 0, kry := none
                        poison := v.poison || dpo || m.poison }
      if rhs.all numIsZero then
        let s := solveWriteX s e v v.x
        nextTangent s e xp fuel { v with trn := v.trn ++ [numZero] }
      else setSolve s e.id v

/-- R222: the present system has converged: its solution is written, and the next tangent begins. -/
def sysConverged (s : State) (e : SEnv) (v : Solve) : State :=
  let s := solveWriteX s e v v.x
  if v.sys = 0 then nextTangent s e v.x 5 v
  else
    -- the primal solution is read again from X
    let (xp, _, _) := arF64 s e.p.cid e.sl e.flush (sv64 v.desc 0x40) (svN v.desc)
    nextTangent s e xp 5 v

/-- R222, R226: the outer boundary: residual, checks, and the start of the inner solve. -/
def outerCheck (s : State) (e : SEnv) (v : Solve) : State :=
  let b := v.desc
  let m := readMat s e.p.cid e.sl e.flush b 0
  let s := prsSet s e.sl ((if m.flushed then 1 else 0) + (if m.poison then 8 else 0))
  let v := { v with poison := v.poison || m.poison }
  if !m.ok then solveEnd (setSolve s e.id v) e.id stMATRIX 0
  else
    let r := (v.rhs.zip (matMul m.pat m.vals v.x)).map fun p => dF64 (encNum .f64 0 .rne e.flush 0 (numSub false p.1 p.2)).pat
    let rn := norm2 r
    let thr := numMax (scal (numMul (dF64 (sv64 b 0x88)) (norm2 v.rhs))) (dF64 (sv64 b 0x90))
    let v := if v.sys = 0 then { v with rnorm := rn } else { v with trn := v.trn.take (v.sys - 1) ++ [rn] }
    if r.any fun x => !numIsFin x then solveEnd (setSolve s e.id v) e.id stBREAKDOWN 5
    else if numLe rn thr || r.all numIsZero then sysConverged s e v
    else if svOuterMax b ≤ v.nouter then solveEnd (setSolve s e.id v) e.id stDEADLINE 2
    else
      match boundaryFail v with
      | some c => solveEnd (setSolve s e.id v) e.id stDEADLINE c
      | none =>
        let big := normInf r
        innerBegin s e { v with sigma := obsOf big } r

/-- R222: x := round(x + 2^σ d), one rounding; the iterate is written. -/
def outerApply (s : State) (e : SEnv) (v : Solve) (k : Kry) : State × Solve :=
  let x := (v.x.zip k.d).map fun p => dF64 (encNum .f64 0 .rne e.flush 0 (numAdd false p.1 (numScale p.2 v.sigma))).pat
  let v := { v with x := x, kry := none, nouter := v.nouter + 1, outer := v.outer + 1 }
  (solveWriteX s e v x, v)

/-- OUTER_ITERATION's effect. -/
def outerStep (s : State) (id : Nat) : State :=
  match solveEnv s id with
  | none => s
  | some e =>
    match e.v.kry with
    | none => outerCheck s e e.v
    | some k =>
      if k.done then
        let (s, v) := outerApply s e e.v k
        outerCheck s e v
      else s

/-! ### Inner iterations (R223, R225) -/

/-- What an inner iteration gives: what rounding saw, the new state, a breakdown. -/
structure InnerRes where
  a : RdAcc
  k : Kry
  brk : Option Nat := none

/-- R223: a CG iteration. -/
def cgStep (v : Solve) (m : InM) (a : RdAcc) (pat : List (List (Nat × Nat))) (vals : Array Num) (k : Kry) : InnerRes :=
  let (a, q) := rdV m 4 a (matMul pat vals k.p)
  let pq := dot k.p q
  if numLe pq numZero then { a := a, k := k, brk := some 1 }
  else
    let alpha := scal (numDiv k.rho pq)
    let (a, d) := rdV m 1 a (axpy alpha k.d k.p)
    let (a, res) := rdV m 2 a (axpy (numNegate alpha) k.res q)
    let (a, z) := precApply v m a res
    let rho := dot res z
    let beta := scal (numDiv rho k.rho)
    let (a, p) := rdV m 3 a (axpy beta z k.p)
    { a := a, k := { k with d := d, res := res, p := p, rho := rho, alpha := alpha, done := numLe (norm2 res) k.tol } }

/-- R223: a BiCGSTAB iteration. -/
def bicgStep (v : Solve) (m : InM) (a : RdAcc) (pat : List (List (Nat × Nat))) (vals : Array Num) (k : Kry) : InnerRes :=
  if numIsZero k.rho then { a := a, k := k, brk := some 2 }
  else
    let (a, ph) := precApply v m a k.p
    let (a, vv) := rdV m 4 a (matMul pat vals ph)
    let sv := dot k.shadow vv
    if numIsZero sv then { a := a, k := k, brk := some 2 }
    else
      let alpha := scal (numDiv k.rho sv)
      let (a, ss) := rdV m 6 a (axpy (numNegate alpha) k.res vv)
      if ss.all numIsZero then
        let (a, d) := rdV m 1 a (axpy alpha k.d ph)
        { a := a, k := { k with d := d, res := ss, done := true } }
      else
        let (a, sh) := precApply v m a ss
        let (a, t) := rdV m 7 a (matMul pat vals sh)
        let tt := dot t t
        let omega := if numIsZero tt then numZero else scal (numDiv (dot t ss) tt)
        if numIsZero omega then { a := a, k := k, brk := some 3 }
        else
          let (a, d) := rdV m 1 a (axpy omega (axpy alpha k.d ph) sh)
          let (a, res) := rdV m 2 a (axpy (numNegate omega) ss t)
          let rho := dot k.shadow res
          let beta := scal (numDiv (numMul rho alpha) (numMul k.rho omega))
          let (a, p) := rdV m 3 a (axpy beta res (axpy (numNegate omega) k.p vv))
          { a := a, k := { k with d := d, res := res, p := p, v := vv, rho := rho, alpha := alpha, omega := omega
                                  done := numLe (norm2 res) k.tol } }

/-- R223: forms d at the end of a GMRES cycle of `j` columns: back-substitution, then the correction converted. -/
def gmresForm (v : Solve) (m : InM) (a : RdAcc) (k : Kry) (j : Nat) : RdAcc × List Num :=
  let y := (List.range j).reverse.foldl (fun (y : Array Num) i =>
    let num := ((List.range (j - i - 1)).map (· + i + 1)).foldl (fun t c =>
      numSub false t (numMul ((k.cols.getD c []).getD i numZero) (y.getD c numZero))) (k.g.getD i numZero)
    y.setIfInBounds i (scal (numDiv num ((k.cols.getD i []).getD i numZero)))) (Array.replicate j numZero)
  let n := k.d.length
  let u := (lincomb ((List.range j).map fun i => (y.getD i numZero, k.basis.getD i [])) n).map scal
  let (a, z) := precApply v m a u
  rdV m 1 a ((k.d.zip z).map fun p => scal (numAdd false p.1 p.2))

/-- R223: an Arnoldi step with its Givens rotation; the restart when the basis is full. -/
def gmresStep (v : Solve) (m : InM) (a : RdAcc) (pat : List (List (Nat × Nat))) (vals : Array Num) (k : Kry) : InnerRes :=
  let j := k.cols.length
  let vj := k.basis.getD j []
  let (a, z) := precApply v m a vj
  let (a, q) := rdV m 4 a (matMul pat vals z)
  let (a, w0) := rdV m 7 a q
  let (a, w, hs) := ((List.range (j + 1)).map fun i => k.basis.getD i []).foldl (fun (t : RdAcc × List Num × List Num) vi =>
    let h := dot t.2.1 vi
    let (a, w) := rdV m 7 t.1 (axpy (numNegate h) t.2.1 vi)
    (a, w, t.2.2 ++ [h])) (a, w0, [])
  let hn := norm2 w
  -- the earlier rotations, then the new one
  let col := (k.rots.zipIdx).foldl (fun (c : List Num) r =>
    let x := c.getD r.2 numZero
    let y := c.getD (r.2 + 1) numZero
    (c.set r.2 (scal (numAdd false (numMul r.1.1 x) (numMul r.1.2 y)))).set (r.2 + 1)
      (scal (numSub false (numMul r.1.1 y) (numMul r.1.2 x)))) hs
  let x := col.getD j numZero
  let hyp := numSqrt (numAdd false (numMul x x) (numMul hn hn))
  let (c, sn) := if numIsZero hn then (numInt 1, numZero) else (scal (numDiv x hyp), scal (numDiv hn hyp))
  let col := col.set j (if numIsZero hn then x else scal hyp)
  let gj := k.g.getD j numZero
  let g := k.g.set j (scal (numMul c gj)) ++ [scal (numNegate (numMul sn gj))]
  let k := { k with cols := k.cols ++ [col], rots := k.rots ++ [(c, sn)], g := g }
  let small := numIsZero hn || numLe (numAbs (g.getD (j + 1) numZero)) k.tol
  if small then
    let (a, d) := gmresForm v m a k (j + 1)
    { a := a, k := { k with d := d, done := true } }
  else if svM v.desc ≤ j + 1 then
    let (a, d) := gmresForm v m a k (j + 1)
    let (a, res) := rdV m 2 a ((k.rhat.zip (matMul pat vals d)).map fun p => numSub false p.1 p.2)
    let beta := norm2 res
    if numIsZero beta then { a := a, k := { k with d := d, res := res, done := true } }
    else
      let (a, v0) := rdV m 6 a (res.map fun x => numDiv x beta)
      { a := a, k := { k with d := d, res := res, basis := [v0], cols := [], rots := [], g := [beta] } }
  else
    let (a, v1) := rdV m 6 a (w.map fun x => numDiv x hn)
    { a := a, k := { k with basis := k.basis ++ [v1] } }

/-- R219: the inner solve of the present outer iteration again from d = 0, in F64. -/
def innerRedo (s : State) (e : SEnv) (rhat : List Num) (v : Solve) : State :=
  let m := solveInM e v
  let (a, k) := kryStart v m { obs := v.obs } rhat
  setSolve s e.id { v with obs := a.obs, kry := some k }

/-- INNER_ITERATION's effect: one iteration, then the checks of the boundary (R226). -/
def innerStep (s : State) (id : Nat) (fault : Bool) : State :=
  match solveEnv s id with
  | none => s
  | some e =>
    match e.v.kry with
    | none => s
    | some k =>
      if k.done then s
      else if fault then prsRelease (unitFault s e.sl 16 0x05 id) e.sl
      else
        let v := e.v
        let m := solveInM e v
        let mat := readMat s e.p.cid e.sl e.flush v.desc 0
        let s := prsSet s e.sl ((if mat.flushed then 1 else 0) + (if mat.poison then 8 else 0))
        let (a, vals) := innerVals s e.p.cid e.sl v.desc m { obs := v.obs } mat.vals
        let r := match svMethod v.desc with
          | 0 => cgStep v m a mat.pat vals k
          | 1 => bicgStep v m a mat.pat vals k
          | _ => gmresStep v m a mat.pat vals k
        let v := { v with inner := v.inner + 1, obs := r.a.obs, poison := v.poison || mat.poison, kry := some r.k }
        match r.a.bad with
        | some o => rangeHit s e { v with kry := none } o fun s v => innerRedo s e k.rhat v
        | none =>
          match r.brk with
          | some c => solveEnd (setSolve s id v) id stBREAKDOWN c
          | none =>
            if r.k.done then setSolve s id v
            else
              match boundaryFail v with
              | some c => solveEnd (setSolve s id v) id stDEADLINE c
              | none => setSolve s id v

/-- R227: LC63 matches DEADLINE. -/
def deadlineMatch (s : State) (id : Nat) : State :=
  match solveOf s id with
  | some v => if svDeadV v.desc && decide (sv64 v.desc 0xA8 ≤ s.tense.toNat) then setSolve s id { v with late := true } else s
  | none => s

/-! ### The commands -/

/-- SOLVE_CG (R223). -/
def execSolveCg (id : Nat) (s : State) : Res := ran s (krylovStart s id 0)
/-- SOLVE_BICGSTAB (R223). -/
def execSolveBicgstab (id : Nat) (s : State) : Res := ran s (krylovStart s id 1)
/-- SOLVE_GMRES (R223). -/
def execSolveGmres (id : Nat) (s : State) : Res := ran s (krylovStart s id 2)
/-- SOLVE_LU (R212). -/
def execSolveLu (id : Nat) (s : State) : Res := ran s (denseRun s id 3)
/-- SOLVE_CHOLESKY (R212). -/
def execSolveCholesky (id : Nat) (s : State) : Res := ran s (denseRun s id 4)
/-- SOLVE_QR (R212). -/
def execSolveQr (id : Nat) (s : State) : Res := ran s (denseRun s id 5)
/-- SOLVE_DEADLINE_MATCH (R227). -/
def execSolveDeadlineMatch (id now : Nat) (s : State) : Res := ran s (deadlineMatch (atTime s now) id)
/-- OUTER_ITERATION (R222, R231). -/
def execOuterIteration (id : Nat) (s : State) : Res := ran s (outerStep s id)
/-- INNER_ITERATION (R223, R226). `fault`: the Parser finds itself faulty (R593). -/
def execInnerIteration (id : Nat) (fault : Bool) (s : State) : Res := ran s (innerStep s id fault)

end Sys2Proof.Machine
end

