-- ==== Sys2Proof/Machine/Lexer.lean ====
section
/-! DEFINITION. Assemblies on a Lexer (spec/07_parser_and_lexer.md R238 to R246). -/

namespace Sys2Proof.Machine

/-- R234: COLOUR_CONFLICT. -/
def stCOLOUR : Nat := 0x34
/-- R234: PATTERN_MISS. -/
def stPATTERN : Nat := 0x35

/-- R238: a 64-bit field. -/
def lx64 (b : List Byte) (o : Nat) : Nat := bfield b o 8
/-- R238: NPE. -/
def lxNpe (b : List Byte) : Nat := bfield b 6 1
/-- R238: NELEM. -/
def lxNelem (b : List Byte) : Nat := bfield b 0x58 4
/-- R238: NCOLOUR. -/
def lxNcol (b : List Byte) : Nat := bfield b 4 2
/-- R238: TSTORE. -/
def lxTstore (b : List Byte) : Nat := bfield b 0xA8 1

/-- R238: a reserved or unused field that is not zero. -/
def lxRsv (s : State) (cid sl : Nat) (b : List Byte) : Bool :=
  let z (c : Bool) (o n : Nat) : Bool := c && bfield b o n != 0
  let m := lxMode b
  let t := lxTang b
  let grid := m == 0 || m == 3 || (m == 2 && lxTstore b == 3)
  let tpl := m == 0 || m == 3
  let csr := m == 1 || (m == 2 && lxTstore b == 0)
  let fx := (fmtFx (lxOfmt b)).isSome
  bits (lxFlags b) 15 5 != 0 || bits (bfield b 0x14 4) 31 27 != 0 || z true 0xA9 7 || (b.drop 0xC0).any (· != 0) ||
  [0x18, 0x20, 0x38, 0x40, 0x48, 0x50, 0x60, 0x68, 0x70, 0x78, 0x80, 0x88, 0x90, 0xA0, 0xB0].any (fun o => arRsv (lx64 b o)) ||
  z (m != 1) 4 2 || z (m != 1) 6 1 || z (!tpl) 7 1 || z (!grid) 8 12 || z (!grid) 0x14 4 || z (!tpl) 0x18 8 || z (!tpl) 0x20 8 ||
  z (!tpl) 0x28 8 || z (m != 0 || t == 0) 0x30 8 || z (!csr) 0x40 8 || z (!csr) 0x48 8 || z (m != 1) 0x50 8 || z (m != 1) 0x58 4 ||
  z (m != 2) 0x5C 4 || z (m != 1) 0x60 8 || z (m != 1) 0x68 8 || z (m != 2) 0x70 8 || z (tpl) 0x78 8 ||
  z (m == 0 || m == 2) 0x80 8 || z (m == 0 || m == 2) 0x88 8 || z (t == 0) 0x90 8 || z (t == 0) 0x98 8 || z (m != 2) 0xA8 1 ||
  z (!fx) 0xB0 8 || z (!fx || t == 0) 0xB8 8 || (decide (2 ≤ m) && t != 0) || (m == 2 && lxAccum b) || (!tpl && bfield b 1 1 / 16 != 0) ||
  (tpl && (readStencil s cid sl false b 0).es.any (·.rsv))

/-- R242: kernel runs: elements per run. -/
def lxQ (b : List Byte) : Nat := (2 ^ 40 - 1) / (lxNpe b * lxNpe b)

/-- R242: the kernel as a run of `n` elements from element `first`. -/
def kernelRun (s : State) (cid : Nat) (b : List Byte) (first n : Nat) : InfRun :=
  { readInfRun s cid (arAddr (lx64 b 0x68)) with
    length := n * lxNpe b * lxNpe b, kernel := true, kelems := lx64 b 0x50, knpe := lxNpe b, kfirst := first }

/-- R242, R199: the refusal of an element kernel. -/
def kernelErr (s : State) (cid : Nat) (b : List Byte) : Option Nat :=
  let a := lx64 b 0x68
  let k := cid / 8
  if !arSpad a then some stADDRESS
  else if !infHeadOk s k cid (arAddr a) then some stHEADER
  else
    let r := kernelRun s cid b 0 (min (lxNelem b) (lxQ b))
    if r.tang ≠ lxTang b then some stFORMAT else (infCheck s k r).map (·.1)

/-- R238 to R245: the allowed values. -/
def lxFormatOk (s : State) (cid sl : Nat) (b : List Byte) : Bool :=
  let m := lxMode b
  let o := bfield b 1 1 % 16
  let g := lxGrid b
  let gridOk := decide (1 ≤ g.nx) && decide (g.nx ≤ 65535) && decide (1 ≤ g.ny) && decide (g.ny ≤ 65535) && decide (1 ≤ g.nz) &&
    decide (g.nz ≤ 65535)
  decide (m ≤ 3) && (o == 0 || o == 1 || o == 14 || o == 15) && decide (lxTang b ≤ 4) &&
  (match m with
   | 1 => decide (1 ≤ lxNcol b) && decide (1 ≤ lxNpe b) && decide (lxNpe b ≤ 27) && decide (1 ≤ lxNelem b) &&
      decide (lxNelem b < 2 ^ 31) && lx64 b 0x80 == 0 && lx64 b 0x88 == 0
   | 2 => (lxTstore b == 0 || (lxTstore b == 3 && gridOk))
   | _ => gridOk && decide (1 ≤ bfield b 7 1) && decide (bfield b 7 1 ≤ 32) && decide (bfield b 1 1 / 16 ≤ 1) &&
      templateOk g.pmask (readStencil s cid sl false b 0).es) &&
  lx64 b 0xB8 % 8 == 0

/-- R208, R238: the areas of an assembly whose size the descriptor gives; those of a CSR target are checked at their first
elements. -/
def lxAreas (s : State) (cid sl : Nat) (b : List Byte) : List (Nat × Nat × Nat × Bool) :=
  let m := lxMode b
  let t := lxTang b
  let g := lxGrid b
  let w := valWidth (lxOfmt b)
  let fw := valWidth (lxFfmt b)
  let fx := (fmtFx (lxOfmt b)).isSome
  let tpl := m == 0 || m == 3
  let fmax := if tpl then (readStencil s cid sl false b 0).es.foldl (fun a e => max a e.field) 0 else 0
  let nout := match m with | 0 => g.points.length * g.cells | 3 => g.cells | 2 => if lxTstore b = 3 then g.points.length * g.cells else 1 | _ => 1
  (if tpl then
    [(lx64 b 0x18, 16 * bfield b 7 1, 64, false),
     (lx64 b 0x20, fmax * lx64 b 0x28 + (if m = 0 then t else 0) * lx64 b 0x30 + fw * g.cells, 8, false)] else []) ++
  [(lx64 b 0x38, (if m = 3 then fmax * lx64 b 0x28 else 0) + w * nout, 8, true)] ++
  (if m = 3 then [(lx64 b 0x80, 8 * g.cells, 8, false), (lx64 b 0x88, 8 * g.cells, 8, false)] else []) ++
  (if m = 1 ∨ (m = 2 ∧ lxTstore b = 0) then [(lx64 b 0x40, 16, 8, false), (lx64 b 0x48, 4, 8, false)] else []) ++
  (if m = 1 then [(lx64 b 0x50, 4 * lxNelem b * lxNpe b, 8, false), (lx64 b 0x60, 4 * (lxNcol b + 1), 8, false)] else []) ++
  (if m = 2 then [(lx64 b 0x70, 24 * bfield b 0x5C 4, 8, false)] else []) ++
  (if m = 1 ∨ m = 2 then [(lx64 b 0x78, 8, 8, true)] else []) ++
  (if t = 0 then [] else [(lx64 b 0x90, (t - 1) * lx64 b 0x98 + w * nout, 8, true)]) ++
  (if fx then [(lx64 b 0xB0, t * lx64 b 0xB8 + 2 * ((nout + 255) / 256), 8, false)] else []) ++
  [(lx64 b 0xA0, 64, 64, true)]

/-- R238 to R245: the refusal of an assembly descriptor, if any. -/
def lxCheck (s : State) (cid sl : Nat) (b : List Byte) : Option Nat :=
  if lxMode b ≤ 3 ∧ lxRsv s cid sl b then some stRESERVED
  else if !lxFormatOk s cid sl b then some stFORMAT
  else
    match areasErr s cid sl (lxAreas s cid sl b) with
    | some e => some e
    | none => if lxMode b = 1 then kernelErr s cid b else none

/-! ### Assemblies -/

/-- An assembly record that exists. -/
def asmOf (s : State) (id : Nat) : Option Asm := mapFind s.asms id
/-- Puts an assembly record. -/
def setAsm (s : State) (id : Nat) (v : Asm) : State := { s with asms := mapIns s.asms id v }

/-- R237: sets LEX_STATUS bits. -/
def lexSet (s : State) (sl m : Nat) : State :=
  if m = 0 then s else regSet s (aLEX_STATUS sl) (regGet s (aLEX_STATUS sl) ||| m)

/-- R291: the Lexers that may take an assembly. -/
def lexFree (s : State) (k : Nat) : List Nat :=
  (partSlices s k).filter fun sl => computeOn s sl && (mapFind s.lexers sl).isNone && !unitDown s sl 17

/-- R290, R292, R243: places an assembly that has no Lexer: on one free Lexer, the lowest. -/
def lexPlace (s : State) (id : Nat) : State :=
  match progOf s id, asmOf s id with
  | some p, some _ =>
    if p.kind != .assembly || p.unit.isSome || p.ended.isSome || p.abort || (runOf s p.cid).st != .running || !(ctxOf s p.cid).live then s
    else
      let free := lexFree s (p.cid / 8)
      let target : Option Nat := match p.issue.mtarget with
        | some (sl, _) => if (mapFind s.lexers sl).isNone then some sl else none
        | none => if free.length ≤ (waitingBefore s id p).length then none else nearUnit none 1 free
      match target with
      | none => s
      | some sl =>
        let s := updProg s id fun p => { p with unit := some sl }
        let s := { s with lexers := mapIns s.lexers sl id }
        let s := setFld s (aLEX_MODE sl) 0 0 (bits (ctxOf s p.cid).emode 2 2)
        setBitOf s (aLEX_STATUS sl) 8
  | _, _ => s

/-- Frees the Lexer of an assembly. -/
def lexRelease (s : State) (sl : Nat) : State := clrBitOf { s with lexers := mapDel s.lexers sl } (aLEX_STATUS sl) 8

/-- An assembly under way: its Lexer's slice and LEX_MODE. -/
structure LEnv where
  id : Nat
  p : Prog
  v : Asm
  sl : Nat
  flush : Bool

/-- The assembly of a mode that a command acts on; `fresh`: it has not started. -/
def asmEnv (s : State) (id mode : Nat) (fresh : Bool) : Option LEnv :=
  match progOf s id, asmOf s id with
  | some p, some v =>
    match p.unit with
    | some sl =>
      if p.kind == .assembly && p.ended.isNone && v.started != fresh && lxMode v.desc == mode && ctxRunning s p.cid then
        some { id := id, p := p, v := v, sl := sl, flush := bit (ctxOf s p.cid).emode 2 }
      else none
    | none => none
  | _, _ => none

/-- R246: the result record. -/
def asmResult (v : Asm) (status : Nat) : List Byte :=
  natLe 1 status ++ natLe 3 0 ++ natLe 4 v.done ++ natLe 4 v.elem ++ natLe 4 v.skip ++ natLe 8 v.written ++ List.replicate 40 0

/-- R246: ends an assembly with its result record. -/
def asmEnd (s : State) (e : LEnv) (v : Asm) (status : Nat) : State :=
  let st := if status = stOK ∧ v.poison then stPOISONED else status
  let s := setAsm s e.id { v with contribs := [] }
  let s := arWrite s e.p.cid e.sl (lx64 v.desc 0xA0) (asmResult v st) false
  let s := updProg s e.id fun p => { p with ended := some ⟨st, 0, 0⟩ }
  lexRelease s e.sl

/-- Notes poison and flushes in LEX_STATUS. -/
def lexNote (s : State) (e : LEnv) (poison flushed : Bool) : State :=
  lexSet s e.sl ((if flushed then 1 else 0) + (if poison then 8 else 0))

/-! ### STENCIL and ADJ (R240, R241, R245) -/

/-- Existing values plus new ones, rounded once, under ACCUM. -/
def accumInto (s : State) (e : LEnv) (es : List Nat) (a : Nat) (cs : List Cvt) : List Cvt × Bool × Bool :=
  let f := lxOfmt e.v.desc
  if lxAccum e.v.desc then
    let (old, po) := arNats s e.p.cid e.sl a (valWidth f) cs.length
    let r := ((cs.zip old).zipIdx).map fun q =>
      let E := sext 16 (es.getD (q.2 / 256) 0)
      let (x, fl) := readFlush f E e.flush q.1.2
      let c := encNum f E .rne e.flush 0 (numAdd false x (decNum f E q.1.1.pat))
      ({ c with range := c.range || q.1.1.range, flushed := c.flushed || fl || q.1.1.flushed } : Cvt)
    (r, po, r.any (·.flushed))
  else (cs, false, cs.any (·.flushed))

/-- Is a range outcome one that ends the assembly: only FX output raises it (R240). -/
def lxRange (b : List Byte) (cs : List Cvt) : Bool := (fmtFx (lxOfmt b)).isSome && cs.any (·.range)

/-- Writes one array of a STENCIL or ADJ assembly: none where the assembly has ended. -/
def asmArray (s : State) (e : LEnv) (v : Asm) (es : List Nat) (a : Nat) (cs : List Cvt) : Except State (State × Asm) :=
  if !lxExpsOk es then .error (asmEnd s e v stFORMAT)
  else
    let (cs, po, fl) := accumInto s e es a cs
    let v := { v with poison := v.poison || po }
    if lxRange v.desc cs then .error (asmEnd (lexNote s e po fl) e v stRANGE)
    else
      let s := lexNote s e v.poison fl
      let s := arWrite s e.p.cid e.sl a (patBytes (valWidth (lxOfmt v.desc)) (cs.map (·.pat))) v.poison
      .ok (s, { v with written := v.written + cs.length })

/-- R240, R241: the whole of a STENCIL assembly. -/
def stencilRun (s : State) (e : LEnv) : State :=
  let b := e.v.desc
  let T := lxTang b
  let st := readStencil s e.p.cid e.sl e.flush b T
  let n := st.g.points.length * st.g.cells
  let s := lexNote s e st.poison st.flushed
  let v := { e.v with started := true, poison := st.poison }
  match (List.range (T + 1)).foldl (fun (r : Except State (State × Asm)) t =>
      match r with
      | .error s => .error s
      | .ok (s, v) =>
        let es := lxExps s e.p.cid e.sl b t n
        let a := if t = 0 then lx64 b 0x38 else lx64 b 0x90 + (t - 1) * lx64 b 0x98
        asmArray s e v es a (stencilArray s e.p.cid e.sl e.flush b st t)) (.ok (s, v)) with
  | .error s => s
  | .ok (s, v) => asmEnd s e v stOK

/-- R245: what row `i` adds to the gradients of a field: cell and exact term. -/
def adjRow (st : Stencil) (f : Nat) (lam xs : Array Num) (i : Nat) : List (Nat × Frac) :=
  let li := lam.getD i numZero
  let xi := xs.getD i numZero
  let diag := st.es.any fun t => t.comb == cmDIAGSUM
  st.es.flatMap fun t =>
    if t.field ≠ f then []
    else
      let (a, b, nb) := entryAB st t 0 i
      let (pa, pb) := entryDeriv t a b
      let own := match gridNb st.g i t.point with | some j => xs.getD j numZero | none => numZero
      -- the point's own coefficient times x, and its part in the diagonal's sum
      let k := if diag && t.point != 13 then numSub false own xi else own
      let k := numMul li k
      (i, fracMul pa k) :: (match nb with | some j => [(j, fracMul pb k)] | none => [])

/-- R245: the exact gradients of a field by cell. -/
def adjGrad (st : Stencil) (f : Nat) (lam xs : List Num) : List Num :=
  let la := lam.toArray
  let xa := xs.toArray
  let acc := (List.range st.g.cells).foldl (fun (g : Array Frac) i =>
    (adjRow st f la xa i).foldl (fun g q => g.modify q.1 fun t => fracAdd t q.2) g)
    (Array.replicate st.g.cells (fracOf numZero))
  acc.toList.map fun t => fracVal (fracNeg t)

/-- R245: the whole of an ADJ assembly. -/
def adjRun (s : State) (e : LEnv) : State :=
  let b := e.v.desc
  let st := readStencil s e.p.cid e.sl e.flush b 0
  let n := st.g.cells
  let (lam, p1, f1) := arF64 s e.p.cid e.sl e.flush (lx64 b 0x80) n
  let (xs, p2, f2) := arF64 s e.p.cid e.sl e.flush (lx64 b 0x88) n
  let po := st.poison || p1 || p2
  let s := lexNote s e po (st.flushed || f1 || f2)
  let es := lxExps s e.p.cid e.sl b 0 n
  match st.fields.foldl (fun (r : Except State (State × Asm)) f =>
      match r with
      | .error s => .error s
      | .ok (s, v) =>
        asmArray s e v es (lx64 b 0x38 + f.1 * lx64 b 0x28)
          (((adjGrad st f.1 lam xs).zipIdx).map fun g => lxEnc (lxOfmt b) e.flush es g.2 g.1))
      (.ok (s, { e.v with started := true, poison := po })) with
  | .error s => s
  | .ok (s, v) => asmEnd s e v stOK

/-! ### ELEMENTS (R242, R243) -/

/-- What a command answers, as a state: the machine goes on from it. -/
def resState (s : State) (r : Res) : State := match r with | .next t => t | _ => s

/-- One micro-operation of a kernel, by opcode (R178). -/
def kernelUop (s : State) (inf op : Nat) : State :=
  resState s (match op with
    | 0x01 => execInfLd inf s | 0x02 => execInfLdi inf s | 0x03 => execInfSt inf s | 0x04 => execInfSti inf s
    | 0x05 => execInfLdk inf s | 0x06 => execInfMov inf s | 0x07 => execInfLane inf s | 0x08 => execInfFadd inf s
    | 0x09 => execInfFsub inf s | 0x0A => execInfFmul inf s | 0x0B => execInfFdiv inf s | 0x0C => execInfFma inf s
    | 0x0D => execInfFsqrt inf s | 0x0E => execInfRsqrt inf s | 0x0F => execInfFmin inf s | 0x10 => execInfFmax inf s
    | 0x11 => execInfFabs inf s | 0x12 => execInfFneg inf s | 0x13 => execInfExp2 inf s | 0x14 => execInfLog2 inf s
    | 0x15 => execInfExp inf s | 0x16 => execInfLog inf s | 0x17 => execInfTanh inf s | 0x18 => execInfSigmoid inf s
    | 0x19 => execInfGelu inf s | 0x1A => execInfSilu inf s | 0x1B => execInfSoftplus inf s | 0x1C => execInfSin inf s
    | 0x1D => execInfCos inf s | 0x20 => execInfFcmplt inf s | 0x21 => execInfFcmple inf s | 0x22 => execInfFcmpeq inf s
    | 0x23 => execInfFisnan inf s | 0x24 => execInfSel inf s | 0x25 => execInfFtoi inf s | 0x26 => execInfItof inf s
    | 0x28 => execInfIadd inf s | 0x29 => execInfIsub inf s | 0x2A => execInfImul inf s | 0x2B => execInfAnd inf s
    | 0x2C => execInfOr inf s | 0x2D => execInfXor inf s | 0x2E => execInfShl inf s | 0x2F => execInfShr inf s
    | 0x30 => execInfSar inf s | 0x31 => execInfIcmplt inf s | 0x32 => execInfIcmpeq inf s | 0x33 => execInfUnpack inf s
    | 0x34 => execInfPack inf s | 0x36 => execInfShfl inf s | 0x38 => execInfRed inf s | 0x39 => execInfSmax inf s
    | 0x3A => execInfSmin inf s | 0x3B => execInfScnt inf s | 0x3C => execInfSor inf s | _ => execInfNop inf s)

/-- Runs `n` lane groups of a kernel. -/
def kernelGroups (id inf : Nat) (ops : List Nat) : Nat → State → State
  | 0, s => s
  | n + 1, s => kernelGroups id inf ops n (ops.foldl (fun s op => kernelUop s inf op) (infGroup s id false))

/-- R242: runs a kernel over a run of elements: what it gave, its status, and the state with what its channels and taps wrote.
The run borrows the record of an Inflector of the Lexer's slice, and gives it back as it was. -/
def kernelExec (s : State) (e : LEnv) (first n : Nat) : State × List (Nat × Nat × Num × List Num × Bool) × Nat :=
  let r := kernelRun s e.p.cid e.v.desc first n
  let inf := 2 * e.sl
  let id := s.nextProg
  let p : Prog := { e.p with kind := .element, unit := some inf, ended := none, abort := false, desc := none }
  let s1 := { s with progs := mapIns s.progs id p, infRuns := mapIns s.infRuns id r, infUnits := mapIns s.infUnits inf id }
  let s2 := kernelGroups id inf (r.ucode.map uOP) ((r.length + 31) / 32) s1
  let out := ((mapFind s2.infRuns id).map (·.kout)).getD []
  let st := match progOf s2 id with | some q => (match q.ended with | some x => x.status | none => stOK) | none => stOK
  ({ s2 with progs := s.progs, infRuns := s.infRuns, infUnits := s.infUnits, regs := s.regs }, out, st)

/-- R242: a node number of ELEMS. -/
def nodeAt (s : State) (e : LEnv) (el a : Nat) : Int :=
  sext 32 (leNat (arRead s e.p.cid e.sl (lx64 e.v.desc 0x50 + 4 * (el * lxNpe e.v.desc + a)) 4).1)

/-- R242: the contributions of a run, by element and then local row and column. -/
def runContribs (s : State) (e : LEnv) (first n nout : Nat) (out : List (Nat × Nat × Num × List Num × Bool)) : List Contrib :=
  let npe := lxNpe e.v.desc
  let T := lxTang e.v.desc
  let look (k i : Nat) : Num × List Num × Bool :=
    match out.find? fun o => o.1 == k && o.2.1 == i with
    | some o => (o.2.2.1, o.2.2.2.1, o.2.2.2.2)
    | none => (numZero, List.replicate T numZero, false)
  (List.range (n * npe * npe)).flatMap fun i =>
    let el := first + i / (npe * npe)
    let row := nodeAt s e el (i / npe % npe)
    let col := nodeAt s e el (i % npe)
    let mk (k : Nat) (rhs : Bool) : Contrib :=
      let (v, t, po) := look k i
      { elem := el, row := row, col := col, rhs := rhs, v := v, tan := t, poison := po }
    mk 0 false :: (if 2 ≤ nout ∧ i % npe = 0 then [mk 1 true] else [])

/-- R243: the position of entry (row, col) in the CSR pattern. -/
def csrFind (s : State) (e : LEnv) (row col : Int) : Option Nat :=
  if row < 0 ∨ col < 0 then none
  else
    let (p, _) := arNats s e.p.cid e.sl (lx64 e.v.desc 0x40 + 8 * row.toNat) 8 2
    let lo := p.getD 0 0
    let hi := p.getD 1 0
    let cols := (arNats s e.p.cid e.sl (lx64 e.v.desc 0x48 + 4 * lo) 4 (hi - lo)).1
    (cols.findIdx? fun c => c == col.toNat).map (lo + ·)

/-- A staged entry: element, to the right-hand side, position, contribution. -/
abbrev Staged := Nat × Bool × Nat × Contrib

/-- R243: stages the contributions of a colour: the first pattern miss or conflict in list order stops it. -/
def stageColour (s : State) (e : LEnv) (cs : List Contrib) : Except (Nat × Nat) (List Staged) :=
  (cs.foldl (fun (r : Except (Nat × Nat) (List Staged)) c =>
    match r with
    | .error x => .error x
    | .ok l =>
      match (if c.rhs then (if c.row < 0 then none else some c.row.toNat) else csrFind s e c.row c.col) with
      | none => .error (stPATTERN, c.elem)
      | some pos =>
        if l.any fun t => t.2.1 == c.rhs && t.2.2.1 == pos then .error (stCOLOUR, c.elem)
        else .ok ((c.elem, c.rhs, pos, c) :: l)) (.ok [])).map List.reverse

/-- R243: one value into the target: written, or read, added and rounded once. -/
def scatterOne (s : State) (e : LEnv) (first : Bool) (f : Fmt) (E : Int) (a : Nat) (x : Num) (po : Bool) : State × Bool × Bool :=
  let w := valWidth f
  let c := encNum f E .rne e.flush 0 x
  let (c, opo) : Cvt × Bool :=
    if first then (c, false)
    else
      let (bs, opo) := arRead s e.p.cid e.sl a w
      let (old, fl) := readFlush f E e.flush (leNat bs)
      let d := encNum f E .rne e.flush 0 (numAdd false old (decNum f E c.pat))
      ({ d with range := d.range || c.range, flushed := d.flushed || fl }, opo)
  if (fmtFx f).isSome && c.range then (s, true, false)
  else (lexNote (arWrite s e.p.cid e.sl a (natLe w c.pat) (po || opo)) e (po || opo) c.flushed, false, po || opo)

/-- R243: adds the staged entries of a colour into the targets. -/
def scatterColour (s : State) (e : LEnv) (v : Asm) (first : Bool) (l : List Staged) : Except State (State × Asm) :=
  let b := v.desc
  let f := lxOfmt b
  let w := valWidth f
  let expAt (s : State) (t pos : Nat) : Int :=
    if (fmtFx f).isSome then sext 16 (leNat (arRead s e.p.cid e.sl (lx64 b 0xB0 + t * lx64 b 0xB8 + 2 * (pos / 256)) 2).1) else 0
  l.foldl (fun r t =>
    match r with
    | .error s => .error s
    | .ok (s, v) =>
      let c := t.2.2.2
      let dests : List (Nat × Fmt × Int × Num) :=
        if t.2.1 then [(lx64 b 0x78 + 8 * t.2.2.1, .f64, 0, c.v)]
        else (lx64 b 0x38 + w * t.2.2.1, f, expAt s 0 t.2.2.1, c.v) ::
          (List.range (lxTang b)).map fun k =>
            (lx64 b 0x90 + k * lx64 b 0x98 + w * t.2.2.1, f, expAt s (k + 1) t.2.2.1, c.tan.getD k numZero)
      if dests.any fun d => (fmtFx d.2.1).isSome && (decide (d.2.2.1 < -1024) || decide (1024 < d.2.2.1)) then
        .error (asmEnd s e v stFORMAT)
      else
        let (s, rng, po) := dests.foldl (fun (a : State × Bool × Bool) d =>
          let (s, rg, p) := scatterOne a.1 e first d.2.1 d.2.2.1 d.1 d.2.2.2 c.poison
          (s, a.2.1 || rg, a.2.2 || p)) (s, false, false)
        let v := { v with poison := v.poison || po, written := v.written + dests.length }
        if rng then .error (asmEnd s e v stRANGE) else .ok (s, v)) (.ok (s, v))

/-- R243: runs colour `v.done`, and ends the assembly after the last. -/
def colourRun (s : State) (e : LEnv) (v : Asm) : State :=
  let b := v.desc
  let k := v.done
  let cs := (arNats s e.p.cid e.sl (lx64 b 0x60) 4 (lxNcol b + 1)).1
  let lo := cs.getD k 0
  let hi := cs.getD (k + 1) 0
  match stageColour s e (v.contribs.filter fun c => decide (lo ≤ c.elem) && decide (c.elem < hi)) with
  | .error (st, el) =>
    let s := if st = stCOLOUR then lexSet s e.sl 16 else s
    asmEnd s e { v with elem := el } st
  | .ok l =>
    match scatterColour s e v (k == 0 && !lxAccum b) l with
    | .error s => s
    | .ok (s, v) =>
      let v := { v with done := v.done + 1 }
      if v.done < lxNcol b then setAsm s e.id v else asmEnd s e v stOK

/-- R242, R243: an ELEMENTS assembly starts: its kernel runs, and colour 0 is added. -/
def elementsRun (s : State) (e : LEnv) : State :=
  let b := e.v.desc
  let n := lxNelem b
  let q := lxQ b
  let runs := (List.range ((n + q - 1) / q)).map fun r => (r * q, min q (n - r * q))
  let nout := (kernelRun s e.p.cid b 0 1).nout
  let (s, cs, st) := runs.foldl (fun (a : State × List Contrib × Nat) r =>
    if a.2.2 ≠ stOK ∧ a.2.2 ≠ stPOISONED then a
    else
      let (s', out, st) := kernelExec a.1 e r.1 r.2
      (s', a.2.1 ++ runContribs a.1 e r.1 r.2 nout out, if st = stOK then a.2.2 else st)) (s, [], stOK)
  let v := { e.v with started := true, contribs := cs, poison := st == stPOISONED }
  if st = stOK ∨ st = stPOISONED then colourRun (lexNote s e (st == stPOISONED) false) e v
  else asmEnd s e v st

/-! ### MEASURE (R244) -/

/-- R244: the position of the diagonal entry of a row, where the target has it. -/
def measPos (s : State) (e : LEnv) (row : Nat) : Option Nat :=
  let b := e.v.desc
  if lxTstore b = 3 then
    let g := lxGrid b
    if row < g.cells then (g.points.findIdx? (· == 13)).map (· * g.cells + row) else none
  else
    match arReach s e.p.cid e.sl (lx64 b 0x40 + 8 * row) 16 false with
    | .ok => csrFind s e row row
    | _ => none

/-- R244: applies one measurement record. -/
def measOne (s : State) (e : LEnv) (v : Asm) (bs : List Byte) (po : Bool) : Except State (State × Asm) :=
  let b := v.desc
  let f := lxOfmt b
  match measPos s e (bfield bs 0 4) with
  | none => .ok (s, { v with skip := v.skip + 1 })
  | some pos =>
    let E : Int := if (fmtFx f).isSome then sext 16 (leNat (arRead s e.p.cid e.sl (lx64 b 0xB0 + 2 * (pos / 256)) 2).1) else 0
    if (fmtFx f).isSome && (decide (E < -1024) || decide (1024 < E)) then .error (asmEnd s e v stFORMAT)
    else
      let (d, f1) := readFlush .f64 0 e.flush (bfield bs 8 8)
      let (r, f2) := readFlush .f64 0 e.flush (bfield bs 0x10 8)
      -- each addition is rounded once: the old value plus the exact DIAG or RHSV
      let addTo (s : State) (f : Fmt) (E : Int) (a : Nat) (x : Num) : State × Bool × Bool :=
        let w := valWidth f
        let (ob, opo) := arRead s e.p.cid e.sl a w
        let (old, fl) := readFlush f E e.flush (leNat ob)
        let c := encNum f E .rne e.flush 0 (numAdd false old x)
        if (fmtFx f).isSome && c.range then (s, true, false)
        else (lexNote (arWrite s e.p.cid e.sl a (natLe w c.pat) (po || opo)) e (po || opo) (fl || f1 || f2 || c.flushed), false, po || opo)
      let (s, r1, p1) := addTo s f E (lx64 b 0x38 + valWidth f * pos) d
      if r1 then .error (asmEnd s e v stRANGE)
      else
        let (s, _, p2) := addTo s .f64 0 (lx64 b 0x78 + 8 * bfield bs 0 4) r
        .ok (s, { v with written := v.written + 2, poison := v.poison || p1 || p2 })

/-- R244: the whole of a MEASURE assembly, in stream order. -/
def measureRun (s : State) (e : LEnv) : State :=
  let b := e.v.desc
  match (List.range (bfield b 0x5C 4)).foldl (fun (r : Except State (State × Asm)) i =>
      match r with
      | .error s => .error s
      | .ok (s, v) =>
        let (bs, po) := arRead s e.p.cid e.sl (lx64 b 0x70 + 24 * i) 24
        measOne s e v bs po) (.ok (s, { e.v with started := true })) with
  | .error s => s
  | .ok (s, v) => asmEnd s e v stOK

/-- Places an assembly of a mode that has not started and runs `f` on it. -/
def asmStart (s : State) (id mode : Nat) (f : State → LEnv → State) : State :=
  match asmOf s id with
  | none => s
  | some v =>
    if lxMode v.desc ≠ mode ∨ v.started then s
    else
      let s := lexPlace s id
      match asmEnv s id mode true with
      | some e => f s e
      | none => s

/-! ### The commands -/

/-- ASSEMBLE_STENCIL (R240, R241). -/
def execAssembleStencil (id : Nat) (s : State) : Res := ran s (asmStart s id 0 stencilRun)
/-- ASSEMBLE_ELEMENTS (R242, R243). -/
def execAssembleElements (id : Nat) (s : State) : Res := ran s (asmStart s id 1 elementsRun)
/-- COLOUR_BOUNDARY (R243): every write of the colour is accepted, and the next colour begins. -/
def execColourBoundary (id : Nat) (s : State) : Res :=
  ran s (match asmEnv s id 1 false with
    | some e => colourRun s e e.v
    | none => s)
/-- ASSEMBLE_MEASURE (R244). -/
def execAssembleMeasure (id : Nat) (s : State) : Res := ran s (asmStart s id 2 measureRun)
/-- ASSEMBLE_ADJ (R245). -/
def execAssembleAdj (id : Nat) (s : State) : Res := ran s (asmStart s id 3 adjRun)

end Sys2Proof.Machine
end

