-- ==== Sys2Proof/Machine/Tile.lean ====
section
/-! DEFINITION. The tile instructions (spec/04_tile_programs.md R118 to R137), the load, convert, store and synchronisation
links, with the bindings of compounds (spec/05_compounds.md R155 to R168). -/

namespace Sys2Proof.Machine

/-- R118: the tile tensor of TA. -/
def envTA (s : State) (e : TEnv) : TDesc := readTDesc s e.p (inTA e.i)

/-! ### Loads (R126, R127, R128) -/

/-- R126: LD.ACC on one tangent: values converted to FMT_ACC, and the outcomes. -/
def ldTile (s : State) (e : TEnv) (t : Nat) : List (List Cvt) × Nat :=
  let d := envTA s e
  let flush := envFlush s e
  let f := inACC e.i
  let seed := (ctxOf s e.p.cid).seed
  let step := (runOf s e.p.cid).step
  let rnd := (rndOf (inRND e.i)).getD .rne
  let one (r c : Nat) : Cvt × Nat :=
    if t ≠ 0 ∧ tdTang d = 0 then ({ pat := 0 }, 0)
    else
      match (if tdOn d bnGATHER then gatherRow s e.p.cid d (inI0 e.i + r) else some (inI0 e.i + r)) with
      | none => ({ pat := 0 }, tsPOISON)
      | some row =>
        let col := inJ0 e.i + c
        let (x, _) := prologue s e.p.cid flush (inFA e.i) d t row col col
        let u := srBits seed step (d.tid % 2 ^ 29 + t * 2 ^ 29) (row * d.cols + col)
        let cv := encNum f 0 rnd flush u x.x
        (cv, tsOfCvt f { cv with saturated := false } ||| (if x.poison || x.off then tsPOISON else 0) |||
          (if x.flushed then tsFLUSH else 0) ||| (if x.off then 2 ^ 8 else 0))
  let m := (List.range (inRows e.i)).map fun r => (List.range (inCols e.i)).map fun c => one r c
  (m.map fun r => r.map (·.1), m.foldl (fun a r => r.foldl (fun a x => a ||| x.2) a) 0)

/-- Patterns of a tile of conversions. -/
def cvtPats (m : List (List Cvt)) : List (List Nat) := m.map fun r => r.map (·.pat)

/-- Writes a tile into a slot with a status that replaces the old one (R95, R126, R127). -/
def loadSlot (s : State) (id v : Nat) (g : SlotGeom) (f : Fmt) (m : List (List Nat)) (ts : Nat) : State :=
  let s := updProg s id fun p => tswPut (putTile p g f m) g 0
  applyTs s id v g ts

/-- R126: LD.ACC. -/
def ldAccBody (s : State) (e : TEnv) : State :=
  let s := noteD s e.id e
  let f := inACC e.i
  let (s', off, poison) := (List.range (tangOf s e + 1)).foldl (fun (a : State × Bool × Bool) t =>
    let (m, ts) := ldTile s e t
    (loadSlot a.1 e.id e.c.verb (envSlot s e t) f (cvtPats m) (ts % 2 ^ 8), a.2.1 || bit ts 8, a.2.2 || bit ts 1)) (s, false, false)
  tileDone s' e.id e (markOf off false poison)

/-- R126: ZERO (DEDUCED, assumption log 32). -/
def zeroBody (s : State) (e : TEnv) : State :=
  let s := noteD s e.id e
  let f := inACC e.i
  let m := List.replicate (inRows e.i) (List.replicate (inCols e.i) 0)
  let s := (List.range (tangOf s e + 1)).foldl (fun s t =>
    let g := envSlot s e t
    updProg s e.id fun p => tswPut (putTile p g f m) g 0) s
  tileDone s e.id e stOK

/-- R127: TREE.COMB. `up`: an upset of the environment on the primal tile. -/
def treeCombBody (up : Option (Nat × Nat)) (s : State) (e : TEnv) : State :=
  let s := noteD s e.id e
  let f := inACC e.i
  let flush := envFlush s e
  let rows := inRows e.i
  let cols := inCols e.i
  let a := envTA s e
  let b := readTDesc s e.p (inTB e.i)
  let root := inOPF0 e.i
  let (s', off, chk, poison) := (List.range (tangOf s e + 1)).foldl (fun (z : State × Bool × Bool × Bool) t =>
    let g := envSlot s e t
    let ra := readTile s e.p.cid flush f a t 0 0 rows cols
    let rb := readTile s e.p.cid flush f b t 0 0 rows cols
    let m := foldTiles f flush ra.vals rb.vals
    let seeded := root && inTSEED e.i != 0xFFFF
    let sd := readTDesc s e.p (inTSEED e.i)
    let rs := if seeded then readTile s e.p.cid flush f sd t 0 0 rows cols else { ra with vals := [], poison := false, off := false, flushed := false }
    let m2 := if seeded then foldTiles f flush (cvtVals f m) rs.vals else m
    let pats := upsetTile cols (if t = 0 then up else none) (cvtPats m2)
    let ps := ra.poison || rb.poison || rs.poison || ra.off || rb.off || rs.off
    let ts := cvtTs f m ||| cvtTs f m2 ||| (if ps then tsPOISON else 0) |||
      (if ra.flushed || rb.flushed || rs.flushed then tsFLUSH else 0)
    let s1 := loadSlot z.1 e.id e.c.verb g f pats ts
    -- the strip checks the combination: the last rounded addition against its two inputs
    let out := pats.map fun r => r.map (decNum f 0)
    let s2 := if seeded then chkFold s1 e.id e.c.verb (inSLOT e.i) 0 g f 1 (cvtVals f m) rs.vals out
      else chkFold s1 e.id e.c.verb (inSLOT e.i) 0 g f 1 ra.vals rb.vals out
    let failed := match progOf s2 e.id with | some p => bit (tswGet p g) 2 | none => false
    let s2 := vrbPerf s2 e.c.verb 2 (rows * cols / 1024)
    (s2, z.2.1 || ra.off || rb.off || rs.off, z.2.2.1 || failed, z.2.2.2 || ps)) (s, false, false, false)
  tileDone s' e.id e (markOf off chk poison)

/-- R128: ACC.ADD. -/
def accAddBody (up : Option (Nat × Nat)) (s : State) (e : TEnv) : State :=
  let s := noteD s e.id e
  let f := inACC e.i
  let flush := envFlush s e
  let rows := inRows e.i
  let cols := inCols e.i
  let d := envTA s e
  let (s', off, chk, poison) := (List.range (tangOf s e + 1)).foldl (fun (z : State × Bool × Bool × Bool) t =>
    let g := envSlot s e t
    let rd := readTile s e.p.cid flush f d t (inI0 e.i) (inJ0 e.i) rows cols
    let b := if inOPF0 e.i then rd.vals.map fun r => r.map numNegate else rd.vals
    match progOf z.1 e.id with
    | none => z
    | some p =>
      let a := tileVals p g f rows cols
      let m := foldTiles f flush a b
      let pats := upsetTile cols (if t = 0 then up else none) (cvtPats m)
      let s1 := updProg z.1 e.id fun p => putTile p g f pats
      let ps := rd.poison || rd.off
      let s1 := applyTs s1 e.id e.c.verb g (cvtTs f m ||| (if ps then tsPOISON else 0) ||| (if rd.flushed then tsFLUSH else 0))
      let n := (s1.rseq, s1.rptLost)
      let s2 := chkFold s1 e.id e.c.verb (inSLOT e.i) 0 g f 1 a b (pats.map fun r => r.map (decNum f 0))
      let failed := decide (n ≠ (s2.rseq, s2.rptLost))
      (s2, z.2.1 || rd.off, z.2.2.1 || failed, z.2.2.2 || ps)) (s, false, false, false)
  tileDone s' e.id e (markOf off chk poison)

/-! ### Outputs (R129 to R132, R160, R161, R164) -/

/-- R164: the present quotient of a sweep's slot at (row, col) of tangent `t`; none where the slot is not the sweep's (DEDUCED, assumption log 32). -/
def sweepQuot (s : State) (e : TEnv) (t r c : Nat) : Option Num :=
  match e.c.swSlot with
  | none => none
  | some sl =>
    if sl ≠ inSLOT e.i then none
    else
      let row := e.c.rows.getD r {}
      let val (k : Nat) : Num := accVal e.p (envSlot s e k) (inACC e.i) r c
      if row.bad then some .nan
      else if numIsZero row.l then some numZero
      else if t = 0 then some (numDiv (val 0) row.l)
      else
        let dl := row.dl.getD (t - 1) numZero
        some (numDiv (numSub false (numMul (val t) row.l) (numMul (val 0) dl)) (numMul row.l row.l))

/-- R160, R164, R167: the exact value that an output link presents for element (r, c) of tangent `t`. -/
def presented (s : State) (e : TEnv) (d : TDesc) (t r c : Nat) : Num :=
  let raw (k : Nat) : Num := accVal e.p (envSlot s e k) (inACC e.i) r c
  let v (k : Nat) : Num := (sweepQuot s e k r c).getD (raw k)
  let act := tdB d (·.act)
  if act = 0 then v t
  else
    match actFn act with
    | none => v t
    | some f => if t = 0 then eVal f (v 0) else eTanVal f (v 0) (v t)

/-- A run of elements of one line (row or column of a tensor) to write. -/
structure LineOut where
  bitAt : Nat
  pats : List Nat
deriving DecidableEq, Repr

/-- R124: rows and columns of the tile that lie inside the destination's declared extent. -/
def insideDims (e : TEnv) (d : TDesc) : Nat × Nat :=
  (min (inRows e.i) (d.rows - inI0 e.i), min (inCols e.i) (d.cols - inJ0 e.i))

/-- Writes a tile of patterns (rows × columns inside the extent) at (I0, J0) of tangent `t` of a plain tensor. -/
def writeTile (s : State) (e : TEnv) (f : Fmt) (d : TDesc) (t : Nat) (m : List (List Nat)) (poison : Bool) : State :=
  let lines := if tdCol d then (List.range (m.headD []).length).map fun j => m.map fun r => r.getD j 0 else m
  (lines.zipIdx).foldl (fun s l =>
    let ba := if tdCol d then elemBit f d t (inI0 e.i) (inJ0 e.i + l.2) else elemBit f d t (inI0 e.i + l.2) (inJ0 e.i)
    writeRun s e.p.cid (envSlice e) ba (fmtWidth f) l.1 poison) s

/-- The byte ranges of a written tile, primal and tangents, for a continuation (R168, R417). -/
def tileRanges (e : TEnv) (f : Fmt) (d : TDesc) (tang rows cols : Nat) : List (Nat × Nat) :=
  (List.range (tang + 1)).flatMap fun t =>
    if tdCol d then (List.range cols).map fun j =>
      (elemBit f d t (inI0 e.i) (inJ0 e.i + j) / 8, plainBytes f rows)
    else (List.range rows).map fun r => (elemBit f d t (inI0 e.i + r) (inJ0 e.i) / 8, plainBytes f cols)

/-- R161: the 24-byte record of a row of written elements. -/
def rowStat (f : Fmt) (row : List Nat) : List Byte :=
  let xs := row.map (decNum f 0)
  let sS := numSum xs
  let sQ := numSum (xs.map fun x => numMul x x)
  let n := numInt xs.length
  let bad := xs.any fun x => !numIsFin x
  let mean := if bad then canonNan .f64 else eF64 (numDiv sS n)
  -- Q - S²/n = (nQ - S²)/n
  let m2 := if bad then canonNan .f64 else eF64 (numDiv (numSub false (numMul n sQ) (numMul sS sS)) n)
  natLe 4 xs.length ++ natLe 4 0 ++ natLe 8 mean ++ natLe 8 m2

/-- R168: notes a tile for its continuation. -/
def noteCont (s : State) (e : TEnv) (d : TDesc) (ranges : List (Nat × Nat)) (poison : Bool) : State :=
  if tdOn d bnCONTINUE then
    { s with contQ := s.contQ ++ [{ cid := e.p.cid, handle := tdB d (·.chandle), ranges := ranges, poison := poison }] }
  else s

/-- R58, R147: a flush by an output conversion. -/
def noteFlush (s : State) (e : TEnv) (fl : Bool) : State :=
  if fl then vrbSet (updProg s e.id fun p => { p with seen := p.seen ||| 1 }) e.c.verb 1 else s

/-- R129: CVT's conversions of tangent `t`, inside the declared extent. -/
def cvtTile (s : State) (e : TEnv) (d : TDesc) (t : Nat) : List (List (Num × Cvt)) :=
  let (nr, nc) := insideDims e d
  let seed := (ctxOf s e.p.cid).seed
  let step := (runOf s e.p.cid).step
  let rnd := (rndOf (inRND e.i)).getD .rne
  (List.range nr).map fun r => (List.range nc).map fun c =>
    let x := presented s e d t r c
    let u := srBits seed step (d.tid % 2 ^ 29 + t * 2 ^ 29) ((inI0 e.i + r) * d.cols + inJ0 e.i + c)
    (x, encNum (inOUT e.i) 0 rnd (envFlush s e) u x)

/-- R164, R165: the row function's outcome for one row: new row state, weights, and the tangents' weights. -/
structure RowFn where
  st : SweepRow
  p : List Cvt
  dp : List (List Cvt)
deriving DecidableEq, Repr

/-- R165: is key `k` of row `i` masked. -/
def keyMasked (d : TDesc) (row k : Nat) : Bool :=
  let off := sext 32 (tdB d (·.rfOffset))
  match tdB d (·.rfMask) % 4 with
  | 1 => decide ((row : Int) + off < (k : Int))
  | 2 => decide (off ≤ (k : Int))
  | _ => false

/-- The smallest integer at or above a finite value. -/
def ceilNum (x : Num) : Int :=
  match x with
  | .fin n m e =>
    if 0 ≤ e then (if n then -((m <<< e.toNat : Nat) : Int) else ((m <<< e.toNat : Nat) : Int))
    else if n then -((m >>> (-e).toNat : Nat) : Int)
    else (((m + 2 ^ (-e).toNat - 1) >>> (-e).toNat : Nat) : Int)
  | _ => 0

/-- R164: the row function on one row. `s0`: the first product's values of the row (primal and tangents); `keys`: global key
indices; `conv t k x`: rounds a weight into the handoff's format. -/
def rowFn (d : TDesc) (row : SweepRow) (rowIx : Nat) (s0 : List Num) (ds : List (List Num)) (key0 : Nat)
    (conv : Nat → Nat → Num → Cvt) : RowFn :=
  let c := dF32 (tdB d (·.rfC))
  let ys : List (Option Num) := (s0.zipIdx).map fun p => if keyMasked d rowIx (key0 + p.2) then none else some (numMul p.1 c)
  let bad := row.bad || ys.any fun y => match y with | some .nan => true | some (.inf false) => true | _ => false
  let t : Option Int := ys.foldl (fun a y => match y with
    | some (.fin n m e) => let k := ceilNum (.fin n m e); (match a with | some b => some (max b k) | none => some k)
    | _ => a) none
  let mNew : Option Int := match row.m, t with
    | some a, some b => some (max a b)
    | some a, none => some a
    | none, b => b
  let pow (y : Num) (m : Int) : Num := eVal .exp2 (numSub false y (numInt m))
  let p : List Cvt := (ys.zipIdx).map fun y => match y.1, mNew with
    | some (.fin n mm ee), some m => conv 0 y.2 (pow (.fin n mm ee) m)
    | _, _ => { pat := 0 }
  let ln2c (x : Num) : Num := numMul c x
  let dp : List (List Cvt) := (ds.zipIdx).map fun dt => (dt.1.zipIdx).map fun x => match ys.getD x.2 none, mNew with
    -- 2^(y - m) ln 2 (c ds): the derivative of the exact power times c ds
    | some (.fin n mm ee), some m =>
      conv (dt.2 + 1) x.2 (eTanVal .exp2 (numSub false (.fin n mm ee) (numInt m)) (ln2c x.1))
    | _, _ => { pat := 0 }
  let delta : Option Int := match row.m, mNew with
    | some a, some b => some (b - a)
    | some _, none => some 0
    | none, some _ => none
    | none, none => some 0
  { st := { row with m := mNew, bad := bad, delta := delta }, p := p, dp := dp }

/-- R164: `l := round(l × 2^(-delta) + sum of the rounded weights)` and the tangents' sums (R167). -/
def rowSums (r : RowFn) (f : Fmt) : SweepRow :=
  let sh (x : Num) : Num := match r.st.delta with | some k => numScale x (-k) | none => numZero
  let rnd (x : Num) : Num := dF64 (eF64 x)
  let sum (l : List Cvt) : Num := numSum (l.map fun c => decNum f 0 c.pat)
  { r.st with
    l := if r.st.bad then .nan else rnd (numAdd false (sh r.st.l) (sum r.p))
    dl := (r.dp.zipIdx).map fun d => rnd (numAdd false (sh (r.st.dl.getD d.2 numZero)) (sum d.1)) }

/-- R163: the key tile width and the global key of the first key of the present key tile. -/
def sweepKey0 (s : State) (e : TEnv) : Nat :=
  match e.c.sweepIp with
  | some ip => let f := readInsn s e.p ip; inJ0 f + e.c.keyTile * inCols f
  | none => 0

/-- R163: row origin of the sweep. -/
def sweepI0 (s : State) (e : TEnv) : Nat :=
  match e.c.sweepIp with
  | some ip => inI0 (readInsn s e.p ip)
  | none => 0

/-- R164: the row function over the tile: row states and the converted weights per tangent. -/
def rowTile (s : State) (e : TEnv) (d : TDesc) (tang : Nat) : List RowFn :=
  let f := inACC e.i
  let seed := (ctxOf s e.p.cid).seed
  let step := (runOf s e.p.cid).step
  let rnd := (rndOf (inRND e.i)).getD .rne
  let vals (t r : Nat) : List Num := (List.range (inCols e.i)).map fun c => accVal e.p (envSlot s e t) f r c
  (List.range (inRows e.i)).map fun r =>
    let conv (t k : Nat) (x : Num) : Cvt :=
      encNum (inOUT e.i) 0 rnd (envFlush s e) (srBits seed step (d.tid % 2 ^ 29 + t * 2 ^ 29) (r * d.cols + k)) x
    rowFn d (e.c.rows.getD r {}) (sweepI0 s e + r) (vals 0 r) ((List.range tang).map fun t => vals (t + 1) r) (sweepKey0 s e) conv

/-- R154: keeps a converted tile for the handoff, with +0 beyond the destination's declared extent. -/
def handTile (e : TEnv) (m : List (List Cvt)) : List (List Num) :=
  (List.range (inRows e.i)).map fun r => (List.range (inCols e.i)).map fun c =>
    match (m.getD r [])[c]? with
    | some x => decNum (inOUT e.i) 0 x.pat
    | none => numZero

/-- R129: CVT, with the handoff of R153, the row function of R164, ROWSTAT and H. -/
def cvtBody (s : State) (e : TEnv) : State :=
  let d := envTA s e
  let tang := tangOf s e
  let f := inOUT e.i
  let hand := isHandoffCvt s e
  let rowfn := hand && tdOn d bnROWFN
  let s := noteD s e.id e
  let poison := (List.range (tang + 1)).any fun t => bit (tswGet e.p (envSlot s e t)) 1
  let (nr, nc) := insideDims e d
  let rows : List RowFn := if rowfn then rowTile s e d tang else []
  let tile (t : Nat) : List (List (Num × Cvt)) :=
    if rowfn then (rows.map fun r => ((if t = 0 then r.p else r.dp.getD (t - 1) []).take nc).map fun c => (decNum f 0 c.pat, c)).take nr
    else cvtTile s e d t
  let trans := tdOn d bnTRANSIENT
  let tiles := (List.range (tang + 1)).map tile
  let s' := if trans then s else
    (tiles.zipIdx).foldl (fun s m => writeTile s e f d m.2 (m.1.map fun r => r.map (·.2.pat)) poison) s
  let s' := noteFlush s' e (tiles.any fun m => m.any fun r => r.any fun x => x.2.flushed)
  let prim := tiles.headD []
  let s' := if inH e.i then
      histAdd s' e.p.cid (envSlice e) d.hist (prim.flatMap fun r => r.flatMap fun x => histPlain f 0 x.1 x.2) else s'
  let s' := if tdOn d bnROWSTAT then
      (prim.zipIdx).foldl (fun s r =>
        spWrite s e.p.cid (envSlice e) (tdB d (·.stats) + 24 * ((inI0 e.i + r.2) * ((d.cols + 31) / 32) + inJ0 e.i / 32))
          (rowStat f (r.1.map (·.2.pat))) poison) s'
    else s'
  let s' := noteCont s' e d (tileRanges e f d tang nr nc) poison
  let s' := if hand then
      updProg s' e.id fun p => { p with comp := p.comp.map fun c => { c with
        hand := some { tiles := tiles.map fun m => handTile e (m.map fun r => r.map (·.2)), dest := inTA e.i, poison := poison }
        rows := if rowfn then rows.map fun r => rowSums r f else c.rows } }
    else s'
  tileDone s' e.id e (markOf false false poison)

/-- R130: QNT (DEDUCED, assumption log 33). -/
def qntBody (s : State) (e : TEnv) : State :=
  let d := envTA s e
  let f := inOUT e.i
  let axis := inOPF0 e.i
  let poison := bit (tswGet e.p (envSlot s e 0)) 1
  let (nr, nc) := insideDims e d
  let seed := (ctxOf s e.p.cid).seed
  let step := (runOf s e.p.cid).step
  let rnd := (rndOf (inRND e.i)).getD .rne
  let (nLines, nElems, line0, el0) := if axis then (nc, nr, inJ0 e.i, inI0 e.i) else (nr, nc, inI0 e.i, inJ0 e.i)
  let nq := ((tdLines d).2 + 31) / 32
  let at_ (l k : Nat) : Num := if axis then presented s e d 0 k l else presented s e d 0 l k
  let ix (l k : Nat) : Nat := if axis then (el0 + k) * d.cols + line0 + l else (line0 + l) * d.cols + el0 + k
  let blocks : List (Nat × Nat) := (List.range nLines).flatMap fun l => (List.range ((nElems + 31) / 32)).map fun q => (l, q)
  let s' := blocks.foldl (fun s' (lq : Nat × Nat) =>
    let (l, q) := lq
    let n := min 32 (nElems - 32 * q)
    let vs := (List.range 32).map fun i => if i < n then at_ l (32 * q + i) else numZero
    let b := mxQuantise f rnd (envFlush s e) (tdEscape d) n
      (fun i => srBits seed step (d.tid % 2 ^ 29) (ix l (32 * q + i))) vs
    let bq := el0 / 32 + q
    let a := d.base + (line0 + l) * d.pitch + bq * mxBlockBytes f
    let vi := (line0 + l) * nq + bq
    let s' := spWrite s' e.p.cid (envSlice e) a (natLe (mxBlockBytes f) (packNat (fmtWidth f) b.codes)) poison
    let s' := spWrite s' e.p.cid (envSlice e) (d.scale + vi) (natLe 1 b.scale) poison
    let s' := if tdEscape d then spWrite s' e.p.cid (envSlice e) (d.esc + 4 * vi) (natLe 4 b.esc) poison else s'
    let s' := noteFlush s' e (b.counts.contains hFLUSHED)
    if inH e.i then
      histAdd s' e.p.cid (envSlice e) d.hist ((vs.take n).flatMap (histPresented (inACC e.i)) ++ b.counts)
    else s') s
  let ranges := blocks.map fun lq => (d.base + (line0 + lq.1) * d.pitch + (el0 / 32 + lq.2) * mxBlockBytes f, mxBlockBytes f)
  let s' := noteCont s' e d ranges poison
  tileDone s' e.id e (markOf false false poison)

/-- R131: ST. -/
def stBody (s : State) (e : TEnv) : State :=
  let d := envTA s e
  let f := inACC e.i
  let tang := tangOf s e
  let s := noteD s e.id e
  let (nr, nc) := insideDims e d
  let pat (t : Nat) : List (List Nat) := (List.range nr).map fun r => (List.range nc).map fun c => accPat e.p (envSlot s e t) f r c
  let pz (t : Nat) : Bool := bit (tswGet e.p (envSlot s e t)) 1
  let s' := (List.range (tang + 1)).foldl (fun s t => writeTile s e f d t (pat t) (pz t)) s
  let s' := if inH e.i then
      histAdd s' e.p.cid (envSlice e) d.hist ((pat 0).flatMap fun r => r.flatMap fun x => histPlain f 0 (decNum f 0 x) { pat := x })
    else s'
  let poison := (List.range (tang + 1)).any pz
  let s' := noteCont s' e d (tileRanges e f d tang nr nc) poison
  tileDone s' e.id e (markOf false false poison)

/-- R132: HIST. -/
def histBody (s : State) (e : TEnv) : State :=
  let d := envTA s e
  let f := inACC e.i
  let g := envSlot s e 0
  let pats := (tileCoords (inRows e.i) (inCols e.i)).map fun rc => accPat e.p g f rc.1 rc.2
  let s' := histAdd s e.p.cid (envSlice e) d.hist (pats.flatMap fun x => histPlain f 0 (decNum f 0 x) { pat := x })
  tileDone s' e.id e (markOf false false (bit (tswGet e.p g) 1))

/-! ### Checksum control and synchronisation (R133 to R137) -/

/-- R122: ADDR. -/
def inADDR (i : Insn) : Nat := bits i.w1 31 0
/-- R122: CONJ. -/
def inCONJ (i : Insn) : Nat := bits i.w1 13 0

/-- R133: CHK.STAT's status block. -/
def chkStatBody (s : State) (e : TEnv) : State :=
  let vm := envVm s e
  let ts := match slotGeom vm (inSLOT e.i) (inRows e.i) (inCols e.i) (vmodeFmt vm) with
    | some g => tswGet e.p g
    | none => 0
  let vb := inOPF0 e.i
  let v := if vb then regGet s (vrbStatus e.c.verb) else 0
  let k := if vb then regGet s (aVRB_CHK_SKIP (e.c.verb / 8) (e.c.verb % 8)) else 0
  let bs := natLe 4 ts ++ natLe 4 v ++ natLe 4 k ++ List.replicate 52 0
  tileDone (spWrite s e.p.cid (envSlice e) (inADDR e.i) bs false) e.id e stOK

/-- R134: CHK.INJECT arms a forced failure. -/
def chkInjectBody (s : State) (e : TEnv) : State :=
  let a := (inSLOT e.i, bits e.i.w3 8 0, bits e.i.w3 24 16, bit e.i.w3 32)
  tileDone (updProg s e.id fun p => { p with inject := some a }) e.id e stOK

/-- R135: CSIG. -/
def csigBody (s : State) (e : TEnv) : State :=
  let inc := bits e.i.w1 31 16
  let key := (ctxOf s e.p.cid).ckey
  let s := if bit e.i.w1 32 then
      { s with outSigs := s.outSigs ++ [{ part := envPart e, handle := bits e.i.w1 63 48, index := inCONJ e.i, inc := inc, key := key }] }
    else conjSignal s (inCONJ e.i) inc false key
  tileDone s e.id e stOK

/-- R136: CWAIT begins its wait: the compound ends and the program is held (R141). -/
def cwaitBody (s : State) (e : TEnv) : State :=
  let lim := bits e.i.w2 31 0
  let s := vrbPerf s e.c.verb 1 1
  let w : CWaitSt := ⟨inCONJ e.i, bits e.i.w1 63 32, if lim = 0 then none else some (s.tense.toNat + lim)⟩
  let s := updProg s e.id fun p => { p with wait := some w }
  endCompound s e.id

/-- R137: TNS.RD. -/
def tnsRdBody (s : State) (e : TEnv) : State :=
  tileDone (spWrite s e.p.cid (envSlice e) (inADDR e.i) (natLe 8 s.tense.toNat) false) e.id e stOK

/-- R137, R645: PERF.RD. -/
def perfRdBody (s : State) (e : TEnv) : State :=
  let v := e.c.verb
  let bs := (List.range 8).flatMap fun j => natLe 8 (regGet s (aVRB_PERF (v / 8) (v % 8) j))
  tileDone (spWrite s e.p.cid (envSlice e) (inADDR e.i) bs false) e.id e stOK

/-! ### The commands -/

/-- TILE_NOP (R121). -/
def execTileNop (prog : Nat) (s : State) : Res := ran s (tileIssue s prog opNOP fun s e => tileDone s e.id e stOK)
/-- LD_ACC (R126). -/
def execLdAcc (prog : Nat) (s : State) : Res := ran s (tileIssue s prog opLDACC ldAccBody)
/-- ZERO (R126). -/
def execZero (prog : Nat) (s : State) : Res := ran s (tileIssue s prog opZERO zeroBody)
/-- TREE_COMB (R127). -/
def execTreeComb (prog : Nat) (upset : Option (Nat × Nat)) (s : State) : Res := ran s (tileIssue s prog opTREECOMB (treeCombBody upset))
/-- ACC_ADD (R128). -/
def execAccAdd (prog : Nat) (upset : Option (Nat × Nat)) (s : State) : Res := ran s (tileIssue s prog opACCADD (accAddBody upset))
/-- CVT (R129). -/
def execCvt (prog : Nat) (s : State) : Res := ran s (tileIssue s prog opCVT cvtBody)
/-- QNT (R130). -/
def execQnt (prog : Nat) (s : State) : Res := ran s (tileIssue s prog opQNT qntBody)
/-- TILE_ST (R131). -/
def execTileSt (prog : Nat) (s : State) : Res := ran s (tileIssue s prog opST stBody)
/-- HIST (R132). -/
def execHist (prog : Nat) (s : State) : Res := ran s (tileIssue s prog opHIST histBody)
/-- CHK_STAT (R133). -/
def execChkStat (prog : Nat) (s : State) : Res := ran s (tileIssue s prog opCHKSTAT chkStatBody)
/-- CHK_INJECT (R134). -/
def execChkInject (prog : Nat) (s : State) : Res := ran s (tileIssue s prog opCHKINJECT chkInjectBody)
/-- CSIG (R135). -/
def execCsig (prog : Nat) (s : State) : Res := ran s (tileIssue s prog opCSIG csigBody)
/-- CWAIT (R136). -/
def execCwait (prog now : Nat) (s : State) : Res := ran s (tileIssue (atTime s now) prog opCWAIT cwaitBody)
/-- TILE_FENCE (R137): in a model that runs a program's instructions in order every earlier instruction is complete. -/
def execTileFence (prog : Nat) (s : State) : Res := ran s (tileIssue s prog opFENCE fun s e => tileDone s e.id e stOK)
/-- TNS_RD (R137). -/
def execTnsRd (prog now : Nat) (s : State) : Res := ran s (tileIssue (atTime s now) prog opTNSRD tnsRdBody)
/-- PERF_RD (R137). -/
def execPerfRd (prog : Nat) (s : State) : Res := ran s (tileIssue s prog opPERFRD perfRdBody)

/-- R136: the read that satisfies a wait: the program goes on, or ends with CONJ_ERROR. -/
def cwaitMet (s : State) (id : Nat) : State :=
  match progOf s id with
  | none => s
  | some p =>
    match p.wait with
    | none => s
    | some w =>
      let c := conjOf s w.conj
      if c.error then setProg s id { endAt p stCONJ_ERROR p.ip (inTAG (readInsn s p p.ip)) with wait := none }
      else if reached c.count (BitVec.ofNat 32 w.target) then
        setProg s id (endIfLast { p with wait := none, completed := p.completed + 1, ip := p.ip + 1 })
      else s

/-- CWAIT_MET (R136). -/
def execCwaitMet (prog : Nat) (s : State) : Res := ran s (cwaitMet s prog)

/-- R136: the wait is still unmet when TIMEOUT has passed. -/
def cwaitTimeout (s : State) (id : Nat) : State :=
  match progOf s id with
  | none => s
  | some p =>
    match p.wait with
    | none => s
    | some w =>
      match w.deadline with
      | none => s
      | some t =>
        if t ≤ s.tense.toNat ∧ !waitOver (conjOf s w.conj) (BitVec.ofNat 32 w.target) then
          setProg (markIndet s p.cid) id { endAt p stWAIT_TIMEOUT p.ip (inTAG (readInsn s p p.ip)) with wait := none }
        else s

/-- CWAIT_TIMEOUT (R136). -/
def execCwaitTimeout (prog now : Nat) (s : State) : Res := ran s (cwaitTimeout (atTime s now) prog)

/-- R144: a requested abort takes effect at a compound boundary; a program held in CWAIT is at one (R141). -/
def programAbort (s : State) (id : Nat) : State :=
  match progOf s id with
  | none => s
  | some p =>
    if p.abort && p.ended.isNone && p.comp.isNone then
      setProg s id { endAt p stABORTED p.ip 0 with wait := none }
    else s

end Sys2Proof.Machine
end

