-- ==== Sys2Proof/Machine/Product.lean ====
section
/-! DEFINITION. The product: MMA, the stage buffers, the step sequencer, the reduction tree, the checksum comparisons and the
sweep's running correction (spec/03_verb_engines.md R75 to R106, spec/04_tile_programs.md R123, R125, spec/05_compounds.md R153 to R167). -/

namespace Sys2Proof.Machine

/-! ### K-blocks and chunks (R86, R123) -/

/-- R86: chunks of a full K-block. -/
def chunksPer (d : Nat) : Nat := (1024 + d - 1) / d
/-- R86: K elements of K-block `kb` of a pass. -/
def kbLen (p : MmaP) (kb : Nat) : Nat := min 1024 (p.kHi - p.kLo - 1024 * kb)
/-- R86: chunks of K-block `kb` of a pass. -/
def kbChunks (p : MmaP) (kb : Nat) : Nat := (kbLen p kb + p.depth - 1) / p.depth
/-- R101: chunks of a pass. -/
def passChunks (p : MmaP) : Nat := (p.kbCount - 1) * chunksPer p.depth + kbChunks p (p.kbCount - 1)
/-- The K-block (within the pass), the chunk within it, and the elements (first, number) of a chunk. -/
def chunkAt (p : MmaP) (c : Nat) : Nat × Nat × Nat × Nat :=
  let kb := c / chunksPer p.depth
  let o := c % chunksPer p.depth
  (kb, o, 1024 * kb + o * p.depth, min p.depth (kbLen p kb - o * p.depth))

/-- R125: the tangents that an operand carries in this pass. -/
def opTang (p : MmaP) (d : TDesc) : Nat := if p.tang = 0 then 0 else tdTang d

/-- R101: the walk within a chunk: (tangent, 0 primal | 1 dA B | 2 A dB). -/
def phasesOf (p : MmaP) : List (Nat × Nat) :=
  (0, 0) :: (List.range p.tang).flatMap fun t =>
    (if opTang p p.a ≠ 0 then [(t + 1, 1)] else []) ++ (if opTang p p.b ≠ 0 then [(t + 1, 2)] else [])

/-- R101: output blocks of the tile. -/
def passBlocks (p : MmaP) : Nat := p.trows / 32 * (p.tcols / 32)

/-- The slot of tangent `t` of a pass. -/
def passSlot (s : State) (cid : Nat) (p : MmaP) (t : Nat) : SlotGeom :=
  (slotGeom (ctxOf s cid).vmode (p.slot + t) p.trows p.tcols p.facc).getD ⟨0, 4096, 128⟩

/-- R122, R123, R163: the resolved operands of the MMA about to issue. -/
def mmaOf (s : State) (e : TEnv) : MmaP :=
  let i := e.i
  let a := readTDesc s e.p (inTA i)
  let b := readTDesc s e.p (inTB i)
  let hand := isHandoffMma e
  let sw2 := hand && e.c.sweepIp.isSome
  let w := match e.c.sweepIp with | some ip => inCols (readInsn s e.p ip) | none => 0
  let k0 := 1024 * inK0 i
  let tree := if inTTREE i = 0xFFFF then none else some (readTDesc s e.p (inTTREE i))
  let useSeed := inTSEED i != 0xFFFF && (inLAST i || tree.isNone)
  { ip := e.p.ip, itag := inTAG i, fa := inFA i, fb := inFB i, facc := inACC i, slot := inSLOT i
    trows := inRows i, tcols := inCols i, kbCount := inKBC i, kbFirst := inKBF i, i0 := inI0 i
    j0 := inJ0 i + (if !hand && (startsSweep s e || e.c.sweepIp == some e.p.ip) then e.c.keyTile * inCols i else 0)
    kLo := k0, kHi := if sw2 then w else min (k0 + 1024 * inKBC i) (kOf a true)
    tlev := inTLEV i, first := inFIRST i, last := inLAST i, a := a, b := b
    seed := if useSeed then some (readTDesc s e.p (inTSEED i)) else none
    tree := tree, tang := tangOf s e
    depth := (pairDepth (inFA i) (inFB i) (inACC i) (tdScaled a || tdScaled b)).getD 1
    -- a gathered operand of an unfused form reads what the CVT wrote (R153); a TRANSIENT tile is read from SBA
    handoff := hand && (tdOn a bnTRANSIENT || !tdOn a bnGATHER)
    bRow0 := if sw2 then e.c.keyTile * w else 0, correct := sw2 }

/-- A tile of zeros. -/
def zeroTile (rows cols : Nat) : List (List Num) := List.replicate rows (List.replicate cols numZero)

/-- R123, R89, R95, R163: MMA issues: the destination's status clears on a first pass, and the Verb holds the pass. -/
def mmaBody (s : State) (e : TEnv) : State :=
  let p := mmaOf s e
  let s := noteD s e.id e
  let starts := startsSweep s e && e.c.sweepIp.isNone
  let s := if starts then
      updProg s e.id fun q => { q with comp := q.comp.map fun c => { c with
        sweepIp := some e.p.ip, keyTile := 0, swBack := (c.links, c.prevOp, c.tcols)
        rows := List.replicate p.trows { dl := List.replicate p.tang numZero } } }
    else s
  let clear := p.first && !(p.correct && decide (0 < e.c.keyTile))
  let slots := (List.range (p.tang + 1)).map (passSlot s e.p.cid p)
  let s := if clear then slots.foldl (fun s g => updProg s e.id fun q => tswPut q g 0) s else s
  -- o before this key tile (R164)
  let s := if p.correct then
      updProg s e.id fun q => { q with comp := q.comp.map fun c => { c with
        oPrev := if c.keyTile = 0 then slots.map fun _ => zeroTile p.trows p.tcols
          else slots.map fun g => tileVals q g p.facc p.trows p.tcols } }
    else s
  -- a tangent to which neither operand contributes starts and ends its partial at +0 (R125)
  let s := if (phasesOf p).length = 1 then
      (slots.drop 1).foldl (fun s g => updProg s e.id fun q =>
        putTile q g p.facc (List.replicate p.trows (List.replicate p.tcols 0))) s
    else s
  let hp := p.handoff && match e.c.hand with | some h => h.poison | none => false
  let s := if hp then slots.foldl (fun s g => applyTs s e.id e.c.verb g tsPOISON) s else s
  updVerb s e.c.verb fun v => { v with pass := some { p := p, poisoned := hp } }

/-! ### Stage buffers (R97, R158, R159) -/

/-- One operand element of a panel; a gather index outside the tensor, or a poisoned element, is reported. -/
def panelElem (s : State) (id cid : Nat) (flush : Bool) (p : MmaP) (sideB : Bool) (t line k : Nat) : Rd :=
  if sideB then operandRead s cid flush p.fb p.b t (p.bRow0 + p.kLo + k) (p.j0 + line) (p.bRow0 + p.kLo + k)
  else if p.handoff then
    let x := match progOf s id with
      | some q => (match q.comp with
        | some c => (match c.hand with
          | some h => ((h.tiles.getD t []).getD line []).getD (p.kLo + k) numZero
          | none => numZero)
        | none => numZero)
      | none => numZero
    let d := p.a
    let y := if tdOn d bnSCALE then numMul x (vecF32 s cid (tdB d (·.vscale)) (p.kLo + k)) else x
    let y := if tdOn d bnBIAS && t == 0 then numAdd false y (vecF32 s cid (tdB d (·.vbias)) (p.kLo + k)) else y
    if tdOn d bnSCALE || tdOn d bnBIAS then
      let cv := encNum p.fa 0 .rne flush 0 y
      { x := decNum p.fa 0 cv.pat, flushed := cv.flushed }
    else { x := y }
  else
    match gatherRow s cid p.a (p.i0 + line) with
    | none => { x := numZero, poison := true }
    | some row =>
      let kk := p.kLo + k
      operandRead s cid flush p.fa p.a t (if tdCol p.a then kk else row) (if tdCol p.a then row else kk) kk

/-- R98: bytes that one panel writes into a stage buffer. -/
def panelBytes (f : Fmt) (d : TDesc) (lines depth tiles : Nat) : Nat :=
  let one := if tdScaled d then (depth + 31) / 32 * (mxBlockBytes f + 1 + (if tdEscape d then 4 else 0)) else plainBytes f depth
  lines * one * tiles

/-- R97: fills one half of a stage buffer with the next panel of the pass. -/
def stageFill (s : State) (v : Nat) (sideB : Bool) : State :=
  let vb := verbOf s v
  match vb.prog, vb.pass with
  | some id, some ps =>
    match progOf s id with
    | none => s
    | some q =>
      let p := ps.p
      let c := if sideB then ps.fillB else ps.fillA
      let held := if sideB then ps.sbb.length else ps.sba.length
      if passChunks p ≤ c ∨ 2 ≤ held ∨ !ctxRunning s q.cid then s
      else
        let flush := bit (ctxOf s q.cid).vmode 0
        let (_, _, k0, n) := chunkAt p c
        let lines := if sideB then p.tcols else p.trows
        let d := if sideB then p.b else p.a
        let nt := opTang p d
        let rd : List (List (List Rd)) := (List.range (nt + 1)).map fun t => (List.range lines).map fun l =>
          (List.range n).map fun k => panelElem s id q.cid flush p sideB t l (k0 + k)
        let any (m : List (List Rd)) (f : Rd → Bool) : Bool := m.any fun r => r.any f
        -- outcomes of the primal operand bear on every slot, those of tangent t on slot t
        let s := (List.range (p.tang + 1)).foldl (fun s t =>
          let ms := (rd.headD []) ++ (if t = 0 then [] else rd.getD t [])
          let ts := (if any ms (fun x => x.poison || x.off) then tsPOISON else 0) ||| (if any ms (·.flushed) then tsFLUSH else 0)
          if ts = 0 then s else applyTs s id v (passSlot s q.cid p t) ts) s
        let pan : Panel := { chunk := c, vals := rd.map fun m => m.map fun r => r.map (·.x) }
        let off := rd.any fun m => any m (·.off)
        let po := rd.any fun m => any m (fun x => x.poison || x.off)
        let handed := p.handoff && !sideB
        let s := if handed then s else vrbPerf s v 3 (panelBytes (if sideB then p.fb else p.fa) d lines n (nt + 1))
        updVerb s v fun vb => { vb with pass := vb.pass.map fun ps =>
          { ps with
            sba := if sideB then ps.sba else ps.sba ++ [pan], fillA := if sideB then ps.fillA else ps.fillA + 1
            sbb := if sideB then ps.sbb ++ [pan] else ps.sbb, fillB := if sideB then ps.fillB + 1 else ps.fillB
            poisoned := ps.poisoned || po, sliceOff := ps.sliceOff || off } }
  | _, _ => s

/-! ### The tree area (R87 to R91) -/

/-- Base of the tree area of tangent `t` (R125). -/
def treeBase (d : TDesc) (t : Nat) : Nat := d.base + t * d.tstride
/-- R90: bytes of a level slot. -/
def levelBytes (p : MmaP) : Nat := p.trows * p.tcols * accBytes p.facc
/-- R90: OCC. -/
def treeOcc (s : State) (cid : Nat) (d : TDesc) (t : Nat) : Nat := spNat s cid (treeBase d t) 4

/-- R90: reads a level: its tile, and whether it arrived poisoned. -/
def readLevel (s : State) (cid : Nat) (flush : Bool) (p : MmaP) (d : TDesc) (t l : Nat) : TileRd :=
  let a := treeBase d t + 64 + l * levelBytes p
  let n := accBytes p.facc
  let m := (List.range p.trows).map fun r => (List.range p.tcols).map fun c =>
    readFlush p.facc 0 flush (spNat s cid (a + (r * p.tcols + c) * n) n)
  { vals := m.map fun r => r.map (·.1), poison := spPoison s cid a (levelBytes p), off := spOff s cid a (levelBytes p)
    flushed := m.any fun r => r.any (·.2) }

/-- R90: writes a level. -/
def writeLevel (s : State) (cid w : Nat) (p : MmaP) (d : TDesc) (t l : Nat) (m : List (List Nat)) (poison : Bool) : State :=
  spWrite s cid w (treeBase d t + 64 + l * levelBytes p) (m.flatMap fun r => r.flatMap (natLe (accBytes p.facc))) poison

/-- What the fold unit carries: the state, the tile, and the outcomes so far. -/
structure FoldSt where
  s : State
  pats : List (List Nat)
  poison : Bool := false
  off : Bool := false

/-- Combines the carried tile with a tile already read, checked as a fold; the outcomes go to the slot. -/
def foldOne (f : FoldSt) (id v cid kb : Nat) (flush : Bool) (p : MmaP) (t : Nat) (left : TileRd) : FoldSt :=
  let g := passSlot f.s cid p t
  let b := f.pats.map fun r => r.map (decNum p.facc 0)
  let m := foldTiles p.facc flush left.vals b
  let po := left.poison || left.off
  let s := applyTs f.s id v g (cvtTs p.facc m ||| (if po then tsPOISON else 0) ||| (if left.flushed then tsFLUSH else 0))
  let s := chkFold s id v p.slot kb g p.facc p.depth left.vals b (cvtVals p.facc m)
  { s := s, pats := cvtPats m, poison := f.poison || po, off := f.off || left.off }

/-- R89: `fold`, from level `l`. -/
def foldLoop (id v cid kb : Nat) (flush : Bool) (p : MmaP) (d : TDesc) (t occ : Nat) : Nat → Nat → FoldSt → FoldSt × Nat × Nat
  | 0, l, f => (f, l, occ)
  | n + 1, l, f =>
    if bit kb l && bit occ l then
      foldLoop id v cid kb flush p d t (setBits occ l l 0) n (l + 1)
        (foldOne f id v cid kb flush p t (readLevel f.s cid flush p d t l))
    else (f, l, occ)

/-- Does a slot hold poison. -/
def slotPoison (s : State) (id : Nat) (g : SlotGeom) : Bool :=
  match progOf s id with | some q => bit (tswGet q g) 1 | none => false

/-- The patterns of a slot's tile. -/
def slotPats (s : State) (id : Nat) (g : SlotGeom) (p : MmaP) : List (List Nat) :=
  match progOf s id with
  | some q => (List.range p.trows).map fun r => (List.range p.tcols).map fun c => accPat q g p.facc r c
  | none => []

/-- R89, R90: the K-block's partial folds into the tree area of tangent `t`. -/
def foldTree (s : State) (id v cid : Nat) (flush : Bool) (p : MmaP) (d : TDesc) (kb t : Nat) : State × Bool × Bool :=
  let g := passSlot s cid p t
  let s := if p.first ∧ kb = p.kbFirst then
      -- a first pass clears OCC and writes LEVELS; the reserved bytes are written as zero
      let s := spWrite s cid (v / 8) (treeBase d t) (natLe 4 0 ++ natLe 4 p.tlev) false
      spWrite s cid (v / 8) (treeBase d t + 12) (List.replicate 52 0) false
    else s
  let (f, l, occ) := foldLoop id v cid kb flush p d t (treeOcc s cid d t) 32 0 { s := s, pats := slotPats s id g p }
  let po := slotPoison f.s id g
  let s := writeLevel f.s cid (v / 8) p d t l f.pats po
  let s := spWrite s cid (v / 8) (treeBase d t) (natLe 4 (setBits occ l l 1)) false
  (vrbPerf s v 2 (passBlocks p), f.poison, f.off)

/-- R89: `finalise` over the levels, before the seed (DEDUCED, assumption log 33). -/
def finalLoop (id v cid kb : Nat) (flush : Bool) (p : MmaP) (d : TDesc) (t occ : Nat) : List Nat → Option FoldSt → State → Option FoldSt
  | [], f, _ => f
  | l :: r, f, s =>
    if bit occ l then
      let lv := readLevel ((f.map (·.s)).getD s) cid flush p d t l
      match f with
      | none =>
        let po := lv.poison || lv.off
        let g := passSlot s cid p t
        let s' := if po then applyTs s id v g tsPOISON else s
        let n := accBytes p.facc
        let a := treeBase d t + 64 + l * levelBytes p
        let m := (List.range p.trows).map fun r => (List.range p.tcols).map fun c => spNat s cid (a + (r * p.tcols + c) * n) n
        finalLoop id v cid kb flush p d t occ r (some { s := s', pats := m, poison := po, off := lv.off }) s
      | some f =>
        finalLoop id v cid kb flush p d t occ r (some (foldOne f id v cid kb flush p t lv)) s
    else finalLoop id v cid kb flush p d t occ r f s

/-- R87, R125: adds the seed of tangent `t`, if the pass has one. -/
def addSeed (f : FoldSt) (id v cid kb : Nat) (flush : Bool) (p : MmaP) (t : Nat) : FoldSt :=
  match p.seed with
  | none => f
  | some sd =>
    if t ≠ 0 ∧ tdTang sd = 0 then f
    else
      let rd := readTile f.s cid flush p.facc sd t p.i0 p.j0 p.trows p.tcols
      foldOne f id v cid kb flush p t rd

/-- Writes a result tile into the slot of tangent `t`. -/
def putResult (f : FoldSt) (id v cid : Nat) (p : MmaP) (t : Nat) : State :=
  let g := passSlot f.s cid p t
  let s := updProg f.s id fun q => putTile q g p.facc f.pats
  applyTs s id v g (f.pats.foldl (fun a r => r.foldl (fun a x => a ||| tsOfVal (decNum p.facc 0 x)) a) 0)

/-- R89: after the product's last K-block of a pass: finalise with a tree, or the partial with its seed. -/
def finishSlot (s : State) (id v cid : Nat) (flush : Bool) (p : MmaP) (kb t : Nat) : State × Bool × Bool :=
  match p.tree with
  | some d =>
    if p.last then
      let occ := treeOcc s cid d t
      match finalLoop id v cid kb flush p d t occ (List.range p.tlev) none s with
      | none => (s, false, false)
      | some f =>
        let f := addSeed f id v cid kb flush p t
        let s := putResult f id v cid p t
        let s := spWrite s cid (v / 8) (treeBase d t) (natLe 4 (occ / 2 ^ p.tlev * 2 ^ p.tlev)) false
        (vrbPerf s v 2 (passBlocks p), f.poison, f.off)
    else (s, false, false)
  | none =>
    if p.seed.isNone then (s, false, false)
    else
      let f := addSeed { s := s, pats := slotPats s id (passSlot s cid p t) p } id v cid kb flush p t
      (putResult f id v cid p t, f.poison, f.off)

/-! ### Checks at K-block ends and interim points (R103 to R105, R590) -/

/-- Steps of product `t` in `chunks` chunks. -/
def productSteps (p : MmaP) (t chunks : Nat) : Nat := chunks * ((phasesOf p).filter fun x => x.1 == t).length

/-- Compares every product of the pass against its strip, `chunks` chunks into the K-block. -/
def checkPass (s : State) (id v cid : Nat) (p : MmaP) (strips : List Strip) (kb chunks : Nat) : State :=
  (List.range (p.tang + 1)).foldl (fun s t =>
    let nr := productSteps p t chunks
    if nr = 0 then s
    else
      match progOf s id with
      | none => s
      | some q =>
        let g := passSlot s cid p t
        let o := chkTile p.facc nr p.depth (slotSat q g) (tileVals q g p.facc p.trows p.tcols) (strips.getD t {})
          (injFor q p.slot)
        applyChk s id v p.slot kb g o) s

/-- Adds the finished chunk to every product's strip (R103, R158: the rounded operands). -/
def stripsAdd (p : MmaP) (a b : Panel) (strips : List Strip) : List Strip :=
  (List.range (p.tang + 1)).map fun t =>
    ((phasesOf p).filter fun x => x.1 == t).foldl (fun st ph =>
      let va := a.vals.getD (if ph.2 = 1 then t else 0) []
      let vb := b.vals.getD (if ph.2 = 2 then t else 0) []
      stripAdd st va vb) (strips.getD t {})

/-! ### The running correction of a sweep (R164, R166, R167) -/

/-- R164: `o := round(o × 2^(-delta) + x)`, checked as a fold. -/
def correctSlot (s : State) (id v cid : Nat) (flush : Bool) (p : MmaP) (t : Nat) : State :=
  match progOf s id with
  | none => s
  | some q =>
    match q.comp with
    | none => s
    | some c =>
      let g := passSlot s cid p t
      let x := tileVals q g p.facc p.trows p.tcols
      let o := (c.oPrev.getD t []).zipIdx.map fun r =>
        let row := c.rows.getD r.2 {}
        r.1.map fun z => match row.delta with | some k => numScale z (-k) | none => numZero
      let m := (foldTiles p.facc flush o x).zipIdx.map fun r =>
        if (c.rows.getD r.2 {}).bad then r.1.map fun _ => ({ pat := canonNan p.facc } : Cvt) else r.1
      let s := updProg s id fun q => putTile q g p.facc (cvtPats m)
      let s := applyTs s id v g (cvtTs p.facc m)
      chkFold s id v p.slot 0 g p.facc p.depth o x (cvtVals p.facc m)

/-- R164, R165: the log-sum-exp of a row. -/
def lseOf (r : SweepRow) : Nat :=
  if r.bad then canonNan .f32
  else
    match r.m with
    | none => eF32 (.inf true)
    | some m => if numIsZero r.l then eF32 (.inf true) else eF32 (numAdd false (numInt m) (eVal .log2 r.l))

/-- R165: LSE of every row inside the first product's rows. -/
def writeLse (s : State) (id v cid : Nat) (p : MmaP) : State :=
  match progOf s id with
  | none => s
  | some q =>
    match q.comp with
    | none => s
    | some c =>
      match c.sweepIp with
      | none => s
      | some ip =>
        let f := readInsn s q ip
        let a := readTDesc s q (inTA f)
        let po := slotPoison s id (passSlot s cid p 0)
        if tdOn p.a bnLSE then
          (c.rows.zipIdx).foldl (fun s r =>
            if inI0 f + r.2 < mOf a then
              spWrite s cid (v / 8) (tdB p.a (·.lsev) + 4 * (inI0 f + r.2)) (natLe 4 (lseOf r.1)) po
            else s) s
        else s

/-! ### The step sequencer (R101) -/

/-- Completes a pass: its marked outcome, the next key tile of a sweep or the sweep's end (R163), and the instruction. -/
def passDone (s : State) (id v : Nat) (ps : Pass) : State :=
  let p := ps.p
  let s := updVerb s v fun vb => { vb with pass := none }
  match progOf s id with
  | none => s
  | some q =>
    match q.comp with
    | none => s
    | some c =>
      let st := markOf ps.sliceOff ps.chkFail ps.poisoned
      let e : TEnv := ⟨id, q, c, readInsn s q p.ip⟩
      if p.correct then
        if sweepMore s q then
          let (links, prev, tc) := c.swBack
          setProg s id { markProg q st p.itag with
            ip := c.sweepIp.getD q.ip
            comp := some { c with keyTile := c.keyTile + 1, mmas := 0, links := links, prevOp := prev, tcols := tc, hand := none } }
        else
          let s := writeLse s id v q.cid p
          tileDone (updProg s id fun q => { q with comp := q.comp.map fun c => { c with swSlot := some p.slot } }) id e st
      else tileDone s id e st

/-- The end of a K-block: comparisons, folds, and on the pass's last K-block its result. -/
def kbEnd (s : State) (id v cid : Nat) (flush : Bool) (ps : Pass) (strips : List Strip) (kb chunks : Nat) : State × Pass :=
  let p := ps.p
  let g := p.kbFirst + kb
  let n0 := (s.rseq, s.rptLost)
  let s := checkPass s id v cid p strips g chunks
  let ts := List.range (p.tang + 1)
  let lastKb := decide (kb + 1 = p.kbCount)
  let step (z : State × Bool × Bool) (f : State → Nat → State × Bool × Bool) (t : Nat) : State × Bool × Bool :=
    let (s, a, b) := f z.1 t
    (s, z.2.1 || a, z.2.2 || b)
  let z : State × Bool × Bool := match p.tree with
    | some d => ts.foldl (fun z t => step z (fun s t => foldTree s id v cid flush p d g t) t) (s, false, false)
    | none => (s, false, false)
  let z := if lastKb then ts.foldl (fun z t => step z (fun s t => finishSlot s id v cid flush p g t) t) z else z
  let s := z.1
  let s := if lastKb && p.correct then ts.foldl (fun s t => correctSlot s id v cid flush p t) s else s
  let s := match p.tree with
    | some d => if lastKb then ts.foldl (fun s t =>
        spWrite s cid (v / 8) (treeBase d t + 8) (natLe 4 (p.kbFirst + p.kbCount)) false) s else s
    | none => s
  (s, { ps with strips := [], since := 0, poisoned := ps.poisoned || z.2.1, sliceOff := ps.sliceOff || z.2.2
                chkFail := ps.chkFail || decide (n0 ≠ (s.rseq, s.rptLost)) })

/-- The end of a chunk: its halves are free, the strip has its sums, and the K-block or an interim point may end here. -/
def chunkEnd (s : State) (id v cid : Nat) (flush : Bool) (ps : Pass) (a b : Panel) : State :=
  let p := ps.p
  let (kb, o, _, _) := chunkAt p ps.chunk
  let strips := stripsAdd p a b ps.strips
  let since := ps.since + passBlocks p * (phasesOf p).length
  let ps := { ps with strips := strips, since := since
                      sba := ps.sba.filter fun x => x.chunk != ps.chunk
                      sbb := ps.sbb.filter fun x => x.chunk != ps.chunk }
  let (s, ps) := if o + 1 = kbChunks p kb then kbEnd s id v cid flush ps strips kb (o + 1)
    else if 14336 < since then
      let n0 := (s.rseq, s.rptLost)
      let s := checkPass s id v cid p strips (p.kbFirst + kb) (o + 1)
      (s, { ps with since := 0, chkFail := ps.chkFail || decide (n0 ≠ (s.rseq, s.rptLost)) })
    else (s, ps)
  if ps.chunk + 1 = passChunks p then passDone s id v ps
  else updVerb s v fun vb => { vb with pass := some { ps with chunk := ps.chunk + 1, phase := 0, blk := 0 } }

/-- R82, R84, R85: one step on one 32 × 32 block: the patterns it writes and their outcomes. -/
def stepBlock (q : Prog) (g : SlotGeom) (f : Fmt) (flush fresh : Bool) (va vb : List (List Num)) (bi bj : Nat) : List (List Cvt) :=
  (List.range 32).map fun r => (List.range 32).map fun c =>
    let i := 32 * bi + r
    let j := 32 * bj + c
    let a := if fresh then numZero else accVal q g f i j
    accStep f flush a (((va.getD i []).zip (vb.getD j [])).map fun x => numMul x.1 x.2)

/-- R101: one step of the pass enters the pipeline. `up`: an upset of the environment on one of the block's values. -/
def verbStep (s : State) (v : Nat) (up : Option (Nat × Nat)) : State :=
  let vb := verbOf s v
  match vb.prog, vb.pass with
  | some id, some ps =>
    match progOf s id with
    | none => s
    | some q =>
      let p := ps.p
      match ps.sba.find? (fun x => x.chunk == ps.chunk), ps.sbb.find? (fun x => x.chunk == ps.chunk) with
      | some pa, some pb =>
        if !ctxRunning s q.cid then s
        else
          let flush := bit (ctxOf s q.cid).vmode 0
          let phases := phasesOf p
          let (t, kind) := phases.getD ps.phase (0, 0)
          let nbc := p.tcols / 32
          let bi := ps.blk / nbc
          let bj := ps.blk % nbc
          let g := passSlot s q.cid p t
          let (_, o, _, _) := chunkAt p ps.chunk
          let fresh := decide (o = 0) && !((phases.take ps.phase).any fun x => x.1 == t)
          let m := stepBlock q g p.facc flush fresh (pa.vals.getD (if kind = 1 then t else 0) [])
            (pb.vals.getD (if kind = 2 then t else 0) []) bi bj
          let pats := upsetTile 32 up (cvtPats m)
          let q' := (pats.zipIdx).foldl (fun q r => (r.1.zipIdx).foldl (fun q c =>
            accPut q g p.facc (32 * bi + r.2) (32 * bj + c.2) c.1) q) q
          let s := applyTs (setProg s id q') id v g (cvtTs p.facc m)
          let s := vrbPerf s v 0 1
          if ps.blk + 1 < passBlocks p then updVerb s v fun vb => { vb with pass := some { ps with blk := ps.blk + 1 } }
          else if ps.phase + 1 < phases.length then
            updVerb s v fun vb => { vb with pass := some { ps with blk := 0, phase := ps.phase + 1 } }
          else chunkEnd s id v q.cid flush ps pa pb
      | _, _ => s
  | _, _ => s

/-- MMA (R123). -/
def execMma (prog : Nat) (s : State) : Res := ran s (tileIssue s prog opMMA mmaBody)
/-- STAGE_BUFFER_FILL (R97). -/
def execStageBufferFill (verb : Nat) (sideB : Bool) (s : State) : Res := guardUnit (decide (verb < 96)) (ran s (stageFill s verb sideB))
/-- R593: a control fault of a Verb detected in a step: the program ends with UNIT_FAULT and its space is discarded. -/
def verbFault (s : State) (v : Nat) : State :=
  match (verbOf s v).prog with
  | none => s
  | some id =>
    let s := endCompound s id
    let s := updVerb s v fun vb => { vb with space := none }
    unitFault s (v / 8) (v % 8) 0x06 id

/-- VERB_STEP (R101). `upset`: an error of the environment on one written value; `fault`: a detected control fault (R593). -/
def execVerbStep (verb : Nat) (upset : Option (Nat × Nat)) (fault : Bool) (s : State) : Res :=
  guardUnit (decide (verb < 96)) (ran s (if fault then verbFault s verb else verbStep s verb upset))

end Sys2Proof.Machine
end

