-- ==== Sys2Proof/Machine/QueueOps.lean ====
section
/-! DEFINITION. The issue queues: records, their first checks, and work that ends before any part of it is placed
(spec/04_tile_programs.md R138 to R144, R667; spec/08_particle_cores.md R270 to R272). -/

namespace Sys2Proof.Machine

/-- R270: records that an issue queue holds. -/
def queueSize (q : Nat) : Nat := if q < 2 then 64 else 16

/-- R270: the kind that a queue serves. -/
def queueKind (q : Nat) : QKind := match q with | 0 => .tile | 1 => .element | 2 => .solve | _ => .assembly

/-- An issue queue of a logical Particle. -/
def queueOf (s : State) (lp q : Nat) : IQueue := mapGet {} s.queues (4 * lp + q)

/-- Changes an issue queue. -/
def updQueue (s : State) (lp q : Nat) (f : IQueue → IQueue) : State :=
  { s with queues := mapUpd {} s.queues (4 * lp + q) f }

/-- The physical Particle that runs a logical one. -/
def runsOn (s : State) (lp : Nat) : Option Nat := (s.particles.find? fun p => p.2.lp == some lp).map (·.1)

/-- R275: QSPACE, where a queue that was full has freed a slot. -/
def qspace (s : State) (lp q before : Nat) : State :=
  if before = queueSize q ∧ (queueOf s lp q).recs.length < before then
    match runsOn s lp with
    | some p => raiseIrq s p irqQSPACE
    | none => s
  else s

/-- R667 orders 1 to 3: the first failure of an issue record of context `cid`. -/
def recordErr (s : State) (cid : Nat) (i : IssueRec) : Option Nat :=
  firstErr [
    (i.rsv || (i.cvalid && i.cinc == 0), stRESERVED),
    (i.statusAddr % 32 != 0 || !inSpace s (cid / 8) i.statusAddr 32, stADDRESS),
    (i.cvalid && !conjKeyOk s i.cconj (ctxOf s cid).ckey, stCONJ_KEY)]

/-- The work that an issue record names: no status record where order 2 fails, no signal where CINC is zero or order 3 fails. -/
def newWork (s : State) (kind : QKind) (cid owner seq : Nat) (bytes : List Byte) : Prog :=
  let i := parseIssue bytes
  { kind := kind, cid := cid, owner := owner, seq := seq, issue := i
    noStatus := i.statusAddr % 32 != 0 || !inSpace s (cid / 8) i.statusAddr 32
    noSignal := !i.cvalid || i.cinc == 0 || !conjKeyOk s i.cconj (ctxOf s cid).ckey }

/-- Takes in a piece of work under the next acceptance number. -/
def addWork (s : State) (p : Prog) : State := { setProg s s.nextProg p with nextProg := s.nextProg + 1 }

/-- R143: discards a queued record, whose work ends with FLUSHED. -/
def flushRec (s : State) (lp q : Nat) (r : QRec) : State :=
  let p := newWork s (queueKind q) (lp / 64) lp r.seq r.bytes
  addWork s { p with ended := some ⟨stFLUSHED, 0, 0⟩ }

/-- R143: the flush of a queue: every record still queued is discarded. -/
def flushQueue (s : State) (lp q : Nat) : State :=
  let rs := (queueOf s lp q).recs
  let s := rs.foldl (fun s r => flushRec s lp q r) s
  qspace (updQueue s lp q fun x => { x with recs := [] }) lp q rs.length

/-- R144, R272: requests the abort of the accepted work with a queue's sequence number; work that has ended, or that is not
accepted, is passed over. -/
def requestAbort (s : State) (lp q seq : Nat) : State :=
  { s with progs := s.progs.map fun p =>
      if p.2.owner = lp ∧ p.2.kind = queueKind q ∧ p.2.seq = seq ∧ p.2.ended.isNone then (p.1, { p.2 with abort := true }) else p }

/-- R139, R271: enters the staged record of a Particle, if the queue has room. -/
def pushRecord (s : State) (p lp q : Nat) : Option State :=
  let x := queueOf s lp q
  if x.recs.length < queueSize q then
    let st := (partOf s p).core.ctl.stage
    let bytes := (List.range 4).flatMap fun i => natLe 8 (mapGet 0#64 st i).toNat
    let s := updQueue s lp q fun x => { x with recs := x.recs ++ [{ seq := x.next, bytes := bytes }], next := (x.next + 1) % 2 ^ 32 }
    some (updCtl s p fun c => { c with qseq := x.next, qseqQ := q })
  else none

end Sys2Proof.Machine
end

