-- ==== Sys2Proof/Machine/Place.lean ====
section
/-! DEFINITION. Placement of compounds, accumulator spaces and their spill, aborts and completions
(spec/09_scratchpad_and_placement.md R286 to R295, spec/04_tile_programs.md R144 to R148). -/

namespace Sys2Proof.Machine

/-! ### Notices (R286) -/

/-- R286: the notice word and NOTICE. -/
def notice (s : State) (p code t : Nat) : State :=
  raiseIrq (updCore s p fun c => { c with lmem := memWrite c.lmem 0x1FFF8 (natLe 8 (code + t % 2 ^ 48 * 65536)) false }) p irqNOTICE

/-- The physical Particles that run Particles of a context. -/
def ctxParticles (s : State) (cid : Nat) : List Nat :=
  (s.particles.filter fun p => p.2.lp.map (· / 64) == some cid).map (·.1)

/-- R286: a notice to every running Particle of a context. -/
def noticeAll (s : State) (cid code t : Nat) : State :=
  ((ctxParticles s cid).filter fun p => (partOf s p).running).foldl (fun s p => notice s p code t) s

/-! ### Accumulator spaces (R293 to R295) -/

/-- R295: device virtual address of spill slot `n`. -/
def slotAt (s : State) (cid n : Nat) : Nat := (ctxOf s cid).saveAcc + 1088 * 1024 * n

/-- The spill slot kept for a program (DEDUCED, assumption log 39). -/
def slotOf (s : State) (cid id : Nat) : Option Nat := ((runOf s cid).slots.find? fun e => e.2 == id).map (·.1)

/-- R294: the lowest spill slot that no program has. -/
def freeSlot (s : State) (cid : Nat) : Option Nat :=
  (List.range (ctxOf s cid).spillCount).find? fun n => (mapFind (runOf s cid).slots n).isNone

/-- Forgets what Verb holds a program's space. -/
def dropSpace (s : State) (id : Nat) : State :=
  { s with verbs := s.verbs.map fun v => if v.2.space = some id then (v.1, { v.2 with space := none }) else v }

/-- R294, R295: copies a program's space to its spill slot. -/
def spillSpace (s : State) (id : Nat) : State :=
  match progOf s id with
  | none => s
  | some p =>
    match p.space, slotOf s p.cid id with
    | .verb v, some n =>
      let b := slotAt s p.cid n
      let k := p.cid / 8
      let gs := (List.range 256).filter fun g => mapGet false p.written g
      let s := gs.foldl (fun s g =>
        dvaWrite s k (v / 8) (b + 4096 * g) ((List.range 4096).map fun i => mapGet 0#8 p.acc (4096 * g + i)) false) s
      let s := dvaWrite s k (v / 8) (b + 0x100000) ((List.range 256).map fun g => BitVec.ofNat 8 (mapGet 0 p.tsw g)) false
      let s := dvaWrite s k (v / 8) (b + 0x100100)
        (natLe 32 (packNat 1 ((List.range 256).map fun g => if mapGet false p.written g then 1 else 0))) false
      let s := dropSpace (setProg s id { p with space := .spilled n, acc := [], tsw := [], written := [] }) id
      updRun s p.cid fun r => { r with spills := satAdd 32 r.spills 1 }
    | _, _ => s

/-- R294, R295: takes a spilled space back; poison of the image marks its granule. -/
def unspill (s : State) (id v : Nat) : State :=
  match progOf s id with
  | none => s
  | some p =>
    match p.space with
    | .spilled n =>
      let b := slotAt s p.cid n
      let k := p.cid / 8
      let rd (a m : Nat) : List Byte × Bool := dvaRead s k (v / 8) a m
      let bm := leNat (rd (b + 0x100100) 32).1
      let gs := (List.range 256).filter fun g => bit bm g
      let tsw := ((rd (b + 0x100000) 256).1.zipIdx).foldl (fun m x => mapSet 0 m x.2 x.1.toNat) []
      let q := gs.foldl (fun (q : Prog) g =>
        let (bs, po) := rd (b + 4096 * g) 4096
        { q with
          acc := (bs.zipIdx).foldl (fun m x => mapSet 0#8 m (4096 * g + x.2) x.1) q.acc
          written := mapIns q.written g true
          tsw := if po then mapSet 0 q.tsw g (mapGet 0 q.tsw g ||| tsPOISON) else q.tsw }) { p with tsw := tsw, acc := [], written := [] }
      setProg s id q
    | _ => s

/-- R293, R294: brings a program's space to Verb `v`: another program's space there is spilled first, its own moves or returns. -/
def bringSpace (s : State) (id v : Nat) : State :=
  match progOf s id with
  | none => s
  | some p =>
    if p.space = .verb v then s
    else
      let s := match (verbOf s v).space with | some o => spillSpace s o | none => s
      let s := if p.space = .nowhere then s else vrbPerf (unspill s id v) v 7 1
      let s := updProg (dropSpace s id) id fun p => { p with space := .verb v }
      updVerb s v fun x => { x with space := some id }

/-! ### Placement (R289, R290, R292) -/

/-- R289: base and size of the tensors that a compound's first link reads. -/
def linkReads (s : State) (id : Nat) (p : Prog) : List (Nat × Nat) :=
  let i := readInsn s p p.ip
  let e : TEnv := ⟨id, p, { verb := 0, first := p.ip }, i⟩
  (opTensors i).filterMap fun t =>
    let d := readTDesc s p t.1
    let f := (storeFmt t.2.1 t.2.2 d).getD t.2.1
    let tiles := if inD i then tdTang d + 1 else 1
    if t.2.2 = 0 then
      let m := mmaOf s e
      some (d.base, panelBytes f d m.trows (m.kHi - m.kLo) tiles)
    else if t.2.2 = 1 then
      let m := mmaOf s e
      some (d.base, panelBytes f d m.tcols (m.kHi - m.kLo) tiles)
    else if 4 ≤ t.2.2 ∧ t.2.2 ≤ 6 then some (d.base, panelBytes f d (inRows i) (inCols i) tiles)
    else none

/-- R289: the cost of a Verb (DEDUCED, assumption log 39). -/
def placeCost (s : State) (cid : Nat) (rs : List (Nat × Nat)) (v : Nat) : Nat :=
  rs.foldl (fun a r => a + r.2 * (match areaSlice s cid r.1 with | some sl => ringH (v / 8) sl | none => 0)) 0

/-- R289: Verbs that may take a compound of a partition's programs. -/
def freeVerbs (s : State) (k : Nat) : List Nat :=
  (partSlices s k).flatMap fun sl =>
    if computeOn s sl then
      ((List.range 8).map (8 * sl + ·)).filter fun v => (verbOf s v).prog.isNone && !unitDown s sl (v % 8)
    else []

/-- May a program have its next compound placed: accepted, at a compound boundary, not waiting, not to be aborted. -/
def wantsVerb (s : State) (p : Prog) : Bool :=
  p.kind == .tile && p.ended.isNone && p.comp.isNone && p.wait.isNone && !p.abort && decide (p.ip < p.len)
    && (ctxOf s p.cid).live && (runOf s p.cid).st == .running

/-- Has a program its accumulator space, or is a spill slot free for one (R294). -/
def spaceReady (s : State) (p : Prog) : Bool := p.space != .nowhere || (freeSlot s p.cid).isSome

/-- R292: programs whose next compound goes first. -/
def goesBefore (s : State) (id : Nat) (p : Prog) : List Nat :=
  (s.progs.filter fun q => q.2.cid == p.cid && wantsVerb s q.2 && q.2.issue.mtarget.isNone && spaceReady s q.2 && q.1 != id
    && ((q.2.deferrable == p.deferrable && decide (q.1 < id)) || (!q.2.deferrable && p.deferrable))).map (·.1)

/-- R289: the Verb of least cost; on a tie the one that holds the program's space, then the lowest (DESIGN CHOICE, assumption log 94). -/
def chooseVerb (s : State) (id : Nat) (p : Prog) (free : List Nat) : Option Nat :=
  let rs := linkReads s id p
  let key (v : Nat) : Nat × Nat := (placeCost s p.cid rs v, if p.space = .verb v then 0 else 1)
  free.foldl (fun b v => match b with
    | none => some v
    | some u =>
      let ku := key u
      let kv := key v
      if kv.1 < ku.1 ∨ (kv.1 = ku.1 ∧ (kv.2 < ku.2 ∨ (kv.2 = ku.2 ∧ v < u))) then some v else some u) none

/-- R289 to R294: places the next compound (DEDUCED, assumption log 39). -/
def placeCompound (s : State) (id : Nat) : State :=
  match progOf s id with
  | none => s
  | some p =>
    if !wantsVerb s p then s
    else if !spaceReady s p then
      -- R294, R286: SPILL_PRESSURE
      if p.pressed then s
      else noticeAll (setProg s id { p with pressed := true }) p.cid 4 s.tense.toNat
    else
      let v := match p.issue.mtarget with
        | some (sl, u) => if (verbOf s (8 * sl + u)).prog.isNone then some (8 * sl + u) else none
        | none =>
          let free := freeVerbs s (p.cid / 8)
          if free.length ≤ (goesBefore s id p).length then none else chooseVerb s id p free
      match v with
      | none => s
      | some v =>
        let s := match slotOf s p.cid id, freeSlot s p.cid with
          | none, some n => updRun s p.cid fun r => { r with slots := mapIns r.slots n id }
          | _, _ => s
        let s := bringSpace s id v
        let s := updProg s id fun p => { p with comp := some { verb := v, first := p.ip } }
        let s := updVerb s v fun x => { x with prog := some id, busyFrom := s.tense.toNat }
        -- R283: VMODE is loaded into VRB_MODE; R107: BUSY
        let s := regSet s (aVRB_MODE (v / 8) (v % 8)) ((ctxOf s p.cid).vmode)
        setBitOf s (vrbStatus v) 8

/-! ### Aborts (R144, R200, R235) -/

/-- R144: a requested abort takes effect at the work's next boundary. -/
def workAbort (s : State) (id : Nat) : State :=
  match progOf s id with
  | none => s
  | some p =>
    if !p.abort || p.ended.isSome then s
    else
      let stop (s : State) (i : Nat) : State := updProg s id fun p => { p with ended := some ⟨stABORTED, i, 0⟩ }
      match p.kind with
      | .tile => programAbort s id
      | .element =>
        match mapFind s.infRuns id with
        | some r =>
          if r.upos.isNone ∧ r.group % 1024 = 0 then
            let s := stop s 0
            match p.unit with | some u => infRelease s u | none => s
          else s
        | none => stop s 0
      | .solve =>
        match solveOf s id, p.unit with
        | some _, some _ => solveEnd s id stABORTED 0
        | _, _ => stop s 0
      | .assembly =>
        match asmOf s id, p.unit with
        | some v, some sl =>
          asmEnd s { id := id, p := p, v := v, sl := sl, flush := bit (ctxOf s p.cid).emode 2 } v stABORTED
        | _, _ => stop s 0

/-! ### Completion (R147, R148, R201, R462) -/

/-- R147: the status record (DEDUCED, assumption log 38). -/
def statusRecord (p : Prog) (e : EndSt) (seen : Nat) : List Byte :=
  natLe 1 e.status ++ natLe 1 seen ++ natLe 2 0 ++ natLe 4 e.index ++ natLe 4 p.issue.rtag ++ natLe 2 e.itag ++ natLe 2 0 ++
  natLe 4 p.completed ++ List.replicate 12 0

/-- R462: the step flags of a piece of work. -/
def workFlags (s : State) (id : Nat) (p : Prog) (e : EndSt) : Nat :=
  let po := if e.status = stPOISONED then 8 else 0
  match p.kind with
  | .tile => seenFlags p.seen ||| po
  | .element =>
    let fl := ((mapFind s.infRuns id).map (·.flags)).getD 0
    seenFlags (infSeen fl) ||| (if bit fl 3 then 4 else 0) ||| po
  | .solve =>
    let v := solveOf s id
    let nan := match v with | some v => v.x.any numIsNan || numIsNan v.rnorm || v.trn.any numIsNan | none => false
    let poi := match v with | some v => v.poison | none => false
    (if nan then 1 else 0) ||| (if poi then 8 else 0) ||| (if e.status = stRANGE then 16 else 0) ||| po
  | .assembly =>
    let poi := match asmOf s id with | some v => v.poison | none => false
    (if poi then 8 else 0) ||| (if e.status = stRANGE then 16 else 0) ||| po

/-- Ends an accepted descriptor: its status, DETAIL and RESULT are decided. -/
def descEnd (s : State) (d status detail result : Nat) : State :=
  match mapFind s.descs d with
  | some x => { s with descs := mapIns s.descs d { x with st := .ended status detail result }, pwr := { s.pwr with workAt := s.tense.toNat } }
  | none => s

/-- R147, R148: what an ended piece of work does: its records, its signal, its step flags; what it held is freed (DEDUCED, assumption log 38). -/
def workComplete (s : State) (id : Nat) : State :=
  match progOf s id with
  | none => s
  | some p =>
    match p.ended with
    | none => s
    | some e =>
      if p.comp.isSome then s
      else
        let e := match p.mark with | some m => if e.status = stOK then m else e | none => e
        let w := match p.kind, p.unit, p.space with
          | .element, some u, _ => u / 2
          | .tile, _, .verb v => v / 8
          | _, some u, _ => u
          | _, none, _ => 0
        let fl := workFlags s id p e
        let (s, seen) := match p.kind, mapFind s.infRuns id with
          | .element, some r =>
            (if r.refused || r.kernel then s else spWrite s p.cid w r.summary (summaryBytes r) false, infSeen r.flags)
          | _, _ => (s, p.seen)
        let s := if p.noStatus then s else spWrite s p.cid w p.issue.statusAddr (statusRecord p e seen) false
        -- R529: the status record that a SOLVE or ASSEMBLE descriptor names; it echoes DTAG (DEDUCED, assumption log 38)
        let s := match p.desc.bind (mapFind s.descs) with
          | some d =>
            let st := leNat ((d.bytes.drop 0x18).take 8)
            if (p.kind = .solve ∨ p.kind = .assembly) ∧ st ≠ 0 ∧ arReach s p.cid w st 32 true = .ok then
              arWrite s p.cid w st (statusRecord { p with issue := { p.issue with rtag := leNat ((d.bytes.drop 4).take 4) } } e seen) false
            else s
          | none => s
        let s := if p.noSignal then s else conjSignal s p.issue.cconj p.issue.cinc (statusErr e.status) (ctxOf s p.cid).ckey
        let s := orSflags s p.cid fl
        let s := dropSpace s id
        let s := updRun s p.cid fun r => { r with slots := r.slots.filter fun x => x.2 != id }
        let s := { s with progs := mapDel s.progs id, infRuns := mapDel s.infRuns id, solves := mapDel s.solves id, asms := mapDel s.asms id
                          pwr := { s.pwr with workAt := s.tense.toNat } }
        match p.desc with
        | some d => descEnd s d e.status (if p.kind = .tile ∨ p.kind = .element then e.index else 0) 0
        | none => s

/-- COMPOUND_PLACEMENT (R289). -/
def execCompoundPlacement (prog : Nat) (s : State) : Res := ran s (placeCompound s prog)
/-- PROGRAM_ABORT (R144). -/
def execProgramAbort (prog : Nat) (s : State) : Res := ran s (workAbort s prog)

end Sys2Proof.Machine
end

