-- ==== Sys2Proof/Machine/Accept.lean ====
section
/-! DEFINITION. Acceptance of issue records and their first checks (spec/04_tile_programs.md R112, R667;
spec/06_inflector.md R171, R199; spec/07_parser_and_lexer.md R207, R213, R238), and continuation counts (R168, R417). -/

namespace Sys2Proof.Machine

/-- R290: the unit indices that serve a queue's kind. -/
def kindUnit (k : QKind) (u : Nat) : Bool :=
  match k with
  | .tile => decide (u < 8)
  | .element => u == 12 || u == 13
  | .solve => u == 16
  | .assembly => u == 17

/-- R604: is a unit held out of service under a UNIT_TEST that names it. -/
def unitTested (s : State) (sl u : Nat) : Bool := unitIsOos s sl u && s.acts.any fun a => a.kind == 5 && a.slice == sl && a.unit == u

/-- R290: MTARGET. -/
def mtargetOk (s : State) (k : Nat) (kind : QKind) (m : Option (Nat × Nat)) : Bool :=
  match m with
  | none => true
  | some (sl, u) => (partSlices s k).contains sl && kindUnit kind u && unitTested s sl u

/-- R112: the header of a tile program: LENGTH, PFLAGS, TTABLE, TCOUNT. -/
structure TileHead where
  len : Nat
  pflags : Nat
  ttable : Nat
  tcount : Nat
  rsv : Bool

/-- R112. -/
def readTileHead (s : State) (cid a : Nat) : TileHead :=
  let b := spBytes s cid a 32
  { len := bfield b 0 2, pflags := bfield b 2 2, ttable := bfield b 4 4, tcount := bfield b 8 2, rsv := bfield b 10 22 != 0 }

/-- R112: does a header obey its rules. -/
def tileHeadOk (s : State) (k cid a : Nat) : Bool :=
  a % 32 == 0 && inSpace s k a 32 &&
  let h := readTileHead s cid a
  decide (1 ≤ h.len) && h.pflags / 2 == 0 && !h.rsv && inSpace s k a (32 * (h.len + 1)) &&
  h.ttable % 64 == 0 && decide (1 ≤ h.tcount) && decide (h.tcount ≤ 4096) && inSpace s k h.ttable (64 * h.tcount)

/-- Takes in work that is refused at acceptance: no instruction of it runs. -/
def refuseWork (s : State) (p : Prog) (status index : Nat) : State := addWork s { p with ended := some ⟨status, index, 0⟩ }

/-- R438: N work sets INDET. -/
def acceptN (s : State) (cid : Nat) (n : Bool) : State := if n then markIndet s cid else s

/-- A tile program, past orders 1 to 4 (R112, R142, R155). -/
def acceptTile (s : State) (p : Prog) : State :=
  let k := p.cid / 8
  if !tileHeadOk s k p.cid p.issue.prog then refuseWork s p stHEADER 0xFFFFFFFF
  else
    let h := readTileHead s p.cid p.issue.prog
    let n := bit h.pflags 0
    if n && (ctxOf s p.cid).strict then refuseWork s p stSTRICT_N 0xFFFFFFFF
    else addWork (acceptN s p.cid n)
      { p with len := h.len, ttable := h.ttable, tcount := h.tcount, nany := n, binds := readBinds s p.cid }

/-- An Inflector program, past orders 1 to 4 (R171, R142, R199). -/
def acceptElement (s : State) (p : Prog) : State :=
  let k := p.cid / 8
  if !infHeadOk s k p.cid p.issue.prog then refuseWork s p stHEADER 0xFFFFFFFF
  else
    let n := ihNany (readInfHead s p.cid p.issue.prog)
    if n && (ctxOf s p.cid).strict then refuseWork s p stSTRICT_N 0xFFFFFFFF
    else
      let r := readInfRun s p.cid p.issue.prog
      match infCheck s k r with
      | some (st, i) => refuseWork (acceptN s p.cid n) p st i
      | none =>
        let s := acceptN s p.cid n
        addWork { s with infRuns := mapIns s.infRuns s.nextProg r } { p with nany := n }

/-- A solve whose descriptor's 256 bytes have been read (R213, R227) (DEDUCED, assumption log 38). -/
def acceptSolve (s : State) (p : Prog) (b : List Byte) : State :=
  let n := bit (svFlags b) 0
  if n && (ctxOf s p.cid).strict then refuseWork s p stSTRICT_N 0xFFFFFFFF
  else
    let s := acceptN s p.cid n
    match svCheck s p.cid 48 b with
    | some st => refuseWork (if st = stXLAT_FAULT then areasFault s p.cid 48 (svAreas b) else s) p st 0
    | none =>
      let late := svDeadV b && decide (sv64 b 0xA8 ≤ s.tense.toNat)
      addWork { s with solves := mapIns s.solves s.nextProg { desc := b, late := late } } { p with nany := n }

/-- An assembly whose descriptor's 256 bytes have been read (R238) (DEDUCED, assumption log 38). -/
def acceptAssembly (s : State) (p : Prog) (b : List Byte) : State :=
  let n := bit (lxFlags b) 0
  if n && (ctxOf s p.cid).strict then refuseWork s p stSTRICT_N 0xFFFFFFFF
  else
    let s := acceptN s p.cid n
    match lxCheck s p.cid 48 b with
    | some st => refuseWork (if st = stXLAT_FAULT then areasFault s p.cid 48 (lxAreas s p.cid 48 b) else s) p st 0
    | none => addWork { s with asms := mapIns s.asms s.nextProg { desc := b } } { p with nany := n }

/-- R667: accepts or refuses the work of an issue record. -/
def acceptWork (s : State) (p : Prog) : State :=
  let k := p.cid / 8
  match recordErr s p.cid p.issue with
  | some st => refuseWork s p st 0xFFFFFFFF
  | none =>
    if !mtargetOk s k p.kind p.issue.mtarget then refuseWork s p stMAINT_ONLY 0xFFFFFFFF
    else
      match p.kind with
      | .tile => acceptTile s p
      | .element => acceptElement s p
      | .solve =>
        if inSpace s k p.issue.prog 256 then acceptSolve s p (spBytes s p.cid p.issue.prog 256) else refuseWork s p stADDRESS 0
      | .assembly =>
        if inSpace s k p.issue.prog 256 then acceptAssembly s p (spBytes s p.cid p.issue.prog 256) else refuseWork s p stADDRESS 0

/-- R139, R298: takes the next record of a queue whose context runs and whose records are accepted. -/
def dispatchAccept (s : State) (lp q : Nat) : State :=
  let cid := lp / 64
  match (queueOf s lp q).recs with
  | [] => s
  | r :: rest =>
    if !ctxRunning s cid || !(runOf s cid).accepting then s
    else
      let n := (queueOf s lp q).recs.length
      let s := updQueue s lp q fun x => { x with recs := rest }
      let s := acceptWork s { newWork s (queueKind q) cid lp r.seq r.bytes with deferrable := r.deferrable }
      qspace s lp q n

/-- R169, R423: the continuation handles under which a tile program that is flushed or aborted would have written. -/
def lostConts (s : State) (p : Prog) : List Nat :=
  match p.kind, p.ended with
  | .tile, some e =>
    if e.status = stABORTED ∨ e.status = stFLUSHED then
      let (tt, tc, bs) := if p.tcount = 0 ∧ tileHeadOk s (p.cid / 8) p.cid p.issue.prog then
          let h := readTileHead s p.cid p.issue.prog
          (h.ttable, h.tcount, readBinds s p.cid)
        else (p.ttable, p.tcount, p.binds)
      let q := { p with ttable := tt, binds := bs }
      ((List.range tc).filterMap fun i =>
        let d := readTDesc s q i
        if tdOn d bnCONTINUE then some (tdB d (·.chandle)) else none).eraseDups
    else []
  | _, _ => []

/-- R148, R169: completes a piece of work, and notes the continuations that it leaves unfinished. -/
def workEnd (s : State) (id : Nat) : State :=
  match progOf s id with
  | none => s
  | some p =>
    let hs := if p.comp.isSome then [] else lostConts s p
    let s := workComplete s id
    { s with contQ := s.contQ ++ hs.map fun h => { cid := p.cid, handle := h, ranges := [], lost := true } }

/-- PROGRAM_COMPLETION (R148). -/
def execProgramCompletion (prog : Nat) (s : State) : Res := ran s (workEnd s prog)

/-- DISPATCHER_ACCEPT (R139, R667). `lp`: logical Particle (64 × context + index); `queue`: 0 to 3. -/
def execDispatcherAccept (lp queue : Nat) (s : State) : Res :=
  guardUnit (decide (queue < 4) && decide (lp < 6144)) (ran s (dispatchAccept s lp queue))

end Sys2Proof.Machine
end

