-- ==== Sys2Proof/Machine/HostLink.lean ====
section
/-! DEFINITION. The host link's commands (spec/16_host_link.md R488 to R511): memory windows, completions, Bus Master Enable,
walks and invalidations. -/

namespace Sys2Proof.Machine

/-! ### Memory windows (R491, R492) -/

/-- R492: partition and partition memory address of window offset `o` of function `f`; none where the offset is no window offset
or the function has no access. -/
def winAddr (s : State) (f o : Nat) : Option (Nat × Nat) :=
  if f = 0 then
    if o < 2 ^ 20 then some (fld s aPCI_MEMWIN 43 40, fld s aPCI_MEMWIN 39 0 + o) else none
  else if f ≤ 12 ∧ (fnOf s f).enabled ∧ (fnOf s f).flr = 0 ∧ o < 2 ^ 19 then
    some (f - 1, fld s (aPART_MEMWIN (f - 1)) 39 0 + o)
  else none

/-- R491: a naturally aligned request of 4 or 8 bytes (DEDUCED, assumption log 72). -/
def barAligned (o n : Nat) : Bool := (n == 4 || n == 8) && o % n == 0

/-- R491, R492: the completion of a window read of `n` bytes at window offset `o`, partition memory address `a` of partition `k` (DEDUCED, assumption log 72). -/
def winRead (s : State) (f k o a n : Nat) : HostOut :=
  if !barAligned o n then .cpl f 1 [] false
  else if pmSize s k < a + n then .cpl f 1 [] false
  else if pmOffline s k a n then .cpl f 4 [] false
  else
    let (bs, po) := pmRead s k a n
    .cpl f 0 bs po

/-- MEMORY_WINDOW_READ (R492). `off`: offset within the window; `n`: bytes asked for. -/
def execMemoryWindowRead (fn off n : Nat) (s : State) : Res :=
  ran s (if !hostUp s then s
    else if !devReady s then hostSend s (.cpl fn 1 [] false)
    else match winAddr s fn off with
    | some (k, a) =>
      -- R583
      if inEllipsis s then wakeBy (hostSend (satFld s aPCI_HOST_STATUS 31 16 1) (.cpl fn 4 [] false)) 4
      else hostSend s (winRead s fn k off a n)
    | none => s)

/-- R491: a request discarded. -/
def badAccess (s : State) : State := satFld s aPCI_HOST_STATUS 31 16 1
/-- R491: AER logs a Poisoned TLP Received. -/
def aerPoisoned (s : State) (f : Nat) : State := updFn s f fun x => { x with aer := x.aer ||| 2 ^ 12 }

/-- MEMORY_WINDOW_WRITE (R491, R492). -/
def execMemoryWindowWrite (fn off : Nat) (data : List (BitVec 8)) (poisoned : Bool) (s : State) : Res :=
  ran s (if !barOpen s then s
    else match winAddr s fn off with
    | some (k, a) =>
      if inEllipsis s then wakeBy (badAccess s) 4
      else if poisoned then aerPoisoned (badAccess s) fn
      else if !barAligned off data.length then badAccess s
      else if pmSize s k < a + data.length then s
      else pmWrite s k a data false
    | none => s)

/-- ATOMICOP_RECEIVED (R488): it completes with Unsupported Request. -/
def execAtomicopReceived (fn : Nat) (s : State) : Res := ran s (if hostUp s then hostSend s (.cpl fn 1 [] false) else s)

/-! ### Bus Master Enable (R500) -/

/-- R519, R539: the next fetch request of a ring begins at its head count. -/
def refetch (s : State) (ring : Nat) : State :=
  { s with sqs := mapUpd {} s.sqs ring fun q => { q with
      nextReq := (fld s (aPART_SQ_HEAD (ring / 16) (ring % 16)) 31 0) % 2 ^ 32 } }

/-- R500: the reads of a function are dropped: the work that waits for one learns of it, a fetch takes no slot. -/
def dropReads (s : State) (f : Nat) : State :=
  let mine := s.trackers.filter fun t => t.2.fn == f && !t.2.dropped
  let s := { s with trackers := s.trackers.map fun t => if t.2.fn == f then (t.1, { t.2 with dropped := true }) else t }
  mine.foldl (fun s t =>
    match t.2.work with
    | .fetch ring _ _ => refetch s ring
    | w => { s with answers := s.answers ++ [{ work := w, addr := t.2.addr, len := t.2.len, dropped := true }] }) s

/-- R500: Bus Master Enable of a function is cleared. -/
def bmeClear (s : State) (f : Nat) : State :=
  if (fnOf s f).bme then updFn (dropReads s f) f fun x => { x with bme := false } else s

/-- R500: held entries are sent in order, then the messages held as pending bits. -/
def flushHeld (s : State) (f : Nat) : State :=
  if fnSends s f then
    let x := fnOf s f
    let s := x.held.foldl hostSend s
    let s := ((List.range 32).filter fun v => bit x.msixPend v).foldl (fun s v => hostSend s (.msix f v)) s
    updFn s f fun y => { y with held := [], msixPend := 0 }
  else s

/-- R489: the functions of the host port. -/
def fnExists (f : Nat) : Bool := decide (f ≤ 12)

/-- R501, R625: a configuration request to a function: Request Retry Status until READY and while a function-level reset runs. -/
def cfgDo (s : State) (f : Nat) (act : State → State) : State :=
  if !hostUp s then s
  else if !devReady s || (fnOf s f).flr != 0 then hostSend s (.cpl f 2 [] false)
  else act s

/-- BUS_MASTER_ENABLE_CLEAR (R500). -/
def execBusMasterEnableClear (fn : Nat) (s : State) : Res := guardUnit (fnExists fn) (ran s (cfgDo s fn fun s => bmeClear s fn))

/-- BUS_MASTER_ENABLE_SET (R500): D3hot lets no function be bus master. -/
def execBusMasterEnableSet (fn : Nat) (s : State) : Res :=
  guardUnit (fnExists fn) (ran s (cfgDo s fn fun s =>
    if (fnOf s fn).d3hot then s
    else flushHeld (updFn s fn fun x => { x with bme := true }) fn))

/-- D3HOT_ENTRY (R488): clears the function's bus-master ability as R500 does. -/
def execD3hotEntry (fn : Nat) (s : State) : Res :=
  guardUnit (fnExists fn) (ran s (cfgDo s fn fun s => updFn (bmeClear s fn) fn fun x => { x with d3hot := true }))

/-- VF_ENABLE (R489): VF1 to VF`num` exist while `on`; the others are without host access. A VF taken away loses its
bus-master ability (DEDUCED, assumption log 71). -/
def execVfEnable (num : Nat) (on : Bool) (s : State) : Res :=
  ran s (cfgDo s 0 fun s => (List.range 12).foldl (fun s i =>
    let f := i + 1
    if on && decide (f ≤ num) then updFn s f fun x => { x with enabled := true }
    else updFn (bmeClear s f) f fun x => { x with enabled := false }) s)

/-! ### Completions (R495, R497, R499) -/

/-- R499: the tracker that a completion matches. -/
def cplTracker (s : State) (f tag : Nat) : Option Tracker :=
  match mapFind s.trackers (tag % 1024) with
  | some t => if t.fn = f ∧ t.gen = tag / 1024 ∧ t.gen = (fnOf s f).gen then some t else none
  | none => none

/-- Frees a tracker (R498). -/
def freeTrk (s : State) (i : Nat) : State := noteTrackers { s with trackers := mapDel s.trackers i }

/-- A read is finished: its work learns of it, unless its data is dropped. -/
def answerRead (s : State) (t : Tracker) (failed : Bool) : State :=
  if t.dropped then s
  else { s with answers := s.answers ++
    [{ work := t.work, addr := t.addr, len := t.len, got := t.got, failed := failed }] }

/-- HOST_COMPLETION (R495, R497, R499). `status`: 0 successful; `off`: where its data begins in the read; `last`: no further
completion of the read follows (DESIGN CHOICE, assumption log 20). -/
def execHostCompletion (fn tag status off : Nat) (data : List (BitVec 8)) (ep last : Bool) (s : State) : Res :=
  ran s (match cplTracker s fn tag with
    | none => satFld s aPCI_HOST_STATUS 15 0 1
    | some t =>
      let i := tag % 1024
      if status ≠ 0 then freeTrk (answerRead s t true) i
      else
        let t := { t with got := t.got ++ [(off, data, ep)] }
        let s := if ep && !t.dropped then aerPoisoned s fn else s
        if last then freeTrk (answerRead s t false) i
        else { s with trackers := mapIns s.trackers i t })

/-- COMPLETION_TIMEOUT (R497, R498, R500): the tracker is freed; a read whose data is dropped leaves no AER log. -/
def execCompletionTimeout (tracker : Nat) (s : State) : Res :=
  ran s (match mapFind s.trackers tracker with
    | none => s
    | some t =>
      let s := if t.dropped then s else updFn s t.fn fun x => { x with aer := x.aer ||| 2 ^ 14 }
      freeTrk (answerRead s t true) tracker)

/-! ### Walks and invalidations (R505 to R509) -/

/-- Key of a cached table entry: partition, level and the index bits down to that level. -/
def xtabKey (k lvl dva : Nat) : Nat := k * 2 ^ 48 + lvl * 2 ^ 40 + dva / 2 ^ (39 - 9 * lvl)

/-- The non-leaf entries of levels 0 to 2 that a walk reads: level and entry. -/
def xPath (s : State) (k dva : Nat) : Nat → Nat → Nat → List (Nat × Nat)
  | 0, _, _ => []
  | fuel + 1, t, lvl =>
    let e := leNat (pmRead s k (t + 8 * xIndex dva lvl) 8).1
    if lvl < 3 && bit e 0 then
      (lvl, e) :: (if bit e 1 then [] else xPath s k dva fuel (e / 256 * 256) (lvl + 1))
    else []

/-- R508: how deep the cached table entries reach: the next level and its table. -/
def xDeep (s : State) (k dva root : Nat) : Nat × Nat :=
  (List.range 3).foldl (fun a lvl =>
    if a.1 = lvl then
      match mapFind s.xtab (xtabKey k lvl dva) with
      | some e => if bit e 1 then a else (lvl + 1, e / 256 * 256)
      | none => a
    else a) (0, root)

/-- R508: keeps a cache within its entries: the one numbered `evict` among those of the owner gives way. -/
def evictFrom {α : Type} (m : Map α) (lo hi limit evict : Nat) : Map α :=
  let own := (m.filter fun p => decide (lo ≤ p.1) && decide (p.1 < hi)).map Prod.fst
  if own.length < limit then m else mapDel m (own.getD (evict % own.length) 0)

/-- R505, R508: the walk of a translation miss. -/
def walkMiss (s : State) (k sl dva : Nat) (write : Bool) (evict : Nat) : State :=
  let stop := xStop s k sl
  let root := fld s (aPART_XLAT k) 51 12 * 4096
  let (lvl, t) := xDeep s k dva root
  let fault (s : State) (c l : Nat) : State :=
    let s := xFault s k 0 dva c l write
    { s with xseen := s.xseen ++ [(k, dva, write)] }
  if fld s (aPART_XLAT k) 0 0 = 0 then fault s xNOT_VALID 0
  else
    match xWalk s k dva (4 - lvl) t lvl with
    | .error (c, l) => fault s c l
    | .ok e =>
      let xc := evictFrom s.xcache (stop * 2 ^ 32) ((stop + 1) * 2 ^ 32) 1024 evict
      let path := xPath s k dva 4 root 0
      let s := { s with
        xcache := mapIns xc (stop * 2 ^ 32 + dva / 65536) { e with oa := e.oa - dva % 65536 }
        xtab := path.foldl (fun m p =>
          mapIns (evictFrom m (k * 2 ^ 48) ((k + 1) * 2 ^ 48) 256 evict) (xtabKey k p.1 dva) p.2) s.xtab }
      match xUse s k e write with
      | .fault c l => fault s c l
      | _ => s

/-- TRANSLATION_WALK (R505, R508): a unit of slice `sl` (48: outside the slices) of partition `k` misses. -/
def execTranslationWalk (k sl dva : Nat) (write : Bool) (evict : Nat) (s : State) : Res :=
  guardUnit (decide (k < 12)) (ran s (
    if mapFind s.xcache (xStop s k sl * 2 ^ 32 + dva % 2 ^ 48 / 65536) = none then walkMiss s k sl (dva % 2 ^ 48) write evict else s))

/-- XLAT_INVALIDATE (R509): START sets BUSY. -/
def execXlatInvalidate (k : Nat) (s : State) : Res :=
  guardUnit (decide (k < 12)) (ran s (
    let a := aPART_XLAT_INV k
    match strobeOf s a 61 with
    | none => s
    | some _ => setBitOf (strobeClr s a 61) a 62))

/-- R509: takes the range of an invalidation out of the caches of a partition. -/
def xInval (s : State) (k : Nat) (all : Bool) (base pages : Nat) : State :=
  let stops := partSlices s k
  let hit (lo n : Nat) : Bool := all || (decide (lo < base + pages) && decide (base < lo + n))
  { s with
    xcache := s.xcache.filter fun p => !(stops.contains (p.1 / 2 ^ 32) && hit (p.1 % 2 ^ 32) 1)
    xtab := s.xtab.filter fun p =>
      let lvl := p.1 % 2 ^ 48 / 2 ^ 40
      let n := 2 ^ (23 - 9 * lvl)
      !(p.1 / 2 ^ 48 == k && hit (p.1 % 2 ^ 40 * n) n) }

/-- XLAT_INVALIDATE_DONE (R509): the range is out of the caches, DONE sets and BUSY clears. -/
def execXlatInvalidateDone (k : Nat) (s : State) : Res :=
  guardUnit (decide (k < 12)) (ran s (
    let a := aPART_XLAT_INV k
    if fld s a 62 62 = 0 then s
    else
      let s := xInval s k (fld s a 60 60 == 1) (fld s a 47 16) (fld s (aPART_XLAT_INV2 k) 31 0)
      setBitOf (clrBitOf s a 62) a 63))

end Sys2Proof.Machine
end

