-- ==== Sys2Proof/Machine/HostIO.lean ====
section
/-! DEFINITION. Reading and writing areas that may lie in the scratchpad, in stacked memory or, through HOST leaves, in host
memory (spec/16_host_link.md R493 to R497, R505 to R507). -/

namespace Sys2Proof.Machine

/-- One piece of an area: bytes here, or a host address with its attributes. -/
inductive Piece where
  | here (bytes : List Byte) (poison : Bool)
  | host (addr n : Nat) (ro ns : Bool)
  | fault (dva cause lvl : Nat)
  | outside
deriving DecidableEq, Repr

/-- A DVA range cut at 4 KiB boundaries: address and length. -/
def pagePieces : Nat → Nat → Nat → List (Nat × Nat)
  | 0, _, _ => []
  | fuel + 1, a, n =>
    if n = 0 then []
    else
      let m := min n (4096 - a % 4096)
      (a, m) :: pagePieces fuel (a + m) (n - m)

/-- R208, R505: what lies at an area reference's `n` bytes, read by a unit of slice `sl` for context `c`. -/
def areaPieces (s : State) (c sl r n : Nat) : List Piece :=
  let k := c / 8
  if arSpad r then
    if inSpace s k (arAddr r) n then
      let (bs, po) := arRead s c sl r n
      [.here bs po]
    else [.outside]
  else if 2 ^ 48 < arAddr r + n then [.outside]
  else (pagePieces (n / 4096 + 2) (arAddr r) n).map fun p =>
    match xlat s k sl p.1 false with
    | .host a ns ro => .host a p.2 ro ns
    | .pm a => let (bs, po) := pmRead s k a p.2; .here bs po
    | .fault ca l => .fault p.1 ca l

/-- What a read of an area has come to. -/
inductive Got where
  | done (bytes : List Byte) (poison hostData : Bool)
  | waiting
  /-- status of the failure (R511, R146) -/
  | failed (status : Nat)
deriving DecidableEq, Repr

/-- Drops what is outstanding or answered for a piece of host work. -/
def dropWork (s : State) (w : HostWork) : State :=
  { s with
    answers := s.answers.filter fun a => a.work != w
    trackers := s.trackers.map fun t => if t.2.work = w then (t.1, { t.2 with dropped := true }) else t }

/-- R493 to R500, R506: reads an area for a piece of host work. Host data is asked for, and the read is whole once every answer
has come; a request that failed ends it with HOST_ERROR (R497), and one that the function may not send, or whose data it dropped, with
ABORTED (R500) (DEDUCED, assumption log 97). -/
def areaGather (s : State) (c sl r n ckey : Nat) (w : HostWork) : State × Got :=
  let ps := areaPieces s c sl r n
  if ps.any (fun p => p == .outside) then (s, .failed stADDRESS)
  else
    match ps.findSome? fun p => match p with | .fault d ca l => some (d, ca, l) | _ => none with
    | some (d, ca, l) => (xFault s (c / 8) ckey d ca l false, .failed stXLAT_FAULT)
    | none =>
      let hs := ps.filterMap fun p => match p with | .host a m ro ns => some (a, m, ro, ns) | _ => none
      if hs.isEmpty then
        (s, .done (ps.flatMap fun p => match p with | .here b _ => b | _ => []) (ps.any fun p => match p with | .here _ po => po | _ => false) false)
      else
        let ans (a m : Nat) : Option HostAns := s.answers.find? fun x => x.work == w && x.addr == a && x.len == m
        if !fnSends s (vfOf (c / 8)) || (s.answers.any fun x => x.work == w && x.dropped) then (dropWork s w, .failed stABORTED)
        else if s.answers.any fun x => x.work == w && x.failed then (dropWork s w, .failed stHOST_ERROR)
        else if hs.all fun h => (ans h.1 h.2.1).isSome then
          let bs := ps.flatMap fun p => match p with
            | .here b _ => b
            | .host a m _ _ => match ans a m with | some x => ansBytes x | none => []
            | _ => []
          let po := ps.any fun p => match p with
            | .here _ po => po
            | .host a m _ _ => match ans a m with | some x => ansPoison x | none => false
            | _ => false
          (dropWork s w, .done bs po true)
        else
          (hs.foldl (fun s h =>
            if (ans h.1 h.2.1).isSome || s.trackers.any (fun t => t.2.work == w && t.2.addr == h.1 && !t.2.dropped) then s
            else (hostRead s (vfOf (c / 8)) w h.1 h.2.1 h.2.2.1 h.2.2.2).getD s) s, .waiting)

/-- R505, R506: can an area be written by a unit of slice `sl`: none, or the status and the state with the fault recorded. -/
def areaCheck (s : State) (c sl r n ckey : Nat) (write : Bool) : Option (State × Nat) :=
  match arReach s c sl r n write with
  | .ok => none
  | .host => if fnSends s (vfOf (c / 8)) then none else some (s, stABORTED)
  | .outside => some (s, stADDRESS)
  | .fault d ca l => some (xFault s (c / 8) ckey d ca l write, stXLAT_FAULT)

/-- Writes an area that `areaCheck` accepts, host pieces as host write requests (R494, R507). -/
def areaStore (s : State) (c sl r : Nat) (bs : List Byte) (poison : Bool) : State :=
  if arSpad r then arWrite s c sl r bs poison
  else
    let k := c / 8
    (pagePieces (bs.length / 4096 + 2) (arAddr r) bs.length).foldl (fun (s : State) p =>
      let b := (bs.drop (p.1 - arAddr r)).take p.2
      match xlat s k sl p.1 true with
      | .host a ns ro => hostWrite s (vfOf k) 10 a b poison ro ns
      | .pm _ => dvaWrite s k sl p.1 b poison
      | .fault _ _ => s) s

end Sys2Proof.Machine
end

