-- ==== Sys2Proof/Machine/YlvOps.lean ====
section
/-! DEFINITION. Yilvo: packets, links, sequence numbers, replay, routing and arbitration
(spec/12_yilvo_links.md R362 to R394). -/

namespace Sys2Proof.Machine

/-! ### Packets (R367 to R370) -/

/-- One bit of the CRC-32 of IEEE 802.3. -/
def crcBit (c : Nat) : Nat := if c % 2 = 1 then (c / 2) ^^^ 0xEDB88320 else c / 2
/-- One byte of the CRC-32. -/
def crcByte (c : Nat) (b : Byte) : Nat :=
  crcBit (crcBit (crcBit (crcBit (crcBit (crcBit (crcBit (crcBit (c ^^^ b.toNat))))))))
/-- R368: the CRC-32 of IEEE 802.3 (DEDUCED, assumption log 57). -/
def crc32 (bs : List Byte) : Nat := bs.foldl crcByte 0xFFFFFFFF ^^^ 0xFFFFFFFF

/-- `bs` laid over a list of bytes at an offset. -/
def layBytes (l : List Byte) (off : Nat) (bs : List Byte) : List Byte := l.take off ++ bs ++ l.drop (off + bs.length)

/-- A field of a packet's first beat. -/
def pkNat (p : Pkt) (off n : Nat) : Nat := leNat ((p.hdr.drop off).take n)
/-- Replaces a field of a packet's first beat. -/
def pkSet (p : Pkt) (off n v : Nat) : Pkt := { p with hdr := layBytes p.hdr off (natLe n v) }
/-- R367: TYPE. -/
def pkType (p : Pkt) : Nat := pkNat p 0 1
/-- R368: KEY. -/
def pkKey (p : Pkt) : Nat := pkNat p 6 2
/-- R368: CKT. -/
def pkCkt (p : Pkt) : Bool := bit (pkNat p 1 1) 1
/-- R369: LEN. -/
def pkLen (p : Pkt) : Nat := pkNat p 16 2 % 8192

/-- R367: packet types. -/
def ptLINKCTL : Nat := 1
/-- R367. -/
def ptREPLAY : Nat := 2
/-- R367. -/
def ptTSYNC : Nat := 4
/-- R367. -/
def ptSIGNAL : Nat := 0x10
/-- R367. -/
def ptWACK : Nat := 0x11
/-- R367. -/
def ptREAD : Nat := 0x12
/-- R367. -/
def ptABORT : Nat := 0x13
/-- R367. -/
def ptUNDEL : Nat := 0x14
/-- R367. -/
def ptCOLL : Nat := 0x15
/-- R367. -/
def ptDATA : Nat := 0x20

/-- R367: does a TYPE code exist. -/
def typeKnown (t : Nat) : Bool := decide (t < 5) || (decide (0x10 ≤ t) && decide (t ≤ 0x15)) || t == 0x20

/-- R366, R368: this device's DEVID. -/
def ownDev (s : State) : Nat := fld s aYLV_TOPO 31 16

/-- R368: a packet from this device: bytes 16 to 59 are `body`, filled with zeros. -/
def mkPkt (s : State) (ty flags key dest cid tag : Nat) (body payload : List Byte) (poison : Nat) : Pkt :=
  let h := natLe 1 ty ++ natLe 1 flags ++ natLe 4 0 ++ natLe 2 key ++ natLe 2 dest ++ natLe 2 (ownDev s) ++ natLe 1 cid ++
    natLe 1 63 ++ natLe 2 tag ++ (body ++ List.replicate 44 0).take 44 ++ natLe 4 0
  { hdr := h, payload := payload, poison := poison }

/-- R370: is a packet collective traffic. -/
def pkColl (p : Pkt) : Bool := (pkType p == ptDATA && pkNat p 18 1 == 2) || pkType p == ptCOLL || pkType p == ptABORT

/-- R367: beats of a packet. -/
def pkBeats (p : Pkt) : Nat := if pkType p = ptDATA then (p.payload.length + 63) / 64 + 2 else 1

/-- R379: virtual channel. -/
def pkVc (p : Pkt) : Nat := (if pkType p = ptDATA then 0 else 2) + pkNat p 1 1 % 2

/-- R390: rank. -/
def pkRank (r : EReq) : Nat :=
  if r.from_ = 16 then 3 else if pkType r.pkt ≠ ptDATA then 2 else if r.from_ = 15 ∨ pkCkt r.pkt then 1 else 0

/-- R369: the trailer, and the payload padded to whole beats. -/
def pkTail (p : Pkt) : List Byte :=
  if pkType p = ptDATA then
    let body := p.payload ++ List.replicate ((64 - p.payload.length % 64) % 64) 0
    let t := natLe 16 p.poison ++ natLe 1 ((if p.stomp then 1 else 0) + if p.nan then 2 else 0) ++ List.replicate 43 0
    let c := crc32 (body ++ t)
    body ++ t ++ natLe 4 (if p.stomp then c ^^^ 0xFFFFFFFF else c)
  else []

/-- R368: a packet's beats as one link carries them. -/
def pkWire (p : Pkt) (seq exp : Nat) : List Byte :=
  let h := layBytes (layBytes p.hdr 2 (natLe 2 seq)) 4 (natLe 2 (exp + 2 ^ 15))
  layBytes h 60 (natLe 4 (crc32 (h.take 60))) ++ pkTail p

/-! ### Ports and directions (R364 to R366, R380, R381) -/

/-- A port's record. -/
def portOf (s : State) (p : Nat) : Port := mapGet {} s.ports p
/-- Changes a port's record. -/
def updPort (s : State) (p : Nat) (f : Port → Port) : State := { s with ports := mapUpd {} s.ports p f }
/-- R402: STATE of a port: 0 DISABLED, 1 TRAINING, 2 UP, 3 RETRAIN, 4 DOWN, 5 MISCABLED. -/
def portState (s : State) (p : Nat) : Nat := fld s (aYLV_PORT_STATUS p) 2 0
/-- Is a port UP. -/
def portUp (s : State) (p : Nat) : Bool := portState s p == 2
/-- R364: a port's direction: 2 × dimension, + 1 for the − direction; mirror ports and an unconfigured torus have none. -/
def portDir (s : State) (p : Nat) : Option Nat :=
  if 12 ≤ p then none
  else match fld s aYLV_TOPO 1 0 with
    | 1 => some (p % 6)
    | 2 => some (p % 4)
    | _ => none
/-- The Y ports of a direction, rising. -/
def dirPorts (s : State) (d : Nat) : List Nat := (List.range 12).filter fun p => portDir s p == some d
/-- R366: coordinate of a DEVID in a dimension. -/
def devCoord (dev dim : Nat) : Nat := match dim with | 0 => bits dev 4 0 | 1 => bits dev 9 5 | _ => bits dev 13 10
/-- R400: size of a dimension. -/
def dimSize (s : State) (dim : Nat) : Nat :=
  1 + (match dim with | 0 => fld s aYLV_TOPO 6 2 | 1 => fld s aYLV_TOPO 11 7 | _ => fld s aYLV_TOPO 15 12)

/-- R382: does a DEVID lie in this torus. -/
def devInside (s : State) (dev : Nat) : Bool :=
  dev / 2 ^ 15 == 0 && bit dev 14 == bit (ownDev s) 14 && (List.range 3).all fun d => decide (devCoord dev d < dimSize s d)

/-- R380: the direction that dimension order gives, for an order of the dimensions; none at the destination. -/
def routeDir (s : State) (dest : Nat) (order : List Nat) : Option Nat :=
  order.findSome? fun dim =>
    let n := dimSize s dim
    let d := (devCoord dest dim + n - devCoord (ownDev s) dim) % n
    if d = 0 then none else if 2 * d ≤ n then some (2 * dim) else some (2 * dim + 1)

/-- R381: the port of a direction group. -/
def groupPort (s : State) (d src dest : Nat) : Option Nat :=
  let ups := (dirPorts s d).filter (portUp s)
  if ups.isEmpty then none else some (ups.getD ((src ^^^ dest) % ups.length) 0)

/-- R379: does a hop in a direction cross the dimension's wrap. -/
def crossesWrap (s : State) (d : Nat) : Bool :=
  let x := devCoord (ownDev s) (d / 2)
  if d % 2 = 0 then x + 1 == dimSize s (d / 2) else x == 0

/-- R379: VCD of a packet that leaves by port `e`, having come in by `p`. -/
def vcdNext (s : State) (p e : Nat) (pk : Pkt) : Pkt :=
  match portDir s e with
  | none => pk
  | some d =>
    let stay := match portDir s p with | some x => x / 2 == d / 2 | none => false
    let v := crossesWrap s d || (stay && bit (pkNat pk 1 1) 0)
    pkSet pk 1 1 (setBits (pkNat pk 1 1) 0 0 (if v then 1 else 0))

/-! ### Egress requests and undeliverable packets (R382, R389) -/

/-- R389: a request at the egress of port `e`. -/
def egressPush (s : State) (e src : Nat) (pk : Pkt) (lock : Bool) : State :=
  { updPort s e fun q => { q with wait := q.wait ++ [{ id := s.nextReq, from_ := src, pkt := pk, lock := lock, since := s.tense.toNat }] }
    with nextReq := s.nextReq + 1 }

/-- R380, R381: where a packet without CKT, or one that starts here, goes. -/
inductive Route where
  | here
  | port (e : Nat)
  | none (cause : Nat)
deriving DecidableEq, Repr

/-- R380 to R382 (DEDUCED, assumption log 58). -/
def routeOf (s : State) (pk : Pkt) : Route :=
  let dest := pkNat pk 8 2
  if dest = ownDev s then .here
  else if !devInside s dest then .none 1
  else
    match routeDir s dest [0, 1, 2] with
    | none => .here
    | some d => match groupPort s d (pkNat pk 10 2) dest with | some e => .port e | none => .none 1

/-- A packet that starts at this device, from source `src` (14 local, 15 the reduction arithmetic). One without a way out comes
back as an UNDELIVERABLE to this device (DEDUCED, assumption log 58). -/
def inject (s : State) (src : Nat) (pk : Pkt) (lock : Bool) : State :=
  match routeOf s pk with
  | .here => { s with loop := s.loop ++ [pk] }
  | .port e => egressPush s e src (vcdNext s 14 e pk) lock
  | .none c =>
    if pkType pk = ptUNDEL then s
    else
      let b := natLe 2 (pkNat pk 14 2) ++ natLe 1 c ++ natLe 1 (pkType pk) ++ natLe 1 (if pkColl pk then 1 else 0)
      { s with loop := s.loop ++ [mkPkt s ptUNDEL 0 (pkKey pk) (ownDev s) 0 (pkNat pk 14 2) b [] 0] }

/-- R382: an UNDELIVERABLE to the origin of a packet (DEDUCED, assumption log 61). -/
def sendUndel (s : State) (pk : Pkt) (cause : Nat) : State :=
  if pkType pk = ptUNDEL then s
  else
    let b := natLe 2 (pkNat pk 14 2) ++ natLe 1 cause ++ natLe 1 (pkType pk) ++ natLe 1 (if pkColl pk then 1 else 0)
    inject s 14 (mkPkt s ptUNDEL 0 (pkKey pk) (pkNat pk 10 2) 0 (pkNat pk 14 2) b [] 0) false

/-- R382: a packet that came in by port `p` is undeliverable. -/
def undeliverable (s : State) (p : Nat) (pk : Pkt) (cause : Nat) : State :=
  sendUndel (if p < 14 then satFld s (aYLV_DROP p) 47 32 1 else s) pk cause

/-- R386: a discard for a key. -/
def keyDrop (s : State) (p : Nat) (pk : Pkt) : State :=
  if p < 14 then setFld (satFld s (aYLV_DROP p) 15 0 1) (aYLV_DROP p) 63 56 (pkKey pk) else s

/-! ### Links (R371 to R378) -/

/-- Puts beats on a port's wire. -/
def wireOut (s : State) (p : Nat) (w : WireOut) : State := { s with wire := s.wire ++ [(p, w)] }

/-- R371: sends LINKCTL: acknowledgement, NAK and the credit to return. -/
def sendLinkctl (s : State) (p : Nat) (nak : Bool) : State :=
  let q := portOf s p
  let b := natLe 1 ptLINKCTL ++ natLe 1 0 ++ natLe 2 (q.exp + 2 ^ 15) ++ natLe 1 (if nak then 1 else 0) ++ natLe 3 0 ++
    q.give.flatMap (natLe 2) ++ List.replicate 44 0
  updPort (wireOut s p (.beats (b ++ natLe 4 (crc32 b)))) p fun q =>
    { q with give := [0, 0, 0, 0], unacked := 0, ctlAt := s.tense.toNat }

/-- R377, R598: a link event is reported. -/
def reportLink (s : State) (p : Nat) : State := report s clEVENT 0xC 0xFF (0x10 + p) 0xFF []

/-- R377: a port retrains. -/
def retrain (s : State) (p : Nat) : State :=
  let s := setFld s (aYLV_PORT_STATUS p) 2 0 3
  reportLink (updPort (satFld s (aYLV_LINK_CNT p) 63 56 1) p fun q => { q with hits := q.hits + 1, fruitless := 0 }) p

/-- Sends every buffered packet from SEQ `e` on, with unchanged SEQ. -/
def resendFrom (s : State) (p e : Nat) : State :=
  let q := portOf s p
  (q.replay.filter fun r => decide ((r.1 + 4096 - e) % 4096 < 2048)).foldl (fun s r => wireOut s p (.beats (pkWire r.2 r.1 q.exp))) s

/-- R376: a replay from `e`; the fourth in a row that frees nothing retrains the link. -/
def replayFrom (s : State) (p e : Nat) : State :=
  let q := portOf s p
  if q.fruitless = 4 then retrain s p
  else
    let rs := natLe 1 ptREPLAY ++ List.replicate 59 0
    let s := wireOut (satFld s (aYLV_LINK_CNT p) 47 32 1) p (.beats (rs ++ natLe 4 (crc32 rs)))
    updPort (resendFrom s p e) p fun q => { q with fruitless := q.fruitless + 1, hits := q.hits + 1, waitFrom := s.tense.toNat }

/-- R375: an acknowledgement; the Bool says whether it was valid. -/
def takeAck (s : State) (p a : Nat) : State × Bool :=
  let q := portOf s p
  let n := (a + 4096 - q.oldest) % 4096
  if n ≤ (q.next + 4096 - q.oldest) % 4096 then
    if n = 0 then (s, true)
    else (updPort s p fun q => { q with oldest := a, replay := q.replay.drop n, fruitless := 0, waitFrom := s.tense.toNat }, true)
  else (retrain (satFld s (aYLV_LINK_CNT p) 55 48 1) p, false)

/-- R372, R374: sends NAK with E; `deaf`: beats are discarded until REPLAY_START. -/
def sendNak (s : State) (p : Nat) (deaf : Bool) : State :=
  updPort (sendLinkctl s p true) p fun q => { q with nakSent := true, deaf := q.deaf || deaf }

/-- R372: is a beat's header good: its CRC holds and its TYPE exists. -/
def headOk (bytes : List Byte) : Bool :=
  decide (64 ≤ bytes.length) && leNat ((bytes.drop 60).take 4) == crc32 (bytes.take 60) && typeKnown (leNat (bytes.take 1))

/-- R372: a header failure. -/
def headFail (s : State) (p : Nat) : State := sendNak (satFld s (aYLV_LINK_CNT p) 31 16 1) p true

/-- A link-local beat of a TYPE arrives at an UP port: what the row does with it, or the header failure. -/
def rxLocal (s : State) (p ty : Nat) (fec : Bool) (bytes : List Byte) (act : State → State) : State :=
  if !portUp s p then s
  else if (portOf s p).deaf ∧ (ty ≠ ptREPLAY ∨ fec ∨ headOk bytes = false) then s
  else if fec || !headOk bytes then headFail s p
  else if leNat (bytes.take 1) = ty then act s
  else s

/-- R369: a DATA packet from its beats; payload that did not arrive is zero. The Nat: 0 PCRC good, 1 bad, 2 stomped. -/
def parseData (bytes : List Byte) : Pkt × Nat :=
  let hdr := bytes.take 64
  let len := leNat ((hdr.drop 16).take 2) % 8192
  let nb := (len + 63) / 64 * 64
  let body := (bytes.drop 64).take nb
  let t := ((bytes.drop 64).drop nb).take 64
  let c := crc32 (body ++ t.take 60)
  let got := leNat (t.drop 60)
  let fl := leNat ((t.drop 16).take 1)
  let st := if body.length < nb ∨ t.length < 64 then 1
    else if bit fl 0 ∧ got = c ^^^ 0xFFFFFFFF then 2 else if got = c then 0 else 1
  ({ hdr := hdr, payload := (body ++ List.replicate 4096 0).take len, poison := leNat (t.take 16), nan := bit fl 1 }, st)

/-- R369, R370, R10: a packet's reserved fields and values. -/
def pkReserved (p : Pkt) : Bool :=
  let z (a n : Nat) : Bool := pkNat p a n == 0
  !(decide (pkNat p 1 1 < 8) && decide (pkNat p 13 1 < 64)) || !(match pkType p with
    | 0x10 => z 21 39 && decide (pkNat p 16 2 < 2 ^ 14) && pkNat p 18 2 != 0 && decide (pkNat p 20 1 < 2)
    | 0x11 => z 19 41
    | 0x12 => z 18 6 && z 40 20 && pkNat p 16 2 != 0 && decide (pkNat p 16 2 ≤ 4096)
    | 0x13 => z 22 2 && z 28 32
    | 0x14 => z 21 39 && decide (pkNat p 20 1 < 2)
    | 0x15 => z 48 12 && decide (pkNat p 24 1 < 4)
    | _ => z 19 5 && pkNat p 16 2 != 0 && decide (pkNat p 16 2 ≤ 4096) && decide (pkNat p 18 1 < 3)
        && (pkNat p 18 1 == 2 || z 32 28))

/-! ### Ingress (R382, R385, R386) -/

/-- R386: is a key VALID in an ingress port's filter. -/
def keyFiltered (s : State) (p key : Nat) : Bool :=
  (List.range 64).any fun i => fld s (aYLV_KEYFILT p i) 31 31 == 1 && fld s (aYLV_KEYFILT p i) 15 0 == key

/-- R385: a discard on a circuit entry. -/
def cktDrop (s : State) (p cid : Nat) : State := satFld (satFld s (aCKTCNT p cid) 63 32 1) (aYLV_DROP p) 31 16 1

/-- R378, R385, R386: an accepted packet enters the switch: it is checked, forwarded, and handed to `act` where a copy is
delivered here. A packet that is not `whole` (its payload failed its CRC or came stomped) is only forwarded, stomped (DEDUCED, assumption log 57). -/
def ingress (s : State) (p : Nat) (pk : Pkt) (whole : Bool) (act : State → Pkt → State) : State :=
  let out : Pkt := { pk with stomp := pk.stomp || !whole }
  let dec (q : Pkt) : Pkt := pkSet q 13 1 (pkNat q 13 1 - 1)
  let here (s : State) : State := if whole then act s pk else s
  if pkCkt pk then
    let c := pkNat pk 12 1
    let e := regGet s (aCKT p c)
    let eg := bits e 7 4
    if !bit e 0 || bits e 31 16 != pkKey pk then cktDrop s p c
    else if bit e 2 && !portUp s eg then sendUndel (cktDrop s p c) pk 3
    else if pkNat pk 13 1 ≤ 1 then undeliverable s p pk 2
    else
      let s := satFld s (aCKTCNT p c) 31 0 1
      let s := if bit e 2 then egressPush s eg p (vcdNext s p eg (pkSet (dec out) 12 1 (bits e 15 8))) false else s
      if bit e 1 || bit e 3 then here s else s
  else if !keyFiltered s p (pkKey pk) then keyDrop s p pk
  else if 12 ≤ p then here s
  else if pkNat pk 13 1 ≤ 1 then undeliverable s p pk 2
  else
    match routeOf s pk with
    | .here => here s
    | .port e => egressPush s e p (vcdNext s p e (dec out)) false
    | .none c => undeliverable s p pk c

/-- R371, R379: an accepted packet's beats leave the receive buffer. -/
def takeIn (s : State) (p : Nat) (pk : Pkt) : State :=
  updPort s p fun q => { q with
    exp := (q.exp + 1) % 4096, nakSent := false, unacked := q.unacked + 1
    give := q.give.set (pkVc pk) (q.give.getD (pkVc pk) 0 + pkBeats pk) }

/-- R372 to R374, R378: a sequenced packet arrives at an UP port. `mine`: the row's own packets; `act`: what it does with a copy
that is delivered here (DEDUCED, assumption log 57). -/
def rxPacket (s : State) (p : Nat) (fec : Bool) (bytes : List Byte) (mine : Pkt → Bool) (act : State → Pkt → State) : State :=
  if p = 14 then
    match s.loop with
    | pk :: rest => if mine pk then act { s with loop := rest } pk else s
    | [] => s
  else if !portUp s p || (portOf s p).deaf then s
  else if fec || !headOk bytes then headFail s p
  else
    let (pk, st) := if leNat (bytes.take 1) = ptDATA then parseData bytes else ({ hdr := bytes.take 64 }, 0)
    if pkType pk < 0x10 ∨ !mine pk then s
    else
      let (s, ok) := if bit (pkNat pk 4 2) 15 then takeAck s p (pkNat pk 4 2 % 4096) else (s, true)
      let d := (pkNat pk 2 2 + 4096 - (portOf s p).exp) % 4096
      if !ok then s
      else if d = 0 then
        if st = 1 then
          let s := ingress s p pk false act
          sendNak (satFld s (aYLV_LINK_CNT p) 31 16 1) p true
        else
          let s := takeIn s p pk
          if st = 2 then ingress (satFld s (aYLV_DROP p) 55 48 1) p { pk with stomp := true } false act
          else if pkReserved pk then s
          else ingress s p pk true act
      else if d < 2048 then (if (portOf s p).nakSent then s else sendNak s p false)
      else s

/-! ### The egress arbiter (R389 to R394) -/

/-- R373, R379: may a packet start now (DEDUCED, assumption log 58). -/
def mayStart (s : State) (e : Nat) (pk : Pkt) : Bool :=
  let q := portOf s e
  portUp s e && decide (q.replay.length < 1024)
    && decide ((q.replay.map fun r => pkBeats r.2).sum + pkBeats pk ≤ 16384) && decide (pkBeats pk ≤ q.cred.getD (pkVc pk) 0)

/-- R390: how far round the requesters a requester stands. -/
def roundOf (last r : Nat) : Nat := (r + 15 - last) % 16

/-- R377, R390, R391: the request that the arbiter of port `e` grants next. What a down port of the group still held goes
first, in its order (requester 16) (DESIGN CHOICE, assumption log 94). -/
def egressPick (s : State) (e : Nat) : Option EReq :=
  let q := portOf s e
  match q.wait.find? fun r => r.from_ == 16 with
  | some r => if mayStart s e r.pkt then some r else none
  | none =>
  let ok := q.wait.filter fun r => mayStart s e r.pkt
  let best (a b : EReq) : EReq :=
    if pkRank b < pkRank a then a else if pkRank a < pkRank b then b
    else if roundOf q.last b.from_ < roundOf q.last a.from_ then b else a
  match q.lock.bind fun l => ok.find? fun r => r.from_ == l.1 with
  | some r => some r
  | none => match ok with | [] => none | r :: rest => some (rest.foldl best r)

/-- R368, R373: a granted packet is sent and enters the replay buffer. -/
def sendPkt (s : State) (e : Nat) (pk : Pkt) : State :=
  let q := portOf s e
  let s := wireOut s e (.beats (pkWire pk q.next q.exp))
  updPort s e fun q => { q with
    replay := q.replay ++ [(q.next, pk)], next := (q.next + 1) % 4096, unacked := 0
    waitFrom := if q.replay.isEmpty then s.tense.toNat else q.waitFrom
    cred := q.cred.set (pkVc pk) (q.cred.getD (pkVc pk) 0 - pkBeats pk) }

/-- R391: a locked sequence goes on, or ends; the eighth transfer ends it (DEDUCED, assumption log 58). -/
def lockNext (s : State) (e : Nat) (r : EReq) : State :=
  let n := match (portOf s e).lock with | some (f, n) => if f = r.from_ then n + 1 else 1 | none => 1
  if !r.lock then updPort s e fun q => { q with lock := none }
  else if n = 8 then satFld (updPort s e fun q => { q with lock := none }) (aYLV_STARVE e) 63 48 1
  else updPort s e fun q => { q with lock := some (r.from_, n) }

/-- R394: a transfer that waited longer than 10 µs is counted for its rank. -/
def starved (s : State) (e : Nat) (r : EReq) : State :=
  if r.since + 10000 < s.tense.toNat then satFld s (aYLV_STARVE e) (16 * pkRank r + 15) (16 * pkRank r) 1 else s

/-- R316, R428: the remote signals that wait leave for their handles' destinations, with TAG the handle. -/
def drainSigs (s : State) : State :=
  s.outSigs.foldl (fun s g =>
    match mapGet .none s.handles (1024 * g.part + g.handle) with
    | .route dev cid ckt _ =>
      inject s 14 (mkPkt s ptSIGNAL (if ckt then 2 else 0) g.key.toNat dev (if ckt then cid else 0) g.handle
        (natLe 2 g.index ++ natLe 2 g.inc ++ natLe 1 (if g.error then 1 else 0)) [] 0) false
    | _ => s) { s with outSigs := [] }

/-- R389: the arbiter of port `e` commits its next grant. -/
def egressCommit (s : State) (e : Nat) : State :=
  let s := drainSigs s
  match egressPick s e with
  | none => s
  | some r =>
    if r.from_ = 16 then sendPkt (updPort s e fun q => { q with wait := q.wait.filter fun x => x.id != r.id }) e r.pkt
    else
      let s := lockNext (starved s e r) e r
      sendPkt (updPort s e fun q => { q with wait := q.wait.filter fun x => x.id != r.id, last := r.from_ }) e r.pkt

/-- R377, R382: what waits at a port that went DOWN finds another way, or none (DEDUCED, assumption log 61). -/
def rerouteWaiting (s : State) (p : Nat) : State :=
  let ws := (portOf s p).wait
  let s := updPort s p fun q => { q with wait := [], lock := none }
  ws.foldl (fun s r =>
    if pkCkt r.pkt ∧ r.from_ < 14 then undeliverable s r.from_ r.pkt 3
    else
      match routeOf s r.pkt with
      | .port e => egressPush s e r.from_ r.pkt r.lock
      | .none c => undeliverable s r.from_ r.pkt c
      | .here => s) s

end Sys2Proof.Machine
end

