-- ==== Sys2Proof/Machine/CollOps.lean ====
section
/-! DEFINITION. Collectives: groups, reduction arithmetic, schedules, close and abort
(spec/13_collectives.md R405 to R426). -/

namespace Sys2Proof.Machine

/-! ### The group record (R405, R406) -/

/-- A field of a group record. -/
def gNat (g : Group) (off n : Nat) : Nat := leNat ((g.rec_.drop off).take n)
/-- R405: is it an all-gather. -/
def gAll (g : Group) : Bool := gNat g 2 1 == 1
/-- R405: SCHED: 0 RING, 1 HALVING, 2 MULTICAST (DEDUCED, assumption log 62). -/
def gSched (g : Group) : Nat := gNat g 3 1
/-- R405: OP. -/
def gOp (g : Group) : Nat := gNat g 4 1
/-- R405: IN_FMT. -/
def gIn (g : Group) : Nat := gNat g 5 1 % 16
/-- R405: OUT_FMT. -/
def gOut (g : Group) : Nat := gNat g 5 1 / 16
/-- R405: members. -/
def gG (g : Group) : Nat := gNat g 8 2
/-- R405: RANK. -/
def gRank (g : Group) : Nat := gNat g 0xA 2
/-- R405: WINDOW. -/
def gWin (g : Group) : Nat := gNat g 7 1
/-- R405: SEG_BYTES. -/
def gSegB (g : Group) : Nat := gNat g 0xC 4
/-- R405: SHARE_BYTES. -/
def gShare (g : Group) : Nat := gNat g 0x10 8
/-- R405: segments of a share. -/
def gSps (g : Group) : Nat := (gShare g + gSegB g - 1) / gSegB g
/-- R405: bytes of segment `t` of a share. -/
def gSegLen (g : Group) (t : Nat) : Nat := min (gSegB g) (gShare g - t * gSegB g)
/-- R406: a peer table entry, where it is VALID: DEVID and CID. -/
def gPeer (g : Group) (i : Nat) : Option (Nat × Nat) :=
  let e := g.peers.getD i 0
  if bit e 24 then some (e % 65536, bits e 23 16) else none
/-- The model's key of a group. -/
def gKey (g : Group) : Nat := 65536 * g.cid + g.group
/-- log2 of a power of two. -/
def gLog (g : Group) : Nat := clog2 (gG g)

/-- R411: an exact SUM of IN_FMT 1 to 5. -/
def gExact (g : Group) : Bool := !gAll g && gOp g == 0 && decide (1 ≤ gIn g) && decide (gIn g ≤ 5)
/-- R411: an integer SUM. -/
def gInt (g : Group) : Bool := !gAll g && gOp g == 0 && decide (10 ≤ gIn g)
/-- R407: cell size in bytes. -/
def gCell (g : Group) : Nat := if gExact g then 48 else 16
/-- Bytes of an element of a reduce-scatter's IN_FMT. -/
def gEw (g : Group) : Nat := fmtWidth (fmtOf (gIn g)) / 8
/-- Units of a segment: elements of a reduce-scatter, bytes of an all-gather. -/
def gUnits (g : Group) (t : Nat) : Nat := if gAll g then gSegLen g t else gSegLen g t / gEw g
/-- R407: footprint of a segment. -/
def gFoot (g : Group) : Nat := if gAll g then gSegB g else gSegB g / gEw g * gCell g

/-- R407: a combination that the reduction arithmetic accepts. -/
def gFormOk (g : Group) : Bool :=
  let i := gIn g
  let o := gOut g
  let sc := gSched g
  match gNat g 2 1, gOp g with
  | 0, 0 =>
    if i = 0 then decide (o ≤ 1) && sc == 1
    else if i ≤ 5 then decide (o ≤ 5) && decide (sc ≤ 1)
    else (10 ≤ i && i ≤ 12) && (o == 10 || o == i) && decide (sc ≤ 1)
  | 0, 1 => (decide (i ≤ 5) || (10 ≤ i && i ≤ 12)) && o == i && decide (sc ≤ 1)
  | 0, 2 => (decide (i ≤ 5) || (10 ≤ i && i ≤ 12)) && o == i && decide (sc ≤ 1)
  | 1, 0 => o == i && decide (sc ≤ 2)
  | _, _ => false

/-- R405, R406, R407, R413: the rules that SETUP checks. -/
def gRecordOk (g : Group) : Bool :=
  let n := gG g
  let r := gRank g
  let w := fmtWidth (fmtOf (gIn g))
  gFormOk g && (rndOf (gNat g 6 1)).isSome && (gNat g 6 1 == 0 || (!gAll g && gOp g == 0))
    && decide (1 ≤ gWin g) && decide (gWin g ≤ 16) && decide (1 ≤ n) && decide (n ≤ 8192) && decide (r < n)
    && gSegB g % 256 == 0 && decide (256 ≤ gSegB g) && decide (gSegB g ≤ 65536)
    && decide (1 ≤ gShare g) && decide (gShare g ≤ 2 ^ 40) && 8 * gShare g % w == 0
    && !([gNat g 0x18 8, gNat g 0x20 8, gNat g 0x28 8, gNat g 0x48 8].any arRsv)
    && gNat g 0x30 8 / 2 ^ 40 == 0 && (gNat g 0x30 8 == 0 || (!gAll g && gOp g == 0 && gIn g == 0))
    && gNat g 0x30 8 % n == 0 && !bit (gNat g 0x40 2) 14 && (bit (gNat g 0x40 2) 15 == (gNat g 0x42 2 != 0))
    && gNat g 0x44 4 == 0 && ((g.rec_.drop 0x50).all (· == 0))
    && (gSched g != 1 || 2 ^ gLog g == n) && decide (gSps g * n < 2 ^ 32)
    && (g.peers.all fun e => e / 2 ^ 25 == 0)
    && ((gPeer g 2).isSome == decide (0 < r)) && ((gPeer g 3).isSome == decide (2 * r + 1 < n))
    && ((gPeer g 4).isSome == decide (2 * r + 2 < n))
    && (n == 1 || (match gSched g with
      | 0 => (gPeer g 0).isSome && (gPeer g 1).isSome
      | 1 => (List.range (gLog g)).all fun i => (gPeer g (5 + i)).isSome
      | _ => (gPeer g 0).isSome))

/-! ### Schedules (R416) -/

/-- Do two ranks agree on bits `[hi-1:0]`. -/
def lowAgree (a b hi : Nat) : Bool := a % 2 ^ hi == b % 2 ^ hi

/-- R416: the steps of a schedule, in order. -/
def gSteps (g : Group) : List Nat :=
  if gG g = 1 then []
  else match gSched g with
    | 0 => List.range (gG g - 1)
    | 1 => if gAll g then (List.range (gLog g)).reverse else List.range (gLog g)
    | _ => [0]

/-- R416: the shares that rank `r` sends at step `st`. Within a step shares go in increasing number (DEDUCED, assumption log 62). -/
def gShares (g : Group) (r st : Nat) : List Nat :=
  let n := gG g
  match gSched g with
  | 0 => if gAll g then [(r + n - st % n) % n] else [(r + 2 * n - st - 1) % n]
  | 1 =>
    (List.range n).filter fun j =>
      if gAll g then lowAgree j r (st + 1) else lowAgree j r st && bit j st != bit r st
  | _ => [r]

/-- R416: the rank that sends to this member at a step, given the FROM field. -/
def gFromOk (g : Group) (st from_ : Nat) : Bool :=
  let n := gG g
  let r := gRank g
  match gSched g with
  | 0 => from_ == (r + n - 1) % n
  | 1 => from_ == (r ^^^ 2 ^ st)
  | _ => decide (from_ < n) && from_ != r

/-- R406: the peer entry that a step sends to. -/
def gTo (g : Group) (st : Nat) : Nat := if gSched g = 1 then 5 + st else 0

/-- The model's key of a segment at a step. -/
def rk (st seg : Nat) : Nat := 2 ^ 32 * st + seg
/-- The segment at place `k` of a step's order. -/
def gKth (g : Group) (st k : Nat) : Nat := (gShares g (gRank g) st).getD (k / gSps g) 0 * gSps g + k % gSps g
/-- The place of a segment in a step's order. -/
def gPlace (g : Group) (st seg : Nat) : Option Nat :=
  ((gShares g (gRank g) st).findIdx? (· == seg / gSps g)).map fun i => i * gSps g + seg % gSps g

/-! ### Cells (R411 to R415) -/

/-- A contribution's element in its cell. -/
def cellIn (g : Group) (raw : Nat) (poison : Bool) : RCell :=
  let f := fmtOf (gIn g)
  match decNum f 0 raw with
  | .nan => { raw := raw, nan := true, poison := poison }
  | .inf n => { raw := raw, pinf := !n, ninf := n, poison := poison }
  | .fin n m e =>
    let m' := if gExact g then m <<< (e + 149).toNat else m
    { v := if n then -(m' : Int) else (m' : Int), raw := raw, poison := poison }

/-- R414: is `a` ordered below `b`, −0 below +0. -/
def ordLt (a b : Num) : Bool := numLt a b || (numEq a b && numNeg a && !numNeg b)

/-- R411, R413, R414: combines two cells. -/
def cellAdd (g : Group) (a b : RCell) : RCell :=
  let f := fmtOf (gIn g)
  let po := a.poison || b.poison
  if gExact g then
    { v := a.v + b.v, nan := a.nan || b.nan, pinf := a.pinf || b.pinf, ninf := a.ninf || b.ninf, poison := po }
  else if gInt g then { v := a.v + b.v, poison := po }
  else if gOp g = 0 then
    let x := (encNum f 0 .rne false 0 (numAdd false (decNum f 0 a.raw) (decNum f 0 b.raw))).pat
    { raw := x, nan := numIsNan (decNum f 0 x), poison := po }
  else
    let x := decNum f 0 a.raw
    let y := decNum f 0 b.raw
    if numIsNan x ∨ numIsNan y then { raw := canonNan f, nan := true, poison := po }
    else
      let takeB := if gOp g = 1 then ordLt x y else ordLt y x
      { raw := if takeB then b.raw else a.raw, poison := po }

/-- R411: the value of an exact cell. -/
def cellNum (c : RCell) : Num :=
  if c.nan || (c.pinf && c.ninf) then .nan
  else if c.pinf then .inf false else if c.ninf then .inf true
  else .fin (decide (c.v < 0)) c.v.natAbs (-149)

/-- R411, R413, R414: the final pattern of an element. `ix`: its index in the whole vector. -/
def cellOut (s : State) (g : Group) (ix : Nat) (c : RCell) : Nat :=
  let o := fmtOf (gOut g)
  let rnd := (rndOf (gNat g 6 1)).getD .rne
  let u := if rnd = .sr then srBits (ctxOf s g.cid).seed (runOf s g.cid).step (gNat g 0x38 4) ix else 0
  if gExact g then (encNum o 0 rnd false u (cellNum c)).pat
  else if gInt g then (encNum o 0 .rne false 0 (numInt c.v)).pat
  else if gOp g = 0 then (encNum o 0 rnd false u (decNum (fmtOf (gIn g)) 0 c.raw)).pat
  else if c.nan then canonNan o else c.raw

/-- R412: does a window of `w` words from word `b` hold a value. -/
def winHolds (v : Int) (w b : Nat) : Bool :=
  v % (2 ^ (64 * b) : Nat) == 0 && decide (-(2 ^ (64 * w - 1) : Nat) ≤ v / (2 ^ (64 * b) : Nat))
    && decide (v / (2 ^ (64 * b) : Nat) < (2 ^ (64 * w - 1) : Nat))

/-- R412: the least W, and then the greatest BASE, that hold every element (DEDUCED, assumption log 62). -/
def winPick (vs : List Int) : Nat × Nat :=
  (((List.range 5).flatMap fun i => ((List.range (5 - i)).reverse).map fun b => (i + 1, b)).find?
    fun p => vs.all fun v => winHolds v p.1 p.2).getD (5, 0)

/-- R412: is a cell flagged. -/
def cellFlag (c : RCell) : Bool := c.nan || c.pinf || c.ninf

/-- How a step's elements travel (R407, R412): CFORM and payload, and the bytes of each element. -/
def carry (g : Group) (st : Nat) (cs : List RCell) : Nat × List Byte × Nat :=
  if gAll g then (0, cs.map fun c => BitVec.ofNat 8 c.raw, 1)
  else if st = 0 ∨ !(gExact g || gInt g) then (0, cs.flatMap (fun c => natLe (gEw g) c.raw), gEw g)
  else if gInt g then (1, cs.flatMap (fun c => natLe 8 (toTwos 64 c.v)), 8)
  else
    let vs := cs.map fun c => if cellFlag c then 0 else c.v
    let (w, b) := winPick vs
    let special := cs.any cellFlag
    let code (c : RCell) : Nat := if c.nan || (c.pinf && c.ninf) then 3 else if c.ninf then 2 else if c.pinf then 1 else 0
    let vec := natLe ((cs.length + 31) / 32 * 8) (packNat 2 (cs.map code))
    (w + 8 * b + (if special then 64 else 0),
      vs.flatMap (fun v => natLe (8 * w) (toTwos (64 * w) (v / (2 ^ (64 * b) : Nat)))) ++ (if special then vec else []), 8 * w)

/-- R412: the elements that a packet carries; none where CFORM or the payload's length is not what the step allows. -/
def uncarry (g : Group) (st cform n : Nat) (bs : List Byte) (po : Nat → Nat → Bool) : Option (List RCell) :=
  let at_ (i w : Nat) : Nat := leNat ((bs.drop (i * w)).take w)
  if gAll g then
    if cform = 0 ∧ bs.length * 8 = n * fmtWidth (fmtOf (gIn g)) then
      some ((List.range bs.length).map fun i => { raw := at_ i 1, poison := po i 1 })
    else none
  else if st = 0 ∨ !(gExact g || gInt g) then
    let w := gEw g
    if cform = 0 ∧ bs.length = n * w then some ((List.range n).map fun i => cellIn g (at_ i w) (po (i * w) w)) else none
  else if gInt g then
    if cform = 1 ∧ bs.length = 8 * n then some ((List.range n).map fun i => { v := sext 64 (at_ i 8), poison := po (8 * i) 8 }) else none
  else
    let w := cform % 8
    let b := bits cform 5 3
    let sp := bit cform 6
    let vb := if sp then (n + 31) / 32 * 8 else 0
    if w = 0 ∨ 5 < b + w ∨ bit cform 7 ∨ bs.length ≠ n * 8 * w + vb then none
    else
      let vec := leNat (bs.drop (n * 8 * w))
      some ((List.range n).map fun i =>
        let c := if sp then bits vec (2 * i + 1) (2 * i) else 0
        { v := sext (64 * w) (at_ i (8 * w)) * (2 ^ (64 * b) : Nat), nan := c == 3, pinf := c == 1, ninf := c == 2,
          poison := po (i * 8 * w) (8 * w) })

/-- Units that a packet of a step carries at most. -/
def perPacket (g : Group) (st : Nat) : Nat :=
  if gAll g then (if fmtWidth (fmtOf (gIn g)) = 6 then 3072 else 4096)
  else if st = 0 ∨ !(gExact g || gInt g) then 4096 / gEw g
  else if gInt g then 512 else 64

/-! ### Groups, results, packets -/

/-- A group that is set up. -/
def groupOf (s : State) (gk : Nat) : Option Group := mapFind s.groups gk
/-- Puts a group. -/
def setGroup (s : State) (gk : Nat) (g : Group) : State := { s with groups := mapIns s.groups gk g }
/-- Changes a group's run. -/
def updRunOf (s : State) (gk : Nat) (f : RRun → RRun) : State :=
  match groupOf s gk with
  | some g => match g.run with | some r => setGroup s gk { g with run := some (f r) } | none => s
  | none => s

/-- R386: the live context of the device that carries a key. -/
def devCtx (s : State) (key : Nat) : Option Nat :=
  if key = 0 then none else (s.ctxs.find? fun c => c.2.live && c.2.ckey == BitVec.ofNat 16 key).map (·.1)

/-- R431: reservations and groups as YLV_RED_STATUS shows them. -/
def noteGroups (s : State) : State :=
  let used := (s.groups.map fun g => gWin g.2 * gFoot g.2).sum
  setFld (setFld s aYLV_RED_STATUS 14 0 ((used + 1023) / 1024)) aYLV_RED_STATUS 45 32 s.groups.length

/-- R422: replays and retrains of every port. -/
def allHits (s : State) : Nat := (s.ports.map fun p => p.2.hits).sum

/-- R422: is a stack of the partition at level 2 or above. -/
def partHot (s : State) (k : Nat) : Bool := (partSlices s k).any fun i => decide (2 ≤ fld s (aHBM_STATUS i) 9 8)

/-- R422: this member's cause, 0 where no condition held. -/
def runCause (s : State) (r : RRun) : Nat :=
  if r.srcPoison then 3 else if allHits s ≠ r.hits then 2 else if r.thermal then 1 else if r.hostStall then 5 else 0

/-- R426: sends a COLLECTIVE packet of a group to a DEVID. -/
def sendColl (s : State) (g : Group) (dest cop : Nat) (seg cflags cause slowRank slowT fastT count step : Nat) : State :=
  let b := natLe 1 cop ++ natLe 1 g.gen ++ natLe 2 g.group ++ natLe 4 seg ++ natLe 1 cflags ++ natLe 1 cause ++ natLe 2 slowRank ++
    natLe 8 slowT ++ natLe 8 fastT ++ natLe 2 count ++ natLe 2 step
  inject s 14 (mkPkt s ptCOLL 0 ((ctxOf s g.cid).ckey.toNat) dest 0 g.group b [] 0) false

/-- R409: sends FREE for a segment of a step. -/
def sendFree (s : State) (g : Group) (dest st seg : Nat) : State := sendColl s g dest 1 seg 0 0 0 0 0 0 st

/-- R424, R426: sends an ABORT of a generation. -/
def sendAbort (s : State) (key group gen cause origin seg dest : Nat) : State :=
  let b := natLe 2 group ++ natLe 1 gen ++ natLe 1 cause ++ natLe 2 origin ++ natLe 2 0 ++ natLe 4 seg
  inject s 14 (mkPkt s ptABORT 0 key dest 0 group b [] 0) false

/-- R424: DEVIDs of the tree entries of a group. -/
def treeDevs (g : Group) : List Nat := [2, 3, 4].filterMap fun i => (gPeer g i).map (·.1)

/-- R465: a generation of a gate group ends. -/
def gateEnded (s : State) (g : Group) (r : RRun) (aborted sticky : Bool) : State :=
  updCtx s g.cid fun c => match c.table with
    | some t => if t.gates.contains g.group && !r.old then
        { c with table := some { t with ended := (t.ended.filter (·.1 != g.group)) ++ [(g.group, aborted, sticky)] } } else c
    | none => c

/-- R421: writes the result record and signals; the generation is over. -/
def runOver (s : State) (gk : Nat) (g : Group) (r : RRun) (status acause origin : Nat) (cl : RDone) : State :=
  let lt := r.readyT.getD 0
  let cause := let c := runCause s r; if c = 0 ∧ r.readyT.isSome ∧ lt = cl.slowT ∧ status < 2 then 4 else c
  let flags := (if cl.sticky then 1 else 0) + (if r.poison then 2 else 0) + (if cl.poison then 4 else 0)
  let b := natLe 1 status ++ natLe 1 acause ++ natLe 2 flags ++ natLe 4 r.done.length ++ natLe 2 cl.slowRank ++ natLe 1 cl.cause ++
    natLe 1 cause ++ natLe 4 r.localLate ++ natLe 4 r.upLate ++ natLe 2 origin ++ natLe 2 0 ++ natLe 8 cl.slowT ++ natLe 8 cl.fastT ++
    natLe 8 lt ++ List.replicate 16 0
  let s := match areaCheck s g.cid 48 (gNat g 0x48 8) 64 ((ctxOf s g.cid).ckey.toNat) true with
    | none => areaStore s g.cid 48 (gNat g 0x48 8) b false
    | some (s, _) => s
  let cj := gNat g 0x40 2
  let s := if bit cj 15 then conjSignal s (cj % 2 ^ 14) (gNat g 0x42 2) (statusErr status) (ctxOf s g.cid).ckey else s
  let s := if status = stPOISONED then orSflags s g.cid 8 else s
  let s := gateEnded s g r (decide (2 ≤ status)) cl.sticky
  setGroup (dropHostSegs s gk) gk { g with run := none, counts := [] }
where
  /-- host reads of the generation are dropped -/
  dropHostSegs (s : State) (gk : Nat) : State :=
    let mine (w : HostWork) : Bool := match w with | .coll k _ => k == gk | _ => false
    { s with
      answers := s.answers.filter fun a => !mine a.work
      trackers := s.trackers.map fun t => if mine t.2.work then (t.1, { t.2 with dropped := true }) else t }

/-- R430. -/
def stCOLL_ABORT : Nat := 0x70

/-- R424: the member acts on an abort of its running generation; ABORT goes to the tree entries but the one it came from. -/
def collAbort (s : State) (gk cause origin seg : Nat) (came : Option Nat) : State :=
  match groupOf s gk with
  | none => s
  | some g =>
    match g.run with
    | none => s
    | some r =>
      let s := ((treeDevs g).filter fun d => some d != came).foldl (fun s d =>
        sendAbort s ((ctxOf s g.cid).ckey.toNat) g.group g.gen cause origin seg d) s
      let s := if cause = 1 then markIndet s g.cid else s
      let s := satFld s aYLV_RED_CNT 47 32 1
      runOver s gk { g with aborted := some g.gen } r stCOLL_ABORT cause origin { sticky := r.sticky }

/-- R423: this member starts an abort (DEDUCED, assumption log 63). -/
def collFail (s : State) (gk cause seg : Nat) : State :=
  match groupOf s gk with
  | some g => collAbort s gk cause (gRank g) seg none
  | none => s

/-! ### Contributions and readiness (R410, R417) -/

/-- R417: is a segment of the own contribution ready. -/
def segReady (g : Group) (seg : Nat) : Bool :=
  (match g.run with | some r => r.whole | none => g.bound.isNone) || decide (gSegLen g (seg % gSps g) ≤ mapGet 0 g.counts seg)

/-- Area reference of a segment of SRC. -/
def srcAt (g : Group) (seg : Nat) : Nat :=
  gNat g 0x18 8 + (if gAll g then 0 else seg / gSps g * gShare g) + seg % gSps g * gSegB g

/-- R410: reads the own contribution to a segment: its units in cells, once host data has come (DEDUCED, assumption log 62). -/
def contribution (s : State) (gk : Nat) (g : Group) (seg : Nat) : State × Option (List RCell) :=
  let a := srcAt g seg
  let n := gSegLen g (seg % gSps g)
  match areaGather s g.cid 48 a n ((ctxOf s g.cid).ckey.toNat) (.coll gk seg) with
  | (s, .waiting) => (updRunOf s gk fun r => { r with hostStall := true }, none)
  | (s, .failed st) => (collFail s gk (if st = stHOST_ERROR ∨ st = stABORTED ∨ st = stXLAT_FAULT then 7 else 8) seg, none)
  | (s, .done bs po hostData) =>
    let w := if gAll g then 1 else gEw g
    let cs := (List.range (n / w)).map fun i =>
      let raw := leNat ((bs.drop (i * w)).take w)
      let p := po && (hostData || (arRead s g.cid 48 (a + i * w) w).2)
      if gAll g then { raw := raw, poison := p } else cellIn g raw p
    let nan := if gAll g then
        fmtIsFloat (fmtOf (gIn g)) && (8 ≤ fmtWidth (fmtOf (gIn g)) &&
          (List.range (n * 8 / fmtWidth (fmtOf (gIn g)))).any fun i =>
            let e := fmtWidth (fmtOf (gIn g)) / 8
            numIsNan (decNum (fmtOf (gIn g)) 0 (leNat ((bs.drop (i * e)).take e))))
      else cs.any (·.nan)
    (updRunOf s gk fun r => { r with
      sticky := r.sticky || nan, srcPoison := r.srcPoison || po, poison := r.poison || po
      thermal := r.thermal || (!arSpad a && partHot s (g.cid / 8)) }, some cs)

/-- The arrivals of a segment at a step, where all have come. -/
def arrived (r : RRun) (st seg : Nat) : Option RSeg :=
  match mapFind r.segs (rk st seg) with
  | some x => if x.full then some x else none
  | none => none

/-- The units of a whole arrival. -/
def segCells (x : RSeg) : List RCell := x.got.map (·.2)

/-- Writes a list of units of one width at an area, poison by unit. -/
def storeUnits (s : State) (c a w : Nat) (us : List (Nat × Bool)) : State :=
  let s := areaStore s c 48 a (us.flatMap fun u => natLe w u.1) false
  (us.zipIdx).foldl (fun s u => if u.1.2 then areaStore s c 48 (a + u.2 * w) (natLe w u.1.1) true else s) s

/-- Marks a segment as finalised or written. -/
def segDone (s : State) (gk seg : Nat) : State := updRunOf s gk fun r => { r with done := mapIns r.done seg true }

/-- R416: the steps whose arrivals a reduce-scatter combines before it sends segment `seg` at step `st`. -/
def needSteps (g : Group) (st : Nat) : List Nat :=
  if gSched g = 0 then (if st = 0 then [] else [st - 1]) else List.range st

/-- Takes arrivals out of the cells and sends FREE for each (R409). -/
def releaseSegs (s : State) (gk : Nat) (g : Group) (sts : List Nat) (seg : Nat) : State :=
  sts.foldl (fun s st =>
    match (groupOf s gk).bind (·.run) with
    | some r =>
      match mapFind r.segs (rk st seg) with
      | some x => sendFree (updRunOf s gk fun r => { r with segs := mapDel r.segs (rk st seg) }) g x.src st seg
      | none => s
    | none => s) s

/-- R411, R416: finalises a segment of the own share of a reduce-scatter, where everything it needs is there. -/
def finishSeg (s : State) (gk seg : Nat) : State :=
  match groupOf s gk with
  | none => s
  | some g =>
    match g.run with
    | none => s
    | some r =>
      let sts := if gG g = 1 then [] else needSteps g (if gSched g = 0 then gG g - 1 else gLog g)
      let arr := sts.map fun st => arrived r st seg
      if (mapFind r.done seg).isSome || !segReady g seg || arr.any Option.isNone then s
      else
        match contribution s gk g seg with
        | (s, none) => s
        | (s, some own) =>
          let cs := (arr.filterMap id).foldl (fun (acc : List RCell) x => (acc.zip (segCells x)).map fun p => cellAdd g p.1 p.2) own
          let ow := fmtWidth (fmtOf (gOut g)) / 8
          let t := seg % gSps g
          let e0 := seg / gSps g * (gShare g / gEw g) + t * (gSegB g / gEw g)
          let outs := (cs.zipIdx).map fun c => (cellOut s g (e0 + c.2) c.1, c.1.poison)
          let s := storeUnits s g.cid (gNat g 0x20 8 + t * (gSegB g / gEw g) * ow) ow outs
          let s := updRunOf s gk fun r => { r with
            sticky := r.sticky || outs.any (fun o => numIsNan (decNum (fmtOf (gOut g)) 0 o.1)) || cs.any (·.nan)
            poison := r.poison || cs.any (·.poison)
            thermal := r.thermal || (!arSpad (gNat g 0x20 8) && partHot s (g.cid / 8)) }
          releaseSegs (segDone s gk seg) gk g sts seg

/-- R416: copies a segment of the own share of an all-gather into its position of DST. -/
def copyOwn (s : State) (gk seg : Nat) : State :=
  match groupOf s gk with
  | none => s
  | some g =>
    match g.run with
    | none => s
    | some r =>
      if (mapFind r.done seg).isSome || !segReady g seg then s
      else
        match contribution s gk g seg with
        | (s, none) => s
        | (s, some cs) =>
          segDone (storeUnits s g.cid (gNat g 0x20 8 + seg / gSps g * gShare g + seg % gSps g * gSegB g) 1
            (cs.map fun c => (c.raw, c.poison))) gk seg

/-- R416: a whole segment of another member's share is written into DST; its cells are free. -/
def writeGather (s : State) (gk st seg : Nat) : State :=
  match groupOf s gk with
  | none => s
  | some g =>
    match g.run.bind fun r => arrived r st seg with
    | none => s
    | some x =>
      if (g.run.bind fun r => mapFind r.done seg).isSome then s
      else
        let s := storeUnits s g.cid (gNat g 0x20 8 + seg / gSps g * gShare g + seg % gSps g * gSegB g) 1
          ((segCells x).map fun c => (c.raw, c.poison))
        let s := updRunOf s gk fun r => { r with poison := r.poison || (segCells x).any (·.poison) }
        sendFree (segDone s gk seg) g x.src st seg

/-! ### Close (R420, R463) -/

/-- R463: the step flags that a gate group's DONE or CLOSE samples and clears: the masked flags. -/
def sampleGate (s : State) (g : Group) : State × Bool :=
  match (ctxOf s g.cid).table with
  | some t =>
    if t.gates.contains g.group then
      let f := (ctxOf s g.cid).sflags &&& t.gateMask
      (updCtx s g.cid fun c => { c with sflags := c.sflags - f, table := some { t with sampled := t.sampled ||| f } }, f != 0)
    else (s, false)
  | none => (s, false)

/-- R420: combines what two subtrees report. -/
def doneJoin (a b : RDone) : RDone :=
  let bSlow := decide (a.slowT < b.slowT) || (a.slowT == b.slowT && decide (b.slowRank < a.slowRank))
  { sticky := a.sticky || b.sticky, poison := a.poison || b.poison
    cause := if bSlow then b.cause else a.cause, slowRank := if bSlow then b.slowRank else a.slowRank
    slowT := max a.slowT b.slowT, fastT := min a.fastT b.fastT, count := a.count + b.count }

/-- R420: sends a DONE or CLOSE. -/
def sendClose (s : State) (g : Group) (dest cop : Nat) (d : RDone) : State :=
  sendColl s g dest cop 0 ((if d.sticky then 1 else 0) + if d.poison then 2 else 0) d.cause d.slowRank d.slowT d.fastT d.count 0

/-- R420, R421: the CLOSE of a generation reaches this member. -/
def collClose (s : State) (gk : Nat) (d : RDone) : State :=
  match groupOf s gk with
  | none => s
  | some g =>
    match g.run with
    | none => s
    | some r =>
      let s := ([3, 4].filterMap fun i => (gPeer g i).map (·.1)).foldl (fun s dv => sendClose s g dv 3 d) s
      runOver s gk g { r with sticky := r.sticky } (if d.poison then stPOISONED else stOK) 0 0xFFFF d

/-- R420: has the member finished every step of its generation. -/
def stepsDone (g : Group) (r : RRun) : Bool :=
  r.readyT.isSome && r.sent.length == ((gSteps g).map fun st => (gShares g (gRank g) st).length * gSps g).sum
    && r.done.length == (if gAll g then gG g * gSps g else gSps g)

/-- R420: DONE, or at rank 0 CLOSE, once every step is finished and each child has sent DONE. -/
def tryDone (s : State) (gk : Nat) : State :=
  match groupOf s gk with
  | none => s
  | some g =>
    match g.run with
    | none => s
    | some r =>
      let kids := [3, 4].filter fun i => (gPeer g i).isSome
      if r.doneSent || !stepsDone g r || !(kids.all fun i => (mapFind r.kids i).isSome) then s
      else
        let (s, gate) := sampleGate s g
        let t := r.readyT.getD 0
        let c := runCause s r
        let me : RDone := { sticky := r.sticky || gate, poison := r.poison, cause := if c = 0 then 4 else c
                            slowRank := gRank g, slowT := t, fastT := t, count := 1 }
        let d := (r.kids.map (·.2)).foldl doneJoin me
        let s := updRunOf s gk fun r => { r with doneSent := true }
        match gPeer g 2 with
        | some p => sendClose s g p.1 2 d
        | none => if d.count = gG g then collClose s gk d else collFail s gk 8 0xFFFFFFFF

/-- What a group's progress asks for once something has come: own segments finalised or copied, and the close. -/
def collProgress (s : State) (gk : Nat) : State :=
  if pwrState s ≠ 0 then s
  else
    match groupOf s gk with
    | none => s
    | some g =>
      let own := (List.range (gSps g)).map fun t => gRank g * gSps g + t
      tryDone (own.foldl (fun s seg => if gAll g then copyOwn s gk seg else finishSeg s gk seg) s) gk

/-! ### Sending (R409, R410, R416) -/

/-- The units that a step sends of a segment, once they can be formed (DEDUCED, assumption log 62). -/
def sendUnits (s : State) (gk : Nat) (g : Group) (r : RRun) (st seg : Nat) : State × Option (List RCell) :=
  let own := !gAll g || seg / gSps g == gRank g
  if own && !segReady g seg then (s, none)
  else if gAll g then
    if own then contribution s gk g seg
    else
      let from_ := if gSched g = 0 then [st - 1] else (List.range (gLog g)).filter fun x => decide (st < x)
      (s, (from_.findSome? fun x => arrived r x seg).map segCells)
  else
    let arr := (needSteps g st).map fun x => arrived r x seg
    if arr.any Option.isNone then (s, none)
    else
      match contribution s gk g seg with
      | (s, none) => (s, none)
      | (s, some own) =>
        (s, some ((arr.filterMap id).foldl (fun (acc : List RCell) x => (acc.zip (segCells x)).map fun p => cellAdd g p.1 p.2) own))

/-- R425: the packets of a segment's output; all but the last are marked LOCK (R410). -/
def sendPackets (s : State) (g : Group) (r : RRun) (st seg : Nat) (cs : List RCell) : State :=
  match gPeer g (gTo g st) with
  | none => s
  | some (dev, cid) =>
    let per := perPacket g st
    let n := (cs.length + per - 1) / per
    (List.range n).foldl (fun s i =>
      let u := (cs.drop (i * per)).take per
      let (cform, bs, w) := carry g st u
      let fw := fmtWidth (fmtOf (gIn g))
      let ne (x : Nat) : Nat := if gAll g then x * 8 / fw else x
      let po := (u.zipIdx).foldl (fun m c =>
        if c.1.poison then (List.range ((c.2 * w + w - 1) / 32 + 1 - c.2 * w / 32)).foldl (fun m j => m ||| 2 ^ (c.2 * w / 32 + j)) m else m) 0
      let b := natLe 2 bs.length ++ natLe 1 2 ++ natLe 5 0 ++ natLe 8 0 ++ natLe 2 g.group ++ natLe 1 g.gen ++
        natLe 1 (if gAll g then 1 else 0) ++ natLe 2 st ++ natLe 2 (gRank g) ++ natLe 4 seg ++ natLe 4 (ne (i * per)) ++
        natLe 2 (ne u.length) ++ natLe 1 cform ++ natLe 1 (gIn g)
      let pk := mkPkt s ptDATA 2 ((ctxOf s g.cid).ckey.toNat) dev cid g.group b bs po
      inject s 15 { pk with nan := r.sticky || u.any (·.nan) } (decide (i + 1 < n))) s

/-- R409, R416: sends segment `seg` of step `st`, where it is next in the step's order and the window allows. -/
def segSend (s : State) (gk st seg : Nat) : State :=
  match groupOf s gk with
  | none => s
  | some g =>
    match g.run with
    | none => s
    | some r =>
      if pwrState s ≠ 0 || !(gSteps g).contains st || (mapFind r.sent (rk st seg)).isSome then s
      else
        match gPlace g st seg with
        | none => s
        | some k =>
          let need := if gSched g = 2 then gG g - 1 else 1
          if (k ≠ 0 ∧ (mapFind r.sent (rk st (gKth g st (k - 1)))).isNone)
              ∨ (gWin g ≤ k ∧ mapGet 0 r.freed (rk st (gKth g st (k - gWin g))) < need) then s
          else
            match sendUnits s gk g r st seg with
            | (s, none) => s
            | (s, some cs) =>
              match (groupOf s gk).bind (·.run) with
              | none => s
              | some r =>
                let s := sendPackets s g r st seg cs
                let s := updRunOf s gk fun r => { r with sent := mapIns r.sent (rk st seg) true }
                if gAll g then s else releaseSegs s gk g (needSteps g st) seg

/-! ### Arrivals (R410, R418) -/

/-- R418: what a packet of generation `gen` meets: 0 combined, 1 held, 2 stale, 3 dropped. -/
def genMeets (g : Group) (gen : Nat) : Nat :=
  match (gen + 256 - g.gen) % 256 with
  | 0 => if g.run.isSome then 0 else if g.aborted == some g.gen then 3 else 2
  | 1 => 1
  | _ => 2

/-- R410, R415, R423: a DATA packet of the running generation is combined in its segment's cells. -/
def reduceIn (s : State) (gk : Nat) (pk : Pkt) : State :=
  match groupOf s gk with
  | none => s
  | some g =>
    match g.run with
    | none => s
    | some r =>
      let st := pkNat pk 36 2
      let from_ := pkNat pk 38 2
      let seg := pkNat pk 40 4
      let sh := seg / gSps g
      let fw := fmtWidth (fmtOf (gIn g))
      let eoff := pkNat pk 44 4
      let off := if gAll g then eoff * fw / 8 else eoff
      let po (a n : Nat) : Bool := (List.range ((a + n - 1) / 32 + 1 - a / 32)).any fun i => bit pk.poison (a / 32 + i)
      let cells := uncarry g st (pkNat pk 50 1) (pkNat pk 48 2) pk.payload po
      let bad := pkNat pk 35 1 != (if gAll g then 1 else 0) || pkNat pk 51 1 != gIn g || !(gSteps g).contains st || !gFromOk g st from_
        || !(gShares g from_ st).contains sh || decide (gSps g * gG g ≤ seg) || pkNat pk 24 8 != 0 || pkNat pk 52 8 != 0
      match cells with
      | none => collFail s gk 8 seg
      | some cs =>
        if bad || decide (gUnits g (seg % gSps g) < off + cs.length) then collFail s gk 8 seg
        else
          let x := mapGet {} r.segs (rk st seg)
          let got := (cs.zipIdx).foldl (fun m c => mapIns m (off + c.2) c.1) x.got
          let full := got.length == gUnits g (seg % gSps g)
          let ready := gAll g || segReady g seg
          let s := updRunOf s gk fun r => { r with
            segs := mapIns r.segs (rk st seg) { got := got, full := full, src := pkNat pk 10 2 }
            sticky := r.sticky || pk.nan
            poison := r.poison || cs.any (·.poison)
            localLate := if full && !ready then satAdd 32 r.localLate 1 else r.localLate
            upLate := if full && ready && !gAll g then satAdd 32 r.upLate 1 else r.upLate }
          if full && gAll g && pwrState s == 0 then collProgress (writeGather s gk st seg) gk else collProgress s gk

/-- R418, R583: a collective packet of group `group` under its key: what its generation meets decides. -/
def collPacket (s : State) (pk : Pkt) (group gen : Nat) (act : State → Nat → State) : State :=
  let s := wakeBy s 5
  match devCtx s (pkKey pk) with
  | none => s
  | some c =>
    let gk := 65536 * c + group
    match groupOf s gk with
    | none => sendAbort (satFld s aYLV_RED_CNT 31 16 1) (pkKey pk) group gen 5 0xFFFF 0xFFFFFFFF (pkNat pk 10 2)
    | some g =>
      match genMeets g gen with
      | 0 => act s gk
      | 1 => setGroup s gk { g with held := g.held ++ [{ port := 0, pkt := pk }] }
      | 2 => satFld s aYLV_RED_CNT 15 0 1
      | _ => s

/-- R409: a FREE for a segment. -/
def freeIn (s : State) (pk : Pkt) (gk : Nat) : State :=
  updRunOf s gk fun r => { r with
    freed := let k := rk (pkNat pk 46 2) (pkNat pk 20 4); mapIns r.freed k (mapGet 0 r.freed k + 1) }

/-- R426: what a DONE or CLOSE packet carries. -/
def closeOf (pk : Pkt) : RDone :=
  { sticky := bit (pkNat pk 24 1) 0, poison := bit (pkNat pk 24 1) 1, cause := pkNat pk 25 1, slowRank := pkNat pk 26 2
    slowT := pkNat pk 28 8, fastT := pkNat pk 36 8, count := pkNat pk 44 2 }

/-- R420: a DONE from a child. -/
def doneIn (s : State) (pk : Pkt) (gk : Nat) : State :=
  match groupOf s gk with
  | none => s
  | some g =>
    match [3, 4].find? fun i => (gPeer g i).map (·.1) == some (pkNat pk 10 2) && ((g.run.map fun r => (mapFind r.kids i).isNone) == some true) with
    | some i => tryDone (updRunOf s gk fun r => { r with kids := mapIns r.kids i (closeOf pk) }) gk
    | none => s

/-- R424: an ABORT for the running generation (DEDUCED, assumption log 63). -/
def abortIn (s : State) (pk : Pkt) (gk : Nat) : State :=
  collAbort s gk (pkNat pk 19 1) (pkNat pk 20 2) (pkNat pk 24 4) (some (pkNat pk 10 2))

/-- R418: delivers a collective packet of the running generation by its kind. -/
def collAct (s : State) (pk : Pkt) (gk : Nat) : State :=
  if pkType pk = ptDATA then reduceIn s gk pk
  else if pkType pk = ptABORT then abortIn s pk gk
  else match pkNat pk 16 1 with
    | 1 => freeIn s pk gk
    | 2 => doneIn s pk gk
    | _ => collClose s gk (closeOf pk)

/-- R418: GROUP and GEN of a collective packet. -/
def collIds (pk : Pkt) : Nat × Nat :=
  if pkType pk = ptDATA then (pkNat pk 32 2, pkNat pk 34 1)
  else if pkType pk = ptABORT then (pkNat pk 16 2, pkNat pk 18 1)
  else (pkNat pk 18 2, pkNat pk 17 1)

/-- R418: a collective packet that is delivered here. -/
def collDeliver (s : State) (pk : Pkt) : State :=
  let (g, n) := collIds pk
  collPacket s pk g n fun s gk => collAct s pk gk

/-! ### Launch (R408, R417) -/

/-- R408, R417, R418: a generation launches; packets held for it are delivered. -/
def collLaunch (s : State) (gk : Nat) : State :=
  match groupOf s gk with
  | none => s
  | some g =>
    let r : RRun := { launched := s.tense.toNat, whole := g.bound.isNone, hits := allHits s, readyT := if g.bound.isNone then some s.tense.toNat else none }
    let held := g.held
    let s := setGroup s gk { g with gen := (g.gen + 1) % 256, run := some r, held := [], counts := [], aborted := none }
    collProgress (held.foldl (fun s h => collDeliver s h.pkt) s) gk

/-- R417: bytes of `[a, a+n)` that lie in each segment of SRC. -/
def segOverlap (g : Group) (a n : Nat) : List (Nat × Nat) :=
  let src := gNat g 0x18 8
  if !arSpad src then []
  else
    let b := arAddr src
    let total := if gAll g then gShare g else gG g * gShare g
    let lo := max a b
    let hi := min (a + n) (b + total)
    if hi ≤ lo then []
    else
      let segAt (x : Nat) : Nat :=
        let o := x - b
        (if gAll g then gRank g else o / gShare g) * gSps g + o % gShare g / gSegB g
      -- segments lie in address order; each is cut where a share or a segment ends
      let cut (x : Nat) : Nat :=
        let o := x - b
        let inShare := o % gShare g
        x + min (gSegB g - inShare % gSegB g) (gShare g - inShare)
      (List.range ((hi - lo) / gSegB g + (hi - lo) / gShare g + 3)).foldl (fun (acc : List (Nat × Nat) × Nat) _ =>
        if hi ≤ acc.2 then acc
        else
          let e := min hi (cut acc.2)
          (acc.1 ++ [(segAt acc.2, e - acc.2)], e)) ([], lo) |>.1

/-- R417: counts a tile's bytes toward the segments of a bound group; the first count of a generation launches it. -/
def contCount (s : State) (gk : Nat) (ranges : List (Nat × Nat)) : State :=
  match groupOf s gk with
  | none => s
  | some g =>
    let adds := ranges.flatMap fun x => segOverlap g x.1 x.2
    if adds.isEmpty then s
    else
      let s := if g.run.isNone then collLaunch s gk else s
      match groupOf s gk with
      | none => s
      | some g =>
        let g := { g with counts := adds.foldl (fun m a => mapIns m a.1 (mapGet 0 m a.1 + a.2)) g.counts }
        let all := if gAll g then (List.range (gSps g)).all fun t => segReady g (gRank g * gSps g + t)
          else (List.range (gG g * gSps g)).all (segReady g)
        let s := setGroup s gk g
        let s := if all then updRunOf s gk fun r => { r with readyT := if r.readyT.isNone then some s.tense.toNat else r.readyT } else s
        collProgress s gk

end Sys2Proof.Machine
end

