-- ==== Sys2Proof/Machine/DescOps.lean ====
section
/-! DEFINITION. Descriptors: their fields, the checks of acceptance, and how they end
(spec/17_command_rings.md R521 to R542). -/

namespace Sys2Proof.Machine

/-! ### Fields (R522, R524) -/

/-- The little-endian value of `n` bytes of a descriptor at an offset. -/
def dNat (d : Desc) (off n : Nat) : Nat := leNat ((d.bytes.drop off).take n)
/-- R522: TYPE. -/
def dType (d : Desc) : Nat := dNat d 0 1
/-- R522: DEFER. -/
def dDefer (d : Desc) : Bool := bit (dNat d 1 1) 0
/-- R522: NOCQ. -/
def dNocq (d : Desc) : Bool := bit (dNat d 1 1) 1
/-- R522: CQ. -/
def dCq (d : Desc) : Nat := dNat d 2 1 % 4
/-- R522: FORM. -/
def dForm (d : Desc) : Nat := dNat d 3 1
/-- R522: DTAG. -/
def dTag (d : Desc) : Nat := dNat d 4 4
/-- R522: VALID of CCONJ. -/
def dSig (d : Desc) : Bool := bit (dNat d 8 2) 15
/-- R522: CCONJ. -/
def dConj (d : Desc) : Nat := dNat d 8 2 % 2 ^ 14
/-- R522: CINC. -/
def dInc (d : Desc) : Nat := dNat d 0xA 2
/-- R522: CKEY. -/
def dKey (d : Desc) : Nat := dNat d 0xC 2

/-- R524: types. -/
def dtLAUNCH : Nat := 1
/-- R524. -/
def dtCOPY : Nat := 2
/-- R524. -/
def dtSOLVE : Nat := 3
/-- R524. -/
def dtASSEMBLE : Nat := 4
/-- R524. -/
def dtCOLLECTIVE : Nat := 5
/-- R524. -/
def dtSTEP : Nat := 6
/-- R524. -/
def dtSNAPSHOT : Nat := 7
/-- R524. -/
def dtCONJ : Nat := 8
/-- R524. -/
def dtWAIT : Nat := 9
/-- R524. -/
def dtFENCE : Nat := 0xA
/-- R524. -/
def dtMAINT : Nat := 0xB

/-- R524, R309: forms of a type. -/
def dForms (ty : Nat) : Nat :=
  match ty with
  | 1 => 3 | 2 => 4 | 3 => 1 | 4 => 1 | 5 => 7 | 6 => 3 | 7 => 3 | 8 => 5 | 9 => 1 | 10 => 1 | 11 => 2 | _ => 0

/-- R526 to R533: the fields of a form beyond byte 0Fh: offset and bytes. -/
def dFields (ty fm : Nat) : List (Nat × Nat) :=
  match ty, fm with
  | 1, 0 => [(0x10, 8)]
  | 1, 1 => [(0x10, 4), (0x14, 4), (0x18, 1), (0x1C, 4)]
  | 2, 0 => [(0x10, 8), (0x18, 8), (0x20, 8), (0x28, 1), (0x2C, 4), (0x30, 4), (0x38, 6)]
  | 2, 1 => [(0x10, 8), (0x18, 8), (0x20, 8), (0x30, 8)]
  | 2, 2 => [(0x18, 8), (0x30, 8)]
  | 2, 3 => [(0x10, 8), (0x18, 8), (0x20, 8), (0x28, 4), (0x2C, 2), (0x2E, 2), (0x30, 1), (0x31, 1), (0x32, 2)]
  | 3, _ => [(0x10, 8), (0x18, 8)]
  | 4, _ => [(0x10, 8), (0x18, 8)]
  | 5, 0 => [(0x10, 8)]
  | 5, 1 => [(0x18, 2)]
  | 5, 2 => [(0x18, 2), (0x1A, 2)]
  | 5, 3 => [(0x18, 2), (0x1A, 2)]
  | 5, 4 => [(0x18, 2)]
  | 5, 5 => [(0x18, 2)]
  | 5, 6 => [(0x1A, 2), (0x1C, 2), (0x1E, 1), (0x1F, 1), (0x20, 2)]
  | 6, 0 => [(0x10, 8)]
  | 6, 1 => [(0x10, 8), (0x18, 4), (0x1C, 4), (0x20, 2), (0x22, 1), (0x28, 8)]
  | 6, 2 => [(0x10, 8)]
  | 7, 0 => [(0x10, 8), (0x18, 8)]
  | 7, 1 => [(0x18, 8), (0x20, 8), (0x2C, 4), (0x30, 8)]
  | 7, 2 => [(0x10, 8), (0x18, 8), (0x28, 2), (0x2A, 2), (0x2C, 1)]
  | 8, _ => [(0x10, 2), (0x12, 1), (0x14, 2), (0x16, 2), (0x18, 4), (0x20, 8)]
  | 9, _ => [(0x10, 2), (0x12, 1), (0x14, 4), (0x18, 4)]
  | 11, 0 => [(0x10, 1), (0x11, 1), (0x18, 8), (0x20, 8)]
  | 11, 1 => [(0x10, 1), (0x11, 1)]
  | _, _ => []

/-- R526 to R533: area references of a form. -/
def dAreas (ty fm : Nat) : List Nat :=
  match ty, fm with
  | 1, 0 => [0x10]
  | 2, 0 => [0x10, 0x18]
  | 2, 1 => [0x10, 0x18, 0x30]
  | 2, 2 => [0x18, 0x30]
  | 2, 3 => [0x10, 0x18]
  | 3, _ => [0x10, 0x18]
  | 4, _ => [0x10, 0x18]
  | 5, 0 => [0x10]
  | 6, 0 => [0x10]
  | 6, 1 => [0x28]
  | 6, 2 => [0x10]
  | 7, 0 => [0x10, 0x18]
  | 7, 1 => [0x18, 0x30]
  | 7, 2 => [0x10]
  | 11, 0 => [0x18, 0x20]
  | _, _ => []

/-- R523 order 2: a form that its type lacks, a reserved field that is not zero, or a reserved value. -/
def dReserved (d : Desc) : Bool :=
  let ty := dType d
  let fm := dForm d
  let fs := dFields ty fm
  decide (dForms ty ≤ fm) || dNat d 1 1 / 4 != 0 || dNat d 2 1 / 4 != 0 || bit (dNat d 8 2) 14
    || (dSig d == (dInc d == 0)) || dNat d 0xE 2 != 0 || dNat d 0x3F 1 % 128 != 0
    || ((List.range 47).any fun i => (fs.all fun f => !(decide (f.1 ≤ 16 + i) && decide (16 + i < f.1 + f.2))) && dNat d (16 + i) 1 != 0)
    || ((dAreas ty fm).any fun o => arRsv (dNat d o 8))
    || ((ty == dtLAUNCH && fm == 0 || decide (dtCONJ ≤ ty)) && dKey d != 0)
    || (match ty, fm with
      | 1, 1 => decide (1 < dNat d 0x18 1)
      | 2, 0 => dNat d 0x20 8 == 0 || decide (2 ^ 40 < dNat d 0x20 8) || dNat d 0x28 1 / 8 != 0
      | 2, 1 => dNat d 0x20 8 == 0 || decide (2 ^ 40 < dNat d 0x20 8)
      | 2, 3 => dNat d 0x20 8 / 2 ^ 40 != 0 || decide (3 < dNat d 0x30 1)
      | 5, 2 => decide (1024 ≤ dNat d 0x1A 2)
      | 5, 3 => decide (1024 ≤ dNat d 0x1A 2)
      | 5, 6 => decide (1024 ≤ dNat d 0x1A 2) || dNat d 0x1F 1 / 4 != 0 || dNat d 0x20 2 / 2 ^ 14 != 0
      | 6, 1 => dNat d 0x10 8 / 2 ^ 48 != 0 || dNat d 0x20 2 / 2 ^ 14 != 0 || dNat d 0x22 1 / 2 != 0
      | 7, 2 => dNat d 0x2C 1 / 2 != 0
      | 8, 0 => dNat d 0x10 2 / 2 ^ 14 != 0 || dNat d 0x12 1 / 4 != 0 || dNat d 0x14 2 == 0
      | 8, 2 => dNat d 0x10 2 / 2 ^ 14 != 0 || dNat d 0x12 1 / 4 != 0 || dNat d 0x14 2 == 0
      | 8, _ => dNat d 0x10 2 / 2 ^ 14 != 0 || dNat d 0x12 1 / 4 != 0
      | 9, _ => dNat d 0x10 2 / 2 ^ 14 != 0 || dNat d 0x12 1 / 2 != 0
      | 11, _ => dNat d 0x10 1 == 0 || decide (5 < dNat d 0x10 1) || decide (11 < dNat d 0x11 1)
      | _, _ => false)

/-! ### Contexts of a partition by key and by Conjunction -/

/-- R546: the live context of a partition that holds a key. -/
def ctxByKey (s : State) (k key : Nat) : Option Nat :=
  if key = 0 then none else (liveCtxs s k).find? fun c => (ctxOf s c).ckey == BitVec.ofNat 16 key

/-- R285, R308: the context of a partition that holds a Conjunction. -/
def ctxByConj (s : State) (k j : Nat) : Option Nat :=
  if conjTotal ≤ j then none
  else (liveCtxs s k).find? fun c => (ctxOf s c).ckey == (conjOf s j).key

/-- The context that a descriptor's work belongs to. -/
def dCtx (s : State) (d : Desc) : Option Nat := ctxByKey s d.part (dKey d)

/-- R523 order 4. -/
def dConjErr (s : State) (d : Desc) : Option Nat :=
  if !dSig d then none
  else
    match ctxByConj s d.part (dConj d) with
    | none => some 0x40
    | some c => if dKey d != 0 && dCtx s d != some c then some stCONJ_KEY else none

/-- R542. -/
def stCONTEXT_INVALID : Nat := 0xB3

/-- R523: the first failure of a descriptor. -/
def dCheck (s : State) (d : Desc) : Option Nat :=
  if dForms (dType d) = 0 then some stOPCODE
  else if dReserved d then some stRESERVED
  else if dKey d = 0 ∧ (dType d < dtCONJ ∧ ¬(dType d = dtLAUNCH ∧ dForm d = 0)) then some stCONTEXT_INVALID
  else if dKey d ≠ 0 ∧ dCtx s d = none then some stCONTEXT_INVALID
  else
    match dConjErr s d with
    | some e => some e
    | none =>
      if dDefer d ∧ ¬(dType d = dtLAUNCH ∧ dForm d = 1 ∨ dType d = dtCOPY ∨ dType d = dtSOLVE ∨ dType d = dtASSEMBLE) then
        some stFLAG
      else none

/-! ### Descriptors in progress -/

/-- A submission ring. -/
def sqOf (s : State) (k i : Nat) : Sq := mapGet {} s.sqs (16 * k + i)
/-- Changes a submission ring. -/
def updSq (s : State) (k i : Nat) (f : Sq → Sq) : State := { s with sqs := mapUpd {} s.sqs (16 * k + i) f }
/-- Changes an accepted descriptor. -/
def updDesc (s : State) (id : Nat) (f : Desc → Desc) : State :=
  match mapFind s.descs id with
  | some d => { s with descs := mapIns s.descs id (f d) }
  | none => s

/-- R524: may a descriptor of this type and form proceed while its context is not running. -/
def dAnyTime (d : Desc) : Bool :=
  match dType d, dForm d with
  | 1, 1 => false
  | 2, 3 => false
  | 3, _ => false
  | 4, _ => false
  | _, _ => true

/-- R482, R524: an accepted descriptor of a type and form whose own command may begin: its start is released where it is
deferrable, and its context runs where the type asks for that. -/
def descReady (s : State) (id ty fm : Nat) : Option Desc :=
  match mapFind s.descs id with
  | some d =>
    if d.st = .accepted ∧ dType d = ty ∧ dForm d = fm ∧ (!dDefer d || d.deferGo)
        ∧ (dAnyTime d || match dCtx s d with | some c => ctxRunning s c | none => false) then some d else none
  | none => none

/-- A descriptor of a type and form whose work is under way. -/
def descRunning (s : State) (id ty fm : Nat) : Option Desc :=
  match mapFind s.descs id with
  | some d => if d.st = .running ∧ dType d = ty ∧ dForm d = fm then some d else none
  | none => none

/-- R308, R309: applies a SIGNAL with the key of the context that holds the Conjunction, so that no key check can fail. -/
def signalOwn (s : State) (j n : Nat) (err : Bool) : State := conjSignal s j n err (conjOf s j).key

/-- R207, R529: a SOLVE or ASSEMBLE descriptor whose start is released becomes work. -/
def descWork (s : State) (id : Nat) : State :=
  match mapFind s.descs id with
  | none => s
  | some d =>
    if !((dType d == dtSOLVE || dType d == dtASSEMBLE) && d.st == .accepted) then s
    else
      match dCtx s d with
      | none => s
      | some c =>
        let r := dNat d 0x10 8
        let kind := if dType d = dtSOLVE then QKind.solve else QKind.assembly
        let p : Prog := { kind := kind, cid := c, owner := 6144, seq := 0, issue := parseIssue [], noStatus := true, noSignal := true,
                          deferrable := dDefer d, desc := some id }
        let s := updDesc s id fun d => { d with st := .running }
        let st := dNat d 0x18 8
        match arReach s c 48 r 256 false, (if st = 0 then ArRes.ok else arReach s c 48 st 32 true) with
        | .ok, .ok =>
          let b := (arRead s c 48 r 256).1
          if kind = .solve then acceptSolve s p b else acceptAssembly s p b
        | .fault dva ca l, _ => refuseWork (xFault s (c / 8) (dKey d) dva ca l false) p stXLAT_FAULT 0
        | _, .fault dva ca l => refuseWork (xFault s (c / 8) (dKey d) dva ca l true) p stXLAT_FAULT 0
        | _, _ => refuseWork s p stADDRESS 0

/-- R482: releases a deferrable descriptor, or makes its work ordinary. -/
def promoteDesc (s : State) (id : Nat) : State :=
  let s := descWork (updDesc s id fun d => { d with deferGo := true }) id
  { s with progs := s.progs.map fun p => if p.2.desc = some id then (p.1, { p.2 with deferrable := false }) else p }

/-- R482: promotes the deferrable items of a partition that satisfy a condition. -/
def promoteWhere (s : State) (k : Nat) (c : Desc → Bool) : State :=
  (s.descs.filter fun d => d.2.part == k && dDefer d.2 && c d.2).foldl (fun s d => promoteDesc s d.1) s

/-- R482: a wait names a Conjunction. -/
def promoteConj (s : State) (k j : Nat) : State := promoteWhere s k fun d => dSig d && dConj d == j

/-- R482: a COMMIT or a SNAPSHOT of a context is accepted. -/
def promoteCtx (s : State) (c : Nat) : State := promoteWhere s (c / 8) fun d => dCtx s d == some c

end Sys2Proof.Machine
end

