-- ==== Sys2Proof/Machine/Rings.lean ====
section
/-! DEFINITION. Descriptor rings: doorbells, fetching, acceptance, completion, flush, WAIT and FENCE
(spec/17_command_rings.md R512 to R540). -/

namespace Sys2Proof.Machine

/-! ### Doorbells (R517, R518, R520) -/

/-- R491: a write of function `f` to the doorbell page of partition `k`: the value, or how it is discarded. -/
def doorbell (s : State) (f k : Nat) (data : List Byte) (poisoned : Bool) (act : State → Nat → State) : State :=
  if !barOpen s || !(f == 0 || f == k + 1 && (fnOf s f).enabled && (fnOf s f).flr == 0) then s
  else if poisoned then aerPoisoned (badAccess s) f
  else if data.length ≠ 4 ∧ data.length ≠ 8 then badAccess s
  else act (wakeBy s 0) (leNat (data.take 4))

/-- R513: entries of a submission ring. -/
def sqN (s : State) (k i : Nat) : Nat := 2 ^ fld s (aPART_SQ_CTL k i) 5 1
/-- R513: head count. -/
def sqHC (s : State) (k i : Nat) : Nat := fld s (aPART_SQ_HEAD k i) 31 0
/-- R515: STOPPED. -/
def sqStopped (s : State) (k i : Nat) : Bool := fld s (aPART_SQ_HEAD k i) 33 33 == 1
/-- R516, R549: is a submission ring enabled, with no change of EN to be carried out, in a partition that is not torn down. -/
def sqOn (s : State) (k i : Nat) : Bool :=
  fld s (aPART_SQ_CTL k i) 0 0 == 1 && (strobeOf s (aPART_SQ_CTL k i) 0).isNone && partState s k != 3
/-- R515: sets the head count and its phase. -/
def sqSetHC (s : State) (k i hc : Nat) : State :=
  setFld (setFld s (aPART_SQ_HEAD k i) 31 0 hc) (aPART_SQ_HEAD k i) 32 32 (phaseOf (sqN s k i) hc)

/-- R535: SOURCE of a ring. -/
def srcRing (kind i : Nat) : Nat := kind * 4096 + i

/-- R518: a submission doorbell of value `v`. -/
def sqDoorbell (s : State) (k i v : Nat) : State :=
  if !sqOn s k i then s
  else
    let hc := sqHC s k i
    let d := (v + 2 ^ 32 - hc) % 2 ^ 32
    let q := sqOf s k i
    if d = 0 ∨ 2 ^ 31 ≤ d then updSq s k i fun q => { q with stall := none }
    else if sqN s k i < d then postEvent (updSq s k i fun q => { q with stall := none }) k 2 (srcRing 1 i) 0 v 0
    else updSq s k i fun _ => { q with stall := none, tc := if (q.tc + 2 ^ 32 - hc) % 2 ^ 32 < d then v else q.tc }

/-- SQ_DOORBELL (R518). `fn`: the function written to; `data`: the bytes written. -/
def execSqDoorbell (fn k i : Nat) (data : List (BitVec 8)) (poisoned : Bool) (s : State) : Res :=
  guardUnit (decide (k < 12) && decide (i < 16)) (ran s (doorbell s fn k data poisoned fun s v => sqDoorbell s k i v))

/-- R516: is completion ring `m` (4: the event ring) enabled. -/
def cqOn (s : State) (k m : Nat) : Bool :=
  fld s (aPART_CQ_CTL k m) 0 0 == 1 && (strobeOf s (aPART_CQ_CTL k m) 0).isNone

/-- R520: a completion or event doorbell of value `v`. -/
def cqDoorbell (s : State) (k m v : Nat) : State :=
  if !cqOn s k m || partState s k == 3 then s
  else
    let rc := rcOf s k m
    let wc := fld s (aPART_CQ_STATE k m) 31 0
    if (v + 2 ^ 32 - rc) % 2 ^ 32 ≤ (wc + 2 ^ 32 - rc) % 2 ^ 32 then { s with rcs := mapSet 0 s.rcs (5 * k + m) v }
    else postEvent s k 2 (if m < 4 then srcRing 2 m else 0) 0 v 0

/-- CQ_DOORBELL (R520). -/
def execCqDoorbell (fn k m : Nat) (data : List (BitVec 8)) (poisoned : Bool) (s : State) : Res :=
  guardUnit (decide (k < 12) && decide (m < 4)) (ran s (doorbell s fn k data poisoned fun s v => cqDoorbell s k m v))
/-- EQ_DOORBELL (R520). -/
def execEqDoorbell (fn k : Nat) (data : List (BitVec 8)) (poisoned : Bool) (s : State) : Res :=
  guardUnit (decide (k < 12)) (ran s (doorbell s fn k data poisoned fun s v => cqDoorbell s k 4 v))

/-! ### Fetching (R519, R540) -/

/-- Is a fetch of a ring outstanding, or answered and not yet taken (DEDUCED, assumption log 70). -/
def fetchOut (s : State) (ring : Nat) : Bool :=
  (s.trackers.any fun t => !t.2.dropped && match t.2.work with | .fetch r _ _ => r == ring | _ => false)
    || s.answers.any fun a => match a.work with | .fetch r _ _ => r == ring | _ => false

/-- R519: sends the next fetch request of a ring. One request of a ring is outstanding at a time (DEDUCED, assumption log 70). -/
def ringFetch (s : State) (k i : Nat) : State :=
  let q := sqOf s k i
  let hc := sqHC s k i
  let n := sqN s k i
  let base := fld s (aPART_SQ_BASE k i) 63 12 * 4096
  let addr := base + hc % n * 64
  let want := min (min (64 - q.buf.length) ((q.tc + 2 ^ 32 - hc) % 2 ^ 32)) (min (n - hc % n) ((4096 - addr % 4096) / 64))
  if !sqOn s k i || pwrState s ≠ 0 || sqStopped s k i || q.stall.isSome || want = 0 || fetchOut s (16 * k + i) then s
  else (hostRead s (vfOf k) (.fetch (16 * k + i) hc want) addr (64 * want) false false).getD s

/-- RING_FETCH (R519). -/
def execRingFetch (k i : Nat) (s : State) : Res := guardUnit (decide (k < 12) && decide (i < 16)) (ran s (ringFetch s k i))

/-- R540: a ring stops. -/
def ringStop (s : State) (k i cause : Nat) : State :=
  postEvent (setBitOf s (aPART_SQ_HEAD k i) 33) k 3 (srcRing 1 i) 0 cause 0

/-- R519, R540: takes the slots of a fetch answer, in count order. -/
def takeSlots (s : State) (k i : Nat) (bs : List Byte) (bad : Nat → Bool) : Nat → Nat → State
  | 0, _ => s
  | fuel + 1, j =>
    let b := (bs.drop (64 * j)).take 64
    let hc := sqHC s k i
    if bad j then ringStop s k i 2
    else if leNat (b.drop 63) / 128 = phaseOf (sqN s k i) hc then
      takeSlots (sqSetHC (updSq s k i fun q => { q with buf := q.buf ++ [(hc, b)] }) k i ((hc + 1) % 2 ^ 32)) k i bs bad fuel (j + 1)
    else updSq s k i fun q => { q with stall := some s.tense.toNat }

/-- The oldest fetch answer of a ring, and the answers without it. -/
def fetchAnswer (ring : Nat) : List HostAns → Option (HostAns × List HostAns)
  | [] => none
  | a :: r =>
    match a.work with
    | .fetch x _ _ => if x = ring then some (a, r) else (fetchAnswer ring r).map fun y => (y.1, a :: y.2)
    | _ => (fetchAnswer ring r).map fun y => (y.1, a :: y.2)

/-- R519, R540: a fetch answer arrives; one that a flush or a change of EN has overtaken takes no slot. -/
def fetchDone (s : State) (k i : Nat) : State :=
  match fetchAnswer (16 * k + i) s.answers with
  | none => s
  | some (a, rest) =>
    let s := { s with answers := rest }
    match a.work with
    | .fetch _ count n =>
      if !sqOn s k i || sqStopped s k i || count ≠ sqHC s k i || a.dropped then s
      else if a.failed then ringStop s k i 1
      else
        takeSlots s k i (ansBytes a)
          (fun j => a.got.any fun g => g.2.2 && decide (g.1 < 64 * j + 64) && decide (64 * j < g.1 + g.2.1.length)) n 0
    | _ => s

/-- FETCH_COMPLETION (R519). -/
def execFetchCompletion (k i now : Nat) (s : State) : Res :=
  guardUnit (decide (k < 12) && decide (i < 16)) (ran s (fetchDone (atTime s now) k i))

/-- SLOT_REREAD (R519): an uncommitted slot is read again a microsecond after it was last read. -/
def execSlotReread (k i now : Nat) (s : State) : Res :=
  guardUnit (decide (k < 12) && decide (i < 16)) (ran s (
    let s := atTime s now
    match (sqOf s k i).stall with
    | some t => if t + 1000 ≤ s.tense.toNat then ringFetch (updSq s k i fun q => { q with stall := none }) k i else s
    | none => s))

/-! ### Acceptance (R521 to R524, R536) -/

/-- Takes in a descriptor under the next acceptance number. -/
def addDesc (s : State) (d : Desc) : State := { s with descs := mapIns s.descs s.nextDesc d, nextDesc := s.nextDesc + 1 }

/-- R525: does the completion signal of a descriptor pass the checks of R523. -/
def dSignals (s : State) (d : Desc) : Bool := dSig d && dConjErr s d == none

/-- R521: the descriptor at the front of a fetch buffer is accepted (DEDUCED, assumption log 96). -/
def descAccept (s : State) (k i : Nat) : State :=
  match (sqOf s k i).buf with
  | [] => s
  | (count, b) :: rest =>
    let d : Desc := { part := k, sq := i, count := count, bytes := b, since := s.tense.toNat }
    let m := dCq d
    let entry := !dNocq d
    if !sqOn s k i || sqStopped s k i || (sqOf s k i).hold.isSome || !partActive s k || pwrState s ≠ 0 then s
    else if entry && cqOn s k m && !ringRoom s k m then s
    else
      let d := { d with signals := dSignals s d }
      let s1 := updSq s k i fun q => { q with buf := rest }
      if entry && !cqOn s k m then
        -- R536
        let s2 := if d.signals then signalOwn s1 (dConj d) (dInc d) true else s1
        postEvent s2 k 4 (srcRing 1 i) (if (dCtx s d).isSome then dKey d else 0) (dTag d) 0
      else
        let id := s.nextDesc
        let d := { d with cq := if entry then some m else none, resv := entry }
        let s2 := if entry then { s1 with cqRes := mapSet 0 s1.cqRes (5 * k + m) (resOf s1 k m + 1) } else s1
        match dCheck s d with
        | some st => addDesc s2 { d with st := .ended st 0 0 }
        | none =>
          let s3 := addDesc s2 d
          if dType d = dtWAIT ∨ dType d = dtFENCE then updSq s3 k i fun q => { q with hold := some id }
          else if dDefer d then s3 else descWork s3 id

/-- DESCRIPTOR_ACCEPT (R521). -/
def execDescriptorAccept (k i now : Nat) (s : State) : Res :=
  guardUnit (decide (k < 12) && decide (i < 16)) (ran s (descAccept (atTime s now) k i))

/-! ### Completion (R525, R534) -/

/-- R534: the first 31 bytes of a completion entry. -/
def cqBody (s : State) (d : Desc) (status detail result : Nat) : List Byte :=
  natLe 1 status ++ natLe 1 (dType d) ++ natLe 1 d.sq ++ natLe 1 (dForm d) ++ natLe 4 (dTag d) ++
  natLe 4 (sqHC s d.part d.sq) ++ natLe 4 detail ++ natLe 8 result ++ List.replicate 7 0

/-- R525: the signal of an ended descriptor, once. -/
def descSignal (s : State) (id : Nat) (d : Desc) (status : Nat) : State :=
  if d.signals then
    updDesc (signalOwn s (dConj d) (dInc d) (statusErr status)) id fun d => { d with signals := false }
  else s

/-- R525: completes an ended descriptor. Its entry waits while its completion ring is disabled (R516), or, where it holds no
reservation, has no free entry. -/
def descComplete (s : State) (id : Nat) : State :=
  match mapFind s.descs id with
  | some d =>
    match d.st with
    | .ended status detail result =>
      let s := descSignal s id d status
      match d.cq with
      | none => { s with descs := mapDel s.descs id }
      | some m =>
        if !cqOn s d.part m || (!d.resv && !ringRoom s d.part m) then s
        else
          let s := if d.resv then { s with cqRes := mapSet 0 s.cqRes (5 * d.part + m) (resOf s d.part m - 1) } else s
          ringEntry { s with descs := mapDel s.descs id } d.part m (cqBody s d status detail result)
    | _ => s
  | none => s

/-- DESCRIPTOR_COMPLETION (R525). -/
def execDescriptorCompletion (d : Nat) (s : State) : Res := ran s (descComplete s d)

/-! ### Flush and enable (R516, R537) -/

/-- R537: the sequence of a flush. Every descriptor of the fetch buffer is decided for the flush. -/
def sqFlush (s : State) (k i : Nat) : State :=
  let q := sqOf s k i
  let s := q.buf.foldl (fun s b =>
    let d : Desc := { part := k, sq := i, count := b.1, bytes := b.2, since := s.tense.toNat, st := .ended stFLUSHED 0 0 }
    addDesc s { d with cq := if dNocq d then none else some (dCq d), signals := dSignals s d }) s
  let s := match q.hold with
    | some id => updDesc s id fun d => match d.st with | .ended _ _ _ => d | _ => { d with st := .ended stFLUSHED 0 0 }
    | none => s
  let n := sqN s k i
  let hc := (sqHC s k i / n + 1) * n % 2 ^ 32
  let s := updSq s k i fun q => { q with buf := [], hold := none, stall := none, tc := hc }
  clrBitOf (clrBitOf (sqSetHC s k i hc) (aPART_SQ_HEAD k i) 33) (aPART_SQ_HEAD k i) 34

/-- SQ_FLUSH (R537): carries out a one written to FLUSH. -/
def execSqFlush (k i : Nat) (s : State) : Res :=
  guardUnit (decide (k < 12) && decide (i < 16)) (ran s (
    let a := aPART_SQ_CTL k i
    match strobeOf s a 6 with
    | some _ => sqFlush (strobeClr s a 6) k i
    | none => s))

/-- R516: carries out a change of EN of a submission ring. -/
def sqEnable (s : State) (k i : Nat) : State :=
  let a := aPART_SQ_CTL k i
  match strobeOf s a 0 with
  | none => s
  | some v =>
    let s := strobeClr s a 0
    if v = 2 then updSq (sqSetHC s k i 0) k i fun q => { q with tc := 0 }
    else updSq (sqFlush s k i) k i fun q => { q with stall := none }

/-- R516: carries out a change of EN of a completion or event ring. -/
def cqEnable (s : State) (k m : Nat) : State :=
  let a := aPART_CQ_CTL k m
  match strobeOf s a 0 with
  | none => s
  | some v =>
    let s := strobeClr s a 0
    if v = 2 then
      let st := aPART_CQ_STATE k m
      { setFld (setFld s st 31 0 0) st 32 32 1 with rcs := mapSet 0 s.rcs (5 * k + m) 0 }
    else s

/-- RING_ENABLE (R516). `ring`: 0 to 15 a submission ring, 16 to 19 a completion ring, 20 the event ring. -/
def execRingEnable (k ring : Nat) (s : State) : Res :=
  guardUnit (decide (k < 12) && decide (ring < 21)) (ran s (if ring < 16 then sqEnable s k ring else cqEnable s k (ring - 16)))

/-! ### WAIT and FENCE (R532) -/

/-- R532: lets a ring's later descriptors go. -/
def ringRelease (s : State) (d : Desc) (id : Nat) : State :=
  updSq s d.part d.sq fun q => { q with hold := if q.hold = some id then none else q.hold }

/-- R532: ends a WAIT; where STOP_ON_FAIL is set and it did not end OK, the ring becomes STOPPED first. -/
def waitFinish (s : State) (id : Nat) (d : Desc) (status : Nat) (result : Nat) : State :=
  let s := if bit (dNat d 0x12 1) 0 ∧ status ≠ stOK then ringStop s d.part d.sq 3 else s
  ringRelease (descEnd s id status 0 result) d id

/-- R274, R534: COUNT, KEY and ERROR in the layout of CREAD. -/
def creadWord (c : Conj) : Nat := c.count.toNat + c.key.toNat * 2 ^ 32 + (if c.error then 2 ^ 48 else 0)

/-- WAIT (R532): begins to wait, or is refused (DEDUCED, assumption log 96). -/
def execWait (d now : Nat) (s : State) : Res :=
  ran s (
    let s := atTime s now
    match descReady s d dtWAIT 0 with
    | none => s
    | some x =>
      let j := dNat x 0x10 2 % 2 ^ 14
      if ctxByConj s x.part j = none then ringRelease (descEnd s d 0x40 0 0) x d -- R523: a refusal has no effect beyond its completion
      else promoteConj (updDesc s d fun x => { x with st := .running, since := s.tense.toNat }) x.part j)

/-- WAIT_COMPLETE (R532): the target is reached, or ERROR is set. -/
def execWaitComplete (d : Nat) (s : State) : Res :=
  ran s (match descRunning s d dtWAIT 0 with
    | none => s
    | some x =>
      let c := conjOf s (dNat x 0x10 2 % 2 ^ 14)
      if c.error then waitFinish s d x stCONJ_ERROR (creadWord c)
      else if reached c.count (BitVec.ofNat 32 (dNat x 0x14 4)) then waitFinish s d x stOK (creadWord c)
      else s)

/-- WAIT_TIMEOUT (R532). -/
def execWaitTimeout (d now : Nat) (s : State) : Res :=
  ran s (
    let s := atTime s now
    match descRunning s d dtWAIT 0 with
    | none => s
    | some x =>
      let t := dNat x 0x18 4
      if t ≠ 0 ∧ x.since + 1000 * t ≤ s.tense.toNat then
        waitFinish s d x stWAIT_TIMEOUT (creadWord (conjOf s (dNat x 0x10 2 % 2 ^ 14)))
      else s)

/-- FENCE (R532): holds its ring. -/
def execFence (d : Nat) (s : State) : Res :=
  ran s (match descReady s d dtFENCE 0 with
    | none => s
    | some _ => updDesc s d fun x => { x with st := .running })

/-- FENCE_RELEASE (R532): every earlier descriptor of the ring is complete. -/
def execFenceRelease (d : Nat) (s : State) : Res :=
  ran s (match descRunning s d dtFENCE 0 with
    | none => s
    | some x =>
      if s.descs.any fun y => y.2.part == x.part && y.2.sq == x.sq && decide (y.1 < d) then s
      else ringRelease (descEnd s d stOK 0 0) x d)

end Sys2Proof.Machine
end

