-- ==== Sys2Proof/Machine/Coll.lean ====
section
/-! DEFINITION. The COLLECTIVE descriptor's operations, and what drives a collective from inside the device
(spec/13_collectives.md R408, R416, R417, R423, R427). -/

namespace Sys2Proof.Machine

/-- R430. -/
def stBUFFER_FULL : Nat := 0x71
/-- R430. -/
def stGROUP_INVALID : Nat := 0x72
/-- R430. -/
def stGROUP_BUSY : Nat := 0x73

/-- Runs a COLLECTIVE descriptor of form `fm` for its context. -/
def collCmd (s : State) (id fm : Nat) (f : State → Desc → Nat → State) : State :=
  match descReady s id dtCOLLECTIVE fm with
  | none => s
  | some d => match dCtx s d with | some c => f s d c | none => s

/-- Bytes of a record as numbers, kept with the descriptor while more data comes. -/
def auxBytes (d : Desc) : List Byte := d.aux.map (BitVec.ofNat 8)

/-- R408: SETUP of a group whose record and peer table have been read. -/
def groupSetup (s : State) (id c : Nat) (r : List Byte) (peers : List Byte) (at_ : Nat) : State :=
  let g : Group := { cid := c, group := leNat (r.take 2), rec_ := r
                     peers := (List.range 18).map fun i => leNat ((peers.drop (8 * i)).take 8) }
  let held := (s.groups.map fun x => gWin x.2 * gFoot x.2).sum
  if at_ % 64 ≠ 0 ∨ gRecordOk g = false ∨ (groupOf s (gKey g)).isSome then descEnd s id stGROUP_INVALID 0 0
  else if 16777216 < held + gWin g * gFoot g then descEnd s id stBUFFER_FULL 0 0
  else descEnd (noteGroups (setGroup s (gKey g) g)) id stOK 0 0

/-- R408: the record and then the peer table are read, and the group is set up. -/
def collSetup (s : State) (id : Nat) (d : Desc) (c : Nat) : State :=
  let at_ := dNat d 0x10 8
  if d.aux.isEmpty then
    match areaGather s c 48 at_ 128 (dKey d) (.desc id) with
    | (s, .waiting) => s
    | (s, .failed st) => descEnd s id st 0 0
    | (s, .done b _ _) => readPeers (updDesc s id fun x => { x with aux := b.map (·.toNat) }) id c (dKey d) b at_
  else readPeers s id c (dKey d) (auxBytes d) at_
where
  /-- reads the peer table that a record names -/
  readPeers (s : State) (id c ckey : Nat) (b : List Byte) (at_ : Nat) : State :=
    let pr := leNat ((b.drop 0x28).take 8)
    if arRsv pr then descEnd s id stGROUP_INVALID 0 0
    else
      match areaGather s c 48 pr 144 ckey (.desc id) with
      | (s, .waiting) => s
      | (s, .failed st) => descEnd s id st 0 0
      | (s, .done p _ _) => groupSetup s id c b p at_

/-- COLLECTIVE_SETUP (R408). -/
def execCollectiveSetup (d : Nat) (s : State) : Res := ran s (collCmd s d 0 fun s x c => collSetup s d x c)

/-- The group that a descriptor names, where it is set up; else the descriptor is refused (DEDUCED, assumption log 63). -/
def withGroup (s : State) (id : Nat) (d : Desc) (c : Nat) (f : State → Nat → Group → State) : State :=
  let gk := 65536 * c + dNat d 0x18 2
  match groupOf s gk with
  | none => descEnd s id stGROUP_INVALID 0 0
  | some g => f s gk g

/-- COLLECTIVE_LAUNCH (R408). -/
def execCollectiveLaunch (d now : Nat) (s : State) : Res :=
  ran s (collCmd (atTime s now) d 1 fun s x c => withGroup s d x c fun s gk g =>
    if g.run.isSome || g.bound.isSome then descEnd s d stGROUP_BUSY 0 0
    else descEnd (collLaunch s gk) d stOK 0 0)

/-- R560: a handle table entry as the audit log shows it: kind, and the entry in the model's own packing. -/
def handleCode (e : HandleEnt) : Nat × Nat :=
  match e with
  | .none => (0, 0)
  | .route dev cid ckt rep => (1, dev + 2 ^ 16 * cid + (if ckt then 2 ^ 24 else 0) + 2 ^ 32 * rep)
  | .cont gk => (2, gk % 65536)

/-- R427, R560: writes a handle table entry (DEDUCED, assumption log 63). -/
def handleSet (s : State) (k h : Nat) (e : HandleEnt) : State :=
  auditCore { s with handles := mapSet .none s.handles (1024 * k + h) e } 9 k h (handleCode e).1 (handleCode e).2

/-- COLLECTIVE_BIND (R408, R417): writes the CONT entry and binds it. -/
def execCollectiveBind (d : Nat) (s : State) : Res :=
  ran s (collCmd s d 2 fun s x c => withGroup s d x c fun s gk g =>
    let h := dNat x 0x1A 2
    if g.bound.isSome then descEnd s d stGROUP_BUSY 0 0
    else
      match mapGet .none s.handles (1024 * x.part + h) with
      | .route _ _ _ _ => descEnd s d stGROUP_INVALID 0 0
      | .cont o =>
        if o ≠ gk ∧ (groupOf s o).isSome then descEnd s d stGROUP_BUSY 0 0
        else descEnd (handleSet (setGroup s gk { g with bound := some h, counts := [] }) x.part h (.cont gk)) d stOK 0 0
      | .none => descEnd (handleSet (setGroup s gk { g with bound := some h, counts := [] }) x.part h (.cont gk)) d stOK 0 0)

/-- Takes a group's binding away. -/
def unbind (s : State) (gk : Nat) (g : Group) : State :=
  match g.bound with
  | none => s
  | some h => handleSet (setGroup s gk { g with bound := none, counts := [] }) (g.cid / 8) h .none

/-- COLLECTIVE_UNBIND (R408). -/
def execCollectiveUnbind (d : Nat) (s : State) : Res :=
  ran s (collCmd s d 3 fun s x c => withGroup s d x c fun s gk g =>
    if g.run.isSome then descEnd s d stGROUP_BUSY 0 0
    else if g.bound ≠ some (dNat x 0x1A 2) then descEnd s d stGROUP_INVALID 0 0
    else descEnd (unbind s gk g) d stOK 0 0)

/-- COLLECTIVE_ABORT (R408, R423): a group with no running generation has nothing to abort. -/
def execCollectiveAbort (d : Nat) (s : State) : Res :=
  ran s (collCmd s d 4 fun s x c => withGroup s d x c fun s gk _ => descEnd (collFail s gk 7 0xFFFFFFFF) d stOK 0 0)

/-- R408: frees a group and its reservation. -/
def groupFree (s : State) (gk : Nat) : State :=
  match groupOf s gk with
  | none => s
  | some g => let s := unbind s gk g; noteGroups { s with groups := mapDel s.groups gk }

/-- COLLECTIVE_RELEASE (R408). -/
def execCollectiveRelease (d : Nat) (s : State) : Res :=
  ran s (collCmd s d 5 fun s x c => withGroup s d x c fun s gk g =>
    if g.run.isSome then descEnd s d stGROUP_BUSY 0 0 else descEnd (groupFree s gk) d stOK 0 0)

/-- COLLECTIVE_ROUTE (R408, R427). -/
def execCollectiveRoute (d : Nat) (s : State) : Res :=
  ran s (collCmd s d 6 fun s x _ =>
    let fl := dNat x 0x1F 1
    let e := if bit fl 1 then HandleEnt.none
      else HandleEnt.route (dNat x 0x1C 2) (dNat x 0x1E 1) (bit fl 0) (dNat x 0x20 2 % 2 ^ 14)
    descEnd (handleSet s x.part (dNat x 0x1A 2) e) d stOK 0 0)

/-- SEGMENT_SEND (R416, R409): segment `seg` of step `st` of group `group` of context `cid`, and what its going lets follow. -/
def execSegmentSend (cid group st seg now : Nat) (s : State) : Res :=
  let gk := 65536 * cid + group
  ran s (collProgress (segSend (atTime s now) gk st seg) gk)

/-- COLLECTIVE_TIMEOUT (R423). -/
def execCollectiveTimeout (cid group now : Nat) (s : State) : Res :=
  let gk := 65536 * cid + group
  let s := atTime s now
  ran s (match groupOf s gk with
    | some g =>
      match g.run with
      | some r =>
        let t := gNat g 0x3C 4
        if t ≠ 0 ∧ r.launched + 1000 * t ≤ s.tense.toNat then collFail s gk 1 0xFFFFFFFF else s
      | none => s
    | none => s)

/-- CONTINUATION_COUNT (R168, R417, R423): the oldest tile that waits is counted toward its handle's group, or the loss of a
program under it ends the generation. -/
def execContinuationCount (s : State) : Res :=
  ran s (match s.contQ with
    | [] => s
    | x :: rest =>
      let s := { s with contQ := rest }
      match mapGet .none s.handles (1024 * (x.cid / 8) + x.handle) with
      | .cont gk =>
        if x.lost then
          match (groupOf s gk).bind (·.run) with
          | some r => if r.readyT.isNone then collFail s gk 4 0xFFFFFFFF else s
          | none => s
        else contCount s gk x.ranges
      | _ => s)

end Sys2Proof.Machine
end

