-- ==== Sys2Proof/Machine/ConjCmd.lean ====
section
/-! DEFINITION. The CONJ_SIGNAL descriptor's operations and the launch comparators
(spec/10_conjunctions_and_tense.md R308 to R314, R331). -/

namespace Sys2Proof.Machine

/-- R315. -/
def stCONJ_RANGE : Nat := 0x40
/-- R315. -/
def stARM_FULL : Nat := 0x41
/-- R315. -/
def stARM_BUSY : Nat := 0x42

/-- R308, R532: runs a CONJ_SIGNAL descriptor of operation `op` on the Conjunction it names, or refuses it. -/
def conjCmd (s : State) (id op : Nat) (f : State → Desc → Nat → State) : State :=
  match descReady s id dtCONJ op with
  | none => s
  | some d =>
    let j := dNat d 0x10 2 % 2 ^ 14
    if (ctxByConj s d.part j).isNone then descEnd s id stCONJ_RANGE 0 0 else f s d j

/-- R309, R316, R532: SIGNAL, here or through the fabric. -/
def conjCmdSignal (s : State) (id : Nat) (d : Desc) (j : Nat) : State :=
  let fl := dNat d 0x12 1
  let inc := dNat d 0x14 2
  if bit fl 1 then
    let h := dNat d 0x16 2
    if routeOk s d.part h then
      descEnd { s with outSigs := s.outSigs ++
        [{ part := d.part, handle := h, index := j, inc := inc, error := bit fl 0, key := (conjOf s j).key }] } id stOK 0 0
    else descEnd s id stCONJ_KEY 0 0
  else descEnd (signalOwn s j inc (bit fl 0)) id stOK 0 0

/-- R309, R311: RESET; held waits are evaluated against the state after it. -/
def conjReset (s : State) (j : Nat) (v : W32) : State :=
  wakeWaiters (updConj s j fun c => { c with count := v, error := false }) j

/-- R312: the lowest free comparator of a slice's ARM pool. -/
def freeArm (s : State) (sl : Nat) : Option Nat :=
  let used := (s.conj.filter fun c => c.1 / 1024 == sl).filterMap fun c => c.2.arm.map (·.lc)
  (List.range 56).find? fun n => !used.contains n

/-- R312: ARM: the status, and the state with the arm. -/
def conjArm (s : State) (j t n : Nat) : Nat × State :=
  if (conjOf s j).arm.isSome then (stARM_BUSY, s)
  else
    match freeArm s (j / 1024) with
    | none => (stARM_FULL, s)
    | some lc => (stOK, updConj s j fun c => { c with arm := some { lc := lc, time := t, inc := n } })

/-- R313: DISARM: the outcome (0 NONE, 1 CANCELLED, 2 FIRED) and the state after it. -/
def conjDisarm (s : State) (j : Nat) : Nat × State :=
  match (conjOf s j).arm with
  | none => (0, s)
  | some a => if a.fired then (2, s) else (1, updConj s j fun c => { c with arm := none })

/-- R312, R331: the signal of a match is applied and the comparator freed. -/
def armApply (s : State) (j : Nat) : State :=
  match (conjOf s j).arm with
  | some a => if a.fired then wakeBy (updConj (conjApply s j a.inc false) j (fun c => { c with arm := none })) 3 else s
  | none => s

/-- R331: a comparator matches on a clock on which Tense has reached its value. -/
def armMatch (s : State) (j : Nat) : State :=
  match (conjOf s j).arm with
  | some a => if a.time ≤ s.tense.toNat then updConj s j fun c => { c with arm := some { a with fired := true } } else s
  | none => s

/-- R314: cancels the pending arms of the Conjunctions that carry a key. -/
def cancelArms (s : State) (key : BitVec 16) : State :=
  { s with conj := s.conj.map fun c => if c.2.key = key then (c.1, { c.2 with arm := none }) else c }

/-- CONJ_SIGNAL (R309). -/
def execConjSignal (d : Nat) (s : State) : Res := ran s (conjCmd s d 0 fun s x j => conjCmdSignal s d x j)
/-- CONJ_RESET (R311). -/
def execConjReset (d : Nat) (s : State) : Res :=
  ran s (conjCmd s d 1 fun s x j => descEnd (conjReset s j (BitVec.ofNat 32 (dNat x 0x18 4))) d stOK 0 0)
/-- CONJ_ARM (R312). -/
def execConjArm (d : Nat) (s : State) : Res :=
  ran s (conjCmd s d 2 fun s x j =>
    let (st, s) := conjArm s j (dNat x 0x20 8) (dNat x 0x14 2)
    descEnd s d st 0 0)
/-- CONJ_DISARM (R313). -/
def execConjDisarm (d : Nat) (s : State) : Res :=
  ran s (conjCmd s d 3 fun s _ j =>
    let (out, s) := conjDisarm s j
    descEnd s d stOK out 0)
/-- CONJ_READ (R309). -/
def execConjRead (d : Nat) (s : State) : Res :=
  ran s (conjCmd s d 4 fun s _ j => descEnd s d stOK 0 (creadWord (conjOf s j)))

/-- COMPARATOR_MATCH (R312, R331). The match is decided where Tense has reached the arm's value; with `apply` its signal is
applied, at once or after an interval in which the arm stays pending. -/
def execComparatorMatch (conj now : Nat) (apply : Bool) (s : State) : Res :=
  ran s (
    let s := armMatch (atTime s now) conj
    if apply then armApply s conj else s)

end Sys2Proof.Machine
end

