-- ==== Sys2Proof/Machine/Sha.lean ====
section
/-! DEFINITION. SHA-256, SHA-384 (FIPS 180-4) and the verification of ECDSA over P-384 (FIPS 186-5), which
spec/14_bit_identity.md, spec/09_scratchpad_and_placement.md R299 and spec/18_partitions_and_custody.md name. -/

namespace Sys2Proof.Machine

/-- FIPS 180-4: the constants of SHA-256. -/
def shaK256 : List Nat :=
  [0x428A2F98, 0x71374491, 0xB5C0FBCF, 0xE9B5DBA5, 0x3956C25B, 0x59F111F1, 0x923F82A4, 0xAB1C5ED5,
   0xD807AA98, 0x12835B01, 0x243185BE, 0x550C7DC3, 0x72BE5D74, 0x80DEB1FE, 0x9BDC06A7, 0xC19BF174] ++
  [0xE49B69C1, 0xEFBE4786, 0x0FC19DC6, 0x240CA1CC, 0x2DE92C6F, 0x4A7484AA, 0x5CB0A9DC, 0x76F988DA,
   0x983E5152, 0xA831C66D, 0xB00327C8, 0xBF597FC7, 0xC6E00BF3, 0xD5A79147, 0x06CA6351, 0x14292967] ++
  [0x27B70A85, 0x2E1B2138, 0x4D2C6DFC, 0x53380D13, 0x650A7354, 0x766A0ABB, 0x81C2C92E, 0x92722C85,
   0xA2BFE8A1, 0xA81A664B, 0xC24B8B70, 0xC76C51A3, 0xD192E819, 0xD6990624, 0xF40E3585, 0x106AA070] ++
  [0x19A4C116, 0x1E376C08, 0x2748774C, 0x34B0BCB5, 0x391C0CB3, 0x4ED8AA4A, 0x5B9CCA4F, 0x682E6FF3,
   0x748F82EE, 0x78A5636F, 0x84C87814, 0x8CC70208, 0x90BEFFFA, 0xA4506CEB, 0xBEF9A3F7, 0xC67178F2]

/-- FIPS 180-4: the constants of SHA-384. -/
def shaK512 : List Nat :=
  [0x428A2F98D728AE22, 0x7137449123EF65CD, 0xB5C0FBCFEC4D3B2F, 0xE9B5DBA58189DBBC,
   0x3956C25BF348B538, 0x59F111F1B605D019, 0x923F82A4AF194F9B, 0xAB1C5ED5DA6D8118,
   0xD807AA98A3030242, 0x12835B0145706FBE, 0x243185BE4EE4B28C, 0x550C7DC3D5FFB4E2,
   0x72BE5D74F27B896F, 0x80DEB1FE3B1696B1, 0x9BDC06A725C71235, 0xC19BF174CF692694] ++
  [0xE49B69C19EF14AD2, 0xEFBE4786384F25E3, 0x0FC19DC68B8CD5B5, 0x240CA1CC77AC9C65,
   0x2DE92C6F592B0275, 0x4A7484AA6EA6E483, 0x5CB0A9DCBD41FBD4, 0x76F988DA831153B5,
   0x983E5152EE66DFAB, 0xA831C66D2DB43210, 0xB00327C898FB213F, 0xBF597FC7BEEF0EE4,
   0xC6E00BF33DA88FC2, 0xD5A79147930AA725, 0x06CA6351E003826F, 0x142929670A0E6E70] ++
  [0x27B70A8546D22FFC, 0x2E1B21385C26C926, 0x4D2C6DFC5AC42AED, 0x53380D139D95B3DF,
   0x650A73548BAF63DE, 0x766A0ABB3C77B2A8, 0x81C2C92E47EDAEE6, 0x92722C851482353B,
   0xA2BFE8A14CF10364, 0xA81A664BBC423001, 0xC24B8B70D0F89791, 0xC76C51A30654BE30,
   0xD192E819D6EF5218, 0xD69906245565A910, 0xF40E35855771202A, 0x106AA07032BBD1B8] ++
  [0x19A4C116B8D2D0C8, 0x1E376C085141AB53, 0x2748774CDF8EEB99, 0x34B0BCB5E19B48A8,
   0x391C0CB3C5C95A63, 0x4ED8AA4AE3418ACB, 0x5B9CCA4F7763E373, 0x682E6FF3D6B2B8A3,
   0x748F82EE5DEFB2FC, 0x78A5636F43172F60, 0x84C87814A1F0AB72, 0x8CC702081A6439EC,
   0x90BEFFFA23631E28, 0xA4506CEBDE82BDE9, 0xBEF9A3F7B2C67915, 0xC67178F2E372532B] ++
  [0xCA273ECEEA26619C, 0xD186B8C721C0C207, 0xEADA7DD6CDE0EB1E, 0xF57D4F7FEE6ED178,
   0x06F067AA72176FBA, 0x0A637DC5A2C898A6, 0x113F9804BEF90DAE, 0x1B710B35131C471B,
   0x28DB77F523047D84, 0x32CAAB7B40C72493, 0x3C9EBE0A15C9BEBC, 0x431D67C49C100D4C,
   0x4CC5D4BECB3E42B6, 0x597F299CFC657E2A, 0x5FCB6FAB3AD6FAEC, 0x6C44198C4A475817]

/-- FIPS 180-4: the initial hash value of SHA-256. -/
def shaH256 : List Nat :=
  [0x6A09E667, 0xBB67AE85, 0x3C6EF372, 0xA54FF53A, 0x510E527F, 0x9B05688C, 0x1F83D9AB, 0x5BE0CD19]

/-- FIPS 180-4: the initial hash value of SHA-384. -/
def shaH384 : List Nat :=
  [0xCBBB9D5DC1059ED8, 0x629A292A367CD507, 0x9159015A3070DD17, 0x152FECD8F70E5939,
   0x67332667FFC00B31, 0x8EB44A8768581511, 0xDB0C2E0D64F98FA7, 0x47B5481DBEFA4FA4]

/-- A big-endian number. -/
def beNat (bs : List Byte) : Nat := bs.foldl (fun a b => 256 * a + b.toNat) 0
/-- The `n` big-endian bytes of a number. -/
def natBe (n x : Nat) : List Byte := (natLe n x).reverse

/-- Rotation right of a `w`-bit word. -/
def shaRotr (w n x : Nat) : Nat := Nat.lor (Nat.shiftRight x n) (Nat.mod (Nat.shiftLeft x (Nat.sub w n)) (Nat.pow 2 w))

/-- A member of the family: word width; the rotation amounts Σ0, Σ1, σ0, σ1 (the last of σ is a shift); constants. -/
structure ShaP where
  w : Nat
  s0 : Nat × Nat × Nat
  s1 : Nat × Nat × Nat
  t0 : Nat × Nat × Nat
  t1 : Nat × Nat × Nat
  k : List Nat

/-- SHA-256. -/
def shaP256 : ShaP := ⟨32, (2, 13, 22), (6, 11, 25), (7, 18, 3), (17, 19, 10), shaK256⟩
/-- SHA-384. -/
def shaP512 : ShaP := ⟨64, (28, 34, 39), (14, 18, 41), (1, 8, 7), (19, 61, 6), shaK512⟩

/-- Σ. -/
def shaBig (w : Nat) (r : Nat × Nat × Nat) (x : Nat) : Nat := Nat.xor (Nat.xor (shaRotr w r.1 x) (shaRotr w r.2.1 x)) (shaRotr w r.2.2 x)
/-- σ. -/
def shaSmall (w : Nat) (r : Nat × Nat × Nat) (x : Nat) : Nat := Nat.xor (Nat.xor (shaRotr w r.1 x) (shaRotr w r.2.1 x)) (Nat.shiftRight x r.2.2)

/-- The message schedule, newest word first. -/
def shaSched (p : ShaP) : Nat → List Nat → List Nat
  | 0, ws => ws
  | n + 1, ws =>
    let x := Nat.mod (Nat.add (Nat.add (shaSmall p.w p.t1 (ws.getD 1 0)) (ws.getD 6 0)) (Nat.add (shaSmall p.w p.t0 (ws.getD 14 0)) (ws.getD 15 0)))
      (Nat.pow 2 p.w)
    shaSched p n (x :: ws)

/-- The rounds, over constants and schedule; in words of arithmetic that Lean's kernel computes. -/
def shaRounds (p : ShaP) : List Nat → List Nat → Nat → Nat → Nat → Nat → Nat → Nat → Nat → Nat → List Nat
  | k :: ks, x :: xs, a, b, c, d, e, f, g, h =>
    let ch := Nat.xor (Nat.land e f) (Nat.land (Nat.sub (Nat.sub (Nat.pow 2 p.w) 1) e) g)
    let maj := Nat.xor (Nat.xor (Nat.land a b) (Nat.land a c)) (Nat.land b c)
    let t1 := Nat.add (Nat.add h (shaBig p.w p.s1 e)) (Nat.add ch (Nat.add k x))
    let t2 := Nat.add (shaBig p.w p.s0 a) maj
    shaRounds p ks xs (Nat.mod (Nat.add t1 t2) (Nat.pow 2 p.w)) a b c (Nat.mod (Nat.add d t1) (Nat.pow 2 p.w)) e f g
  | _, _, a, b, c, d, e, f, g, h => [a, b, c, d, e, f, g, h]

/-- One block of 16 words. -/
def shaBlock (p : ShaP) (h ws : List Nat) : List Nat :=
  match h with
  | [a, b, c, d, e, f, g, i] =>
    let sched := (shaSched p (p.k.length - 16) ws.reverse).reverse
    List.zipWith (fun x y => Nat.mod (Nat.add x y) (Nat.pow 2 p.w)) h (shaRounds p p.k sched a b c d e f g i)
  | _ => h

/-- The words of a block. -/
def shaWords (n : Nat) : Nat → List Byte → List Nat
  | 0, _ => []
  | k + 1, bs => beNat (bs.take n) :: shaWords n k (bs.drop n)

/-- The blocks of a padded message. -/
def shaBlocks (p : ShaP) (n : Nat) : Nat → List Byte → List Nat → List Nat
  | 0, _, h => h
  | k + 1, bs, h => shaBlocks p n k (bs.drop (16 * n)) (shaBlock p h (shaWords n 16 bs))

/-- Padding: a one bit, zeros, and the length in bits. -/
def shaPad (n : Nat) (bs : List Byte) : List Byte :=
  let l := bs.length
  let z := (16 * n - (l + 1 + 2 * n) % (16 * n)) % (16 * n)
  bs ++ [0x80] ++ List.replicate z 0 ++ natBe (2 * n) (8 * l)

/-- SHA-256 of a message: 32 bytes. -/
def sha256 (bs : List Byte) : List Byte :=
  let m := shaPad 4 bs
  (shaBlocks shaP256 4 (m.length / 64) m shaH256).flatMap (natBe 4)

/-- SHA-384 of a message: 48 bytes. -/
def sha384 (bs : List Byte) : List Byte :=
  let m := shaPad 8 bs
  ((shaBlocks shaP512 8 (m.length / 128) m shaH384).take 6).flatMap (natBe 8)

/-! ### ECDSA over P-384 (FIPS 186-5) -/

/-- The field prime of P-384. -/
def ecP : Nat := 2 ^ 384 - 2 ^ 128 - 2 ^ 96 + 2 ^ 32 - 1
/-- The order of P-384. -/
def ecN : Nat := 0xFFFFFFFFFFFFFFFFFFFFFFFFFFFFFFFFFFFFFFFFFFFFFFFFC7634D81F4372DDF581A0DB248B0A77AECEC196ACCC52973
/-- The coefficient b. -/
def ecB : Nat := 0xB3312FA7E23EE7E4988E056BE3F82D19181D9C6EFE8141120314088F5013875AC656398D8A2ED19D2A85C8EDD3EC2AEF
/-- The base point. -/
def ecG : Nat × Nat :=
  (0xAA87CA22BE8B05378EB1C71EF320AD746E1D3B628BA79B9859F741E082542A385502F25DBF55296C3A545E3872760AB7,
   0x3617DE4A96262C6F5D9E98BF9292DC29F8F41DBD289A147CE9DA3113B5F0B8C00A60B1CE1D7E819D7A431D7C90EA0E5F)

/-- `b ^ e` modulo `m`, with `n` bits of the exponent left. -/
def powMod (m b : Nat) : Nat → Nat → Nat
  | 0, _ => 1 % m
  | n + 1, e =>
    let r := powMod m b n (e / 2)
    if e % 2 = 1 then r * r % m * b % m else r * r % m

/-- The inverse modulo a prime. -/
def invMod (m x : Nat) : Nat := powMod m x 384 (m - 2)

/-- A difference modulo the field prime, of residues. -/
def ecSub (a b : Nat) : Nat := Nat.mod (Nat.sub (Nat.add a ecP) b) ecP
/-- A product modulo the field prime. -/
def ecMulm (a b : Nat) : Nat := Nat.mod (Nat.mul a b) ecP

/-- A point of the curve in Jacobian coordinates (X / Z², Y / Z³); Z = 0 is the point at infinity. -/
structure EcPt where
  x : Nat
  y : Nat
  z : Nat

/-- Doubling. -/
def ecDbl (a : EcPt) : EcPt :=
  let d := ecMulm a.z a.z
  let g := ecMulm a.y a.y
  let b := ecMulm a.x g
  let l := ecMulm 3 (ecMulm (ecSub a.x d) (Nat.add a.x d))
  let x := ecSub (ecMulm l l) (ecMulm 8 b)
  { x := x, y := ecSub (ecMulm l (ecSub (ecMulm 4 b) x)) (ecMulm 8 (ecMulm g g)), z := ecMulm 2 (ecMulm a.y a.z) }

/-- Addition on the curve. -/
def ecAdd (a b : EcPt) : EcPt :=
  if Nat.beq a.z 0 then b
  else if Nat.beq b.z 0 then a
  else
    let aa := ecMulm a.z a.z
    let bb := ecMulm b.z b.z
    let u := ecMulm a.x bb
    let s := ecMulm a.y (ecMulm b.z bb)
    let h := ecSub (ecMulm b.x aa) u
    let r := ecSub (ecMulm b.y (ecMulm a.z aa)) s
    if Nat.beq h 0 then (if Nat.beq r 0 then ecDbl a else { x := 1, y := 1, z := 0 })
    else
      let hh := ecMulm h h
      let hhh := ecMulm h hh
      let v := ecMulm u hh
      let x := ecSub (ecSub (ecMulm r r) hhh) (ecMulm 2 v)
      { x := x, y := ecSub (ecMulm r (ecSub v x)) (ecMulm s hhh), z := ecMulm h (ecMulm a.z b.z) }

/-- A multiple of a point, with `n` bits of the factor left. -/
def ecMul (q : EcPt) : Nat → Nat → EcPt
  | 0, _ => { x := 1, y := 1, z := 0 }
  | n + 1, k =>
    let d := ecDbl (ecMul q n (Nat.div k 2))
    if Nat.beq (Nat.mod k 2) 1 then ecAdd d q else d

/-- Is a point on the curve. -/
def ecOn (q : Nat × Nat) : Bool :=
  decide (q.1 < ecP) && decide (q.2 < ecP) && q.2 * q.2 % ecP == (q.1 * q.1 % ecP * q.1 + ecP * 3 - 3 * q.1 + ecB) % ecP

/-- Verifies a signature (r, s) over SHA-384 of a message with a public key (x, y) (PRESUMED, assumption log 74). -/
def ecdsaOk (key : Nat × Nat) (r s : Nat) (msg : List Byte) : Bool :=
  if r = 0 ∨ ecN ≤ r ∨ s = 0 ∨ ecN ≤ s ∨ !ecOn key then false
  else
    let e := beNat (sha384 msg)
    let w := invMod ecN s
    let q := ecAdd (ecMul { x := ecG.1, y := ecG.2, z := 1 } 384 (e * w % ecN)) (ecMul { x := key.1, y := key.2, z := 1 } 384 (r * w % ecN))
    !(Nat.beq q.z 0) && ecMulm q.x (invMod ecP (ecMulm q.z q.z)) % ecN == r

end Sys2Proof.Machine
end

