-- ==== Sys2Proof/Machine/TrainOps.lean ====
section
/-! DEFINITION. Shared operations of inputs, the Gloss, the step gate and COPY transfers
(spec/14_bit_identity.md R440 to R453, spec/15_training_steps.md R455 to R481). -/

namespace Sys2Proof.Machine

/-! ### Status codes (R454, R487) -/

/-- R454. -/
def stINPUT_LATE : Nat := 0x80
/-- R454. -/
def stINPUT_DUP : Nat := 0x81
/-- R454. -/
def stINPUT_COUNT : Nat := 0x82
/-- R454. -/
def stINPUT_MISMATCH : Nat := 0x83
/-- R454. -/
def stGLOSS_STATE : Nat := 0x84
/-- R454. -/
def stINPUT_FULL : Nat := 0x85
/-- R487. -/
def stSTEP_SKIPPED : Nat := 0x90
/-- R487. -/
def stSTEP_ORDER : Nat := 0x91
/-- R487. -/
def stSTEP_TABLE : Nat := 0x92
/-- R487. -/
def stOFFLOAD_CHECK : Nat := 0x93
/-- R487. -/
def stTEARDOWN : Nat := 0x94

/-! ### Reading records and areas piece by piece -/

/-- ASCII bytes. -/
def ascii (l : List Nat) : List Byte := l.map (BitVec.ofNat 8)

/-- R440: bytes of a chunk. -/
def chunkBytes : Nat := 1048576

/-- An accepted or running descriptor of a type and form whose command may begin or go on. -/
def descLive (s : State) (id ty fm : Nat) : Option Desc :=
  match descReady s id ty fm with
  | some d => some d
  | none => descRunning s id ty fm

/-- Reads the records that a descriptor names, one after another: `next` says from the bytes so far which area follows, and
`fin` goes on once none does. Bytes that have come stay with the descriptor. A failure ends it. -/
def gatherParts (id c : Nat) (next : List Byte → Option (Nat × Nat)) (fin : State → List Byte → State) : Nat → State → State
  | 0, s => s
  | fuel + 1, s =>
    match mapFind s.descs id with
    | none => s
    | some d =>
      match next (auxBytes d) with
      | none => fin s (auxBytes d)
      | some (r, n) =>
        match areaGather s c 48 r n (dKey d) (.desc id) with
        | (s, .waiting) => s
        | (s, .failed st) => descEnd s id st 0 0
        | (s, .done b _ _) =>
          gatherParts id c next fin fuel (updDesc s id fun x => { x with aux := x.aux ++ b.map (·.toNat) })

/-- The poison of an area's bytes that lie in memory here, in runs cut where 32-byte units end. -/
def hereRuns (s : State) (c r n : Nat) : List (List Byte × Bool) :=
  if (arRead s c 48 r n).2 then
    (List.range ((r % 32 + n + 31) / 32)).map fun i =>
      let lo := if i = 0 then 0 else 32 * i - r % 32
      let hi := min n (32 * (i + 1) - r % 32)
      arRead s c 48 (r + lo) (hi - lo)
  else [((arRead s c 48 r n).1, false)]

/-- The bytes of an area with their poison, run by run, once its host data has come for a piece of work. -/
def areaRuns (s : State) (c r n : Nat) (w : HostWork) : List (List Byte × Bool) :=
  if arSpad r then hereRuns s c r n
  else (pagePieces (n / 4096 + 2) (arAddr r) n).flatMap fun p =>
    match xlat s (c / 8) 48 p.1 false with
    | .host a _ _ =>
      match s.answers.find? fun x => x.work == w && x.addr == a && x.len == p.2 with
      | some x => x.got.mergeSort (fun a b => decide (a.1 ≤ b.1)) |>.map fun g => (g.2.1, g.2.2)
      | none => []
    | _ => hereRuns s c p.1 p.2

/-- Writes runs of bytes one after another at an area, each with its poison. -/
def storeRuns (s : State) (c r : Nat) (rs : List (List Byte × Bool)) : State :=
  (rs.foldl (fun (a : State × Nat) x => (areaStore a.1 c 48 a.2 x.1 x.2, a.2 + x.1.length)) (s, r)).1

/-- As `storeRuns`, whatever view the bytes belong to. -/
def putRuns (s : State) (c r : Nat) (rs : List (List Byte × Bool)) : State :=
  (rs.foldl (fun (a : State × Nat) x =>
    (if bit r 63 then spPut a.1 c 48 (a.2 % 2 ^ 32) x.1 x.2 else dvaPut a.1 (c / 8) 48 (a.2 % 2 ^ 48) x.1 x.2, a.2 + x.1.length)) (s, r)).1

/-- R497, R507: does an area reach host memory everywhere (`true`), or nowhere (`false`). -/
def areaAll (s : State) (c r n : Nat) (write host : Bool) : Bool :=
  if arSpad r then !host
  else (dvaPieces (n / 65536 + 2) (arAddr r) n).all fun p =>
    match xlat s (c / 8) 48 p.1 write with
    | .host _ _ _ => host
    | .pm _ => !host
    | .fault _ _ => true

/-- Marks a descriptor's outcome as POISONED. -/
def descPoison (s : State) (id : Nat) (po : Bool) : State :=
  if po then updDesc s id fun d => { d with note := stPOISONED } else s

/-- Ends a COPY: OK, or what has been noted; R462: its step flags. -/
def copyEnd (s : State) (id c : Nat) : State :=
  match mapFind s.descs id with
  | none => s
  | some d => descEnd (if d.note = stPOISONED then orSflags s c 8 else s) id d.note 0 0

/-! ### Chunked digests (R440, R450) -/

/-- R440: the outer hash, from the chunk digests in order. -/
def cdOuter (tag : List Byte) (len : Nat) (digs : List (List Byte)) : List Byte := sha256 (tag ++ natLe 8 len ++ digs.flatten)

/-- "HXNINPUT". -/
def tagINPUT : List Byte := ascii [0x48, 0x58, 0x4E, 0x49, 0x4E, 0x50, 0x55, 0x54]
/-- "HXNOFFLD". -/
def tagOFFLD : List Byte := ascii [0x48, 0x58, 0x4E, 0x4F, 0x46, 0x46, 0x4C, 0x44]
/-- "HXNPROG1". -/
def tagPROG1 : List Byte := ascii [0x48, 0x58, 0x4E, 0x50, 0x52, 0x4F, 0x47, 0x31]
/-- "HXNGLOS0". -/
def tagGLOS0 : List Byte := ascii [0x48, 0x58, 0x4E, 0x47, 0x4C, 0x4F, 0x53, 0x30]
/-- "HXNISET1". -/
def tagISET1 : List Byte := ascii [0x48, 0x58, 0x4E, 0x49, 0x53, 0x45, 0x54, 0x31]
/-- "HXNSTEP1". -/
def tagSTEP1 : List Byte := ascii [0x48, 0x58, 0x4E, 0x53, 0x54, 0x45, 0x50, 0x31]
/-- "HXNWLIST". -/
def tagWLIST : List Byte := ascii [0x48, 0x58, 0x4E, 0x57, 0x4C, 0x49, 0x53, 0x54]
/-- "HXNWEIGH". -/
def tagWEIGH : List Byte := ascii [0x48, 0x58, 0x4E, 0x57, 0x45, 0x49, 0x47, 0x48]
/-- "HXNSNAP1". -/
def tagSNAP1 : List Byte := ascii [0x48, 0x58, 0x4E, 0x53, 0x4E, 0x41, 0x50, 0x31]
/-- "HXNEXPRT". -/
def tagEXPRT : List Byte := ascii [0x48, 0x58, 0x4E, 0x45, 0x58, 0x50, 0x52, 0x54]

/-! ### Weight lists (R449, R450) -/

/-- R449: an entry: AREA, BYTES, LOFF. -/
structure WEnt where
  area : Nat
  bytes : Nat
  loff : Nat
deriving DecidableEq, Repr

/-- R449: the entries of a weight list. -/
def wEnts (b : List Byte) : List WEnt :=
  (List.range (b.length / 32)).map fun i =>
    let e := (b.drop (32 * i)).take 32
    ⟨leNat (e.take 8), leNat ((e.drop 8).take 8), leNat ((e.drop 16).take 8)⟩

/-- R449: length of the logical weight space as a list shows it. -/
def wLen (ws : List WEnt) : Nat := ws.foldl (fun a w => max a (w.loff + w.bytes)) 0

/-- R449: its rules. -/
def wOk (b : List Byte) : Bool :=
  let ws := wEnts b
  let end_ := wLen ws
  ((List.range (b.length / 32)).all fun i => leNat ((b.drop (32 * i + 0x18)).take 8) == 0)
    && (ws.all fun w => !arRsv w.area && w.loff % chunkBytes == 0 && (w.bytes % chunkBytes == 0 || w.loff + w.bytes == end_))
    && (ws.zipIdx.all fun x => ws.zipIdx.all fun y =>
      x.2 == y.2 || decide (x.1.loff + x.1.bytes ≤ y.1.loff) || decide (y.1.loff + y.1.bytes ≤ x.1.loff))

/-- R450: the chunks that a list holds: number, area, bytes; in increasing number. -/
def wChunks (ws : List WEnt) : List (Nat × Nat × Nat) :=
  (ws.flatMap fun w => (List.range ((w.bytes + chunkBytes - 1) / chunkBytes)).map fun j =>
    (w.loff / chunkBytes + j, w.area + chunkBytes * j, min chunkBytes (w.bytes - chunkBytes * j))).mergeSort fun a b => decide (a.1 ≤ b.1)

/-- R450: digests of the chunks still to come of a descriptor; where all have come, `fin` goes on. -/
def digestChunks (id c : Nat) (fin : State → State) : List (Nat × Nat × Nat) → State → State
  | [], s => fin s
  | (k, r, n) :: rest, s =>
    match mapFind s.descs id with
    | none => s
    | some d =>
      if d.digs.any fun x => x.1 == k then digestChunks id c fin rest s
      else
        match areaGather s c 48 r n (dKey d) (.desc id) with
        | (s, .waiting) => s
        | (s, .failed st) => descEnd s id st 0 0
        | (s, .done b po _) =>
          digestChunks id c fin rest (descPoison (updDesc s id fun x => { x with digs := x.digs ++ [(k, sha256 b)] }) id po)

/-- R450: WD. -/
def wdOf (digs : List (Nat × List Byte)) : List Byte :=
  sha256 (tagWLIST ++ (digs.mergeSort fun a b => decide (a.1 ≤ b.1)).flatMap fun d => natLe 8 d.1 ++ d.2)

/-! ### The Gloss state record (R447, R448) -/

/-- R448. -/
def attested (x : Ctx) (g : Gloss) : Bool := x.strict && !(x.indet || x.unrec || g.poison || g.mismatch)

/-- R447: GFLAGS (DEDUCED, assumption log 65). -/
def gFlags (x : Ctx) (g : Gloss) : Nat :=
  let f (b : Bool) (i : Nat) : Nat := if b then 2 ^ i else 0
  f x.glossOpen 0 + f x.strict 1 + f g.replay 2 + f x.indet 3 + f x.unrec 4 + f g.poison 5 + f g.mismatch 6 + f g.copyFull 7 +
    f (attested x g) 8

/-- R447: the gloss state record. -/
def glossBytes (x : Ctx) (g : Gloss) : List Byte :=
  let d (l : List Byte) : List Byte := (l ++ List.replicate 32 0).take 32
  natLe 8 g.step ++ natLe 4 (gFlags x g) ++ natLe 4 g.pre ++ d g.p ++ d g.w0 ++ d g.gloss ++ d g.lastWd ++ natLe 8 g.lastWstep ++
    natLe 8 g.jpos ++ natLe 8 g.copyUsed ++ natLe 8 g.inputs ++ List.replicate 80 0

/-- R447: writes the gloss state record of a context. -/
def glossWrite (s : State) (c : Nat) : State :=
  match (ctxOf s c).gloss with
  | some g => areaStore s c 48 g.addr (glossBytes (ctxOf s c) g) false
  | none => s

/-- Changes a context's Gloss. -/
def updGloss (s : State) (c : Nat) (f : Gloss → Gloss) : State := updCtx s c fun x => { x with gloss := x.gloss.map f }

/-! ### Inputs (R440, R444 to R446, R452, R453) -/

/-- R440: STEP of a pre-open input. -/
def stepPre : Nat := 2 ^ 48 - 1

/-- R444: e[j] of an input. -/
def inputE (i : Input) : List Byte := natLe 4 i.isid ++ natLe 4 i.iseq ++ i.digest

/-- R444: increasing (ISID, ISEQ). -/
def inputSort (l : List Input) : List Input :=
  l.mergeSort fun a b => decide (a.isid < b.isid) || (a.isid == b.isid && decide (a.iseq ≤ b.iseq))

/-- R452: a journal entry. -/
def journalBytes (i : Input) : List Byte :=
  natLe 8 i.step ++ natLe 4 i.isid ++ natLe 4 i.iseq ++ natLe 8 i.len ++ natLe 8 (i.copy.getD (2 ^ 64 - 1)) ++ i.digest

/-- R453: do two entries agree in every field but COPYOFF. -/
def journalSame (a b : List Byte) : Bool := a.take 24 == b.take 24 && (a.drop 32) == (b.drop 32)

/-- R452, R453: journals the inputs that are folded, or compares them; the Bool: a difference was met. -/
def journalInputs (s : State) (c : Nat) (g : Gloss) (l : List Input) : State × Gloss × Bool :=
  let at_ (j : Nat) : Nat := g.journal + 64 * (j % g.jcount)
  if g.record then
    ((l.zipIdx).foldl (fun s i => areaStore s c 48 (at_ (g.jpos + i.2)) (journalBytes i.1) false) s,
      { g with jpos := g.jpos + l.length }, false)
  else if g.replay then
    let bad := (l.zipIdx).any fun i => !journalSame (arRead s c 48 (at_ (g.jpos + i.2)) 64).1 (journalBytes i.1)
    (s, { g with jpos := g.jpos + l.length, mismatch := g.mismatch || bad }, bad)
  else (s, g, false)

/-- R452: copies an accepted input under RECORD; where it lies. -/
def inputCopy (s : State) (c : Nat) (dst len : Nat) : State × Option Nat :=
  match (ctxOf s c).gloss with
  | some g =>
    if !g.record then (s, none)
    else
      let off := (g.copyUsed + 63) / 64 * 64
      if g.copyBytes < off + len then (updGloss s c fun g => { g with copyFull := true }, none)
      else
        let s := storeRuns s c (g.copyArea + off) (hereRuns s c dst len)
        (updGloss s c fun g => { g with copyUsed := off + len }, some off)
  | none => (s, none)

/-! ### The step table (R456 to R461) -/

/-- R458: view `v` of a step table as it stands at its addresses. -/
def regionWidth (f : Nat) : Nat := fmtWidth (fmtOf f) / 8

/-- R460, R461: GEN_S as the step record holds it (DEDUCED, assumption log 65). -/
def genStaged (s : State) (c : Nat) (t : StepTab) : List Nat :=
  let b := (arRead s c 48 (t.rec_ + 0x60) 64).1
  (List.range 8).map fun i => leNat ((b.drop (8 * i)).take 8)

/-- R460, R481: RETAINED. -/
def retBits (t : StepTab) : Nat := (t.rets.zipIdx).foldl (fun m r => if r.1.retained then m ||| 2 ^ r.2 else m) 0

/-- R460: writes the step record. -/
def stepRecWrite (s : State) (c : Nat) (genS : List Nat) : State :=
  match (ctxOf s c).table with
  | some t =>
    let b := natLe 8 (runOf s c).step ++ natLe 8 t.commits ++ natLe 8 t.skips ++ natLe 2 (ctxOf s c).sflags ++ natLe 6 0 ++
      t.genC.flatMap (natLe 8) ++ genS.flatMap (natLe 8) ++ natLe 32 (retBits t) ++ List.replicate 64 0
    areaStore s c 48 t.rec_ b false
  | none => s

/-- R459: clears the bitmaps of the CARRY regions. -/
def clearBitmaps (s : State) (c : Nat) : State :=
  ((ctxOf s c).views.filter (·.carry)).foldl (fun s v =>
    areaPut s c 48 v.bitmap (List.replicate ((v.bytes / 65536 + 7) / 8) 0)) s

/-- R481, R302: frees the pages of a released area. -/
def areaRelease (s : State) (c : Nat) (r : Reten) : State :=
  let lo := arAddr r.area / pageBytes
  let hi := lo + r.bytes / pageBytes
  updCtx s c fun x => { x with pages := x.pages.filter fun p => decide (p.1 < lo) || decide (hi ≤ p.1) }

end Sys2Proof.Machine
end

