-- ==== Sys2Proof/Machine/PairOps.lean ====
section
/-! DEFINITION. The pair engine's shared operations (spec/20_fault_handling.md R607 to R613). -/

namespace Sys2Proof.Machine

/-- R614: STATE of RAS_PAIR_STATUS: 0 OFF, 1 SYNCING, 2 PAIRED, 3 PARTNER_LOST, 4 PROMOTED, 5 SPLIT, 6 PAIR_ERR. -/
def pairState (s : State) : Nat := fld s aRAS_PAIR_STATUS 2 0
/-- R614: MODE: 1 MIRROR, 2 COMPARE. -/
def pairMode (s : State) : Nat := fld s aRAS_PAIR 2 1
/-- R614: is pairing enabled in the role of primary (COMPARE has no roles). -/
def pairPrimary (s : State) : Bool := pairMode s == 2 || fld s aRAS_PAIR 3 3 == 0
/-- R614: the paired context, where it lives. -/
def pairCtx (s : State) : Option Nat := ctxByKey s (fld s aRAS_PAIR 11 8) (fld s aRAS_PAIR 31 16)
/-- R614: the paired mirror ports. -/
def pairPorts (s : State) : List Nat := [12, 13].filter fun p => bit (fld s aRAS_PAIR 5 4) (p - 12)

/-- R598: a change of STATE is reported. -/
def pairSet (s : State) (st : Nat) : State :=
  if pairState s = st then s
  else report (setFld s aRAS_PAIR_STATUS 2 0 st) clEVENT 0x16 (fld s aRAS_PAIR 11 8) 0xFF 0xFF [st]

/-- R388, R608: a DATA WRITE to the partner, out of the first paired port that is UP; one that is waited for carries ACKREQ. -/
def pairData (s : State) (tag addr : Nat) (ack : Bool) (bs : List Byte) (po : Nat) : State :=
  match (pairPorts s).find? (portUp s) with
  | none => s
  | some p =>
    let body := natLe 2 bs.length ++ natLe 6 0 ++ natLe 8 addr
    let s := if ack then
        let (n, w) := mapGet (0, 0) s.ackWait tag
        { s with ackWait := mapIns s.ackWait tag (n + 1, w) }
      else s
    egressPush s p 14 (mkPkt s ptDATA (if ack then 4 else 0) (fld s aRAS_PAIR 31 16) (fld s (aYLV_PORT_STATUS p) 31 16) 0 tag body bs po) false

/-- R608: address of a pair message. -/
def pairAddr : Nat := 2 ^ 63 + 0xFFFFFF80
/-- TAG of the forwarded writes of a MIRROR pair (DEDUCED, assumption log 68). -/
def mirrorTag : Nat := 0xFFFF

/-- R608: sends a pair message. -/
def pairSend (s : State) (msg step : Nat) (body : List Byte) : State :=
  pairData s mirrorTag pairAddr false ((natLe 8 msg ++ natLe 8 step ++ body ++ List.replicate 112 0).take 128) 0

/-- R610: the writes to staged views that wait are sent. -/
def drainMirror (s : State) : State :=
  s.mirror.foldl (fun s m =>
    (splitAtGran 4096 (m.2.2.1.length / 4096 + 2) m.2.1 m.2.2.1).foldl (fun s x =>
      pairData s mirrorTag x.1 true x.2 (if m.2.2.2 then 2 ^ ((x.2.length + 31) / 32) - 1 else 0)) s) { s with mirror := [] }

/-- R611: is every forwarded write acknowledged. -/
def mirrorQuiet (s : State) : Bool :=
  s.mirror.isEmpty && (match mapFind s.ackWait mirrorTag with | some (n, _) => n == 0 | none => true)

/-- R613: the compare word of a decision. A Gloss that is closed stands as zeros (DEDUCED, assumption log 68). -/
def compareWord (s : State) (c step outcome : Nat) : List Byte :=
  let g := match (ctxOf s c).gloss with | some g => (g.gloss ++ List.replicate 32 0).take 32 | none => List.replicate 32 0
  let a := (arRead s c 48 (regGet s aRAS_PAIR_CMP) (fld s aRAS_PAIR_CMPLEN 31 0)).1
  sha256 (ascii [0x48, 0x58, 0x4E, 0x43, 0x4D, 0x50, 0x52, 0x31] ++ natLe 8 step ++ g ++ sha256 a ++ natLe 1 outcome)

/-- R613: compares the words that both devices have (DEDUCED, assumption log 68). -/
def pairMatch (s : State) : State :=
  match s.pair.own, s.pair.got with
  | a :: own, b :: got =>
    if a = b then
      let s := { s with pair := { s.pair with own := own, got := got } }
      setFld (satFld s aRAS_PAIR_CNT 31 0 1) aRAS_PAIR_STATUS 63 16 a.1
    else
      let s := { s with pair := { s.pair with own := [], got := [] } }
      signalOwn (pairSet s 5) (fld s aRAS_PAIR 45 32) 1 true
  | _, _ => s

/-- R613: does a context compare its commits now. -/
def comparing (s : State) (c : Nat) : Bool :=
  fld s aRAS_PAIR 0 0 == 1 && pairMode s == 2 && pairState s == 2 && pairCtx s == some c

/-- R613: forms, sends and compares the word of a decision. -/
def pairCompare (s : State) (c step outcome : Nat) : State :=
  if comparing s c then
    let w := compareWord s c step outcome
    pairMatch { pairSend s 4 step w with pair := { s.pair with own := s.pair.own ++ [(step, w)] } }
  else s

/-- R610, R613: does the pair hold a context's commit of a step at sequence 8. -/
def pairHold (s : State) (c step : Nat) : Bool :=
  (fld s aRAS_PAIR 0 0 == 1 && pairMode s == 1 && pairPrimary s && pairState s == 1 && pairCtx s == some c)
    || (comparing s c && s.pair.own.any fun x => decide (x.1 < step))

end Sys2Proof.Machine
end

