-- ==== Sys2Proof/Machine/Train.lean ====
section
/-! DEFINITION. The step gate: step table, commit, exchange of views, retention, deferrable work
(spec/15_training_steps.md R455 to R470, R480 to R482). -/

namespace Sys2Proof.Machine

/-! ### SETUP (R455 to R457, R461, R480, R481) -/

/-- A field of bytes. -/
def bNat (b : List Byte) (o n : Nat) : Nat := leNat ((b.drop o).take n)

/-- R457: the view of region entry `i` of a table's bytes. -/
def viewOf (b : List Byte) (i : Nat) : View :=
  let e := (b.drop (64 + 64 * i)).take 64
  { spad := arSpad (bNat e 0 8), vc := arAddr (bNat e 0 8), vs := arAddr (bNat e 8 8), bytes := bNat e 0x10 8, role := bNat e 0x18 1
    carry := bit (bNat e 0x19 1) 0, bitmap := bNat e 0x20 8 }

/-- R457: the leaf levels of the pages of a range; none where one is not mapped. -/
def pageLevels (s : State) (k a n : Nat) : List (Option Nat) :=
  (dvaPieces (n / 65536 + 2) a n).map fun p => match xFind s k (xStop s k 48) p.1 with | .ok e => some e.lvl | .error _ => none

/-- R457: the rules of a region entry by itself. -/
def regionOk (s : State) (c : Nat) (b : List Byte) (i : Nat) : Bool :=
  let e := (b.drop (64 + 64 * i)).take 64
  let v := viewOf b i
  let k := c / 8
  decide (1 ≤ v.role) && decide (v.role ≤ 5) && bNat e 0x19 1 / 2 == 0 && bNat e 0x1A 6 == 0 && bNat e 0x28 8 == 0 && bNat e 0x30 8 == 0
    && bNat e 0x38 8 == 0 && !arRsv (bNat e 0 8) && !arRsv (bNat e 8 8) && arSpad (bNat e 0 8) == arSpad (bNat e 8 8)
    && (!v.carry || !arRsv v.bitmap)
    && (if v.spad then
        v.vc % 65536 == 0 && v.vs % 65536 == 0 && v.bytes % 65536 == 0 && inSpace s k v.vc v.bytes && inSpace s k v.vs v.bytes
      else
        let ls := pageLevels s k v.vc v.bytes ++ pageLevels s k v.vs v.bytes
        v.vc % 2097152 == 0 && v.vs % 2097152 == 0 && v.bytes % 2097152 == 0 && decide (v.vc + v.bytes ≤ 2 ^ 48)
          && decide (v.vs + v.bytes ≤ 2 ^ 48) && (ls.all (· == some 2) || ls.all (· == some 3)))

/-- R457: no view overlaps another. -/
def viewsApart (vs : List View) : Bool :=
  let rs := (vs.flatMap fun v => [(v.spad, v.vc, v.bytes), (v.spad, v.vs, v.bytes)]).zipIdx
  rs.all fun x => rs.all fun y =>
    x.2 == y.2 || x.1.1 != y.1.1 || decide (x.1.2.1 + x.1.2.2 ≤ y.1.2.1) || decide (y.1.2.1 + y.1.2.2 ≤ x.1.2.1)

/-- R480: a retention entry. -/
def retOf (e : List Byte) : Reten :=
  { area := bNat e 0 8, bytes := bNat e 8 8, policy := bNat e 0x10 1, conj := bNat e 0x12 2 % 2 ^ 14, target := bNat e 0x14 4
    adv := bNat e 0x18 4 }

/-- R480: its rules. -/
def retOk (s : State) (c : Nat) (e : List Byte) : Bool :=
  let r := retOf e
  arSpad r.area && !arRsv r.area && arAddr r.area % 65536 == 0 && r.bytes % 65536 == 0 && inSpace s (c / 8) (arAddr r.area) r.bytes
    && decide (r.policy ≤ 2) && bNat e 0x11 1 == 0 && bNat e 0x12 2 / 2 ^ 14 == 0 && decide (1 ≤ r.adv) && decide (r.adv < 2 ^ 31)
    && bNat e 0x1C 4 == 0

/-- R481: which BUDGET entries are retained, in list order. -/
def retain (budget : Nat) : Nat → List Reten → List Reten
  | _, [] => []
  | used, r :: rest =>
    if r.policy = 1 ∧ used + r.bytes ≤ budget then { r with retained := true } :: retain budget (used + r.bytes) rest
    else r :: retain budget used rest

/-- R456: the rules of the header. -/
def tableOk (b : List Byte) : Bool :=
  let n := bNat b 0 2
  decide (1 ≤ n) && decide (n ≤ 256) && decide (bNat b 2 1 ≤ 4) && bNat b 3 1 == 0 && decide (bNat b 6 2 ≤ 256) && bNat b 8 8 / 2 ^ 48 == 0
    && !arRsv (bNat b 0x10 8) && bNat b 0x10 8 % 64 == 0 && !arRsv (bNat b 0x20 8) && bNat b 0x30 8 == 0 && bNat b 0x38 8 == 0

/-- R456: lengths of the header with its regions, and with the retention list. -/
def tableLens (b : List Byte) : Nat × Nat :=
  let r := 64 + 64 * bNat b 0 2
  (r, r + 32 * bNat b 6 2)

/-- R455 to R461: declares the step table whose bytes, retention list and GEN_S have been read. -/
def tableSet (s : State) (id c : Nat) (b : List Byte) : State :=
  let n := bNat b 0 2
  let (l1, l2) := tableLens b
  let vs := (List.range n).map (viewOf b)
  let re (i : Nat) : List Byte := (b.drop (l1 + 32 * i)).take 32
  let nr := bNat b 6 2
  if !tableOk b || !((List.range n).all (regionOk s c b)) || !viewsApart vs || !((List.range nr).all fun i => retOk s c (re i)) then
    descEnd s id stSTEP_TABLE 0 0
  else
    let gen := (List.range 8).map fun i => bNat (b.drop l2) (8 * i) 8
    let t : StepTab := { gateMask := bNat b 4 2, gates := (List.range (bNat b 2 1)).map fun i => bNat b (0x18 + 2 * i) 2
                         rec_ := bNat b 0x10 8, genC := gen, rets := retain (bNat b 0x28 8) 0 ((List.range nr).map fun i => retOf (re i)) }
    let s := updRun (updCtx s c fun x => { x with views := vs, table := some t }) c fun r => { r with step := bNat b 8 6 }
    descEnd (stepRecWrite (clearBitmaps s c) c gen) id stOK 0 0

/-- STEP_COMMIT_SETUP (R455). -/
def execStepCommitSetup (d : Nat) (s : State) : Res :=
  ran s (match descReady s d dtSTEP 0 with
    | none => s
    | some x =>
      match dCtx s x with
      | none => s
      | some c =>
        let a := dNat x 0x10 8
        if (ctxOf s c).table.isSome then descEnd s d stSTEP_TABLE 0 0
        else
          gatherParts d c (fun b =>
            let (l1, l2) := tableLens b
            if b.length < 64 then some (a, 64)
            else if !tableOk (b.take 64) then none
            else if b.length < l1 then some (a + 64, l1 - 64)
            else if b.length < l2 then some (bNat b 0x20 8, l2 - l1)
            else if b.length < l2 + 64 then some (bNat b 0x10 8 + 0x60, 64)
            else none) (fun s b => tableSet s d c b) 6 s)

/-! ### COMMIT and its decision (R463 to R466) -/

/-- R464: the step that a COMMIT names. -/
def cmStep (d : Desc) : Nat := dNat d 0x10 6

/-- R470: writes a commit result record, and ends the commit (DEDUCED, assumption log 65). -/
def commitEnd (s : State) (id c : Nat) (d : Desc) (status outcome cause flags sticky carried flip : Nat) : State :=
  let b := natLe 1 status ++ natLe 1 outcome ++ natLe 2 cause ++ natLe 2 flags ++ natLe 1 sticky ++ natLe 1 0 ++ natLe 8 (cmStep d) ++
    natLe 8 carried ++ natLe 8 flip ++ List.replicate 32 0
  let r := dNat d 0x28 8
  let s := match areaCheck s c 48 r 64 (dKey d) true with
    | none => areaStore s c 48 r b false
    | some (s, _) => s
  descEnd s id status (outcome + 256 * cause) (cmStep d)

/-- R464: is an earlier commit of the context still undecided or not yet done. -/
def commitBefore (s : State) (id c : Nat) : Bool :=
  s.descs.any fun y => decide (y.1 < id) && dType y.2 == dtSTEP && dForm y.2 == 1 && dCtx s y.2 == some c
    && (match y.2.st with | .ended _ _ _ => false | _ => true)

/-- STEP_COMMIT_COMMIT (R464, R482): accepted against the counter that the decision before it left. -/
def execStepCommitCommit (d now : Nat) (s : State) : Res :=
  let s := atTime s now
  ran s (match descReady s d dtSTEP 1 with
    | none => s
    | some x =>
      match dCtx s x with
      | none => s
      | some c =>
        if commitBefore s d c then s
        else if (ctxOf s c).table.isNone then commitEnd s d c x stSTEP_TABLE 0xFF 0 0 0 0 0
        else if cmStep x ≠ (runOf s c).step then commitEnd s d c x stSTEP_ORDER 0xFF 0 0 0 0 0
        else promoteCtx (updDesc s d fun y => { y with st := .running, pos := 1 }) c)

/-- R465: marks the generations under way as launched before the decision. -/
def gatesOld (s : State) (c : Nat) (t : StepTab) : State :=
  { s with groups := s.groups.map fun g =>
      if g.2.cid == c && t.gates.contains g.2.group then
        (g.1, { g.2 with run := g.2.run.map fun r => { r with old := true } }) else g }

/-- R446: folds a step's inputs with an outcome. -/
def glossFold (s : State) (c step outcome : Nat) (l : List Input) : State :=
  if (ctxOf s c).glossOpen then
    let is_ := sha256 (tagISET1 ++ natLe 8 l.length ++ l.flatMap inputE)
    glossWrite (updGloss s c fun g => { g with
      gloss := sha256 (tagSTEP1 ++ g.gloss ++ natLe 8 step ++ is_ ++ natLe 1 outcome), step := step, inputs := g.inputs + l.length }) c
  else s

/-- R466: decides a commit whose waits have ended (DEDUCED, assumption log 65). -/
def commitDecide (s : State) (id c : Nat) (d : Desc) (t : StepTab) : State :=
  let step := cmStep d
  let held := inputSort ((ctxOf s c).inputs.filter fun i => i.step == step)
  let tooMany := decide (dNat d 0x18 4 < held.length)
  let opened := (ctxOf s c).glossOpen
  -- R452, R453: the journal, before the outcome
  let (s, mism) := match (ctxOf s c).gloss with
    | some g =>
      if opened && !tooMany then
        let (s, g, bad) := journalInputs s c g held
        (updCtx s c fun x => { x with gloss := some g }, bad)
      else (s, false)
    | none => (s, false)
  let err := (conjOf s (dNat d 0x20 2 % 2 ^ 14)).error
  let local_ := t.gates.isEmpty
  let raw := if local_ then (ctxOf s c).sflags else t.sampled
  let ended := t.gates.map fun g => (t.ended.find? fun e => e.1 == g).getD (g, false, false)
  let sticky := (ended.zipIdx).foldl (fun m e => if e.1.2.2 then m ||| 2 ^ e.2 else m) 0
  let f (b : Bool) (i : Nat) : Nat := if b then 2 ^ i else 0
  let cause := f (bit (dNat d 0x22 1) 0) 0 + f err 1 + f (ended.any (·.2.1)) 2 + f (sticky != 0) 3 +
    f (local_ && raw &&& t.gateMask != 0) 4 + f (tooMany || mism) 5
  let outcome := if cause = 0 then 1 else 0
  let s := updCtx s c fun x => { x with
    inputs := x.inputs.filter fun i => i.step != step
    sflags := if local_ then x.sflags - (x.sflags &&& t.gateMask) else x.sflags
    table := some { t with ended := [], sampled := 0 } }
  let s := gatesOld s c t
  let s := if tooMany then s else glossFold s c step outcome held
  let s := pairCompare s c step outcome
  if cause = 0 then updDesc s id fun y => { y with pos := 2, aux := [raw, sticky] }
  else
    let s := updCtx s c fun x => { x with table := x.table.map fun t => { t with skips := t.skips + 1 } }
    let s := stepRecWrite (clearBitmaps s c) c t.genC
    commitEnd s id c d (if tooMany then stINPUT_COUNT else if mism then stINPUT_MISMATCH else stSTEP_SKIPPED) 0 cause raw sticky 0 s.tense.toNat

/-- STEP_DECISION (R465, R466). -/
def execStepDecision (d now : Nat) (s : State) : Res :=
  let s := atTime s now
  ran s (match descRunning s d dtSTEP 1 with
    | none => s
    | some x =>
      match dCtx s x with
      | none => s
      | some c =>
        match (ctxOf s c).table with
        | none => s
        | some t =>
          let cov := conjOf s (dNat x 0x20 2 % 2 ^ 14)
          let covered := waitOver cov (BitVec.ofNat 32 (dNat x 0x1C 4))
          let gates := t.gates.all fun g => t.ended.any fun e => e.1 == g
          let inputs := decide (dNat x 0x18 4 ≤ ((ctxOf s c).inputs.filter fun i => i.step == cmStep x).length)
          if x.pos = 1 ∧ covered ∧ gates ∧ inputs then commitDecide s d c x t else s)

/-! ### The exchange (R459, R467, R468, R611) -/

/-- R459: copies the unwritten pages of the CARRY regions to their staged banks; the bytes copied. -/
def carryPages (s : State) (c : Nat) : State × Nat :=
  ((ctxOf s c).views.filter (·.carry)).foldl (fun (a : State × Nat) v =>
    (List.range (v.bytes / 65536)).foldl (fun (a : State × Nat) i =>
      let b := leNat (areaGet a.1 c 48 (v.bitmap + i / 8) 1)
      if bit b (i % 8) then a
      else
        let base (x : Nat) : Nat := (if v.spad then 2 ^ 63 else 0) + x + 65536 * i
        let rs := hereRuns a.1 c (base v.vc) 65536
        let s := rs.foldl (fun (y : State × Nat) r => (mirrorNote y.1 c y.2 r.1 r.2, y.2 + r.1.length)) (a.1, base v.vs) |>.1
        (putRuns s c (base v.vs) rs, a.2 + 65536)) a) (s, 0)

/-- R467: exchanges the banks of every region: map entries of scratchpad pages, and the places of device virtual pages (DEDUCED, assumption log 93). -/
def exchangeViews (s : State) (c : Nat) : State :=
  updCtx s c fun x =>
    let pages := (x.views.filter (·.spad)).foldl (fun pm v =>
      (List.range (v.bytes / 65536)).foldl (fun pm i =>
        let a := v.vc / 65536 + i
        let b := v.vs / 65536 + i
        -- an entry keeps the image slot that it had
        let own (p : Nat) : Page := let q := mapGet {} pm p; { q with img := some (q.img.getD p) }
        mapIns (mapIns pm a (own b)) b (own a)) pm) x.pages
    { x with pages := pages, views := x.views.map fun v => if v.spad then v else { v with swapped := !v.swapped } }

/-- R467, R481: what a commit changes, in one change. -/
def commitChange (s : State) (c : Nat) (genS : List Nat) : State :=
  let s := exchangeViews s c
  let s := match (ctxOf s c).table with
    | some t => (t.rets.filter fun r => r.policy == 0 || (r.policy == 1 && r.retained)).foldl (fun s r => areaRelease s c r) s
    | none => s
  let s := updRun s c fun r => { r with step := r.step + 1 }
  let s := updCtx s c fun x => { x with table := x.table.map fun t => { t with commits := t.commits + 1, genC := genS } }
  stepRecWrite (clearBitmaps s c) c genS

/-- R468: is an EXPORT of the context reading. -/
def exportReads (s : State) (c : Nat) : Bool :=
  s.descs.any fun y => dType y.2 == dtSNAPSHOT && dForm y.2 == 2 && y.2.st == .running && dCtx s y.2 == some c
    && decide (y.2.pos < (wChunks (wEnts (auxBytes y.2))).length + 1)

/-- R611: in a MIRROR pair, what the commit still waits for: its pages carried and sent, the acknowledgements, then COMMIT_ACK.
The Bool: it may go on. -/
def mirrorStep (s : State) (id c : Nat) (d : Desc) (genS : List Nat) : State × Bool :=
  if d.pos = 4 ∨ !mirrorOn s c then (s, true)
  else if d.pos = 3 ∨ !mirrorQuiet s then (s, false)
  else (updDesc (pairSend s 2 (cmStep d) (genS.flatMap (natLe 8))) id fun y => { y with pos := 3 }, false)

/-- VIEW_EXCHANGE (R465, R467): the pages are carried, then the exchange. `pos` counts 2: decided; 3: COMMIT sent; 4: COMMIT_ACK. -/
def execViewExchange (d now : Nat) (s : State) : Res :=
  let s := atTime s now
  ran s (match descRunning s d dtSTEP 1 with
    | none => s
    | some x =>
      match dCtx s x with
      | none => s
      | some c =>
        match (ctxOf s c).table with
        | none => s
        | some t =>
          if x.pos < 2 || exportReads s c || pairHold s c (cmStep x) then s
          else
            -- carried once: the bytes follow the flags in `aux`
            let (s, carried) := match x.aux[2]? with
              | some n => (s, n)
              | none =>
                let (s, n) := carryPages s c
                (updDesc s d fun y => { y with aux := y.aux ++ [n] }, n)
            match areaGather s c 48 (t.rec_ + 0x60) 64 (dKey x) (.desc d) with
            | (s, .waiting) => s
            | (s, got) =>
              let genS := match got with
                | .done b _ _ => (List.range 8).map fun i => leNat ((b.drop (8 * i)).take 8)
                | _ => t.genC
              let (s, go) := mirrorStep s d c x genS
              if !go then s
              else
                let s := commitChange s c genS
                commitEnd s d c x stOK 1 0 (x.aux.getD 0 0) (x.aux.getD 1 0) carried s.tense.toNat)

/-! ### Retention and deferrable work (R481, R482) -/

/-- RETENTION_RELEASE (R481): RCONJ of retention entry `j` of a context has reached its target. -/
def execRetentionRelease (cid j : Nat) (s : State) : Res :=
  ran s (match (ctxOf s cid).table with
    | none => s
    | some t =>
      match t.rets[j]? with
      | none => s
      | some r =>
        if (ctxOf s cid).live && reached (conjOf s r.conj).count (BitVec.ofNat 32 r.target) then
          let s := if r.policy = 2 || (r.policy == 1 && !r.retained) then areaRelease s cid r else s
          updCtx s cid fun x => { x with table := x.table.map fun t => { t with
            rets := t.rets.set j { r with target := (r.target + r.adv) % 2 ^ 32 } } }
        else s)

/-- R482: the kind of unit that a deferrable descriptor needs: none for a copy that only moves bytes. -/
def deferKind (d : Desc) : Option QKind :=
  match dType d with
  | 1 => some (if dNat d 0x18 1 = 1 then .element else .tile)
  | 2 => if dForm d = 3 then some .element else none
  | 3 => some .solve
  | _ => some .assembly

/-- R482: is a unit of a kind free in a partition. -/
def unitFree (s : State) (k : Nat) (q : QKind) : Bool :=
  match q with
  | .tile => !(freeVerbs s k).isEmpty
  | .element => (partSlices s k).any fun sl => computeOn s sl && [0, 1].any fun i => (mapFind s.infUnits (2 * sl + i)).isNone && !unitDown s sl (12 + i)
  | .solve => (partSlices s k).any fun sl => computeOn s sl && (mapFind s.parsers sl).isNone && !unitDown s sl 16
  | .assembly => (partSlices s k).any fun sl => computeOn s sl && (mapFind s.lexers sl).isNone && !unitDown s sl 17

/-- R482: does ordinary work of a context wait for a unit of a kind. -/
def kindWaits (s : State) (c : Nat) (q : QKind) : Bool :=
  (s.progs.any fun p => p.2.cid == c && p.2.kind == q && !p.2.deferrable && p.2.ended.isNone
    && (match q with | .tile => p.2.comp.isNone && p.2.wait.isNone | _ => p.2.unit.isNone))
    || s.queues.any fun x => x.1 / 4 / 64 == c && queueKind (x.1 % 4) == q && !x.2.recs.isEmpty

/-- DEFERRABLE_START (R482): descriptor `d` starts, where it is the earliest of its context that has not and a bubble is there. -/
def execDeferrableStart (d : Nat) (s : State) : Res :=
  ran s (match mapFind s.descs d with
    | none => s
    | some x =>
      match dCtx s x with
      | none => s
      | some c =>
        let first := !s.descs.any fun y => decide (y.1 < d) && dDefer y.2 && !y.2.deferGo && y.2.st == .accepted && dCtx s y.2 == some c
        let bubble : Bool := match deferKind x with
          | some q => unitFree s (c / 8) q && !kindWaits s c q
          | none => true
        if x.st = .accepted ∧ dDefer x ∧ !x.deferGo ∧ first ∧ bubble then
          descWork (updDesc s d fun y => { y with deferGo := true }) d
        else s)

end Sys2Proof.Machine
end

