-- ==== Sys2Proof/Machine/CtxEnd.lean ====
section
/-! DEFINITION. How a context ends, and what pairing makes of it (spec/09_scratchpad_and_placement.md R298 to R302,
spec/18_partitions_and_custody.md R549, spec/20_fault_handling.md R612). -/

namespace Sys2Proof.Machine

/-- R542. -/
def stCONTEXT_CORRUPT : Nat := 0xB4

/-- R301: the context status record. -/
def cstatusBytes (r : CtxRun) : List Byte :=
  natLe 4 r.switches ++ natLe 4 r.moves ++ natLe 4 r.spills ++ natLe 4 0 ++ natLe 8 r.runNs ++ natLe 8 r.lastOut ++ natLe 8 r.lastSave ++
  List.replicate 24 0

/-- R301: writes the context status record. -/
def cstatusWrite (s : State) (cid : Nat) : State := dvaWrite s (cid / 8) 48 (ctxOf s cid).cstatus (cstatusBytes (runOf s cid)) false

/-- Takes a piece of work off the unit that it holds: the Verb of its compound and space, its Inflector, Parser or Lexer. -/
def unitsDrop (s : State) (id : Nat) : State :=
  let vs := (s.verbs.filter fun v => v.2.prog == some id).map (·.1)
  let s := vs.foldl (fun s v => clrBitOf (updVerb s v fun x => { x with prog := none, pass := none }) (vrbStatus v) 8) s
  let held (m : Map Nat) : List Nat := (m.filter fun x => x.2 == id).map (·.1)
  let s := (held s.infUnits).foldl (fun s u => infRelease s u) s
  let s := (held s.parsers).foldl (fun s sl => prsRelease s sl) s
  (held s.lexers).foldl (fun s sl => lexRelease s sl) s

/-- Ends accepted work at once with a status, and completes it (R148). -/
def workKill (s : State) (id status : Nat) : State :=
  match progOf s id with
  | none => s
  | some p =>
    let e := p.ended.getD ⟨status, if p.kind = .tile then p.ip else 0, 0⟩
    workEnd (updProg (unitsDrop s id) id fun p => { p with ended := some e, comp := none, wait := none }) id

/-- The logical Particles of a context. -/
def ctxLps (cid : Nat) : List Nat := (List.range 48).map (64 * cid + ·)

/-- R549: queued records end with FLUSHED. -/
def flushAll (s : State) (cid : Nat) : State :=
  (ctxLps cid).foldl (fun s lp => (List.range 4).foldl (fun s q => flushQueue s lp q) s) s

/-- R468, R526, R549: a descriptor of a context that ends: a COMMIT not yet exchanged ends with TEARDOWN, other work with ABORTED (DEDUCED, assumption log 45). -/
def descKill (s : State) (cid id : Nat) : State :=
  match mapFind s.descs id with
  | none => s
  | some d =>
    match d.st with
    | .ended _ _ _ => s
    | _ =>
      if dType d = dtSTEP ∧ dForm d = 1 then commitEnd s id cid d stTEARDOWN 0xFF 0 0 0 0 0
      else descEnd (dropWork s (.desc id)) id stABORTED 0 0

/-- Frees the Particles that a context holds. -/
def freeParticles (s : State) (cid : Nat) : State :=
  (ctxParticles s cid).foldl (fun s p =>
    updPart (dropWork s (.particle p)) p fun q => { lp := none, core := { overlay := q.core.overlay } }) s

/-- R612: what a pair makes of the end of its context: FAILOVER from the primary where a stack went offline, else END. -/
def pairCtxEnd (s : State) (cid status : Nat) : State :=
  if fld s aRAS_PAIR 0 0 = 1 ∧ pairCtx s = some cid ∧ (pairState s = 1 ∨ pairState s = 2 ∨ pairState s = 3) then
    if status = stSTACK_OFFLINE then
      (if pairMode s = 1 ∧ pairPrimary s then pairSet (pairSend s 5 (runOf s cid).step []) 3 else s)
    else pairSet (pairSend s 6 (runOf s cid).step []) 0
  else s

/-- R285, R302, R308: frees the Conjunctions that carry a context's key. -/
def freeConjs (s : State) (key : BitVec 16) : State := { s with conj := s.conj.filter fun c => c.2.key != key }

/-- R423: the cause with which a context's end aborts its collectives. -/
def endCause (status : Nat) : Nat := if status = stSTACK_OFFLINE then 2 else 6

/-- R302, R314, R354, R423, R526, R549, R612: a context ends with a status. `keep`: the descriptor that asked for it (DEDUCED, assumption log 45). -/
def ctxEnd (s : State) (cid status : Nat) (keep : Option Nat) : State :=
  if !(ctxOf s cid).live then s
  else
    let key := (ctxOf s cid).ckey
    let s := pairCtxEnd s cid status
    let s := flushAll s cid
    let s := ((s.progs.filter fun p => p.2.cid == cid).map (·.1)).foldl (fun s id => workKill s id stABORTED) s
    let s := ((s.descs.filter fun d => some d.1 != keep && dCtx s d.2 == some cid).map (·.1)).foldl (fun s id => descKill s cid id) s
    let s := ((s.groups.filter fun g => g.2.cid == cid).map (·.1)).foldl (fun s gk => groupFree (collFail s gk (endCause status) 0xFFFFFFFF) gk) s
    let s := cancelArms s key
    let s := freeParticles s cid
    let s := updRun s cid fun r => { r with
      runNs := if r.st = .running ∨ r.st = .stopping then r.runNs + (s.tense.toNat - r.runFrom) else r.runNs }
    let s := cstatusWrite s cid
    let s := freeConjs s key
    let s := { s with
      ctxs := mapDel s.ctxs cid, runs := mapDel s.runs cid
      queues := s.queues.filter fun q => q.1 / 4 / 64 != cid
      saved := s.saved.filter fun c => c.1 / 64 != cid
      pmoves := s.pmoves.filter fun m => m.cid != cid
      contQ := s.contQ.filter fun c => c.cid != cid
      mirror := s.mirror.filter fun m => m.1 != cid }
    let s := postEvent s (cid / 8) 6 0 key.toNat status 0
    -- R560: context ended: its key, status, and the Tense of the end
    auditCore s 4 (cid / 8) key.toNat status s.tense.toNat

end Sys2Proof.Machine
end

