-- ==== Sys2Proof/Machine/Stack.lean ====
section
/-! DEFINITION. Stacked memory: the scheduler of a pseudo-channel, error outcomes, remap and repair, refresh and temperature, and
the traffic generator (spec/11_stacked_memory.md R342 to R361). -/

namespace Sys2Proof.Machine

/-- A stack controller. -/
def stkOf (s : State) (k : Nat) : Stack := mapGet {} s.hstk k
/-- Changes a stack controller. -/
def updStk (s : State) (k : Nat) (f : Stack → Stack) : State := { s with hstk := mapUpd {} s.hstk k f }

/-- R563: a guarantee of a partition yields. -/
def guaranteeYield (s : State) (k yields prevails : Nat) : State :=
  let s := postEvent s k 8 0 0 (yields + 256 * prevails) 0
  satFld (report s clEVENT 0x14 k 0xFF 0xFF [yields + 256 * prevails]) (aPART_CFG k) 47 32 1

/-! ### Outcomes of a read (R345, R347) and candidates (R349, R350) -/

/-- R334: the row of a local address. -/
def rowOf (pc l : Nat) : HRow := ⟨pc, bits l 7 2, bits l 21 8⟩
/-- R334: column granule `c` of a row, as a local address. -/
def rowAddr (r : HRow) (c : Nat) : Nat := c + 4 * r.bank + 256 * r.row

/-- R598: counts a corrected event toward its source's next CORRECTED record. -/
def corrNote (s : State) (cause slice unit : Nat) : State :=
  { s with corrected := mapUpd 0 s.corrected (65536 * cause + 256 * slice + unit) fun n => satAdd 32 n 1 }

/-- R350, R359: is a pseudo-channel in the guarded set. -/
def guarded (s : State) (k pc : Nat) : Bool :=
  (List.range 8).any fun i => bit (regGet s (aHBM_GUARD k)) (8 * i + 7) && fld s (aHBM_GUARD k) (8 * i + 5) (8 * i) == pc

/-- R350: the lowest free controller row of a row's bank and SID, with a free table entry. -/
def freeSpare (x : Stack) (r : HRow) : Option Nat :=
  if 64 ≤ x.remap.length then none
  else (List.range 8).map (16376 + ·) |>.find? fun n => !x.remap.any fun e => e.row.pc == r.pc && e.row.bank == r.bank && e.spare == n

/-- R360: REMAP_USED and PPR_PEND follow the table and the list. -/
def noteRepair (s : State) (k : Nat) : State :=
  let x := stkOf s k
  setFld (setFld s (aHBM_STATUS k) 22 16 x.remap.length) (aHBM_STATUS k) 31 24 (min 255 (x.pend.length + x.dropped))

/-- R351, R598: a change of the table or the list is reported. -/
def reportRepair (s : State) (k : Nat) : State := report (noteRepair s k) clEVENT 0xA (partByte s k) k 0xFF [k]

/-- R349: a row enters the pending list, or is dropped and counted. -/
def pendRow (s : State) (k : Nat) (r : HRow) : State :=
  let x := stkOf s k
  if x.pend.contains r then s
  else if 256 ≤ x.pend.length then noteRepair (updStk s k fun x => { x with dropped := satAdd 8 x.dropped 1 }) k
  else reportRepair (updStk s k fun x => { x with pend := x.pend ++ [r] }) k

/-- R349: a row becomes a repair candidate. -/
def candidate (s : State) (k : Nat) (r : HRow) : State :=
  let x := stkOf s k
  if (x.remap.any fun e => e.row == r) || x.cands.contains r || x.pend.contains r then s
  else if guarded s k r.pc && fld s (aHBM_CTL k) 4 4 == 1 && (freeSpare x r).isSome then
    setBitOf (updStk s k fun x => { x with cands := x.cands ++ [r] }) (aHBM_STATUS k) 13
  else pendRow s k r

/-- R349: a controller correction of a row; the fourth within 24 hours makes it a candidate. -/
def rowFixed (s : State) (k : Nat) (r : HRow) : State :=
  let now := s.tense.toNat
  let x := stkOf s k
  let old := ((x.fixes.find? fun f => f.1 == r).map (·.2)).getD []
  let l := now :: old.filter fun t => decide (now < t + 86400000000000)
  let s := updStk s k fun x => { x with fixes := (x.fixes.filter fun f => f.1 != r) ++ [(r, l.take 4)] }
  if 4 ≤ l.length then candidate s k r else s

/-- R345: what the check of one beat finds. `out`: 0 clean, 1 corrected by on-die ECC, 2 corrected by the controller,
3 uncorrectable; poison written earlier is known by its pattern (R347) (DEDUCED, assumption log 50). -/
def beatCheck (s : State) (k pc l beat out : Nat) : State :=
  let a := hbmIx k pc l (32 * beat)
  let e := aHBM_ERRCNT k
  match out with
  | 1 => satFld s e 15 0 1
  | 2 => corrNote (rowFixed (satFld s e 31 16 1) k (rowOf pc l)) 9 k 0xFF
  | 3 =>
    let s := { s with hbm := { s.hbm with poison := mapIns s.hbm.poison (a / 32) true } }
    report (candidate (satFld s e 47 32 1) k (rowOf pc l)) clCONTAINED 9 (partByte s k) k 0xFF [k, pc, l]
  | _ => if memPoison s.hbm a 1 then satFld s e 63 48 1 else s

/-- Is a stack in service and out of self-refresh. -/
def stackLive (s : State) (k : Nat) : Bool := stackOnline s k && fld s (aHBM_STATUS k) 11 11 == 0

/-! ### The scheduler (R342 to R344, R353) -/

/-- R343: the class among 1 to 3 that the weighted round grants: the lowest with a share left and a read waiting; a round that
leaves none begins anew (DEDUCED, assumption log 49). -/
def pickClass (share : List Nat) (reads : List HReq) : Option (Nat × List Nat) :=
  let waits (c : Nat) : Bool := reads.any fun r => r.cls == c
  let pick (sh : List Nat) : Option Nat := [1, 2, 3].find? fun c => waits c && decide (0 < sh.getD (c - 1) 0)
  match pick share with
  | some c => some (c, share.set (c - 1) (share.getD (c - 1) 0 - 1))
  | none =>
    match pick [4, 2, 1] with
    | some c => some (c, [4, 2, 1].set (c - 1) ([4, 2, 1].getD (c - 1) 0 - 1))
    | none => none

/-- R343: the read of a class that is granted: the first, or, where it may pass, the first to an open row ahead of which only
reads to closed rows of its bank wait (DEDUCED, assumption log 49). -/
def pickRead (q : HQueue) (cls : Nat) (pass : Bool) : Option HReq :=
  let l := q.reads.filter fun r => r.cls == cls
  let isOpen (r : HReq) : Bool := mapFind q.openRow (bits r.l 7 2) == some (bits r.l 21 8)
  match l with
  | [] => none
  | r :: rest =>
    if pass && !isOpen r then
      match (rest.zipIdx).find? fun x => isOpen x.1 && (r :: rest.take x.2).all fun y => bits y.l 7 2 == bits x.1.l 7 2 && !isOpen y with
      | some x => some x.1
      | none => some r
    else some r

/-- R344: a read of classes 1 to 3 that waited longer than 10 µs is counted. -/
def hbmStarved (s : State) (k : Nat) (r : HReq) : State :=
  if r.cls ≠ 0 ∧ r.since + 10000 < s.tense.toNat then satFld s (aHBM_STARVE k) (16 * r.cls - 1) (16 * r.cls - 16) 1 else s

/-- Changes a pseudo-channel's scheduler. -/
def updHq (s : State) (k pc : Nat) (f : HQueue → HQueue) : State :=
  updStk s k fun x => { x with queues := mapUpd {} x.queues pc f }

/-- R343, R350: accesses that arrive enter the queues while these have room. -/
def hbmArrive (q : HQueue) (now : Nat) (l : List HReq) : HQueue :=
  l.foldl (fun q r =>
    if r.write then (if q.writes.length < 64 then { q with writes := q.writes ++ [{ r with since := now }] } else q)
    else if q.reads.length < 64 then { q with reads := q.reads ++ [{ r with since := now }] } else q) q

/-- R343: one decision: a locked sequence's write first, then a drain, class 0, and the shares of classes 1 to 3. A partial write
reads its beat and locks until its write; a corrected beat is written back in the same way (R345). -/
def hbmGrant (s : State) (k pc : Nat) (pass : Bool) (out : Nat) : State :=
  let q := mapGet {} (stkOf s k).queues pc
  let opens (q : HQueue) (l : Nat) : HQueue := { q with openRow := mapIns q.openRow (bits l 7 2) (bits l 21 8) }
  let candRow (r : HReq) : Bool := (stkOf s k).cands.contains (rowOf pc r.l)
  match q.lock with
  | some (l, _) => updHq s k pc fun q => opens { q with lock := none, heldFor := 0 } l
  | none =>
    let rs := q.reads.filter fun r => !candRow r
    let ws := q.writes.filter fun r => !candRow r
    let drain := !ws.isEmpty && (decide (32 ≤ q.writes.length) || rs.isEmpty || (q.drain && decide (8 < q.writes.length)))
    if drain then
      match ws with
      | [] => s
      | w :: _ =>
        let q1 := opens { q with writes := q.writes.erase w, drain := true } w.l
        if w.part then
          beatCheck (updHq s k pc fun _ => { q1 with lock := some (w.l, w.beat) }) k pc w.l w.beat out
        else updHq s k pc fun _ => q1
    else
      let grant (s : State) (share : List Nat) (r : HReq) : State :=
        let q1 := opens { q with reads := q.reads.erase r, drain := false, share := share } r.l
        let s := hbmStarved (updHq s k pc fun _ => if out = 2 then { q1 with lock := some (r.l, r.beat) } else q1) k r
        beatCheck s k pc r.l r.beat out
      match pickRead { q with reads := rs } 0 pass with
      | some r => grant s q.share r
      | none =>
        match pickClass q.share rs with
        | some (c, sh) => match pickRead { q with reads := rs } c pass with | some r => grant s sh r | none => s
        | none => s

/-- R353, R563: the cap of level 2 holds the write of a locked sequence; past the lock's eight-transfer span the lock ends. -/
def capHeld (s : State) (k pc : Nat) : State :=
  let q := mapGet {} (stkOf s k).queues pc
  if q.lock.isNone then s
  else if q.heldFor < 7 then updHq s k pc fun q => { q with heldFor := q.heldFor + 1 }
  else
    let s := updHq s k pc fun q =>
      { q with lock := none, heldFor := 0, writes := match q.lock with | some (l, b) => ⟨l, b, 2, true, false, 0⟩ :: q.writes | none => q.writes }
    match sliceOwner s k with
    | some p => guaranteeYield s p 5 2
    | none => s

/-- PSEUDO_CHANNEL_GRANT (R343). `arrivals`: accesses that have come since the last decision: local address, beat, class, write,
partial; `pass`: a read to an open row passes; `cap`: the thermal cap lets no data go in this slot; `out`: what the check of the
beat finds (R345). -/
def execPseudoChannelGrant (k pc now : Nat) (arrivals : List (Nat × Nat × Nat × Bool × Bool)) (pass cap : Bool) (out : Nat) (s : State) : Res :=
  guardUnit (decide (k < 12) && decide (pc < 64)) (ran s (
    let s := atTime s now
    if !stackLive s k then s
    else
      let l := arrivals.map fun (a, b, c, w, p) => { l := a % 2 ^ 22, beat := b % 8, cls := c % 4, write := w, part := p : HReq }
      let s := updHq s k pc fun q => hbmArrive q s.tense.toNat l
      if cap && fld s (aHBM_STATUS k) 9 8 == 2 then capHeld s k pc else hbmGrant s k pc pass out))

/-! ### Remap (R350) -/

/-- ROW_REMAP (R350): the oldest candidate of the guarded set is copied to its spare; poisoned beats stay poisoned there. A
partition memory address reads as before, so the copy changes no byte of the model's stacked memory (DEDUCED, assumption log 50). -/
def execRowRemap (k : Nat) (s : State) : Res :=
  guardUnit (decide (k < 12)) (ran s (
    match (stkOf s k).cands with
    | [] => s
    | r :: rest =>
      let s := updStk s k fun x => { x with cands := rest }
      let s := if rest.isEmpty then clrBitOf s (aHBM_STATUS k) 13 else s
      match freeSpare (stkOf s k) r with
      | some n => if guarded s k r.pc then reportRepair (updStk s k fun x => { x with remap := x.remap ++ [⟨r, n⟩] }) k else pendRow s k r
      | none => pendRow s k r))

/-- PATROL_SCRUB (R346): the next granule, in increasing local address across the pseudo-channels. `outs`: the outcome of each of
its eight beats. -/
def execPatrolScrub (k now : Nat) (outs : List Nat) (s : State) : Res :=
  guardUnit (decide (k < 12)) (ran s (
    let s := atTime s now
    if !stackLive s k || fld s (aHBM_CTL k) 0 0 == 0 then s
    else
      let n := (stkOf s k).patrol
      let s := (List.range 8).foldl (fun s b => beatCheck s k (n % 64) (n / 64) b (outs.getD b 0)) s
      updStk s k fun x => { x with patrol := (n + 1) % (64 * 4192256) }))

/-- REFRESH (R353): a refresh command; in self-refresh the stack refreshes itself. -/
def execRefresh (k : Nat) (s : State) : Res :=
  guardUnit (decide (k < 12)) (ran s (if stackLive s k then updStk s k fun x => { x with refreshes := x.refreshes + 1 } else s))

/-! ### Temperature (R352 to R354) -/

/-- R353: the temperature at which a level is entered. -/
def levelAt (l : Nat) : Int := match l with | 0 => -1000 | 1 => 85 | 2 => 95 | _ => 105

/-- R353: the level that a temperature enters (DEDUCED, assumption log 50). -/
def levelOf (t : Int) : Nat := if 105 ≤ t then 3 else if 95 ≤ t then 2 else if 85 ≤ t then 1 else 0

/-- R598: a level change, or a stack that goes offline or online. -/
def reportStack (s : State) (k : Nat) : State := report s clEVENT 0x13 (partByte s k) k 0xFF []

/-- R354: a stack goes offline: queued accesses are gone, ONLINE clears, and every context of the owning partition ends. -/
def stackOffline (s : State) (k : Nat) : State :=
  if !stackOnline s k then s
  else
    let locks := ((stkOf s k).queues.filter fun q => q.2.lock.isSome).length
    let s := updStk s k fun x => { x with queues := [], run := none }
    let s := clrBitOf s (aHBM_TG_RESULT k) 0
    let s := setBitOf (clrBitOf s (aHBM_STATUS k) 10) (aHBM_STATUS k) 11
    let s := match sliceOwner s k with
      | none => s
      | some p =>
        let s := (List.range locks).foldl (fun s _ => guaranteeYield s p 5 2) s
        let s := postEvent s p 7 (0x3000 + k) 0 k 0
        (liveCtxs s p).foldl (fun s c => ctxEnd s c stSTACK_OFFLINE none) s
    auditCore (reportStack s k) 0xB (partByte s k) k 0 0

/-- R352, R353: one reading. -/
def stackReading (s : State) (k : Nat) (t : Int) : State :=
  let st := aHBM_STATUS k
  let now := s.tense.toNat
  let x := stkOf s k
  let lv := fld s st 9 8
  -- R360: CAP_MS
  let ns := if lv = 2 then x.hotNs + (now - x.readAt) else x.hotNs
  let s := satFld s (aHBM_STARVE k) 63 48 (ns / 1000000)
  let cool := if lv ≠ 0 ∧ t < levelAt lv - 3 then x.cool + 1 else 0
  let s := updStk s k fun x => { x with
    hotNs := ns % 1000000, readAt := now, cool := cool
    coolSince := if t < 95 then (match x.coolSince with | some a => some a | none => some now) else none }
  let s := setFld s st 7 0 (toTwos 8 t)
  let up := levelOf t
  if lv < up then
    let s := reportStack (updStk (setFld s st 9 8 up) k fun x => { x with cool := 0 }) k
    if up = 3 then stackOffline s k else s
  else if cool = 16 ∧ lv ≠ 3 then reportStack (updStk (setFld s st 9 8 (lv - 1)) k fun x => { x with cool := 0 }) k
  else s

/-- STACK_TEMPERATURE_READING (R352, R354). -/
def execStackTemperatureReading (k : Nat) (temp : Int) (now : Nat) (s : State) : Res :=
  guardUnit (decide (k < 12)) (ran s (if clocksRun s then stackReading (atTime s now) k temp else s))

/-- Every byte of a stack, controller rows included, reads zero without poison (R551). -/
def stackWipe (s : State) (k : Nat) : State := { s with hbm := memZero s.hbm (hbmIx k 0 0 0) (2 ^ 36) }

/-- R351: hard repair at a reset that trains a stack: rows of the table and the list leave, but those of `unrep` (DEDUCED, assumption log 50). -/
def stackRepair (s : State) (k : Nat) (unrep : List (Nat × Nat × Nat)) : State :=
  let x := stkOf s k
  if fld s (aHBM_CTL k) 3 3 = 0 ∨ (x.remap = [] ∧ x.pend = [] ∧ x.dropped = 0) then s
  else
    let bad (r : HRow) : Bool := unrep.contains (r.pc, r.bank, r.row)
    let remap := x.remap.filter fun e => bad e.row
    let pend := x.pend.filter bad
    let s := updStk s k fun x => { x with remap := remap, pend := pend, dropped := 0 }
    reportRepair (if remap.isEmpty && pend.isEmpty then s else setBitOf s (aHBM_STATUS k) 12) k

/-- R351, R354: a stack is trained, repaired and set ONLINE, at the level that its last reading names. -/
def stackTrain (s : State) (k : Nat) (unrep : List (Nat × Nat × Nat)) : State :=
  let st := aHBM_STATUS k
  setBitOf (clrBitOf (stackRepair s k unrep) st 11) st 10

/-- STACK_ONLINE (R354): an offline stack of a partition without contexts that has read below 95 °C for a second is retrained,
repaired and wiped. `unrep`: rows that cannot be repaired. -/
def execStackOnline (k now : Nat) (unrep : List (Nat × Nat × Nat)) (s : State) : Res :=
  guardUnit (decide (k < 12)) (ran s (
    let s := atTime s now
    let idle := match sliceOwner s k with | some p => (liveCtxs s p).isEmpty | none => true
    let cooled := match (stkOf s k).coolSince with | some a => decide (a + 1000000000 ≤ s.tense.toNat) | none => false
    if stackOnline s k || !idle || !cooled || !devReady s || pwrState s ≠ 0 || !stackOn s k then s
    else
      let s := setFld (stackWipe (stackTrain s k unrep) k) (aHBM_STATUS k) 9 8 (levelOf (sext 8 (fld s (aHBM_STATUS k) 7 0)))
      auditCore (reportStack (updStk s k fun x => { x with cool := 0 }) k) 0xB (partByte s k) k 1 0))

/-! ### Traffic generator (R356, R357, R361) -/

/-- R604: does an activity of a kind hold the token of a slice. -/
def actOn (s : State) (kind sl : Nat) : Bool := s.acts.any fun a => a.kind == kind && a.slice == sl

/-- R356: starts a run. -/
def tgStart (s : State) (k : Nat) (destr : Bool) : State :=
  setBitOf (updStk s k fun x => { x with run := some { destr := destr } }) (aHBM_TG_RESULT k) 0

/-- HBM_TG_START (R361): carries out a one written to START. -/
def execHbmTgStart (k : Nat) (s : State) : Res :=
  guardUnit (decide (k < 12)) (ran s (
    let a := aHBM_TG_CTL k
    match strobeOf s a 0 with
    | none => s
    | some _ =>
      let s := strobeClr s a 0
      let destr := bit (regGet s a) 2
      if (stkOf s k).run.isSome then s
      else if destr && !actOn s 4 k then setBitOf s (aHBM_TG_RESULT k) 2
      else if !stackLive s k then s
      else tgStart s k destr))

/-- HBM_TG_STOP (R361): carries out a one written to STOP: the run ends after the granule in progress. -/
def execHbmTgStop (k : Nat) (s : State) : Res :=
  guardUnit (decide (k < 12)) (ran s (
    let a := aHBM_TG_CTL k
    match strobeOf s a 1 with
    | none => s
    | some _ => updStk (strobeClr s a 1) k fun x => { x with run := x.run.map fun r => { r with stop := true } }))

/-- R357: a failure that the checker finds: its row is a candidate, and a mismatch without a code error is a detection escape. -/
def tgFail (s : State) (k pc l kind : Nat) : State :=
  let e := aHBM_ERRCNT k
  let s := if kind = 1 then satFld s e 31 16 1 else if kind = 2 then satFld s e 47 32 1 else s
  let s := candidate s k (rowOf pc l)
  if kind = 3 then
    let s := report s clCONTAINED 0xB (partByte s k) k 0xFF [k, pc, l]
    if s.escaped.contains k then s else { s with escaped := s.escaped ++ [k] }
  else s

/-- TRAFFIC_GENERATOR_RUN_END (R356, R361). `fails`: the failing beats in order: pseudo-channel, local address, kind (1 corrected,
2 uncorrectable, 3 mismatch). After a destructive run the stack is wiped. -/
def execTrafficGeneratorRunEnd (k now : Nat) (fails : List (Nat × Nat × Nat)) (s : State) : Res :=
  guardUnit (decide (k < 12)) (ran s (
    let s := atTime s now
    match (stkOf s k).run with
    | none => s
    | some r =>
      let a := aHBM_TG_RESULT k
      -- injected errors are expected (R357)
      let fs := if fld s (aHBM_TG_CTL k) 10 9 = 0 then fails else fails.filter fun f => f.2.2 == 3
      let s := fs.foldl (fun s f => tgFail s k (f.1 % 64) (f.2.1 % 2 ^ 22) f.2.2) s
      let f0 := fs.headD (0, 0, 0)
      let s := setFld (setFld (setFld (setFld s a 31 16 (min 65535 fs.length)) a 37 32 f0.1) a 59 38 f0.2.1) a 63 60 f0.2.2
      let s := setBitOf (clrBitOf (updStk s k fun x => { x with run := none }) a 0) a 1
      if r.destr then stackWipe s k else s))

end Sys2Proof.Machine
end

