-- ==== Sys2Proof/Machine/SetupOps.lean ====
section
/-! DEFINITION. Reads and writes of the setup space: origins, locks, reserved values, effects and the audit log
(spec/22_setup_registers.md R629 to R649, spec/00_scope.md R8, R9, spec/18_partitions_and_custody.md R546, R558 to R561,
spec/12_yilvo_links.md R384). -/

namespace Sys2Proof.Machine

/-! ### Origins (R558, R559, R632) -/

/-- R559: ORIGIN of the host PF. -/
def orgPF : Nat := 1
/-- R559: ORIGIN of VF n. -/
def orgVF (n : Nat) : Nat := 2 + 16 * n
/-- R559: ORIGIN of management. -/
def orgMG : Nat := 3
/-- R559: ORIGIN of JTAG. -/
def orgJT : Nat := 4

/-- R565: lifecycle state: 0 BLANK, 1 PROVISIONED, 2 DEPLOYED, 3 RETURNED. -/
def lcState (s : State) : Nat := fld s aSYN_LC 1 0

/-- R632: does an origin answer to a code of the Writers column. -/
def writerIs (s : State) (org : Nat) (w : RWriter) : Bool :=
  match w with
  | .pf => org == orgPF
  | .vf => org % 16 == 2
  | .mg => org == orgMG
  | .jt => org == orgJT && (lcState s == 0 || lcState s == 3)
  | .jtBlank => org == orgJT && lcState s == 0

/-- R631: statuses: 0 OK, 1 REFUSED, 2 LOCKED, 3 OFF, 4 BAD_ACCESS. -/
def suREFUSED : Nat := 1
/-- R631. -/
def suLOCKED : Nat := 2
/-- R631. -/
def suOFF : Nat := 3
/-- R631. -/
def suBAD : Nat := 4

/-! ### Blocks -/

/-- R629: the partition of an offset of a partition block. -/
def offPart (off : Nat) : Option Nat := if 0x500000 ≤ off ∧ off < 0x800000 then some ((off - 0x500000) / 0x40000) else none
/-- R629: port and entry of an offset in the circuit entries of a port block (low halves). -/
def offCkt (off : Nat) : Option (Nat × Nat) :=
  if 0x400000 ≤ off ∧ off < 0x4E0000 ∧ 0x1000 ≤ (off - 0x400000) % 0x10000 ∧ (off - 0x400000) % 0x10000 < 0x2000 ∧ off % 16 = 0 then
    some ((off - 0x400000) / 0x10000, ((off - 0x400000) % 0x10000 - 0x1000) / 16)
  else none

/-! ### Audit treatment (R560, R637) -/

/-- R637: writes that make no entry of their own. -/
def unlogged (off : Nat) : Bool :=
  off == aAUD_ACK || (decide (0x400 ≤ off) && decide (off < 0x600)) || (decide (0x1000 ≤ off) && decide (off < 0x2000))
    || match offPart off with
      | some k => off == aPART_XLAT_INV k || off == aPART_XLAT_INV2 k || off == aPART_XLAT_FAULT k || off == aPART_MEMWIN k
      | none => false

/-- R637: kind, ADDR, DETAIL and VALUE of the entry of a write of `n` bytes with value `v` over `old`. -/
def setupEntry (s : State) (off n v old : Nat) : AudEnt :=
  let part := (offPart off).getD 0xFF
  let plain : AudEnt := { kind := 1, part := part, addr := off, detail := 2 ^ (min n 32) - 1, value := v }
  if off = aPWR_LIMIT ∨ (aPWR_PART_SP 0 ≤ off ∧ off ≤ aPWR_PART_SP 11) then
    { plain with kind := 5, detail := old % 2 ^ 32 }
  else if off = aSYN_LC_CMD ∧ bit v 0 then { plain with kind := 6, addr := 0, detail := 0, value := 0 }
  else if (off = aSYN_FW_STAGE ∧ bit v 0) ∨ (off = aSYN_FW_STATUS ∧ bit v 3) then { plain with kind := 7, addr := 0, detail := 0, value := 0 }
  else match offCkt off with
    | some (p, c) => { plain with kind := 8, addr := 256 * p + c, detail := bits v 31 16 }
    | none =>
      match offPart off with
      | some k =>
        if off = aPART_CKT_ENTRY k then
          { plain with kind := 8, addr := 256 * fld s (aPART_CKT_SEL k) 11 8 + fld s (aPART_CKT_SEL k) 7 0, detail := bits v 31 16 }
        else if aPART_KEY k 0 ≤ off ∧ off ≤ aPART_KEY k 7 then
          { plain with kind := 3, addr := (off - aPART_KEY k 0) / 8, detail := old % 2 ^ 16, value := v % 2 ^ 16 }
        else plain
      | none => plain

/-- R637: records a write. AFLAGS: 1 REFUSED, 2 LOCKED. -/
def setupLog (s : State) (org off n v old aflags : Nat) : State :=
  let e := setupEntry s off n v old
  if unlogged off then s
  -- R637, R640, R641: recorded where the request, the stage or the commit is decided
  -- (a write that is turned away leads to no such decision, and is recorded as a plain write)
  else if e.kind = 6 ∨ e.kind = 7 then
    if aflags = 0 then s
    else audit s { kind := 1, part := e.part, addr := off, detail := 2 ^ (min n 32) - 1, value := v, origin := org, aflags := aflags }
  else audit s { e with origin := org, aflags := aflags }

/-- R560, R637: a write that is refused; the entry names the value that stays. -/
def setupRefuse (s : State) (org off n v st : Nat) : State × Nat := (setupLog s org off n v (regGet s off) 1, st)

/-! ### Fields (R8, R9, R636) -/

/-- R8: the image that a write leaves: RWL fields keep their value under their lock. -/
def fldsWrite (fs : List RFld) (old v : Nat) (locked : Bool) : Nat :=
  fs.foldl (fun a f =>
    match f.acc with
    | .rw => setBits a f.hi f.lo (bits v f.hi f.lo)
    | .rwl => if locked then a else setBits a f.hi f.lo (bits v f.hi f.lo)
    | .w1c => setBits a f.hi f.lo (bits a f.hi f.lo - (bits a f.hi f.lo &&& bits v f.hi f.lo))
    | _ => a) old

/-- A field of an image keeps its old value where the new one is out of range (DEDUCED, assumption log 51). -/
def keepFld (old new hi lo : Nat) (ok : Bool) : Nat := if ok then new else setBits new hi lo (bits old hi lo)

/-- R359: the image that a write leaves in HBM_GUARD. -/
def guardFix (s : State) (k old new : Nat) : Nat :=
  let names (x : Nat) : List Nat := ((List.range 8).filter fun i => bit x (8 * i + 7)).map fun i => bits x (8 * i + 5) (8 * i)
  if dupIn (names new) then old
  else
    let y := (List.range 8).foldl (fun a i =>
      let o := bits old (8 * i + 7) (8 * i)
      if 128 ≤ o ∧ o ≠ bits new (8 * i + 7) (8 * i) ∧ (stkOf s k).remap.any (fun e => e.row.pc == o % 64) then setBits a (8 * i + 7) (8 * i) o else a) new
    if dupIn (names y) then old else y
where
  /-- does a list name one thing twice -/
  dupIn (l : List Nat) : Bool := decide (l.eraseDups.length ≠ l.length)

/-- The rules of the field maps for a slice block's registers: R358, R359, R361. -/
def sliceFix (s : State) (k o old new : Nat) : Nat × Bool :=
  if o = 0x3000 then (if bits new 2 1 = 3 then old else new, false)
  else if o = 0x3008 then (guardFix s k old new, false)
  else if o = 0x3028 then
    (keepFld old (keepFld old (keepFld old new 5 3 (decide (bits new 5 3 < 6))) 10 9 (bits new 10 9 != 3)) 31 16 (bits new 31 16 != 0), false)
  else (new, false)

/-- The rules of the field maps for a partition block's registers: R510, R515, R564, R649. The Bool: recorded as refused. -/
def partFix (s : State) (k off old new : Nat) : Nat × Bool :=
  let o := off - aPart k
  if o = 0 then (keepFld old new 11 0 (partState s k == 0), false)
  else if o = 0x120 then (if new % 2 ^ 19 = 0 then (new, false) else (old, true))
  else if 0x1000 ≤ o ∧ o < 0x12A0 then
    match o % 0x20 with
    | 0 => (if bit (regGet s (off + 8)) 0 then old else new, false)
    | 8 =>
      if bits new 5 1 < 6 ∨ 16 < bits new 5 1 then (old, false)
      else (keepFld old new 5 1 (!bit old 0), false)
    | _ => (new, false)
  else if o = 0x2000 then (if 14 ≤ bits new 11 8 then old else new, false)
  else (new, false)

/-- R400: the rules of YLV_TOPO. -/
def topoOk (v : Nat) : Bool :=
  let big (n : Nat) : Bool := decide (n < bits v 6 2) || decide (n < bits v 11 7) || decide (n < bits v 15 12)
  match bits v 1 0 with
  | 3 => false
  | 1 => !big 15
  | 2 => !big 31 && bits v 15 12 == 0
  | _ => true

/-- The rules of the field maps that keep a register or a field unchanged. The Bool: recorded as refused (DEDUCED, assumption log 51). -/
def regFix (s : State) (off old new : Nat) : Nat × Bool :=
  if off = aTNS_CTL then (if (bit new 3 && decide (2 ≤ bits new 1 0)) || bits new 7 4 == 0 then old else new, false)
  else if off = aPWR_CTL then (keepFld old new 31 16 (bits new 31 16 != 0), false)
  else if off = aPWR_LIMIT then
    (keepFld old (keepFld old (keepFld old new 11 0 (decide (500 ≤ bits new 11 0) && decide (bits new 11 0 ≤ 2200)))
      39 32 (decide (0x6E ≤ bits new 39 32) && decide (bits new 39 32 ≤ 0xAA))) 46 40 (decide (70 ≤ bits new 46 40) && decide (bits new 46 40 ≤ 100)), false)
  else if aPWR_PART_SP 0 ≤ off ∧ off ≤ aPWR_PART_SP 11 then
    (keepFld old new 7 0 (decide (0x6E ≤ bits new 7 0) && decide (bits new 7 0 ≤ 0xAA)), false)
  else if off = aRAS_CTL then (keepFld old new 15 8 (bits new 15 8 != 0), false)
  else if off = aRAS_PAIR then
    (if pairState s = 1 ∨ pairState s = 2 then (if bit new 0 then old else setBits old 0 0 0)
      else if bits new 2 1 = 3 ∨ 12 ≤ bits new 11 8 then old else new, false)
  else if off = aPCI_MEMWIN then (if new % 2 ^ 20 % 2 ^ 40 = 0 ∧ bits new 43 40 < 12 then (new, false) else (old, true))
  else if off = aYLV_TOPO then (if topoOk new then new else old, false)
  else if off = aSYN_FW_BASE then (keepFld old new 11 0 (decide (bits new 11 0 ≤ 2048)), false)
  else if 0x100000 ≤ off ∧ off < 0x400000 then sliceFix s ((off - 0x100000) / 0x40000) ((off - 0x100000) % 0x40000) old new
  else if 0x400000 ≤ off ∧ off < 0x4E0000 ∧ (off - 0x400000) % 0x10000 = 0 then (keepFld old new 2 1 (bits new 2 1 != 3), false)
  else match offPart off with
    | some k => partFix s k off old new
    | none => (new, false)

/-! ### Effects of a write -/

/-- R377, R400, R401: a port that is enabled trains (a Y port once the torus is configured); a port that is not is DISABLED. -/
def portFollow (s : State) (p : Nat) : State :=
  let on := fld s (aYLV_PORT_CTL p) 0 0 == 1 && (decide (12 ≤ p) || fld s aYLV_TOPO 1 0 != 0)
  let st := portState s p
  if on && st == 0 then updPort (setFld s (aYLV_PORT_STATUS p) 2 0 1) p fun q => { q with fails := 0 }
  else if !on && st != 0 then rerouteWaiting (updPort (setFld s (aYLV_PORT_STATUS p) 2 0 0) p fun q => { q with replay := [], downAt := none }) p
  else s

/-- Latches the write-only bits that a write sets: 1 + the origin, + 256 where the register was locked before the write. -/
def strobesOf (s : State) (org off v : Nat) (fs : List RFld) (locked : Bool) : State :=
  (fs.filter fun f => f.acc == .wo && f.hi == f.lo && bit v f.lo).foldl (fun s f =>
    strobeSet s off f.lo (1 + org + if locked then 256 else 0)) s

/-- What a write of a partition block does beside its fields: enables and flushes of rings (R516, R537). -/
def partEffect (s : State) (k off old new v : Nat) : State :=
  let o := off - aPart k
  if 0x1000 ≤ o ∧ o < 0x12A0 ∧ o % 0x20 = 8 then
    let s := if bit old 0 != bit new 0 then strobeSet s off 0 (if bit new 0 then 2 else 1) else s
    if o < 0x1200 ∧ bit v 6 then setBitOf s (off + 8) 34 else s
  else s

/-- What a write does beside its fields. -/
def regEffect (s : State) (org off old new v : Nat) (fs : List RFld) (locked : Bool) : State :=
  let s := if off = aSYN_RESET then (if v % 256 = 0xC5 ∧ bit v 8 then strobeSet s off 8 (1 + org) else s)
    else if off = aRAS_PAIR ∧ org ≠ orgMG then s
    else strobesOf s org off v fs locked
  if off = aAUD_CTL then (if bit new 0 then s else { setFld s aAUD_STATUS 45 32 0 with audLost := 0, audFirst := 0 })
  else if off = aAUD_ACK then audAck s (v % 2 ^ 32)
  else if off = aRAS_RPT_ACK then rptAck s (v % 2 ^ 32)
  else if off = aTNS_CTL then (if bits new 1 0 = 2 then s else setFld s aTNS_OFFSET 47 32 0)
  else if off = aRAS_PAIR then (if bit old 0 != bit new 0 then strobeSet s off 0 (if bit new 0 then 2 else 1) else s)
  else if off = aYLV_TOPO then (if bits old 1 0 = bits new 1 0 then s else (List.range 12).foldl portFollow s)
  else if 0x400000 ≤ off ∧ off < 0x4E0000 ∧ (off - 0x400000) % 0x10000 = 0 then portFollow s ((off - 0x400000) / 0x10000)
  else match offPart off with
    | some k => partEffect s k off old new v
    | none => s

/-! ### Circuit entries and keys (R384, R546, R647, R649) -/

/-- R384: may the entry of port `p` hold this image. An entry that is not VALID is free; EGRESS 14 and 15 are reserved (DEDUCED, assumption log 52). -/
def cktOk (s : State) (p v : Nat) : Bool :=
  let e := bits v 7 4
  if !bit v 0 then true
  else
    (bit v 1 || bit v 2 || bit v 3) && bits v 31 16 != 0 && (!bit v 2 || decide (e < 14))
      && (!bit v 2 || (decide (12 ≤ p) == decide (12 ≤ e)))
      && (!(bit v 1 && bit v 2) || match portDir s p, portDir s e with | some a, some b => a ^^^ 1 == b | _, _ => false)

/-- R384: may a partition write an entry: it is free or carries one of its keys, and so does what is written. -/
def cktMine (s : State) (k old v : Nat) : Bool :=
  (!bit old 0 || partHasKey s k (bits old 31 16)) && (!bit v 0 || partHasKey s k (bits v 31 16))

/-- R384, R647: a circuit write, by partition `part` where one is given. -/
def cktWrite (s : State) (org off port cid v : Nat) (part : Option Nat) : State × Nat :=
  let a := aCKT port cid
  let old := regGet s a
  let new := v % 2 ^ 32
  if cktOk s port new && (match part with | some k => cktMine s k old new | none => true) then
    (setupLog (regSet s a new) org off 8 v old 0, 0)
  else (setupLog (setBitOf s (aYLV_PORT_STATUS port) 4) org off 8 v old 1, suREFUSED)

/-- R546: does a key entry keep the rules. -/
def keyOk (s : State) (k j old new : Nat) : Bool :=
  let key := bits new 15 0
  (!bit new 31 || (key != 0 && (List.range 12).all fun i => (List.range 8).all fun l =>
    (i == k && l == j) || !(fld s (aPART_KEY i l) 31 31 == 1 && fld s (aPART_KEY i l) 15 0 == key)))
    && (old == new || !bit old 31 || (ctxByKey s k (bits old 15 0)).isNone)

/-! ### A write (R632 to R637) -/

/-- R633: is the domain on in which a register is held. -/
def heldOn (s : State) (h : RHeld) (i : Nat) : Bool :=
  match h with
  | .on => true
  | .compute => computeOn s i
  | .stackCtl => stackOn s i

/-- R636: is the lock of a register set. -/
def lockedReg (s : State) (l : RLock) (i : Nat) : Bool :=
  match lockBit l i with
  | some (a, b) => bit (regGet s a) b
  | none => false

/-- R561: does HOLD refuse a write: the log is full, and it is neither unrecorded, nor a teardown, nor a lifecycle request. -/
def holdRefuses (s : State) (off v : Nat) : Bool :=
  audFull s && !unlogged off && !(off == aSYN_LC_CMD && bit v 0) && !(match offPart off with | some k => off == aPART_CFG k && bit v 15 | none => false)

/-- R640, R641: bytes of SYN_LC_REQ and SYN_FW_BUF. -/
def setupBuf (s : State) (org off n v : Nat) : State × Nat :=
  let put (m : Map Byte) (a : Nat) : Map Byte := ((natLe n v).zipIdx).foldl (fun m b => mapSet 0#8 m (a + b.2) b.1) m
  if off < 0x600 then
    if !(writerIs s org .mg || writerIs s org .jtBlank) then (s, suREFUSED)
    else if fld s aSYN_LC_CMD 1 1 = 1 then (s, 0)
    else ({ s with lcReq := put s.lcReq (off - 0x400) }, 0)
  else if !writerIs s org .mg then (s, suREFUSED)
  else if fld s aSYN_FW_STATUS 2 0 = 1 then (s, 0)
  else ({ s with fwBuf := put s.fwBuf (4096 * fld s aSYN_FW_BASE 11 0 + (off - 0x1000)) }, 0)

/-- R544, R553: the code with which FORM is refused, 0 where it is not: the first of the table's rows that holds, "owned" meaning
by another partition. 16: no row holds, but the lifecycle state allows no partition (DEDUCED, assumption log 75). -/
def formErr (s : State) (k slices : Nat) (locked badOrg : Bool) : Nat :=
  let named := (List.range 12).filter fun i => bit slices i
  if named.any fun sl => (match sliceOwner s sl with | some j => j != k | none => false) || s.cust.wiping.contains sl then 1
  else if partState s k ≠ 0 ∨ named = [] then 2
  else if locked then 3
  else if badOrg then 4
  else if lcState s = 0 ∨ lcState s = 3 then 16
  else 0

/-- R544: a write of PART_CFG whose FORM is refused changes no field; its other trigger acts. -/
def formWrite (s : State) (org k n v : Nat) (locked : Bool) : Option (State × Nat) :=
  let off := aPART_CFG k
  let old := regGet s off
  let e := formErr s k (if partState s k = 0 ∧ !locked then v % 4096 else old % 4096) locked false
  if bit v 14 && e != 0 then
    let s := setupLog s org off n v old (if locked then 3 else 1)
    let s := strobeSet s off 14 (1 + org + 1024 * e)
    some (if bit v 15 then strobeSet s off 15 (1 + org) else s, if locked then suLOCKED else suREFUSED)
  else none

/-- R544: a FORM of an origin that may not make it. -/
def formBadOrg (s : State) (org off v : Nat) : State :=
  match offPart off with
  | some k => if off = aPART_CFG k ∧ bit v 14 then strobeSet s off 14 (1 + org + 1024 * formErr s k (fld s off 11 0) false true) else s
  | none => s

/-- R510, R637: the refusal of a window base is recorded, though a write of PART_MEMWIN that takes effect is not; while the log is
full under HOLD it is counted instead. -/
def refuseRecorded (s : State) (org off n v old : Nat) : State :=
  if audFull s then audRefused s else audit s { setupEntry s off n v old with origin := org, aflags := 1 }

/-- R632 to R637: a write that reaches its register. -/
def regWrite (s : State) (org off n v : Nat) (d : RDesc) (i j : Nat) : State × Nat :=
  let old := regGet s off
  let locked := lockedReg s d.lock i
  let isKey := match offPart off with | some k => decide (aPART_KEY k 0 ≤ off) && decide (off ≤ aPART_KEY k 7) | none => false
  let (new, bad) := regFix s off old (fldsWrite d.flds old v locked)
  if isKey then
    if locked then (setupLog s org off n v old 3, suLOCKED)
    else if keyOk s i j old new then (setupLog (regSet s off new) org off n v old 0, 0)
    else (setupLog s org off n v old 1, suREFUSED)
  else
    let refused := locked || bad
    let s := if bad && unlogged off then refuseRecorded s org off n v old
      else setupLog s org off n v old (if locked then 3 else if bad then 1 else 0)
    let s := regEffect (regSet s off new) org off old new v d.flds locked
    (s, if locked then suLOCKED else if refused then suREFUSED else 0)

/-- R630 to R637: a write of `n` bytes (4 or 8, aligned) of value `v` at PF0 offset `off` by origin `org`, and its status (DEDUCED, assumption log 53). -/
def setupWrite (s : State) (org off n v : Nat) : State × Nat :=
  if holdRefuses s off v then (audRefused s, suREFUSED)
  else if (0x400 ≤ off ∧ off < 0x600) ∨ (0x1000 ≤ off ∧ off < 0x2000) then setupBuf s org off n v
  else
    match regFind (off / 8 * 8) with
    | none => setupRefuse s org off n v suBAD
    | some (d, i, j) =>
      if d.width = 4 ∧ off % 8 = 4 then setupRefuse s org off n v suBAD
      else if d.width = 8 ∧ n = 4 then setupRefuse (badAccess s) org off n v suBAD
      else if !(d.writers.any (writerIs s org)) || (org % 16 == 2 && offPart off != some (org / 16 - 1)) then
        setupRefuse (formBadOrg s org off v) org off n v suREFUSED
      else
        match offPart off with
        | some k =>
          if off = aPART_CFG k then (formWrite s org k n v (lockedReg s d.lock i)).getD (regWrite s org off n v d i j)
          else if partState s k = 1 ∨ partState s k = 3 then setupRefuse s org off n v suREFUSED
          else if off = aPART_CKT_ENTRY k then
            cktWrite s org off (fld s (aPART_CKT_SEL k) 11 8) (fld s (aPART_CKT_SEL k) 7 0) v (some k)
          else regWrite s org off n v d i j
        | none =>
          if !heldOn s d.held i then setupRefuse s org off n v suOFF
          else
            match offCkt off with
            | some (p, c) => cktWrite s org off p c v none
            | none => regWrite s org off n (if d.width = 4 then v % 2 ^ 32 else v) d i j

/-! ### A read (R630, R632, R633, R643, R649) -/

/-- R643: eight bytes of a place of the audit ring window or the report window. -/
def windowRead (s : State) (off : Nat) : Nat :=
  let get (b : Option (List Byte)) (o : Nat) : Nat := match b with | some b => leNat ((b.drop o).take 8) | none => 0
  if off < 0xC0000 then get ((mapFind s.audit ((off - 0x80000) / 32)).map audBytes) (off % 32)
  else get ((mapFind s.rptBuf ((off - 0xC0000) / 64)).map rptBytes) (off % 64)

/-- The 64-bit image of the slot at an offset, as a read returns it (DEDUCED, assumption log 53). -/
def slotRead (s : State) (off : Nat) (d : RDesc) (i : Nat) : Nat :=
  if !heldOn s d.held i then 0
  else if off = aTNS_VALUE then s.tense.toNat
  else if off = aTNS_STATUS then -- R324: under FREE, LOCKED reads 1 and HOLDOVER reads 0
    setBits (setBits (regGet s off) 0 0 (if tnsLocked s then 1 else 0)) 2 2 (if tnsHoldover s then 1 else 0)
  else if off = aRAS_RPT_STATUS then setBits (setBits (regGet s off) 31 0 s.rseq) 42 32 s.reports.length
  else match offPart off with
    | some k =>
      let p := fld s (aPART_CKT_SEL k) 11 8
      let c := fld s (aPART_CKT_SEL k) 7 0
      let e := regGet s (aCKT p c)
      let seen := !bit e 0 || partHasKey s k (bits e 31 16)
      if off = aPART_CKT_ENTRY k then (if seen then e else 0)
      else if off = aPART_CKT_CNT k then (if seen then regGet s (aCKTCNT p c) else 0)
      else regGet s off
    | none => regGet s off

/-- R630, R632: a read of `n` bytes (4 or 8, aligned) at PF0 offset `off`: data and status (DEDUCED, assumption log 53). -/
def setupRead (s : State) (off n : Nat) : Nat × Nat :=
  if 0x80000 ≤ off ∧ off < 0xD0000 then (if n = 8 then (windowRead s off, 0) else (0, suBAD))
  else if (0x400 ≤ off ∧ off < 0x600) ∨ (0x1000 ≤ off ∧ off < 0x2000) then (0, 0)
  else
    match regFind (off / 8 * 8) with
    | none => (0, suBAD)
    | some (d, i, _) =>
      if d.width = 4 ∧ off % 8 = 4 then (0, suBAD)
      else
        let x := slotRead s (off / 8 * 8) d i
        ((if n = 8 then x else bits x (8 * (off % 8) + 31) (8 * (off % 8))), if heldOn s d.held i then 0 else suOFF)

end Sys2Proof.Machine
end

