-- ==== Sys2Proof/Machine/DevOps.lean ====
section
/-! DEFINITION. Power domains and set points, the end of a partition's rings and contexts, function-level resets, and the cold reset
(spec/19_power_and_ellipsis.md R566 to R578, spec/18_partitions_and_custody.md R549, R550, spec/16_host_link.md R501,
spec/21_reset_and_boot.md R615 to R618). -/

namespace Sys2Proof.Machine

/-! ### Set points (R566 to R568, R578) -/

/-- R576: present load class of a slice. -/
def loadClass (s : State) (sl : Nat) : Nat := fld s (aPWR_CAL sl) 1 0
/-- R577: a calibration record of a slice: 0 VRATE, 1 THERMAL, 2 STRESS. -/
def calRec (s : State) (sl kind : Nat) : Option CalRec := mapFind s.nvm.cal (4 * sl + kind)
/-- R578: the guard of a record, in units of 5 mV. -/
def calGuard (s : State) (sl kind : Nat) : Nat := match calRec s sl kind with | some r => 5 * (loadClass s sl - r.cls) | none => 0

/-- R566: the slice of domains 0 to 35. -/
def domSlice (d : Nat) : Nat := d % 12
/-- R599: the largest offset among the units of a domain, in units of 5 mV. -/
def domOffset (s : State) (d : Nat) : Nat :=
  if d < 12 then 4 * (List.range 18).foldl (fun a u => max a (fld s (aRAS_UNIT d u) 7 6)) 0 else if d = 40 then s.pwr.ring else 0

/-- R575: the raise of a domain after a dip (DEDUCED, assumption log 84). -/
def dipRaise (s : State) (d : Nat) : Nat := if (mapFind s.pwr.raise d).isSome then 4 else 0

/-- R568, R592: floor of a domain. -/
def floorOf (s : State) (d : Nat) : Nat :=
  let v := if d < 36 then (match calRec s (domSlice d) 0 with | some r => r.data.getD (d / 12) 110 + calGuard s (domSlice d) 0 | none => 110) else 110
  max 110 (v + dipRaise s d + (if s.pwr.mism.contains d then 4 else 0) + domOffset s d)

/-- R568: demand of a domain. -/
def demandOf (s : State) (d : Nat) : Nat :=
  if d < 24 then
    match sliceOwner s (domSlice d) with
    | some k => fld s (aPWR_PART_SP k) 7 0
    | none => 110
  else fld s aPWR_LIMIT 39 32

/-- R572: the set of sensors that rule a domain: a slice, or 12 and 13 the switch halves. Domains 38 to 40 follow both halves
(DEDUCED, assumption log 83). -/
def domSensors (d : Nat) : List Nat := if d < 36 then [domSlice d] else if d = 36 then [12] else if d = 37 then [13] else [12, 13]

/-- R568, R570, R572: ceiling of a domain; domains 24 to 40 are never lowered for power. -/
def ceilOf (s : State) (d : Nat) : Nat :=
  min (mapGet 170 s.pwr.tceil d) (if d < 24 then mapGet 170 s.pwr.pceil d else 170)

/-- R567: the die whose VIN_CORE rail feeds a domain: 0 west, 1 east. Domains 38 to 40 count as west (DEDUCED, assumption log 83). -/
def domDie (d : Nat) : Nat := if d < 36 then (if domSlice d < 6 then 0 else 1) else if d = 37 then 1 else 0

/-- R601: V_T + g of a slice. -/
def stressPoint (s : State) (sl : Nat) : Nat :=
  let g := min 15 (calGuard s sl 2)
  min (max (demandOf s sl) 126) (158 - g) + g

/-- R568, R569, R572, R575, R657: set point of a domain. The raise of R575 lifts the set point with the floor (DEDUCED, assumption log 84). -/
def spOf (s : State) (d : Nat) : Nat :=
  let f := floorOf s d
  let sp := min 170 (max f (min (demandOf s d) (ceilOf s d) + dipRaise s d))
  let sp := if (domSensors d).any s.pwr.therm.contains then min 170 f else sp
  let sp := if d < 24 && s.acts.any (fun a => a.kind == 1 && a.slice == domSlice d && a.out) then stressPoint s (domSlice d) else sp
  if s.pwr.lost.contains (domDie d) then min sp (s.pwr.vin.getD (domDie d) 0 - 12) else sp

/-- R567, R573: puts a domain's set point, which moves by 5 mV in a microsecond. -/
def dvSet (s : State) (d sp : Nat) : State :=
  let a := aPWR_DOM d
  let old := fld s a 7 0
  let s := setFld (setFld s a 7 0 sp) a 31 24 (floorOf s d)
  let s := setFld s a 18 18 (if d < 36 && calGuard s (domSlice d) 0 != 0 then 1 else 0)
  if old = sp then s
  else { s with pwr := { s.pwr with moves := mapIns s.pwr.moves d (old, s.tense.toNat + 1000 * (if old ≤ sp then sp - old else old - sp)) } }

/-- R567: each VIN_CORE rail goes to 60 mV above the highest set point that it feeds, where its regulator is reached. -/
def vinFollow (s : State) : State :=
  let top (die : Nat) : Nat := (List.range 41).foldl (fun a d => if domOn s d && domDie d == die then max a (fld s (aPWR_DOM d) 7 0) else a) 0
  let v (die : Nat) : Nat := if s.pwr.lost.contains die then s.pwr.vin.getD die 0 else top die + 12
  { s with pwr := { s.pwr with vin := [v 0, v 1] } }

/-! ### Domains (R566, R622) -/

/-- What a slice's compute domain holds is gone: its registers return to reset values, but for the units' trim and service state,
which the always-on domain holds, and VRB_PERF, which clears only at cold reset (R645) (DEDUCED, assumption log 77). -/
def computeClear (s : State) (sl : Nat) : State :=
  let keep := (List.range 18).filterMap fun u => (unitStatus sl u).map fun a => (a, fld s a 15 12, fld s a 9 9)
  let inside (o : Nat) : Bool := decide (aSlice sl + 0x1000 ≤ o) && decide (o < aSlice sl + 0x3000) &&
    !(decide (o < aSlice sl + 0x1800) && decide (0x40 ≤ o % 0x100) && decide (o % 0x100 < 0x80))
  let s := { s with
    regs := s.regs.filter fun r => !inside r.1
    verbs := s.verbs.filter fun v => v.1 / 8 != sl
    particles := s.particles.filter fun p => p.1 / 4 != sl
    infUnits := s.infUnits.filter fun u => u.1 / 2 != sl
    parsers := s.parsers.filter fun u => u.1 != sl
    lexers := s.lexers.filter fun u => u.1 != sl }
  keep.foldl (fun s k => setFld (setFld s k.1 15 12 k.2.1) k.1 9 9 k.2.2) s

/-- A domain is switched on at its set point. -/
def domPower (s : State) (d : Nat) : State := dvSet (setBitOf s (aPWR_DOM d) 16) d (spOf s d)

/-- The ports of a domain. -/
def domPorts (d : Nat) : List Nat := match d with | 36 => List.range 6 | 37 => (List.range 6).map (· + 6) | 38 => [12, 13] | _ => []

/-- Ports lose their power: registers, buffers and requests are gone. -/
def portsOff (s : State) (ps : List Nat) : State :=
  let inside (o : Nat) : Bool := ps.any fun p => decide (aPort p ≤ o) && decide (o < aPort p + 0x10000)
  { s with
    regs := s.regs.filter fun r => !inside r.1
    strobes := s.strobes.filter fun x => !inside (x.1 / 64)
    ports := s.ports.filter fun p => !ps.contains p.1 }

/-- A domain is switched off: what it holds is gone. -/
def domOff (s : State) (d : Nat) : State :=
  let a := aPWR_DOM d
  let s := setFld (setFld (setFld (setFld s a 16 16 0) a 15 0 0) a 31 24 0) a 47 32 0
  let s := clrBitOf s a 18
  let s := { s with pwr := { s.pwr with seen := s.pwr.seen.filter (· != d), low := mapDel s.pwr.low d, moves := mapDel s.pwr.moves d } }
  if d < 12 then computeClear s d
  else if d < 24 then { s with spm := memZero s.spm (spmIx (d - 12) 0 0) 50331648 }
  else if d < 36 then updStk s (d - 24) fun x => { x with queues := [], run := none }
  else if d = 39 then { s with trackers := [], answers := [] }
  else if d = 40 then { s with conj := [], outSigs := [] }
  else portsOff s (domPorts d)

/-- The three domains of a slice are switched on (DEDUCED, assumption log 77). -/
def slicePower (s : State) (sl : Nat) : State := domPower (domPower (domPower s sl) (12 + sl)) (24 + sl)

/-- A stack in use is in self-refresh, or leaves it. -/
def selfRefresh (s : State) (k : Nat) (on : Bool) : State :=
  if stackOnline s k then setFld s (aHBM_STATUS k) 11 11 (if on then 1 else 0) else s

/-- R543: a slice that belongs to no partition: its compute and scratchpad domains are off, its stack is in self-refresh. -/
def sliceIdle (s : State) (sl : Nat) : State :=
  selfRefresh (domOff (domOff s sl) (12 + sl)) sl true

/-- R544, R584: the domains of slices have ramped and their stacks have retrained: a stack that is not ready goes offline, a domain
that is not at its set point is switched off and reported, its units out of service. -/
def slicesReady (s : State) (sls badStacks badDoms : List Nat) : State :=
  let s := sls.foldl (fun s sl => if badStacks.contains sl then stackOffline s sl else selfRefresh s sl false) s
  (badDoms.filter fun d => decide (d < 24) && sls.contains (domSlice d)).foldl (fun s d =>
    let s := if d < 12 then (List.range 18).foldl (fun s u => unitOos s d u true) s else s
    report (domOff s d) clUNIT 0x10 (partByte s (domSlice d)) (domSlice d) 0xFF [d]) s

/-! ### The end of a partition's work (R501, R549, R550) -/

/-- Discards the rings of a partition: their registers, buffers, reservations and descriptors. -/
def ringsDiscard (s : State) (k : Nat) : State :=
  let mine := (s.descs.filter fun d => d.2.part == k).map (·.1)
  let s := mine.foldl (fun s id => dropWork s (.desc id)) s
  let lo := aPart k + 0x1000
  let inside (o : Nat) : Bool := decide (lo ≤ o) && decide (o < lo + 0x2A0)
  { s with
    regs := s.regs.filter fun r => !inside r.1
    strobes := s.strobes.filter fun x => !inside (x.1 / 64)
    sqs := s.sqs.filter fun q => q.1 / 16 != k
    rcs := s.rcs.filter fun q => q.1 / 5 != k
    cqRes := s.cqRes.filter fun q => q.1 / 5 != k
    eqLost := mapDel s.eqLost k
    descs := s.descs.filter fun d => d.2.part != k }

/-- Every context of a partition ends with TEARDOWN. -/
def partCtxsEnd (s : State) (k : Nat) : State := (liveCtxs s k).foldl (fun s c => ctxEnd s c stTEARDOWN none) s

/-- R500, R501, R549: what the requests of a function are dropped with: unsent writes, held entries, outstanding reads. -/
def fnQuiet (s : State) (f : Nat) : State := dropReads s f

/-- R501 sequences 5 to 7 of a function. -/
def fnReset (s : State) (f : Nat) : State :=
  let s := fnQuiet s f
  let s := noteTrackers { s with trackers := s.trackers.filter fun t => t.2.fn != f }
  let s := if f = 0 then regSet s aPCI_MEMWIN 0
    else
      let k := f - 1
      regSet (regSet (ringsDiscard (partCtxsEnd s k) k) (aPART_MEMWIN k) 0) (aPART_XLAT k) 0
  updFn s f fun x => { enabled := x.enabled, gen := (x.gen + 1) % 16 }

/-- The functions that a reset of function `f` reaches: of PF0, itself and every enabled VF. -/
def fnReach (s : State) (f : Nat) : List Nat :=
  if f = 0 then 0 :: (((List.range 12).map (· + 1)).filter fun v => (fnOf s v).enabled) else [f]

/-- R501: sequences 5 to 7 of every function that the reset reaches; that of PF0 clears VF Enable. -/
def fnResetAll (s : State) (f : Nat) : State :=
  let fs := fnReach s f
  let s := fs.foldl fnReset s
  if f = 0 then { s with fns := s.fns.map fun x => (x.1, { x.2 with enabled := false }) } else s

/-- R546: the partition that owns a key. -/
def keyOwner (s : State) (key : Nat) : Option Nat := (List.range 12).find? fun k => partHasKey s k key

/-- R391, R549, R550: the locked sequences of a partition at the egress ports end, and its later packets from here are withdrawn;
the Nat counts the sequences that end. -/
def portsWithdraw (s : State) (k : Nat) : State × Nat :=
  (List.range 14).foldl (fun (a : State × Nat) e =>
    let q := portOf a.1 e
    let mine (r : EReq) : Bool := (r.from_ == 14 || r.from_ == 15) && keyOwner a.1 (pkKey r.pkt) == some k
    let ends : Bool := match q.lock with | some (r, _) => q.wait.any fun x => x.from_ == r && mine x | none => false
    (updPort a.1 e fun q => { q with wait := q.wait.filter (fun r => !mine r), lock := if ends then none else q.lock },
     a.2 + if ends then 1 else 0)) ({ s with loop := s.loop.filter fun p => keyOwner s (pkKey p) != some k }, 0)

/-- R340, R549, R550: the locked sequences of a slice's stack end; a write not yet issued is discarded. -/
def stackUnlock (s : State) (sl : Nat) : State × Nat :=
  let n := ((stkOf s sl).queues.filter fun q => q.2.lock.isSome).length
  (updStk s sl fun x => { x with queues := x.queues.map fun q => (q.1, { q.2 with lock := none }) }, n)

/-- R550, R563: every locked sequence of a partition ends, each with the yield of guarantee 5 to guarantee 1. -/
def locksEnd (s : State) (k : Nat) : State :=
  let (s, n) := portsWithdraw s k
  let (s, m) := (partSlices s k).foldl (fun (a : State × Nat) sl => let (s, n) := stackUnlock a.1 sl; (s, a.2 + n)) (s, n)
  (List.range m).foldl (fun s _ => guaranteeYield s k 5 1) s

/-- R549 sequence 5: circuit entries that carry a key of the partition and have LOCAL or REDUCE set are cleared. -/
def circuitsClear (s : State) (k : Nat) : State :=
  (List.range 14).foldl (fun s p => (List.range 256).foldl (fun s c =>
    let e := regGet s (aCKT p c)
    if bit e 0 && (bit e 1 || bit e 3) && partHasKey s k (bits e 31 16) then
      auditCore (regSet s (aCKT p c) 0) 8 k (256 * p + c) (bits e 31 16) 0
    else s) s) s

/-- R549 sequences 1 to 5. -/
def partTeardown (s : State) (k : Nat) : State :=
  let s := fnQuiet (setFld s (aPART_CFG k) 13 12 3) (vfOf k)
  let s := locksEnd s k
  let s := partCtxsEnd s k
  let s := circuitsClear s k
  { s with handles := s.handles.filter fun h => h.1 / 1024 != k }

/-- R551: writes zeros over every memory of a slice: scratchpad, engines, caches and its stack where that is online. -/
def sliceWipe (s : State) (sl : Nat) : State :=
  let s := { computeClear s sl with spm := memZero s.spm (spmIx sl 0 0) 50331648 }
  let s := if stackOnline s sl then stackWipe s sl else s
  { s with
    xcache := s.xcache.filter fun x => x.1 / 2 ^ 32 != sl
    conj := s.conj.filter fun c => c.1 / 1024 != sl }

/-- R551: a wipe of the whole device is recorded; it belongs to no partition (DEDUCED, assumption log 77). -/
def wipeNote (s : State) : State := auditCore s 2 0xFF 0xFF 0 (2 ^ 63)

/-- R549 sequences 6 and 7: the wipe of a partition, recorded, and then its keys, slices and Conjunctions are free. -/
def partFree (s : State) (k : Nat) : State :=
  let sls := partSlices s k
  let old := fld s (aPART_CFG k) 11 0
  let s := ringsDiscard (sls.foldl sliceWipe s) k
  let s := { s with xtab := s.xtab.filter fun x => x.1 / 2 ^ 48 != k }
  let s := updFn s (vfOf k) fun x => { x with held := [], msixPend := 0 }
  let s := auditCore s 2 k k old (old + 2 ^ 63)
  let s := (List.range 8).foldl (fun s j => regSet s (aPART_KEY k j) 0) s
  let s := setFld (setFld s (aPART_CFG k) 11 0 0) (aPART_CFG k) 13 12 0
  let s := sls.foldl sliceIdle s
  auditCore s 2 k k old 0

/-! ### Resets (R615 to R618) -/

/-- R650: registers whose fields a cold reset keeps: offset, and the mask of what stays. -/
def keptRegs : List (Nat × Nat) :=
  [(aAUD_STATUS, 2 ^ 46 - 1), (aRAS_RPT_STATUS, 2 ^ 43 - 1), (aSYN_RST_CAUSE, 0xFF), (aSYN_LC_NONCE, 2 ^ 64 - 1)] ++
  (List.range 12).map fun k => (aHBM_STATUS k, 0xFF7F1000)

/-- R565: SYN_LC_NONCE is drawn from the random source (DESIGN CHOICE, assumption log 17). -/
def drawNonce (s : State) : State :=
  { regSet s aSYN_LC_NONCE (Config.freeWord s.free).toNat with free := s.free + 1 }

/-- R616 to R618: a cold reset of a cause of R616. Every locked sequence of a partition ends with it (R563). -/
def coldReset (s : State) (cause : Nat) : State :=
  let s := (List.range 12).foldl (fun s k => if partState s k = 0 then s else locksEnd s k) s
  let s := setBitOf s aSYN_RST_CAUSE cause
  let s := if s.pins.trip then setBitOf s aSYN_RST_CAUSE 7 else s
  let kept := keptRegs.map fun x => (x.1, regGet s x.1 &&& x.2)
  let n : State := { State.reset with
    pending := s.pending, free := s.free, hbm := s.hbm
    hstk := s.hstk.map fun x => (x.1, { remap := x.2.remap, pend := x.2.pend, dropped := x.2.dropped })
    reports := s.reports, rseq := s.rseq, rptLost := s.rptLost, rptBuf := s.rptBuf, mgmtOut := s.mgmtOut
    audit := s.audit, audLost := s.audLost, audFirst := s.audFirst
    hostOut := s.hostOut, wire := s.wire
    i3c := s.i3c, jtag := s.jtag, nvm := s.nvm
    pins := { s.pins with reset := true, coldLow := cause == 1, ready := false, trip := s.pins.trip && cause != 1 }
    pwr := { rails := s.pwr.rails, vin := s.pwr.vin } }
  kept.foldl (fun s x => regSet s x.1 x.2) n

/-- R615: a power-on reset: the whole device but fuses and flash; RAIL_EN is low. What the device has sent stays sent (DESIGN CHOICE, assumption log 92). -/
def powerReset (s : State) : State :=
  drawNonce { State.reset with
    pending := s.pending, free := s.free, nvm := s.nvm, mgmtOut := s.mgmtOut, hostOut := s.hostOut, wire := s.wire
    i3c := { out := s.i3c.out } }

end Sys2Proof.Machine
end

