-- ==== Sys2Proof/Machine/Custody.lean ====
section
/-! DEFINITION. Partitions formed, torn down and wiped, the lifecycle, firmware staging, and function-level resets
(spec/18_partitions_and_custody.md R543 to R557, spec/22_setup_registers.md R640, R641, spec/16_host_link.md R501). -/

namespace Sys2Proof.Machine

/-- R583, R634: a strobe of a register is carried out at once in RUN; in Ellipsis, or on the way into it or out of it, it waits, and
asks for a wake (DEDUCED, assumption log 75). -/
def whenAwake (s : State) (act : State → State) : State := if pwrState s ≠ 0 then wakeBy s 5 else act s

/-! ### Formation (R544) -/

/-- R544: formation begins, by origin `org`. -/
def formBegin (s : State) (org k : Nat) : State :=
  let sls := partSet s k
  let s := setFld s (aPART_CFG k) 13 12 1
  let s := { s with cust := { s.cust with formAt := mapIns s.cust.formAt k s.tense.toNat } }
  let s := sls.foldl slicePower s
  audit s { kind := 2, origin := org, part := k, addr := k, detail := 0, value := fld s (aPART_CFG k) 11 0 }
where
  /-- the slices named -/
  partSet (s : State) (k : Nat) : List Nat := (List.range 12).filter fun i => bit (fld s (aPART_CFG k) 11 0) i

/-- PART_FORM (R544): carries out a FORM written to PART_CFG. Where only the lifecycle state forbids it, ERR is a free value (DEDUCED, assumption log 75) (DESIGN CHOICE, assumption log 76). -/
def execPartForm (k now : Nat) (s : State) : Res :=
  guardUnit (decide (k < 12)) (ran s (
    let s := atTime s now
    let a := aPART_CFG k
    match strobeOf s a 14 with
    | none => s
    | some v => whenAwake s fun s =>
      let s := strobeClr s a 14
      let e := if v / 1024 ≠ 0 then v / 1024 else formErr s k (fld s a 11 0) (bit v 8) false
      if e = 0 then formBegin s (v % 256 - 1) k
      else if e = 16 then { setFld s a 19 16 ((Config.freeWord s.free).toNat % 16) with free := s.free + 1 }
      else setFld s a 19 16 e))

/-- PARTITION_ACTIVE (R544): 400 µs after FORM. `badStacks`: stacks that are not ready, `badDoms`: domains not at their set point. -/
def execPartitionActive (k now : Nat) (badStacks badDoms : List Nat) (s : State) : Res :=
  guardUnit (decide (k < 12)) (ran s (
    let s := atTime s now
    if partState s k = 1 ∧ mapGet 0 s.cust.formAt k + 400000 ≤ s.tense.toNat then
      setFld (vinFollow (slicesReady s (partSlices s k) badStacks badDoms)) (aPART_CFG k) 13 12 2
    else s))

/-! ### Teardown and wipe (R549 to R551) -/

/-- PART_TEARDOWN (R549): carries out a TEARDOWN written to PART_CFG (DEDUCED, assumption log 75). -/
def execPartTeardown (k now : Nat) (s : State) : Res :=
  guardUnit (decide (k < 12)) (ran s (
    let s := atTime s now
    match strobeOf s (aPART_CFG k) 15 with
    | none => s
    | some _ => whenAwake s fun s =>
      let s := strobeClr s (aPART_CFG k) 15
      if partState s k = 1 ∨ partState s k = 2 then partTeardown s k else s))

/-- WIPE (R549 sequences 6 and 7, R551): once the function's last tracker is freed. -/
def execWipe (k now : Nat) (s : State) : Res :=
  guardUnit (decide (k < 12)) (ran s (
    let s := atTime s now
    if partState s k = 3 ∧ s.trackers.all (fun t => t.2.fn != vfOf k) then partFree s k else s))

/-! ### Lifecycle (R554, R555, R640) -/

/-- LIFECYCLE_SUBMIT (R640): carries out a SUBMIT written to SYN_LC_CMD. -/
def execLifecycleSubmit (s : State) : Res :=
  ran s (match strobeOf s aSYN_LC_CMD 0 with
    | none => s
    | some v =>
      let s := strobeClr s aSYN_LC_CMD 0
      if fld s aSYN_LC_CMD 1 1 = 1 then s
      else { setBitOf s aSYN_LC_CMD 1 with
        lcWork := (List.range 272).map fun i => mapGet 0#8 s.lcReq i, cust := { s.cust with lcOrg := v % 256 - 1 } })

/-- Bytes of a list. -/
def slice (b : List Byte) (off n : Nat) : List Byte := (b.drop off).take n

/-- R554: does the fuse block's allowance or the table let a transition happen. -/
def lcMove (from_ target : Nat) : Bool :=
  (from_ == 0 && target == 1) || (from_ == 1 && (target == 2 || target == 3)) || (from_ == 2 && (target == 1 || target == 3))

/-- R554, R560: the DETAIL code of a request: 0 accepted, 1 signature, 2 nonce, 3 transition, 4 allowance, the first that applies (DEDUCED, assumption log 73). -/
def lcDecide (s : State) (b : List Byte) : Nat :=
  let lc := s.nvm.lc
  let target := leNat (slice b 0 1)
  let key := (beNat (slice b 0x50 48), beNat (slice b 0x80 48))
  let hash := sha384 (slice b 0x50 96)
  let signed := hash == (if lc = 0 then s.nvm.prov else s.nvm.owner) && leNat (slice b 0x10 16) == s.nvm.serial
    && ecdsaOk key (beNat (slice b 0xB0 48)) (beNat (slice b 0xE0 48)) (slice b 0 0xB0)
    && leNat (slice b 1 7) == 0 && (lc == 0 && target == 1 || leNat (slice b 0x20 48) == 0)
  if !signed then 1
  else if leNat (slice b 8 8) ≠ regGet s aSYN_LC_NONCE then 2
  else if !lcMove lc target then 3
  else if lc = 2 ∧ target = 1 ∧ s.nvm.allow = 0 then 4
  else 0

/-- R554, R555: the fuses of an accepted request. RETURNED revokes the firmware keys of the owner class, clears OWNER_HASH, and undoes
the remedies of the units (R602). -/
def lcFuses (n : Nvm) (b : List Byte) : Nvm :=
  let target := leNat (slice b 0 1)
  { n with
    lc := target
    allow := if n.lc = 2 ∧ target = 1 then n.allow - 1 else n.allow
    owner := if target = 3 then [] else if n.lc = 0 then slice b 0x20 48 else n.owner
    ownerRevoked := n.ownerRevoked || target == 3
    health := if target = 3 then [] else n.health }

/-- R555: every partition is torn down and every memory of every slice and stack is wiped. -/
def wipeAll (s : State) : State :=
  let s := (List.range 12).foldl (fun s k => if partState s k = 0 then s else partTeardown s k) s
  let s := (List.range 12).foldl (fun s k => if partState s k = 0 then s else partFree s k) s
  wipeNote ((List.range 12).foldl sliceWipe s)

/-- LIFECYCLE_DECISION (R554, R555, R640). The wait for the entry's acknowledgement, at most 1 s, adds time only (DEDUCED, assumption log 73). -/
def execLifecycleDecision (now : Nat) (s : State) : Res :=
  let s := atTime s now
  ran s (if fld s aSYN_LC_CMD 1 1 = 0 then s
    else whenAwake s fun s =>
      let b := s.lcWork
      let e := lcDecide s b
      let s := drawNonce s
      let s := setFld (setBitOf (clrBitOf s aSYN_LC_CMD 1) aSYN_LC_CMD 2) aSYN_LC_CMD 15 8 e
      let ent : AudEnt := { kind := 6, origin := s.cust.lcOrg, aflags := if e = 0 then 0 else 1, addr := leNat (slice b 0 1), detail := e
                            value := s.nvm.serial % 2 ^ 64 }
      if e ≠ 0 then audit s ent
      else
        let s := audit { wipeAll s with nvm := lcFuses s.nvm b } ent
        let s := coldReset s 4
        -- R559: the ring is cleared by a transition to RETURNED
        if s.nvm.lc = 3 then setFld { s with audit := [], audLost := 0, audFirst := 0 } aAUD_STATUS 45 32 0 else s)

/-! ### Firmware (R556, R557, R641) -/

/-- R556: SVN and RELEASE of an image's header. -/
def fwSvn (b : List Byte) : Nat := leNat (slice b 0xC 4)
/-- R556. -/
def fwRelease (b : List Byte) : Nat := leNat (slice b 0x10 4)

/-- R556: the checks of an image (PRESUMED, assumption log 74). -/
def fwCheck (s : State) (b : List Byte) : Bool :=
  let body := leNat (slice b 0x14 4)
  let slot := leNat (slice b 0xA 1)
  let cls := leNat (slice b 0xB 1)
  let key := (beNat (slice b 0x100 48), beNat (slice b 0x130 48))
  let test := s.nvm.lc == 0 || s.nvm.lc == 3
  slice b 0 8 == ascii [0x48, 0x58, 0x4E, 0x46, 0x57, 0x49, 0x4D, 0x47] && leNat (slice b 8 2) == 1 && decide (slot < 4)
    && cls == (if test then 2 else 1) && !(cls == 1 && s.nvm.ownerRevoked)
    && decide (s.nvm.minSvn ≤ fwSvn b) && decide (65536 ≤ body) && decide (body ≤ 8388608) && body % 4096 == 0 && b.length == 512 + body
    && leNat (slice b 0x48 0xB8) == 0 && leNat (slice b 0x1C0 0x40) == 0
    && sha384 (slice b 0x100 96) == s.nvm.fwKeys.getD slot [] && !s.nvm.revoked.contains slot
    && ecdsaOk key (beNat (slice b 0x160 48)) (beNat (slice b 0x190 48)) (slice b 0 0x100)
    && sha384 (b.drop 512) == slice b 0x18 48

/-- R557: the flash bank of the running image, and the other one. -/
def fwBank (s : State) : Nat := fld s aSYN_BOOT 4 4

/-- R560: an entry of KIND 07h. -/
def fwAudit (s : State) (org bank svn release aflags : Nat) : State :=
  audit s { kind := 7, origin := org, aflags := aflags, addr := bank, detail := svn, value := release }

/-- FIRMWARE_STAGE_GO (R557, R641): carries out a GO written to SYN_FW_STAGE. -/
def execFirmwareStageGo (s : State) : Res :=
  ran s (match strobeOf s aSYN_FW_STAGE 0 with
    | none => s
    | some v =>
      let s := strobeClr s aSYN_FW_STAGE 0
      if fld s aSYN_FW_STATUS 2 0 = 1 then s
      else
        let s := setFld s aSYN_FW_STATUS 2 0 1
        let s := { s with cust := { s.cust with fwOrg := v % 256 - 1, fwAsked := false, fwData := [] } }
        fwAudit s (v % 256 - 1) (1 - fwBank s) 0 0 0)

/-- R557: the staged image is checked and written to the inactive bank. -/
def fwFinish (s : State) (b : List Byte) : State :=
  let bank := 1 - fwBank s
  let ok := b.length == fld s aSYN_FW_LEN 31 0 && fwCheck s b
  let s := { s with cust := { s.cust with fwAsked := false, fwData := [] } }
  let s := if ok then { s with nvm := { s.nvm with banks := s.nvm.banks.set bank b, newer := bank } } else s
  fwAudit (setFld s aSYN_FW_STATUS 2 0 (if ok then 2 else 3)) s.cust.fwOrg bank (fwSvn b) (fwRelease b) (if ok then 0 else 1)

/-- R557: staging ends with a host error (PRESUMED, assumption log 74). -/
def fwHostError (s : State) : State :=
  let s := { s with cust := { s.cust with fwAsked := false, fwData := [] } }
  fwAudit (setFld s aSYN_FW_STATUS 2 0 4) s.cust.fwOrg (1 - fwBank s) 0 0 1

/-- R557: asks the host for the next piece of the image. -/
def fwAsk (s : State) : State :=
  let at_ := fld s aSYN_FW_STAGE 63 12 * 4096 + s.cust.fwData.length
  match hostRead s 0 .firmware at_ (readSpan at_ (fld s aSYN_FW_LEN 31 0 - s.cust.fwData.length)) false false with
  | some s => { s with cust := { s.cust with fwAsked := true } }
  | none => if fnSends s 0 then s else fwHostError s

/-- R557, R641: a busy stage goes on: from the staging buffer at once; from the host piece by piece, then the checks. An image whose
length passes the buffer, or 8 MiB and 512 bytes, is rejected unread. -/
def fwStep (s : State) : State :=
  let n := fld s aSYN_FW_LEN 31 0
  if 8388608 + 512 < n ∨ n < 512 then fwFinish s []
  else if bit (regGet s aSYN_FW_LEN) 32 then fwFinish s ((List.range n).map fun i => mapGet 0#8 s.fwBuf i)
  else if !s.cust.fwAsked then fwAsk s
  else
    match takeAnswer .firmware s.answers with
    | none => s
    | some (a, rest) =>
      let s := { s with answers := rest }
      if a.failed || a.dropped || ansPoison a then fwHostError s
      else
        let b := s.cust.fwData ++ ansBytes a
        let s := { s with cust := { s.cust with fwData := b } }
        if b.length < n then fwAsk s else fwFinish s b

/-- FIRMWARE_STAGING_DONE (R557, R641). -/
def execFirmwareStagingDone (now : Nat) (s : State) : Res :=
  let s := atTime s now
  ran s (if fld s aSYN_FW_STATUS 2 0 = 1 then fwStep s else s)

/-- COMMIT_SVN (R557): the fused minimum SVN rises to the running image's. -/
def execCommitSvn (s : State) : Res :=
  ran s (match strobeOf s aSYN_FW_STATUS 3 with
    | none => s
    | some v =>
      let s := strobeClr s aSYN_FW_STATUS 3
      let svn := fld s aSYN_FW_STATUS 63 32
      let s := { s with nvm := { s.nvm with minSvn := max s.nvm.minSvn svn } }
      fwAudit s (v % 256 - 1) (fwBank s) svn (fwRelease (s.nvm.banks.getD (fwBank s) [])) 0)

/-! ### Function-level reset (R501) -/

/-- FUNCTION_LEVEL_RESET (R501). `finish` false: Initiate FLR is accepted, the function sends nothing new and outstanding reads are
dropped as they come; `finish` true: these have come or timed out, and sequences 5 to 7 run (DEDUCED, assumption log 71). -/
def execFunctionLevelReset (fn : Nat) (finish : Bool) (s : State) : Res :=
  guardUnit (fnExists fn) (ran s (
    if !hostUp s || !devReady s then s
    else if finish then (if (fnOf s fn).flr = 0 then s else fnResetAll s fn)
    else if (fnOf s fn).flr ≠ 0 then hostSend s (.cpl fn 2 [] false)
    else (fnReach s fn).foldl (fun s f => updFn (fnQuiet s f) f fun x => { x with flr := 4 }) s))

end Sys2Proof.Machine
end

