-- ==== Sys2Proof/Machine/Fp.lean ====
section
/-! DEFINITION. IEEE 754 arithmetic with exception flags, as the F and D extensions define it (PRESUMED: the RISC-V unprivileged
specification, which spec/08_particle_cores.md R249 names). -/

namespace Sys2Proof.Machine

/-- The rounding modes of frm. -/
inductive RMode where
  | rne | rtz | rdn | rup | rmm
deriving DecidableEq, Repr

/-- fflags: NX. -/
def fxNX : Nat := 1
/-- fflags: UF. -/
def fxUF : Nat := 2
/-- fflags: OF. -/
def fxOF : Nat := 4
/-- fflags: DZ. -/
def fxDZ : Nat := 8
/-- fflags: NV. -/
def fxNV : Nat := 16

/-- A result and its flags. -/
abbrev FpR := Nat × Nat

/-- A rounding mode code of an instruction or of frm; 101 and 110 are reserved. -/
def rmodeOf (c : Nat) : Option RMode :=
  match c with | 0 => some .rne | 1 => some .rtz | 2 => some .rdn | 3 => some .rup | 4 => some .rmm | _ => none

/-- The layout of a floating-point format (F32 where the format is not one). -/
def layOf (f : Fmt) : FLay := (fmtLay f).getD ⟨8, 23, 127, true, false⟩
/-- Width of a layout in bits. -/
def layW (l : FLay) : Nat := l.eb + l.mb + 1
/-- The canonical NaN of a layout. -/
def layNan (l : FLay) : Nat := (2 ^ l.eb - 1) * 2 ^ l.mb + 2 ^ (l.mb - 1)
/-- The infinity of a layout. -/
def layInf (l : FLay) (neg : Bool) : Nat := layPack l neg (2 ^ l.eb - 1) 0
/-- Is a pattern a NaN. -/
def patNan (l : FLay) (x : Nat) : Bool := numIsNan (decFloat l x)
/-- Is a pattern a signalling NaN. -/
def patSnan (l : FLay) (x : Nat) : Bool := patNan l x && !bit x (l.mb - 1)

/-- Rounds a magnitude to a multiple of `2^q`; is it inexact. -/
def roundQ (rm : RMode) (neg : Bool) (m : Nat) (e q : Int) : Nat × Bool :=
  if q ≤ e then (m <<< (e - q).toNat, false)
  else
    let s := (q - e).toNat
    let lo := m >>> s
    let rem := m % 2 ^ s
    let up : Bool := match rm with
      | .rne => decide (2 ^ s < 2 * rem) || (decide (2 * rem = 2 ^ s) && lo % 2 == 1)
      | .rtz => false
      | .rdn => neg && rem != 0
      | .rup => !neg && rem != 0
      | .rmm => decide (2 ^ s ≤ 2 * rem)
    (if up then lo + 1 else lo, rem != 0)

/-- Packs a rounded magnitude `k 2^q` that does not overflow. -/
def layPut (l : FLay) (neg : Bool) (k : Nat) (q : Int) : Nat :=
  if k = 0 then layPack l neg 0 0
  else
    let E := magLog2 k q
    let emin : Int := 1 - l.bias
    if E < emin then layPack l neg 0 (k <<< (q - (emin - l.mb)).toNat)
    else layPack l neg (E + l.bias).toNat
      ((if Nat.log2 k ≤ l.mb then k <<< (l.mb - Nat.log2 k) else k >>> (Nat.log2 k - l.mb)) - 2 ^ l.mb)

/-- Rounds an exact value once, with overflow, underflow (tininess after rounding) and inexact. -/
def fpRound (l : FLay) (rm : RMode) (x : Num) : FpR :=
  match x with
  | .nan => (layNan l, 0)
  | .inf n => (layInf l n, 0)
  | .fin n m e =>
    if m = 0 then (layPack l n 0 0, 0)
    else
      let E := magLog2 m e
      let emin : Int := 1 - l.bias
      let q : Int := max E emin - l.mb
      let (k, ix) := roundQ rm n m e q
      let mm := 2 ^ (l.mb + 1) - 1
      let me : Int := (2 ^ l.eb - 2 : Nat) - l.bias - l.mb
      if magLt mm me k q then
        let toInf := match rm with | .rne | .rmm => true | .rtz => false | .rdn => n | .rup => !n
        (if toInf then layInf l n else layPack l n (2 ^ l.eb - 2) (2 ^ l.mb - 1), fxOF ||| fxNX)
      else
        let (k', _) := roundQ rm n m e (E - l.mb)
        let tiny := magLt k' (E - l.mb) 1 emin
        (layPut l n k q, (if ix then fxNX else 0) ||| (if tiny && ix then fxUF else 0))

/-- Flags of NaN operands and of an invalid operation. -/
def nanFlags (l : FLay) (ops : List Nat) (r : Num) : Nat :=
  if ops.any (patSnan l) || (numIsNan r && !ops.any (patNan l)) then fxNV else 0

/-- An operation on patterns: exact, one rounding. -/
def fpOp (l : FLay) (rm : RMode) (ops : List Nat) (r : Num) : FpR :=
  let (p, f) := fpRound l rm r
  (p, f ||| nanFlags l ops r)

/-- Addition. -/
def fpAdd (l : FLay) (rm : RMode) (a b : Nat) : FpR := fpOp l rm [a, b] (numAdd (rm == .rdn) (decFloat l a) (decFloat l b))
/-- Subtraction. -/
def fpSub (l : FLay) (rm : RMode) (a b : Nat) : FpR := fpOp l rm [a, b] (numSub (rm == .rdn) (decFloat l a) (decFloat l b))
/-- Multiplication. -/
def fpMul (l : FLay) (rm : RMode) (a b : Nat) : FpR := fpOp l rm [a, b] (numMul (decFloat l a) (decFloat l b))
/-- Division. -/
def fpDiv (l : FLay) (rm : RMode) (a b : Nat) : FpR :=
  let x := decFloat l a
  let y := decFloat l b
  let (p, f) := fpOp l rm [a, b] (numDiv x y)
  (p, f ||| (if numIsFin x && !numIsZero x && numIsZero y then fxDZ else 0))
/-- Square root. -/
def fpSqrt (l : FLay) (rm : RMode) (a : Nat) : FpR := fpOp l rm [a] (numSqrt (decFloat l a))
/-- Fused multiply-add of values: `(neg) a b + (neg) c`; infinity times zero is invalid whatever the addend. -/
def fpFma (l : FLay) (rm : RMode) (np nc : Bool) (a b c : Nat) : FpR :=
  let p := numMul (decFloat l a) (decFloat l b)
  let p := if np then numNegate p else p
  let z := decFloat l c
  let z := if nc then numNegate z else z
  let (r, f) := fpOp l rm [a, b, c] (numAdd (rm == .rdn) p z)
  (r, f ||| (if numIsNan p && !patNan l a && !patNan l b then fxNV else 0))

/-- minimumNumber and maximumNumber of IEEE 754-2019. -/
def fpMinMax (l : FLay) (mx : Bool) (a b : Nat) : FpR :=
  let x := decFloat l a
  let y := decFloat l b
  let f := if patSnan l a || patSnan l b then fxNV else 0
  if numIsNan x && numIsNan y then (layNan l, f)
  else if numIsNan x then (b, f) else if numIsNan y then (a, f)
  else
    let lt := numLt x y || (numEq x y && numNeg x && !numNeg y)
    (if lt != mx then a else b, f)

/-- Quiet equality (0), signalling less-than (1), signalling less-or-equal (2). -/
def fpCmp (l : FLay) (op a b : Nat) : FpR :=
  let x := decFloat l a
  let y := decFloat l b
  let nan := numIsNan x || numIsNan y
  let r := match op with | 0 => numEq x y | 1 => numLt x y | _ => numLe x y
  (if r then 1 else 0, if nan && (op != 0 || patSnan l a || patSnan l b) then fxNV else 0)

/-- FCLASS. -/
def fpClass (l : FLay) (a : Nat) : Nat :=
  let n := bit a (layW l - 1)
  match decFloat l a with
  | .nan => if patSnan l a then 2 ^ 8 else 2 ^ 9
  | .inf _ => if n then 1 else 2 ^ 7
  | .fin _ m _ =>
    if m = 0 then (if n then 2 ^ 3 else 2 ^ 4)
    else if bits a (layW l - 2) l.mb = 0 then (if n then 2 ^ 2 else 2 ^ 5)
    else (if n then 2 ^ 1 else 2 ^ 6)

/-- Rounds a value to an integer of `w` bits. A NaN and what lies out of range are invalid; `nanMax`: a NaN gives the largest
value (RISC-V), else 0 (R67). -/
def fpToInt (w : Nat) (signed nanMax : Bool) (rm : RMode) (x : Num) : FpR :=
  let hi : Int := if signed then 2 ^ (w - 1) - 1 else 2 ^ w - 1
  let lo : Int := if signed then -2 ^ (w - 1) else 0
  match x with
  | .nan => (if nanMax then toTwos w hi else 0, fxNV)
  | .inf n => (toTwos w (if n then lo else hi), fxNV)
  | .fin n m e =>
    let (k, ix) := roundQ rm n m e 0
    let i : Int := if n then -(k : Int) else k
    if i < lo then (toTwos w lo, fxNV)
    else if hi < i then (toTwos w hi, fxNV)
    else (toTwos w i, if ix then fxNX else 0)

/-- Conversion between formats. -/
def fpCvt (src dst : FLay) (rm : RMode) (a : Nat) : FpR :=
  let (p, f) := fpRound dst rm (decFloat src a)
  (p, f ||| (if patSnan src a then fxNV else 0))

/-- Binary32. -/
def laS : FLay := ⟨8, 23, 127, true, false⟩
/-- Binary64. -/
def laD : FLay := ⟨11, 52, 1023, true, false⟩

end Sys2Proof.Machine
end

