-- ==== Sys2Proof/Machine/Rv64.lean ====
section
/-! DEFINITION. Decoding of RV64IMAFDC with Zicsr and Zifencei (PRESUMED: the RISC-V unprivileged and privileged specifications,
which spec/08_particle_cores.md R249 names). -/

namespace Sys2Proof.Machine

/-- A base instruction. Immediates are sign-extended to 64 bits, as numbers below 2^64. -/
inductive RvI where
  | lui (rd imm : Nat)
  | auipc (rd imm : Nat)
  | jal (rd imm : Nat)
  | jalr (rd rs1 imm : Nat)
  | branch (f rs1 rs2 imm : Nat)
  | load (f rd rs1 imm : Nat)
  | store (f rs1 rs2 imm : Nat)
  | fload (dbl : Bool) (rd rs1 imm : Nat)
  | fstore (dbl : Bool) (rs1 rs2 imm : Nat)
  | opImm (f rd rs1 imm : Nat)
  | opImm32 (f rd rs1 imm : Nat)
  | op (f7 f rd rs1 rs2 : Nat)
  | op32 (f7 f rd rs1 rs2 : Nat)
  | amo (f5 : Nat) (dbl : Bool) (rd rs1 rs2 : Nat)
  | fence | fenceI | ecall | ebreak | mret | wfi
  | csr (f rd src num : Nat)
  /-- fused multiply-add: 0 FMADD, 1 FMSUB, 2 FNMSUB, 3 FNMADD -/
  | fma (k : Nat) (dbl : Bool) (rm rd rs1 rs2 rs3 : Nat)
  | fop (f5 : Nat) (dbl : Bool) (rm rd rs1 rs2 : Nat)
  /-- R260: an instruction of the custom opcode spaces 0, 1 and 2 -/
  | pvx
  | illegal
deriving DecidableEq, Repr

/-- Sign-extends the low `w` bits to 64. -/
def sx (w x : Nat) : Nat := toTwos 64 (sext w x)

/-- The immediates of the formats I, S, B, U and J. -/
def immI (w : Nat) : Nat := sx 12 (bits w 31 20)
/-- S format. -/
def immS (w : Nat) : Nat := sx 12 (bits w 31 25 * 32 + bits w 11 7)
/-- B format. -/
def immB (w : Nat) : Nat := sx 13 (bits w 31 31 * 4096 + bits w 7 7 * 2048 + bits w 30 25 * 32 + bits w 11 8 * 2)
/-- U format. -/
def immU (w : Nat) : Nat := sx 32 (bits w 31 12 * 4096)
/-- J format. -/
def immJ (w : Nat) : Nat := sx 21 (bits w 31 31 * 2 ^ 20 + bits w 19 12 * 4096 + bits w 20 20 * 2048 + bits w 30 21 * 2)

/-- OP-FP. -/
def decFop (w : Nat) : RvI :=
  let rd := bits w 11 7; let rm := bits w 14 12; let r1 := bits w 19 15; let r2 := bits w 24 20
  let f5 := bits w 31 27; let fm := bits w 26 25
  let ok : Bool := match f5 with
    | 0x00 | 0x01 | 0x02 | 0x03 => true
    | 0x0B => r2 == 0
    | 0x04 | 0x14 => decide (rm ≤ 2)
    | 0x05 => decide (rm ≤ 1)
    | 0x08 => r2 == 1 - fm
    | 0x18 | 0x1A => decide (r2 ≤ 3)
    | 0x1C => r2 == 0 && decide (rm ≤ 1)
    | 0x1E => r2 == 0 && rm == 0
    | _ => false
  if fm ≤ 1 ∧ ok then .fop f5 (fm == 1) rm rd r1 r2 else .illegal

/-- A 32-bit instruction. -/
def rvDecode (w : Nat) : RvI :=
  let rd := bits w 11 7; let f := bits w 14 12; let r1 := bits w 19 15; let r2 := bits w 24 20; let f7 := bits w 31 25
  match bits w 6 0 with
  | 0x37 => .lui rd (immU w)
  | 0x17 => .auipc rd (immU w)
  | 0x6F => .jal rd (immJ w)
  | 0x67 => if f = 0 then .jalr rd r1 (immI w) else .illegal
  | 0x63 => if f = 2 ∨ f = 3 then .illegal else .branch f r1 r2 (immB w)
  | 0x03 => if f = 7 then .illegal else .load f rd r1 (immI w)
  | 0x23 => if f ≤ 3 then .store f r1 r2 (immS w) else .illegal
  | 0x07 => if f = 2 ∨ f = 3 then .fload (f == 3) rd r1 (immI w) else .illegal
  | 0x27 => if f = 2 ∨ f = 3 then .fstore (f == 3) r1 r2 (immS w) else .illegal
  | 0x13 =>
    if (f = 1 ∧ bits w 31 26 ≠ 0) ∨ (f = 5 ∧ bits w 31 26 ≠ 0 ∧ bits w 31 26 ≠ 0x10) then .illegal
    else .opImm f rd r1 (immI w)
  | 0x1B =>
    if f = 0 ∨ (f = 1 ∧ f7 = 0) ∨ (f = 5 ∧ (f7 = 0 ∨ f7 = 0x20)) then .opImm32 f rd r1 (immI w) else .illegal
  | 0x33 => if f7 = 0 ∨ f7 = 1 ∨ (f7 = 0x20 ∧ (f = 0 ∨ f = 5)) then .op f7 f rd r1 r2 else .illegal
  | 0x3B =>
    if (f7 = 0 ∧ (f = 0 ∨ f = 1 ∨ f = 5)) ∨ (f7 = 0x20 ∧ (f = 0 ∨ f = 5)) ∨ (f7 = 1 ∧ (f = 0 ∨ 4 ≤ f)) then .op32 f7 f rd r1 r2
    else .illegal
  | 0x2F =>
    let f5 := bits w 31 27
    if (f = 2 ∨ f = 3) ∧ ([0, 1, 3, 4, 8, 12, 16, 20, 24, 28].contains f5 ∨ (f5 = 2 ∧ r2 = 0)) then .amo f5 (f == 3) rd r1 r2
    else .illegal
  | 0x0F => match f with | 0 => .fence | 1 => .fenceI | _ => .illegal
  | 0x73 =>
    match f with
    | 0 => match w with | 0x00000073 => .ecall | 0x00100073 => .ebreak | 0x30200073 => .mret | 0x10500073 => .wfi | _ => .illegal
    | 4 => .illegal
    | _ => .csr f rd r1 (bits w 31 20)
  | 0x43 | 0x47 | 0x4B | 0x4F =>
    if bits w 26 25 ≤ 1 then .fma (bits w 3 2) (bits w 26 25 == 1) f rd r1 r2 (bits w 31 27) else .illegal
  | 0x53 => decFop w
  | 0x0B | 0x5B | 0x2B => .pvx
  | _ => .illegal

/-! ### Compressed instructions: each expands to a 32-bit instruction; 0 is illegal -/

/-- I format. -/
def eI (op f rd r1 imm : Nat) : Nat := op + rd * 2 ^ 7 + f * 2 ^ 12 + r1 * 2 ^ 15 + imm % 4096 * 2 ^ 20
/-- R format. -/
def eR (op f7 f rd r1 r2 : Nat) : Nat := op + rd * 2 ^ 7 + f * 2 ^ 12 + r1 * 2 ^ 15 + r2 * 2 ^ 20 + f7 * 2 ^ 25
/-- S format. -/
def eS (op f r1 r2 imm : Nat) : Nat :=
  op + bits imm 4 0 * 2 ^ 7 + f * 2 ^ 12 + r1 * 2 ^ 15 + r2 * 2 ^ 20 + bits imm 11 5 * 2 ^ 25
/-- B format. -/
def eB (f r1 r2 imm : Nat) : Nat :=
  0x63 + bits imm 11 11 * 2 ^ 7 + bits imm 4 1 * 2 ^ 8 + f * 2 ^ 12 + r1 * 2 ^ 15 + r2 * 2 ^ 20 + bits imm 10 5 * 2 ^ 25
    + bits imm 12 12 * 2 ^ 31
/-- J format. -/
def eJ (rd imm : Nat) : Nat :=
  0x6F + rd * 2 ^ 7 + bits imm 19 12 * 2 ^ 12 + bits imm 11 11 * 2 ^ 20 + bits imm 10 1 * 2 ^ 21 + bits imm 20 20 * 2 ^ 31

/-- C.ADDI's 6-bit immediate, sign-extended. -/
def cImm6 (h : Nat) : Nat := sx 6 (bits h 12 12 * 32 + bits h 6 2)

/-- Quadrant 0. -/
def rvc0 (h : Nat) : Nat :=
  let rd := 8 + bits h 4 2; let r1 := 8 + bits h 9 7
  let uw := bits h 12 10 * 8 + bits h 6 6 * 4 + bits h 5 5 * 64
  let ud := bits h 12 10 * 8 + bits h 6 5 * 64
  match bits h 15 13 with
  | 0 =>
    let i := bits h 12 11 * 16 + bits h 10 7 * 64 + bits h 6 6 * 4 + bits h 5 5 * 8
    if i = 0 then 0 else eI 0x13 0 rd 2 i
  | 1 => eI 0x07 3 rd r1 ud
  | 2 => eI 0x03 2 rd r1 uw
  | 3 => eI 0x03 3 rd r1 ud
  | 5 => eS 0x27 3 r1 rd ud
  | 6 => eS 0x23 2 r1 rd uw
  | 7 => eS 0x23 3 r1 rd ud
  | _ => 0

/-- Quadrant 1. -/
def rvc1 (h : Nat) : Nat :=
  let rd := bits h 11 7; let q := 8 + bits h 9 7; let r2 := 8 + bits h 4 2
  let sh := bits h 12 12 * 32 + bits h 6 2
  let j := sx 12 (bits h 12 12 * 2048 + bits h 11 11 * 16 + bits h 10 9 * 256 + bits h 8 8 * 1024 + bits h 7 7 * 64
    + bits h 6 6 * 128 + bits h 5 3 * 2 + bits h 2 2 * 32)
  let b := sx 9 (bits h 12 12 * 256 + bits h 11 10 * 8 + bits h 6 5 * 64 + bits h 4 3 * 2 + bits h 2 2 * 32)
  match bits h 15 13 with
  | 0 => eI 0x13 0 rd rd (cImm6 h)
  | 1 => if rd = 0 then 0 else eI 0x1B 0 rd rd (cImm6 h)
  | 2 => eI 0x13 0 rd 0 (cImm6 h)
  | 3 =>
    if rd = 2 then
      let i := sx 10 (bits h 12 12 * 512 + bits h 6 6 * 16 + bits h 5 5 * 64 + bits h 4 3 * 128 + bits h 2 2 * 32)
      if i = 0 then 0 else eI 0x13 0 2 2 i
    else if sh = 0 then 0 else 0x37 + rd * 128 + bits (cImm6 h) 19 0 * 4096
  | 4 =>
    match bits h 11 10 with
    | 0 => eI 0x13 5 q q sh
    | 1 => eI 0x13 5 q q (0x400 + sh)
    | 2 => eI 0x13 7 q q (cImm6 h)
    | _ =>
      match bits h 12 12, bits h 6 5 with
      | 0, 0 => eR 0x33 0x20 0 q q r2
      | 0, 1 => eR 0x33 0 4 q q r2
      | 0, 2 => eR 0x33 0 6 q q r2
      | 0, _ => eR 0x33 0 7 q q r2
      | _, 0 => eR 0x3B 0x20 0 q q r2
      | _, 1 => eR 0x3B 0 0 q q r2
      | _, _ => 0
  | 5 => eJ 0 j
  | 6 => eB 0 q 0 b
  | _ => eB 1 q 0 b

/-- Quadrant 2. -/
def rvc2 (h : Nat) : Nat :=
  let rd := bits h 11 7; let r2 := bits h 6 2
  let lw := bits h 12 12 * 32 + bits h 6 4 * 4 + bits h 3 2 * 64
  let ld := bits h 12 12 * 32 + bits h 6 5 * 8 + bits h 4 2 * 64
  match bits h 15 13 with
  | 0 => eI 0x13 1 rd rd (bits h 12 12 * 32 + r2)
  | 1 => eI 0x07 3 rd 2 ld
  | 2 => if rd = 0 then 0 else eI 0x03 2 rd 2 lw
  | 3 => if rd = 0 then 0 else eI 0x03 3 rd 2 ld
  | 4 =>
    if bits h 12 12 = 0 then
      if r2 = 0 then (if rd = 0 then 0 else eI 0x67 0 0 rd 0) else eR 0x33 0 0 rd 0 r2
    else if r2 = 0 then (if rd = 0 then 0x00100073 else eI 0x67 0 1 rd 0)
    else eR 0x33 0 0 rd rd r2
  | 5 => eS 0x27 3 2 r2 (bits h 12 10 * 8 + bits h 9 7 * 64)
  | 6 => eS 0x23 2 2 r2 (bits h 12 9 * 4 + bits h 8 7 * 64)
  | _ => eS 0x23 3 2 r2 (bits h 12 10 * 8 + bits h 9 7 * 64)

/-- The 32-bit instruction that a compressed one stands for. -/
def rvcExpand (h : Nat) : Nat :=
  match bits h 1 0 with
  | 0 => rvc0 h
  | 1 => rvc1 h
  | _ => rvc2 h

/-! ### Integer arithmetic -/

/-- Low 64 bits. -/
def lo64 (x : Nat) : Nat := x % 2 ^ 64
/-- The signed reading of 64 bits. -/
def sg64 (x : Nat) : Int := sext 64 x
/-- 64 bits of an integer. -/
def of64 (i : Int) : Nat := toTwos 64 i
/-- 0 or 1. -/
def b2n (b : Bool) : Nat := if b then 1 else 0

/-- Division of RV64M and of its 32-bit forms: signed or unsigned, quotient or remainder, on integers of width `w`. -/
def rvDiv (w : Nat) (signed rem : Bool) (a b : Nat) : Int :=
  if signed then
    let x := sext w a
    let y := sext w b
    if y = 0 then (if rem then x else -1)
    else if rem then x.tmod y else x.tdiv y
  else
    let x := a % 2 ^ w
    let y := b % 2 ^ w
    if y = 0 then (if rem then x else 2 ^ w - 1)
    else if rem then (x % y : Nat) else (x / y : Nat)

/-- OP and OP-IMM without M, on 64 bits. `alt`: SUB, SRA. -/
def rvAlu (f : Nat) (alt : Bool) (a b : Nat) : Nat :=
  match f with
  | 0 => lo64 (if alt then a + 2 ^ 64 - b else a + b)
  | 1 => lo64 (a * 2 ^ (b % 64))
  | 2 => b2n (decide (sg64 a < sg64 b))
  | 3 => b2n (decide (a < b))
  | 4 => a ^^^ b
  | 5 => if alt then of64 (sg64 a >>> (b % 64)) else a >>> (b % 64)
  | 6 => a ||| b
  | _ => a &&& b

/-- OP of RV64M. -/
def rvMul (f a b : Nat) : Nat :=
  match f with
  | 0 => lo64 (a * b)
  | 1 => of64 ((sg64 a * sg64 b) >>> 64)
  | 2 => of64 ((sg64 a * (b : Int)) >>> 64)
  | 3 => a * b / 2 ^ 64
  | 4 => of64 (rvDiv 64 true false a b)
  | 5 => of64 (rvDiv 64 false false a b)
  | 6 => of64 (rvDiv 64 true true a b)
  | _ => of64 (rvDiv 64 false true a b)

/-- The 32-bit forms; the result is sign-extended. -/
def rvAlu32 (f : Nat) (alt : Bool) (a b : Nat) : Nat :=
  match f with
  | 0 => sx 32 (if alt then a + 2 ^ 64 - b else a + b)
  | 1 => sx 32 (a % 2 ^ 32 * 2 ^ (b % 32))
  | _ => if alt then of64 (sext 32 a >>> (b % 32)) else sx 32 (a % 2 ^ 32 >>> (b % 32))

/-- The 32-bit forms of RV64M. -/
def rvMul32 (f a b : Nat) : Nat :=
  match f with
  | 0 => sx 32 (a * b)
  | 4 => sx 32 (toTwos 32 (rvDiv 32 true false a b))
  | 5 => sx 32 (toTwos 32 (rvDiv 32 false false a b))
  | 6 => sx 32 (toTwos 32 (rvDiv 32 true true a b))
  | _ => sx 32 (toTwos 32 (rvDiv 32 false true a b))

/-- A conditional branch. -/
def rvTaken (f a b : Nat) : Bool :=
  match f with
  | 0 => a == b | 1 => a != b | 4 => decide (sg64 a < sg64 b) | 5 => !decide (sg64 a < sg64 b)
  | 6 => decide (a < b) | _ => !decide (a < b)

/-- The memory operation of an AMO, on `w` bits. -/
def rvAmo (f5 w old src : Nat) : Nat :=
  let a := old % 2 ^ w
  let b := src % 2 ^ w
  match f5 with
  | 0 => (a + b) % 2 ^ w
  | 1 => b
  | 4 => a ^^^ b
  | 8 => a ||| b
  | 12 => a &&& b
  | 16 => if sext w a ≤ sext w b then a else b
  | 20 => if sext w a ≤ sext w b then b else a
  | 24 => min a b
  | _ => max a b

end Sys2Proof.Machine
end

