-- ==== Sys2Proof/Machine/RvOps.lean ====
section
/-! DEFINITION. What the instructions of a Particle share: registers, CSRs, protection, accesses, traps and fetch
(spec/08_particle_cores.md R249 to R257, R270 to R276). -/

namespace Sys2Proof.Machine

/-! ### Registers -/

/-- The architectural state of a Particle. -/
def coreOf (s : State) (p : Nat) : PCore := (partOf s p).core
/-- The context whose work a Particle runs. -/
def prtCid (s : State) (p : Nat) : Nat := ((partOf s p).lp.getD 0) / 64
/-- An integer register. -/
def xGet (c : PCore) (i : Nat) : Nat := if i = 0 then 0 else (mapGet 0#64 c.x i).toNat
/-- Writes an integer register; x0 discards writes. `po`: the address of a poisoned load that gave the value (R254). -/
def xPut (c : PCore) (i v : Nat) (po : Option Nat) : PCore :=
  if i = 0 then c
  else { c with x := mapSet 0#64 c.x i (BitVec.ofNat 64 v), px := match po with | some a => mapIns c.px i a | none => mapDel c.px i }
/-- A float register. -/
def fGet (c : PCore) (i : Nat) : Nat := (mapGet 0#64 c.f i).toNat
/-- mstatus.FS becomes dirty. -/
def fsDirty (c : PCore) : PCore := { c with csr := { c.csr with mstatus := BitVec.ofNat 64 (setBits c.csr.mstatus.toNat 14 13 3) } }
/-- Writes a float register. -/
def fPut (c : PCore) (i v : Nat) (po : Option Nat) : PCore :=
  fsDirty { c with f := mapSet 0#64 c.f i (BitVec.ofNat 64 v), pf := match po with | some a => mapIns c.pf i a | none => mapDel c.pf i }
/-- A binary32 operand: NaN-boxed, or the canonical NaN. -/
def unboxS (x : Nat) : Nat := if x / 2 ^ 32 = 2 ^ 32 - 1 then x % 2 ^ 32 else 0x7FC00000
/-- NaN-boxes a pattern of `w` bits. -/
def boxW (w x : Nat) : Nat := 2 ^ 64 - 2 ^ w + x % 2 ^ w
/-- Accrues exception flags (DESIGN CHOICE, assumption log 18). -/
def accrue (c : PCore) (fl : Nat) : PCore :=
  if fl = 0 then c else fsDirty { c with csr := { c.csr with fcsr := c.csr.fcsr ||| BitVec.ofNat 8 fl } }

/-! ### Traps -/

/-- A trap about to be taken: cause, mtval, and what PRT_FAULT records (R254). -/
structure Trap where
  code : Nat
  tval : Nat
  fault : Option Nat := none
deriving DecidableEq, Repr

/-- What an instruction comes to. -/
inductive RvOut where
  | done (s : State)
  | trap (s : State) (t : Trap)
  /-- the instruction is held and runs again -/
  | held (s : State)
deriving DecidableEq, Repr

/-- A field of mstatus. -/
def mst (c : PCore) (hi lo : Nat) : Nat := bits c.csr.mstatus.toNat hi lo

/-- R250: entry into machine mode. -/
def trapEnter (c : PCore) (intr : Bool) (code tval : Nat) : PCore :=
  let m := c.csr.mstatus.toNat
  let m := setBits (setBits (setBits m 7 7 (bits m 3 3)) 3 3 0) 12 11 (if c.mach then 3 else 0)
  let tv := c.csr.mtvec.toNat
  let base := tv / 4 * 4
  { c with
    mach := true
    pc := BitVec.ofNat 64 (if intr ∧ tv % 4 = 1 then base + 4 * code else base)
    hold := .none
    hgot := []
    csr := { c.csr with
      mstatus := BitVec.ofNat 64 m, mepc := c.pc, mtval := BitVec.ofNat 64 tval
      mcause := BitVec.ofNat 64 (code + if intr then 2 ^ 63 else 0) } }

/-- R250, R254: an exception of the instruction at pc. -/
def takeTrap (s : State) (p : Nat) (t : Trap) : State :=
  let s := match t.fault with
    | some f => updCtl s p fun c => { c with fault := f }
    | none => s
  updCore s p fun c => trapEnter c false t.code t.tval

/-- R275: the interrupts pending, as mip shows them: external (11), timer (7). -/
def mipOf (c : PCore) : Nat :=
  let on := c.ctl.irqPend &&& c.ctl.irqEn
  (if on &&& 0xB != 0 then 2 ^ 11 else 0) + (if bit on irqTIMER then 2 ^ 7 else 0)

/-- Interrupts that are enabled and pending, whatever the mode (DEDUCED, assumption log 23). -/
def irqWaiting (c : PCore) : Nat := mipOf c &&& c.csr.mie.toNat

/-- The interrupt that is taken now, if any: external before timer (DEDUCED, assumption log 23). -/
def irqTake (c : PCore) : Option Nat :=
  if c.mach && mst c 3 3 == 0 then none
  else if bit (irqWaiting c) 11 then some 11
  else if bit (irqWaiting c) 7 then some 7
  else none

/-- An illegal-instruction exception (PRESUMED, assumption log 25). -/
def illegal (w : Nat) : Trap := ⟨2, w, none⟩

/-- The instruction retires. -/
def retire (s : State) (p pc : Nat) : State :=
  updPart s p fun q => { q with
    retry := false
    core := { q.core with
      pc := BitVec.ofNat 64 pc, hgot := []
      csr := { q.core.csr with minstret := if bit q.core.csr.mcountinhibit.toNat 2 then q.core.csr.minstret else q.core.csr.minstret + 1 } } }

/-! ### CSRs (R249, R252, R257) -/

/-- misa: RV64 with A, C, D, F, I, M, U and X (PRESUMED, assumption log 25). -/
def misaVal : Nat := 2 ^ 63 + 2 ^ 0 + 2 ^ 2 + 2 ^ 3 + 2 ^ 5 + 2 ^ 8 + 2 ^ 12 + 2 ^ 20 + 2 ^ 23

/-- R256, R267: VLEN. -/
def vlenOf (c : PCore) : Nat := if c.overlay then 64 else 512

/-- R252: is the context strict. -/
def prtStrict (s : State) (p : Nat) : Bool := (ctxOf s (prtCid s p)).strict

/-- R257: PRTID: the Particle, its slice and its partition. -/
def prtId (s : State) (p : Nat) : Nat := p % 4 + p / 4 * 16 + prtCid s p / 8 * 256

/-- R249: the PMP address register as software reads it: granularity 64 bytes. -/
def pmpRead (c : PCore) (i : Nat) : Nat :=
  let a := (mapGet 0#64 c.csr.pmpaddr i).toNat
  if 2 ≤ bits (mapGet 0 c.csr.pmpcfg i) 4 3 then a ||| 7 else a / 16 * 16

/-- Is a counter readable in user mode (mcounteren; R252 holds it at zero in a strict context). -/
def cntOpen (s : State) (p i : Nat) : Bool :=
  (coreOf s p).mach || (!prtStrict s p && bit (coreOf s p).csr.mcounteren.toNat i)

/-- The value that a CSR read returns; none where the read is illegal (DESIGN CHOICE, assumption log 16). -/
def csrRead (s : State) (p n : Nat) : Option Nat :=
  let c := coreOf s p
  let r := c.csr
  if 3 ≤ bits n 9 8 ∧ !c.mach then none
  else if n ≤ 3 then
    if n = 0 ∨ mst c 14 13 = 0 then none
    else some (match n with | 1 => r.fcsr.toNat % 32 | 2 => r.fcsr.toNat / 32 % 8 | _ => r.fcsr.toNat)
  else if 0xC00 ≤ n ∧ n ≤ 0xC1F then
    if !cntOpen s p (n - 0xC00) then none
    else some (match n with | 0xC00 => r.mcycle.toNat | 0xC01 => s.tense.toNat | 0xC02 => r.minstret.toNat | _ => 0)
  else if 0x3B0 ≤ n ∧ n ≤ 0x3BF then some (pmpRead c (n - 0x3B0))
  else if n = 0x3A0 ∨ n = 0x3A2 then
    some (packNat 8 ((List.range 8).map fun i => mapGet 0 r.pmpcfg ((n - 0x3A0) * 4 + i)))
  else if (0xB03 ≤ n ∧ n ≤ 0xB1F) ∨ (0x323 ≤ n ∧ n ≤ 0x33F) then some 0
  else match n with
    | 0x300 =>
      let m := setBits r.mstatus.toNat 33 32 2
      some (if mst c 14 13 = 3 then m ||| 2 ^ 63 else m)
    | 0x301 => some misaVal
    | 0x304 => some r.mie.toNat
    | 0x305 => some r.mtvec.toNat
    | 0x306 => some (if prtStrict s p then 0 else r.mcounteren.toNat)
    | 0x30A => some r.menvcfg.toNat
    | 0x320 => some r.mcountinhibit.toNat
    | 0x340 => some r.mscratch.toNat
    | 0x341 => some r.mepc.toNat
    | 0x342 => some r.mcause.toNat
    | 0x343 => some r.mtval.toNat
    | 0x344 => some (mipOf c)
    | 0xB00 => some r.mcycle.toNat
    | 0xB02 => some r.minstret.toNat
    | 0xF11 | 0xF12 | 0xF13 => some (Config.prtIdent n 0).toNat
    | 0xF14 => some (Config.prtIdent n p).toNat
    | 0xF15 => some 0
    | 0x800 => some (setBits r.pvxcfg.toNat 8 8 (b2n c.overlay))
    | 0xCC0 => some c.vl
    | 0xCC1 => some (vlenOf c / 8)
    | 0x7C0 => some r.pvxctl.toNat
    | 0xFC0 => some (prtId s p)
    | _ => none

/-- mstatus after a write: MIE, MPIE, MPP (00 or 11), FS, MPRV, TW. -/
def mstWrite (old v : Nat) : Nat :=
  let m := [3, 7, 13, 14, 17, 21].foldl (fun m i => setBits m i i (bits v i i)) old
  if bits v 12 11 = 0 ∨ bits v 12 11 = 3 then setBits m 12 11 (bits v 12 11) else m

/-- One byte of pmpcfg after a write: a locked entry, a reserved combination W without R and mode NA4 (below the granularity)
leave it as it stands (PRESUMED, assumption log 24). -/
def pmpCfgWrite (old v : Nat) : Nat :=
  if bit old 7 || (bit v 1 && !bit v 0) || bits v 4 3 == 2 then old else v &&& 0x9F

/-- Writes pmpaddr `i`, unless it is locked, or bounds a locked TOR entry (PRESUMED, assumption log 24). -/
def pmpAddrWrite (r : PCsr) (i v : Nat) : PCsr :=
  let g := fun j => mapGet 0 r.pmpcfg j
  if bit (g i) 7 || (bit (g (i + 1)) 7 && bits (g (i + 1)) 4 3 == 1) then r
  else { r with pmpaddr := mapSet 0#64 r.pmpaddr i (BitVec.ofNat 64 (v % 2 ^ 54)) }

/-- Changes a Particle's CSRs. -/
def updCsr (s : State) (p : Nat) (f : PCsr → PCsr) : State := updCore s p fun c => { c with csr := f c.csr }

/-- R257: is a value of PVXCFG free of reserved values (OVERLAY is read-only). -/
def pvxcfgOk (v : Nat) : Bool := v / 512 == 0 && decide (bits v 7 5 ≤ 3)

/-- A CSR write; none where it is illegal. -/
def csrWrite (s : State) (p n v : Nat) : Option State :=
  let c := coreOf s p
  let w := BitVec.ofNat 64 v
  if bits n 11 10 = 3 ∨ (csrRead s p n).isNone then none
  else if n ≤ 3 then
    let o := c.csr.fcsr.toNat
    let x := BitVec.ofNat 8 (if n = 1 then setBits o 4 0 v else if n = 2 then setBits o 7 5 v else v % 256)
    some (updCore s p fun c => fsDirty { c with csr := { c.csr with fcsr := x } })
  else if 0x3B0 ≤ n ∧ n ≤ 0x3BF then some (updCsr s p fun r => pmpAddrWrite r (n - 0x3B0) v)
  else if n = 0x3A0 ∨ n = 0x3A2 then
    some (updCsr s p fun r => { r with pmpcfg := (List.range 8).foldl (fun m i =>
      let j := (n - 0x3A0) * 4 + i
      mapSet 0 m j (pmpCfgWrite (mapGet 0 m j) (bits v (8 * i + 7) (8 * i)))) r.pmpcfg })
  else match n with
    | 0x300 => some (updCsr s p fun r => { r with mstatus := BitVec.ofNat 64 (mstWrite r.mstatus.toNat v) })
    | 0x304 => some (updCsr s p fun r => { r with mie := w &&& 0x888#64 })
    | 0x305 => some (updCsr s p fun r => { r with mtvec := w &&& ~~~ 2#64 })
    | 0x306 => some (if prtStrict s p then s else updCsr s p fun r => { r with mcounteren := BitVec.ofNat 32 v })
    | 0x30A => some (updCsr s p fun r => { r with menvcfg := w &&& 1#64 })
    | 0x320 => some (updCsr s p fun r => { r with mcountinhibit := BitVec.ofNat 32 (v &&& 5) })
    | 0x340 => some (updCsr s p fun r => { r with mscratch := w })
    | 0x341 => some (updCsr s p fun r => { r with mepc := w &&& ~~~ 1#64 })
    | 0x342 => some (updCsr s p fun r => { r with mcause := w })
    | 0x343 => some (updCsr s p fun r => { r with mtval := w })
    | 0xB00 => some (updCsr s p fun r => { r with mcycle := w })
    | 0xB02 => some (updCsr s p fun r => { r with minstret := w })
    | 0x800 =>
      if pvxcfgOk v then some (updCsr s p fun r => { r with pvxcfg := BitVec.ofNat 64 (setBits v 8 8 0) })
      else none
    | 0x7C0 => some (updCsr s p fun r => { r with pvxctl := w &&& 3#64 })
    | _ => if c.mach then some s else none

/-! ### Protection and the address map (R249, R253, R254) -/

/-- Kinds of access. -/
inductive AKind where
  | fetch | load | store | atomic
deriving DecidableEq, Repr

/-- PRT_FAULT causes (R270). -/
def pfUNMAPPED : Nat := 1
/-- R270. -/
def pfOUTSIDE : Nat := 2
/-- R270. -/
def pfKEY : Nat := 3
/-- R270. -/
def pfREGION : Nat := 4
/-- R270. -/
def pfXLAT : Nat := 5
/-- R270. -/
def pfWALK : Nat := 6
/-- R270. -/
def pfPOISON : Nat := 7

/-- The mode whose rights a data access has (mstatus.MPRV). -/
def dataMach (c : PCore) : Bool := if c.mach && mst c 17 17 == 1 then mst c 12 11 == 3 else c.mach

/-- Does PMP entry `i` hold the 64-byte granule of an address. -/
def pmpHas (c : PCore) (i a : Nat) : Bool :=
  let cfg := mapGet 0 c.csr.pmpcfg i
  let pa := (mapGet 0#64 c.csr.pmpaddr i).toNat
  match bits cfg 4 3 with
  | 1 =>
    let lo := if i = 0 then 0 else (mapGet 0#64 c.csr.pmpaddr (i - 1)).toNat / 16 * 64
    decide (lo ≤ a) && decide (a < pa / 16 * 64)
  | 3 =>
    -- the low ones, of which three always read as one, give the size
    let q := pa ||| 7
    let t := (List.range 55).find? fun j => !bit q j
    let sz := 2 ^ (t.getD 54 + 3)
    a / sz == q * 4 / sz
  | _ => false

/-- R249: physical memory protection (PRESUMED, assumption log 24). -/
def pmpOk (c : PCore) (mach : Bool) (a : Nat) (k : AKind) : Bool :=
  match (List.range 16).find? fun i => pmpHas c i a with
  | none => mach
  | some i =>
    let cfg := mapGet 0 c.csr.pmpcfg i
    if mach && !bit cfg 7 then true
    else match k with
      | .fetch => bit cfg 2
      | .load => bit cfg 0
      | .store => bit cfg 1
      | .atomic => bit cfg 0 && bit cfg 1

/-- R253: the regions. -/
inductive Region where
  | local_ | control | conj | spad | dvs | unmapped
deriving DecidableEq, Repr

/-- R253. -/
def regionOf (a : Nat) : Region :=
  if a < 0x20000 then .local_
  else if 0x100000 ≤ a ∧ a < 0x101000 then .control
  else if 0x1000000 ≤ a ∧ a < 0x1030000 then .conj
  else if 2 ^ 32 ≤ a ∧ a < 2 ^ 33 then .spad
  else if 2 ^ 48 ≤ a ∧ a < 2 ^ 49 then .dvs
  else .unmapped

/-- R270: offsets of the control window (DEDUCED, assumption log 26). -/
def ctlKnown (o : Nat) : Bool := decide (o ≤ 0x78) && o % 8 == 0

/-- R506, R254: what PRT_FAULT records for a translation fault. -/
def xlatFault (cause lvl : Nat) : Nat := (if cause = xWALK_TARGET then pfWALK else pfXLAT) + 256 * lvl

/-- R253, R254, R270, R274: what is wrong with an aligned access of `n` bytes, as PRT_FAULT records it. -/
def mapErr (s : State) (p a n : Nat) (k : AKind) : Option Nat :=
  match regionOf a with
  | .local_ => none
  | .control => if k = .fetch ∨ k = .atomic ∨ n ≠ 8 then some pfREGION else if ctlKnown (a - 0x100000) then none else some pfUNMAPPED
  | .conj =>
    if k = .fetch ∨ k = .atomic ∨ n ≠ 8 then some pfREGION
    else if conjKeyOk s ((a - 0x1000000) / 16) (ctxOf s (prtCid s p)).ckey then none else some pfKEY
  | .spad => if inSpace s (prtCid s p / 8) (a - 2 ^ 32) n then none else some pfOUTSIDE
  | .dvs =>
    if k = .fetch ∨ k = .atomic then some pfREGION
    else match xlat s (prtCid s p / 8) (p / 4) (a - 2 ^ 48) (k == .store) with
      | .fault c l => some (xlatFault c l)
      | _ => none
  | .unmapped => some pfUNMAPPED

/-- R506: a translation fault is recorded and posted, in the context's key. -/
def noteXlat (s : State) (p a : Nat) (write : Bool) : State :=
  match regionOf a with
  | .dvs =>
    match xlat s (prtCid s p / 8) (p / 4) (a - 2 ^ 48) write with
    | .fault c l => xFault s (prtCid s p / 8) (ctxOf s (prtCid s p)).ckey.toNat (a - 2 ^ 48) c l write
    | _ => s
  | _ => s

/-- The checks of a scalar access: alignment, protection, map. `none`: it may take place (PRESUMED, assumption log 25). -/
def accessTrap (s : State) (p a n : Nat) (k : AKind) : Option Trap :=
  let ld := k == .load
  if a % n ≠ 0 then some ⟨if ld then 4 else 6, a, none⟩
  else if !pmpOk (coreOf s p) (dataMach (coreOf s p)) a k then some ⟨if ld then 5 else 7, a, none⟩
  else (mapErr s p a n k).map fun f => ⟨if ld then 5 else 7, a, some f⟩

/-- What a load finds. -/
inductive LdRes where
  | val (v : Nat) (poison : Bool)
  /-- host memory: address, No Snoop, Relaxed Ordering -/
  | host (a : Nat) (ns ro : Bool)
deriving DecidableEq, Repr

/-- R270: PRT_QFREE. -/
def qfree (s : State) (p : Nat) : Nat :=
  let lp := (partOf s p).lp.getD 0
  packNat 8 ((List.range 4).map fun q => queueSize q - (queueOf s lp q).recs.length)

/-- R270: a load from the control window; write-only registers return zero (R8). -/
def ctlRead (s : State) (p o : Nat) : Nat :=
  let c := (coreOf s p).ctl
  match o with
  | 0x00 | 0x08 | 0x10 | 0x18 => (mapGet 0#64 c.stage (o / 8)).toNat
  | 0x28 => c.qseq % 2 ^ 32 + c.qseqQ * 2 ^ 32
  | 0x40 => qfree s p
  | 0x48 => c.waitset.toNat
  | 0x50 => c.waitto.toNat
  | 0x60 => c.irqPend
  | 0x68 => c.irqEn
  | 0x70 => c.timecmp.toNat
  | 0x78 => c.fault
  | _ => 0

/-- R274: CREAD. -/
def creadVal (c : Conj) : Nat := c.count.toNat + c.key.toNat * 2 ^ 32 + b2n c.error * 2 ^ 48

/-- Reads `n` bytes that the checks let through. -/
def memLoad (s : State) (p a n : Nat) : LdRes :=
  match regionOf a with
  | .local_ => .val (leNat (memBytes (coreOf s p).lmem a n)) (memPoison (coreOf s p).lmem a n)
  | .control => .val (ctlRead s p (a - 0x100000)) false
  | .conj => .val (if a % 16 = 0 then creadVal (conjOf s ((a - 0x1000000) / 16)) else 0) false
  | .spad =>
    let c := prtCid s p
    .val (leNat (spBytes s c (a - 2 ^ 32) n)) (spPoison s c (a - 2 ^ 32) n || spOff s c (a - 2 ^ 32) n)
  | .dvs =>
    match xlat s (prtCid s p / 8) (p / 4) (a - 2 ^ 48) false with
    | .pm x => let (bs, po) := pmRead s (prtCid s p / 8) x n; .val (leNat bs) po
    | .host h ns ro => .host h ns ro
    | .fault _ _ => .val 0 false
  | .unmapped => .val 0 false

/-- R273: with its enable set, WAIT is raised when the condition of PRT_WAITSET is met. -/
def waitRaise (s : State) (p : Nat) : State :=
  let c := (coreOf s p).ctl
  if bit c.irqEn irqWAIT && waitOver (conjOf s (c.waitset.toNat % 2 ^ 14)) (c.waitset.extractLsb' 32 32)
      && conjKeyOk s (c.waitset.toNat % 2 ^ 14) (ctxOf s (prtCid s p)).ckey then raiseIrq s p irqWAIT else s

/-- R270: a store to a register of the control window other than PRT_PUSH, PRT_QCTL and PRT_ABORT. -/
def ctlWrite (s : State) (p o v : Nat) : State :=
  match o with
  | 0x00 | 0x08 | 0x10 | 0x18 =>
    updCtl s p fun c => { c with stage := mapSet 0#64 c.stage (o / 8) (BitVec.ofNat 64 v) }
  | 0x48 => waitRaise (updCtl s p fun c => { c with waitset := BitVec.ofNat 64 (setBits v 31 14 0) }) p
  | 0x50 => updCtl s p fun c => { c with waitto := BitVec.ofNat 64 v }
  | 0x60 => updCtl s p fun c => { c with irqPend := c.irqPend &&& (15 - v % 16) }
  | 0x68 => waitRaise (updCtl s p fun c => { c with irqEn := v % 16 }) p
  | 0x70 => updCtl s p fun c => { c with timecmp := BitVec.ofNat 64 v, armed := true }
  | _ => s

/-- Writes bytes that the checks let through; `none`: the function may send no request (R500). -/
def memStore (s : State) (p a : Nat) (bs : List Byte) : Option State :=
  match regionOf a with
  | .local_ => some (updCore s p fun c => { c with lmem := memWrite c.lmem a bs false })
  | .control => some (ctlWrite s p (a - 0x100000) (leNat bs))
  | .conj => some s
  | .spad => some (spWrite s (prtCid s p) (p / 4) (a - 2 ^ 32) bs false)
  | .dvs =>
    let k := prtCid s p / 8
    match xlat s k (p / 4) (a - 2 ^ 48) true with
    | .host h ns ro =>
      if fnSends s (vfOf k) then some (hostWrite s (vfOf k) 2 h bs false ro ns) else none
    | _ => some (dvaWrite s k (p / 4) (a - 2 ^ 48) bs false)
  | .unmapped => some s

/-- The bytes of a held load that the host has answered. -/
def hostHave (c : PCore) (a n : Nat) : Option (Nat × Bool) :=
  let l := (List.range n).map fun i => mapFind c.hgot (a + i)
  if l.all (·.isSome) then
    some (packNat 8 (l.map fun x => (x.getD (0, false)).1), l.any fun x => (x.getD (0, false)).2)
  else none

/-- What a load comes to. -/
inductive LdOut where
  | val (s : State) (v : Nat) (poison : Bool)
  | trap (s : State) (t : Trap)
  | held (s : State)
deriving DecidableEq, Repr

/-- R507, R500, R438: a load through the host aperture: answered, asked for, or ended. -/
def hostLoad (s : State) (p a n h : Nat) (ns ro : Bool) : LdOut :=
  match hostHave (coreOf s p) a n with
  | some (v, po) => .val (markUnrec s (prtCid s p)) v po
  | none =>
    if !fnSends s (vfOf (prtCid s p / 8)) then .trap s ⟨5, a, some 0⟩
    else match hostRead s (vfOf (prtCid s p / 8)) (.particle p) h n ro ns with
      | some t => .held (updCore t p fun c => { c with hold := .host a })
      | none => .held s

/-- A checked scalar load. -/
def loadAt (s : State) (p a n : Nat) : LdOut :=
  match accessTrap s p a n .load with
  | some t => .trap (noteXlat s p a false) t
  | none =>
    match memLoad s p a n with
    | .val v po => .val (if po then updCtl s p fun c => { c with fault := pfPOISON } else s) v po
    | .host h ns ro => hostLoad s p a n h ns ro

/-- A checked scalar store. -/
def storeAt (s : State) (p a : Nat) (bs : List Byte) : RvOut :=
  match accessTrap s p a bs.length .store with
  | some t => .trap (noteXlat s p a true) t
  | none =>
    match memStore s p a bs with
    | some t => .done t
    | none => .trap s ⟨7, a, some 0⟩

/-! ### Fetch (R253, R254) -/

/-- One byte of an instruction: from the instruction cache, or from memory, which fills it. -/
def fetchByte (s : State) (p a : Nat) (hit : Bool) : Nat × Bool :=
  match (if hit then mapFind (coreOf s p).icache a else none) with
  | some b => (b.toNat, false)
  | none =>
    match memLoad s p a 1 with
    | .val v po => (v, po)
    | .host _ _ _ => (0, false)

/-- Two bytes of an instruction. -/
def fetchHalf (s : State) (p a : Nat) (hit : Bool) : Except Trap Nat :=
  if !pmpOk (coreOf s p) (coreOf s p).mach a .fetch then .error ⟨1, a, none⟩
  else match mapErr s p a 2 .fetch with
    | some f => .error ⟨1, a, some f⟩
    | none =>
      let (x, po) := fetchByte s p a hit
      let (y, po') := fetchByte s p (a + 1) hit
      if po || po' then .error ⟨1, a, some pfPOISON⟩ else .ok (x + 256 * y)

/-- The instruction at pc: the word, its 32-bit form, and its length in bytes (DEDUCED, assumption log 27) (DEDUCED, assumption log 29). -/
def fetchInsn (s : State) (p : Nat) (hit : Bool) : Except Trap (Nat × Nat × Nat) :=
  let pc := (coreOf s p).pc.toNat
  match fetchHalf s p pc hit with
  | .error t => .error t
  | .ok h =>
    if h % 4 ≠ 3 then .ok (h, rvcExpand h, 2)
    else match fetchHalf s p (lo64 (pc + 2)) hit with
      | .error t => .error t
      | .ok g => .ok (h + 65536 * g, h + 65536 * g, 4)

/-- Fills the instruction cache with what was fetched (DEDUCED, assumption log 29). -/
def fillCache (s : State) (p w len : Nat) : State :=
  updCore s p fun c => { c with icache := (List.range len).foldl (fun m i =>
    mapIns m (c.pc.toNat + i) (BitVec.ofNat 8 (w / 256 ^ i))) c.icache }

/-! ### Rows and instructions -/

/-- Which row of the command table an instruction belongs to; a PVX instruction by its operation. -/
inductive RvCls where
  | base | push | qctl | abort | wait | csignal | atomic | counter | pvxcfg
  | pvx (op : Nat)
deriving DecidableEq, Repr

/-- R260: a PVX instruction's operation: FUNC for VV and VS, 64 + FUNC for VK, 128 + MOP for VM, 136 for VC. -/
def pvxOp (w : Nat) : Nat :=
  let func := bits w 27 26 + bits w 28 28 * 4 + bits w 31 29 * 8
  if bits w 6 0 ≠ 0x2B then func
  else match bits w 14 12 with
    | 3 => 64 + func
    | 7 => 136
    | m => 128 + m

/-- R260, R261, R266: the operations that have a row; the others are reserved. -/
def pvxHasRow (op : Nat) : Bool :=
  decide (op ≤ 0x1B) || (decide (0x20 ≤ op) && decide (op ≤ 0x24)) || (decide (0x28 ≤ op) && decide (op ≤ 0x2A))
    || (decide (0x30 ≤ op) && decide (op ≤ 0x35)) || (decide (0x38 ≤ op) && decide (op ≤ 0x3D))
    || (decide (64 ≤ op) && decide (op ≤ 69)) || op == 72 || op == 73 || (decide (80 ≤ op) && decide (op ≤ 84))
    || op == 88 || op == 96 || op == 97
    || op == 128 || op == 129 || op == 130 || op == 132 || op == 133 || op == 134 || op == 136

/-- The address of a doubleword load or store. -/
def eaOf (c : PCore) (r imm : Nat) : Nat := lo64 (xGet c r + imm)

/-- Does a CSR instruction write (CSRRS and CSRRC with source x0 or 0 do not). -/
def csrWrites (f src : Nat) : Bool := f % 4 == 1 || src != 0

/-- Cycle, time and instret, under their user and machine numbers. -/
def isCounter (n : Nat) : Bool := [0xC00, 0xC01, 0xC02, 0xB00, 0xB02].contains n

/-- The row of a doubleword store to an address. -/
def storeCls (a : Nat) : RvCls :=
  if a = 0x100020 then .push else if a = 0x100030 then .qctl else if a = 0x100038 then .abort
  else if regionOf a = .conj ∧ a % 16 = 8 then .csignal else .base

/-- The row of an instruction. -/
def rvCls (c : PCore) (w : Nat) : RvCls :=
  match rvDecode w with
  | .load 3 _ r imm => if eaOf c r imm = 0x100058 then .wait else .base
  | .fload true _ r imm => if eaOf c r imm = 0x100058 then .wait else .base
  | .store 3 r _ imm => storeCls (eaOf c r imm)
  | .fstore true r _ imm => storeCls (eaOf c r imm)
  | .amo _ _ _ _ _ => .atomic
  | .csr f _ src n =>
    if isCounter n then .counter else if n = 0x800 ∧ csrWrites f src then .pvxcfg else .base
  | .pvx => if pvxHasRow (pvxOp w) then .pvx (pvxOp w) else .base
  | _ => .base

/-- The integer and float registers that an instruction uses. -/
def rvSources (w : Nat) : List Nat × List Nat :=
  match rvDecode w with
  | .jalr _ a _ | .load _ _ a _ | .fload _ _ a _ | .opImm _ _ a _ | .opImm32 _ _ a _ => ([a], [])
  | .branch _ a b _ | .store _ a b _ | .op _ _ _ a b | .op32 _ _ _ a b => ([a, b], [])
  | .amo f5 _ _ a b => (if f5 = 2 then [a] else [a, b], [])
  | .fstore _ a b _ => ([a], [b])
  | .csr f _ a _ => (if f < 4 then [a] else [], [])
  | .fma _ _ _ _ a b d => ([], [a, b, d])
  | .fop f5 _ _ _ a b =>
    match f5 with
    | 0x1A | 0x1E => ([a], [])
    | 0x0B | 0x08 | 0x18 | 0x1C => ([], [a])
    | _ => ([], [a, b])
  | _ => ([], [])

/-- R254: the first use of a value that a poisoned load gave: the address it was loaded from (DEDUCED, assumption log 27). -/
def poisonUse (c : PCore) (xs fs : List Nat) : Option Nat :=
  match xs.findSome? fun i => if i = 0 then none else mapFind c.px i with
  | some a => some a
  | none => fs.findSome? fun i => mapFind c.pf i

/-- The trap of a poisoned value's first use; the mark goes with it (DEDUCED, assumption log 27). -/
def poisonTrap (s : State) (p a : Nat) (xs fs : List Nat) : State :=
  let s := updCore s p fun c => { c with px := xs.foldl mapDel c.px, pf := fs.foldl mapDel c.pf }
  takeTrap s p ⟨5, a, some pfPOISON⟩

/-- Ends the hold of a load of the host aperture: its data has come, or its read has failed or been dropped (DEDUCED, assumption log 27). -/
def hostResume (s : State) (p a : Nat) : Option (State × Bool) :=
  match takeAnswer (.particle p) s.answers with
  | none => none
  | some (r, rest) =>
    let s := updCore { s with answers := rest } p fun c => { c with hold := .none }
    if r.failed || r.dropped then some (takeTrap s p ⟨5, a, some 0⟩, false)
    else
      let bs := (ansBytes r).zipIdx
      some (updCore s p fun c => { c with
        hgot := bs.foldl (fun m b => mapIns m (a + b.2) (b.1.toNat, ansPoison r)) c.hgot }, true)

/-- Before an instruction: what the hold of the Particle makes of it. `some`: the instruction may run. -/
def rvReady (s : State) (p : Nat) : State × Bool :=
  let c := coreOf s p
  match c.hold with
  | .none => (s, true)
  | .host a => (hostResume s p a).getD (s, false)
  | .wfi => if irqWaiting c = 0 then (s, false) else (updCore s p fun c => { c with hold := .none }, true)
  | .push _ _ | .wait _ _ _ => (s, (irqTake c).isSome)

/-- R249, R275, R276: one instruction of a Particle, where it belongs to the row: interrupts come first, then the fetch. -/
def prtStep (s : State) (p : Nat) (hit : Bool) (cls : RvCls) (body : State → Nat → Nat → RvOut) : State :=
  let q := partOf s p
  if !q.running || q.lp.isNone || !computeOn s (p / 4) then s
  else
    match rvReady s p with
    | (s, false) => s
    | (s, true) =>
      match irqTake (coreOf s p) with
      | some i => updCore s p fun c => trapEnter c true i 0
      | none =>
        match fetchInsn s p hit with
        | .error t => if cls = .base then takeTrap s p t else s
        | .ok (raw, w, len) =>
          if rvCls (coreOf s p) w ≠ cls then s
          else
            let s := fillCache s p raw len
            let (xs, fs) := rvSources w
            match poisonUse (coreOf s p) xs fs with
            | some a => poisonTrap s p a xs fs
            | none =>
              match body s w len with
              | .done s => s
              | .held s => s
              | .trap s t => takeTrap s p (if t.code = 2 then { t with tval := raw } else t)

end Sys2Proof.Machine
end

