-- ==== Sys2Proof/Machine/Particle.lean ====
section
/-! DEFINITION. The commands of a Particle's scalar pipeline: base instructions, the control window, atomics, counters
(spec/08_particle_cores.md). -/

namespace Sys2Proof.Machine

/-! ### Base instructions (R249) -/

/-- Writes an integer register and goes on. -/
def rvX (s : State) (p rd v pc : Nat) : RvOut := .done (retire (updCore s p fun c => xPut c rd v none) p pc)

/-- The width in bytes of a load or store, by funct3. -/
def rvWidth (f : Nat) : Nat := 2 ^ (f % 4)

/-- A load's value, extended. -/
def rvExt (f v : Nat) : Nat := if f < 4 then sx (8 * rvWidth f) v else v

/-- A scalar load into an integer register. -/
def rvLoad (s : State) (p f rd a pc : Nat) : RvOut :=
  match loadAt s p a (rvWidth f) with
  | .trap s t => .trap s t
  | .held s => .held s
  | .val s v po => .done (retire (updCore s p fun c => xPut c rd (rvExt f v) (if po then some a else none)) p pc)

/-- A scalar load into a float register. -/
def rvFload (s : State) (p : Nat) (dbl : Bool) (rd a pc : Nat) : RvOut :=
  match loadAt s p a (if dbl then 8 else 4) with
  | .trap s t => .trap s t
  | .held s => .held s
  | .val s v po =>
    .done (retire (updCore s p fun c => fPut c rd (if dbl then v else boxW 32 v) (if po then some a else none)) p pc)

/-- A scalar store. -/
def rvStore (s : State) (p a n v pc : Nat) : RvOut :=
  match storeAt s p a (natLe n v) with
  | .done s => .done (retire s p pc)
  | r => r

/-- The layout that an operand width selects. -/
def fLay (dbl : Bool) : FLay := if dbl then laD else laS
/-- A float operand as its pattern. -/
def fOp (c : PCore) (dbl : Bool) (i : Nat) : Nat := if dbl then fGet c i else unboxS (fGet c i)
/-- Writes a float result and its flags, and goes on. -/
def rvF (s : State) (p : Nat) (dbl : Bool) (rd pc : Nat) (r : FpR) : RvOut :=
  .done (retire (updCore s p fun c => accrue (fPut c rd (if dbl then r.1 else boxW 32 r.1) none) r.2) p pc)
/-- Writes an integer result of a float operation and its flags, and goes on. -/
def rvFX (s : State) (p rd pc : Nat) (v fl : Nat) : RvOut :=
  .done (retire (updCore s p fun c => accrue (xPut c rd v none) fl) p pc)

/-- The rounding mode of an instruction: its rm field, or frm. -/
def rvRm (c : PCore) (rm : Nat) : Option RMode := rmodeOf (if rm = 7 then c.csr.fcsr.toNat / 32 % 8 else rm)

/-- Sign injection. -/
def fSgnj (l : FLay) (k a b : Nat) : Nat :=
  let w := layW l
  let sb := bit b (w - 1)
  let sa := bit a (w - 1)
  let n := match k with | 0 => sb | 1 => !sb | _ => sa != sb
  setBits a (w - 1) (w - 1) (b2n n)

/-- The integer of a 32-bit or 64-bit, signed or unsigned source. -/
def fIntSrc (k x : Nat) : Int :=
  match k with | 0 => sext 32 x | 1 => (x % 2 ^ 32 : Nat) | 2 => sext 64 x | _ => (x : Nat)

/-- OP-FP. -/
def rvFop (s : State) (p f5 : Nat) (dbl : Bool) (rm rd r1 r2 pc : Nat) : RvOut :=
  let c := coreOf s p
  let l := fLay dbl
  let a := fOp c dbl r1
  let b := fOp c dbl r2
  let round (g : RMode → RvOut) : RvOut := match rvRm c rm with | some m => g m | none => .trap s (illegal 0)
  match f5 with
  | 0x00 => round fun m => rvF s p dbl rd pc (fpAdd l m a b)
  | 0x01 => round fun m => rvF s p dbl rd pc (fpSub l m a b)
  | 0x02 => round fun m => rvF s p dbl rd pc (fpMul l m a b)
  | 0x03 => round fun m => rvF s p dbl rd pc (fpDiv l m a b)
  | 0x0B => round fun m => rvF s p dbl rd pc (fpSqrt l m a)
  | 0x04 => rvF s p dbl rd pc (fSgnj l rm a b, 0)
  | 0x05 => rvF s p dbl rd pc (fpMinMax l (rm == 1) a b)
  | 0x14 =>
    -- rm: 0 FLE, 1 FLT, 2 FEQ
    let r := fpCmp l (2 - rm) a b
    rvFX s p rd pc r.1 r.2
  | 0x08 => round fun m => rvF s p dbl rd pc (fpCvt (fLay (!dbl)) l m (fOp c (!dbl) r1))
  | 0x18 => round fun m =>
    let w := if r2 < 2 then 32 else 64
    let r := fpToInt w (r2 % 2 == 0) true m (decFloat l a)
    rvFX s p rd pc (sx w r.1) r.2
  | 0x1A => round fun m => rvF s p dbl rd pc (fpRound l m (numInt (fIntSrc r2 (xGet c r1))))
  | 0x1C =>
    if rm = 0 then rvFX s p rd pc (if dbl then fGet c r1 else sx 32 (fGet c r1)) 0 else rvFX s p rd pc (fpClass l a) 0
  | _ => rvF s p dbl rd pc (xGet c r1, 0)

/-- Fused multiply-add: FMADD, FMSUB, FNMSUB, FNMADD. -/
def rvFma (s : State) (p k : Nat) (dbl : Bool) (rm rd r1 r2 r3 pc : Nat) : RvOut :=
  let c := coreOf s p
  match rvRm c rm with
  | none => .trap s (illegal 0)
  | some m => rvF s p dbl rd pc (fpFma (fLay dbl) m (k == 2 || k == 3) (k == 1 || k == 3) (fOp c dbl r1) (fOp c dbl r2) (fOp c dbl r3))

/-- Zicsr: reads, then writes. -/
def rvCsr (s : State) (p f rd src n pc : Nat) : RvOut :=
  let v := if f < 4 then xGet (coreOf s p) src else src
  let wr := csrWrites f src
  let rdk := f % 4 != 1 || rd != 0
  match csrRead s p n with
  | none => .trap s (illegal 0)
  | some old =>
    let nv := match f % 4 with | 1 => v | 2 => old ||| v | _ => old &&& (2 ^ 64 - 1 - v)
    match (if wr then csrWrite s p n nv else some s) with
    | none => .trap s (illegal 0)
    | some s => if rdk then rvX s p rd old pc else .done (retire s p pc)

/-- MRET. -/
def rvMret (s : State) (p : Nat) : RvOut :=
  let c := coreOf s p
  if !c.mach then .trap s (illegal 0)
  else
    let m := c.csr.mstatus.toNat
    let mach := bits m 12 11 == 3
    let m := setBits (setBits (setBits m 3 3 (bits m 7 7)) 7 7 1) 12 11 0
    let m := if mach then m else setBits m 17 17 0
    .done (retire (updCore s p fun c => { c with mach := mach, csr := { c.csr with mstatus := BitVec.ofNat 64 m } }) p c.csr.mepc.toNat)

/-- WFI: held until an enabled interrupt is pending; mstatus.TW makes it illegal in user mode (DEDUCED, assumption log 23). -/
def rvWfi (s : State) (p pc : Nat) : RvOut :=
  let c := coreOf s p
  if !c.mach && mst c 21 21 == 1 then .trap s (illegal 0)
  else
    let s := retire s p pc
    .done (if irqWaiting c = 0 then updCore s p fun c => { c with hold := .wfi } else s)

/-- A float instruction is illegal while mstatus.FS is off. -/
def rvFpu (s : State) (p : Nat) (r : RvOut) : RvOut := if mst (coreOf s p) 14 13 = 0 then .trap s (illegal 0) else r

/-- R249: one base instruction. -/
def rvExec (p : Nat) (s : State) (w len : Nat) : RvOut :=
  let c := coreOf s p
  let pc := c.pc.toNat
  let nx := lo64 (pc + len)
  match rvDecode w with
  | .lui rd i => rvX s p rd i nx
  | .auipc rd i => rvX s p rd (lo64 (pc + i)) nx
  | .jal rd i => rvX s p rd nx (lo64 (pc + i))
  | .jalr rd r i => rvX s p rd nx (eaOf c r i / 2 * 2)
  | .branch f a b i => .done (retire s p (if rvTaken f (xGet c a) (xGet c b) then lo64 (pc + i) else nx))
  | .load f rd r i => rvLoad s p f rd (eaOf c r i) nx
  | .store f a b i => rvStore s p (eaOf c a i) (rvWidth f) (xGet c b) nx
  | .fload d rd r i => rvFpu s p (rvFload s p d rd (eaOf c r i) nx)
  | .fstore d a b i => rvFpu s p (rvStore s p (eaOf c a i) (if d then 8 else 4) (fGet c b) nx)
  | .opImm f rd a i => rvX s p rd (rvAlu f (f == 5 && bit i 10) (xGet c a) i) nx
  | .opImm32 f rd a i => rvX s p rd (rvAlu32 f (f == 5 && bit i 10) (xGet c a) i) nx
  | .op f7 f rd a b =>
    rvX s p rd (if f7 = 1 then rvMul f (xGet c a) (xGet c b) else rvAlu f (f7 == 0x20) (xGet c a) (xGet c b)) nx
  | .op32 f7 f rd a b =>
    rvX s p rd (if f7 = 1 then rvMul32 f (xGet c a) (xGet c b) else rvAlu32 f (f7 == 0x20) (xGet c a) (xGet c b)) nx
  | .fence => .done (retire s p nx)
  | .fenceI => .done (retire (updCore s p fun c => { c with icache := [] }) p nx)
  | .ecall => .trap s ⟨if c.mach then 11 else 8, 0, none⟩
  | .ebreak => .trap s ⟨3, pc, none⟩
  | .mret => rvMret s p
  | .wfi => rvWfi s p nx
  | .csr f rd src n => rvCsr s p f rd src n nx
  | .fma k d rm rd a b e => rvFpu s p (rvFma s p k d rm rd a b e nx)
  | .fop f5 d rm rd a b => rvFpu s p (rvFop s p f5 d rm rd a b nx)
  | .amo _ _ _ _ _ | .pvx | .illegal => .trap s (illegal 0)

/-! ### Atomics (R251) -/

/-- LR, SC and the AMO instructions: local memory and scratchpad only; any other region is a store/AMO access fault (DEDUCED, assumption log 21) (DEDUCED, assumption log 27). -/
def rvAtomic (p : Nat) (s : State) (w len : Nat) : RvOut :=
  let c := coreOf s p
  let nx := lo64 (c.pc.toNat + len)
  match rvDecode w with
  | .amo f5 dbl rd r1 r2 =>
    let a := xGet c r1
    let n := if dbl then 8 else 4
    let k : AKind := if f5 = 2 then .load else if f5 = 3 then .store else .atomic
    if a % n ≠ 0 then .trap s ⟨if f5 = 2 then 4 else 6, a, none⟩
    else if !pmpOk c (dataMach c) a k then .trap s ⟨if f5 = 2 then 5 else 7, a, none⟩
    else match mapErr s p a n .atomic with
      | some f => .trap s ⟨7, a, some f⟩
      | none =>
        match memLoad s p a n with
        | .host _ _ _ => .trap s ⟨7, a, some pfREGION⟩
        | .val v po =>
          if f5 = 3 then
            let ok := match c.resv with | some (ra, m) => decide (ra ≤ a) && decide (a + n ≤ ra + m) | none => false
            let s := if ok then (memStore s p a (natLe n (xGet c r2))).getD s else s
            rvX (updCore s p fun c => { c with resv := none }) p rd (b2n (!ok)) nx
          else if po && f5 != 1 && f5 != 2 then .trap s ⟨5, a, some pfPOISON⟩
          else
            let s := if po then updCtl s p fun c => { c with fault := pfPOISON } else s
            let s := if f5 = 2 then updCore s p fun c => { c with resv := some (a, n) }
              else (memStore s p a (natLe n (rvAmo f5 (8 * n) v (xGet c r2)))).getD s
            .done (retire (updCore s p fun c => xPut c rd (sx (8 * n) v) (if po then some a else none)) p nx)
  | _ => .trap s (illegal 0)

/-! ### Counters (R252, R438) -/

/-- A CSR instruction on cycle, time or instret; a read that returns its value sets INDET. -/
def rvCounter (p : Nat) (s : State) (w len : Nat) : RvOut :=
  let nx := lo64 ((coreOf s p).pc.toNat + len)
  match rvDecode w with
  | .csr f rd src n =>
    match rvCsr s p f rd src n nx with
    | .done t => .done (if f % 4 != 1 || rd != 0 then markIndet t (prtCid s p) else t)
    | r => r
  | _ => .trap s (illegal 0)

/-- R252: mcycle counts the Particle's pipeline stages: `stages` is the count that has been reached. -/
def reachStages (s : State) (p stages : Nat) : State :=
  updCsr s p fun r => if bit r.mcountinhibit.toNat 0 then r else { r with mcycle := BitVec.ofNat 64 (max r.mcycle.toNat stages) }

/-! ### The control window (R270 to R274) -/

/-- The address, the value and the register of a doubleword access (DEDUCED, assumption log 26). -/
def ctlAccess (c : PCore) (w : Nat) : Nat × Nat × Nat :=
  match rvDecode w with
  | .load _ rd r i => (eaOf c r i, 0, rd)
  | .fload _ rd r i => (eaOf c r i, 0, 32 + rd)
  | .store _ a b i => (eaOf c a i, xGet c b, 0)
  | .fstore _ a b i => (eaOf c a i, fGet c b, 32)
  | _ => (0, 0, 0)

/-- A doubleword access that its row carries out, once the checks pass. -/
def ctlRun (p : Nat) (k : AKind) (run : State → Nat → Nat → Nat → Nat → RvOut) (s : State) (w len : Nat) : RvOut :=
  let c := coreOf s p
  let (a, v, rd) := ctlAccess c w
  if 32 ≤ rd ∧ mst c 14 13 = 0 then .trap s (illegal 0)
  else match accessTrap s p a 8 k with
    | some t =>
      -- the Conjunction of a REMOTE signal is not one of this device
      if regionOf a = .conj ∧ t.fault = some pfKEY ∧ bit v 17 then run s a v rd len else .trap s t
    | none => run s a v rd len

/-- R271: a push: enters the staged record, or is held on a full queue. -/
def pushRun (p : Nat) (s : State) (_ v _ len : Nat) : RvOut :=
  match pushRecord s p ((partOf s p).lp.getD 0) (v % 4) with
  | some t => .done (retire t p (lo64 ((coreOf s p).pc.toNat + len)))
  | none => .held (updCore s p fun c => { c with hold := .push (v % 4) len })

/-- R272: PRT_QCTL. -/
def qctlRun (p : Nat) (s : State) (_ v _ len : Nat) : RvOut :=
  let t := if bit v 8 then flushQueue s ((partOf s p).lp.getD 0) (v % 4) else s
  .done (retire t p (lo64 ((coreOf s p).pc.toNat + len)))

/-- R272: PRT_ABORT. -/
def abortRun (p : Nat) (s : State) (_ v _ len : Nat) : RvOut :=
  .done (retire (requestAbort s ((partOf s p).lp.getD 0) (bits v 33 32) (bits v 31 0)) p (lo64 ((coreOf s p).pc.toNat + len)))

/-- R273: a load from PRT_WAIT begins its hold, unless the Conjunction is outside the partition. -/
def waitRun (p : Nat) (s : State) (a _ rd len : Nat) : RvOut :=
  if conjKeyOk s ((coreOf s p).ctl.waitset.toNat % 2 ^ 14) (ctxOf s (prtCid s p)).ckey then
    let s := promoteConj s (prtCid s p / 8) ((coreOf s p).ctl.waitset.toNat % 2 ^ 14)
    .held (updCore s p fun c => { c with hold := .wait rd s.tense.toNat len })
  else .trap s ⟨5, a, some pfKEY⟩

/-- R274: a store to CSIGNAL; REMOTE names a route handle, as for CSIG (DEDUCED, assumption log 26). -/
def csignalRun (p : Nat) (s : State) (a v _ len : Nat) : RvOut :=
  let j := (a - 0x1000000) / 16
  let cid := prtCid s p
  let inc := bits v 15 0
  let err := bit v 16
  let h := bits v 63 48
  let key := (ctxOf s cid).ckey
  if inc = 0 then .trap s ⟨7, a, some pfREGION⟩
  else if bit v 17 then
    if routeOk s (cid / 8) h then
      .done (retire { s with outSigs := s.outSigs ++
        [{ part := cid / 8, handle := h, index := j, inc := inc, error := err, key := key }] } p (lo64 ((coreOf s p).pc.toNat + len)))
    else .trap s ⟨7, a, some pfKEY⟩
  else .done (retire (conjSignal s j inc err key) p (lo64 ((coreOf s p).pc.toNat + len)))

/-- R271: the record of a held push enters once a slot frees. -/
def heldPush (s : State) (p : Nat) : State :=
  match (coreOf s p).hold with
  | .push q len =>
    match pushRecord s p ((partOf s p).lp.getD 0) q with
    | some t => retire (updCore t p fun c => { c with hold := .none }) p (lo64 ((coreOf s p).pc.toNat + len))
    | none => s
  | _ => s

/-- R273: ends a held PRT_WAIT load, where an outcome holds: MET, ERROR or TIMEOUT. A TIMEOUT sets INDET (R438). -/
def waitEnd (s : State) (p : Nat) (timeoutOnly : Bool) : State :=
  match (coreOf s p).hold with
  | .wait rd since len =>
    let ctl := (coreOf s p).ctl
    let c := conjOf s (ctl.waitset.toNat % 2 ^ 14)
    let met := reached c.count (ctl.waitset.extractLsb' 32 32)
    let out := ctl.waitto.toNat != 0 && decide (since + ctl.waitto.toNat ≤ s.tense.toNat)
    if (if timeoutOnly then out else met || c.error) then
      let v := c.count.toNat + b2n c.error * 2 ^ 32 + b2n out * 2 ^ 33 + b2n met * 2 ^ 34
      let s := if out then markIndet s (prtCid s p) else s
      let s := updCore s p fun c =>
        { (if rd < 32 then xPut c rd v none else fPut c (rd - 32) v none) with hold := .none }
      retire s p (lo64 ((coreOf s p).pc.toNat + len))
    else s
  | _ => s

/-- R275, R331: the comparator LC(56 + n) of the slice matches PRT_TIMECMP, once for each value written (DEDUCED, assumption log 30). -/
def timecmpMatch (s : State) (p : Nat) : State :=
  let c := (coreOf s p).ctl
  if c.armed && decide (c.timecmp.toNat ≤ s.tense.toNat) && (partOf s p).lp.isSome then
    raiseIrq (updCtl s p fun c => { c with armed := false }) p irqTIMER
  else s

/-! ### The commands -/

/-- The device has 48 Particles (R17). -/
def prtOk (p : Nat) : Bool := decide (p < 48)

/-- RV64_INSTRUCTION (R249). -/
def execRv64Instruction (p : Nat) (hit : Bool) (s : State) : Res := guardUnit (prtOk p) (ran s (prtStep s p hit .base (rvExec p)))
/-- ATOMIC_ACCESS (R251). -/
def execAtomicAccess (p : Nat) (hit : Bool) (s : State) : Res := guardUnit (prtOk p) (ran s (prtStep s p hit .atomic (rvAtomic p)))
/-- COUNTER_CSR_READ (R252). -/
def execCounterCsrRead (p : Nat) (hit : Bool) (now stages : Nat) (s : State) : Res :=
  guardUnit (prtOk p) (ran s (prtStep (reachStages (atTime s now) p stages) p hit .counter (rvCounter p)))
/-- PVXCFG_WRITE (R257). -/
def execPvxcfgWrite (p : Nat) (hit : Bool) (s : State) : Res := guardUnit (prtOk p) (ran s (prtStep s p hit .pvxcfg (rvExec p)))
/-- PRT_PUSH (R271). -/
def execPrtPush (p : Nat) (hit : Bool) (s : State) : Res := guardUnit (prtOk p) (ran s (prtStep s p hit .push (ctlRun p .store (pushRun p))))
/-- HELD_PUSH_ENTRY (R271). -/
def execHeldPushEntry (p : Nat) (s : State) : Res := guardUnit (prtOk p) (ran s (heldPush s p))
/-- PRT_QCTL_FLUSH (R272). -/
def execPrtQctlFlush (p : Nat) (hit : Bool) (s : State) : Res :=
  guardUnit (prtOk p) (ran s (prtStep s p hit .qctl (ctlRun p .store (qctlRun p))))
/-- PRT_ABORT (R272). -/
def execPrtAbort (p : Nat) (hit : Bool) (s : State) : Res :=
  guardUnit (prtOk p) (ran s (prtStep s p hit .abort (ctlRun p .store (abortRun p))))
/-- PRT_WAIT (R273). -/
def execPrtWait (p : Nat) (hit : Bool) (now : Nat) (s : State) : Res :=
  guardUnit (prtOk p) (ran s (prtStep (atTime s now) p hit .wait (ctlRun p .load (waitRun p))))
/-- PRT_WAIT_MET (R273). -/
def execPrtWaitMet (p : Nat) (s : State) : Res := guardUnit (prtOk p) (ran s (waitEnd s p false))
/-- PRT_WAIT_TIMEOUT (R273). -/
def execPrtWaitTimeout (p now : Nat) (s : State) : Res := guardUnit (prtOk p) (ran s (waitEnd (atTime s now) p true))
/-- PRT_TIMECMP_MATCH (R275). -/
def execPrtTimecmpMatch (p now : Nat) (s : State) : Res := guardUnit (prtOk p) (ran s (timecmpMatch (atTime s now) p))
/-- CSIGNAL (R274). -/
def execCsignal (p : Nat) (hit : Bool) (s : State) : Res :=
  guardUnit (prtOk p) (ran s (prtStep s p hit .csignal (ctlRun p .store (csignalRun p))))

end Sys2Proof.Machine
end

