-- ==== Sys2Proof/Machine/Context.lean ====
section
/-! DEFINITION. Contexts in time: switches, saves, restores, page moves, and a Particle that mismatches
(spec/09_scratchpad_and_placement.md R288, R296 to R300, spec/20_fault_handling.md R593). -/

namespace Sys2Proof.Machine

/-! ### Which context runs (R297) -/

/-- R607, R612: a standby context receives no work until it is promoted. -/
def standby (s : State) (c : Nat) : Bool :=
  fld s aRAS_PAIR 0 0 == 1 && pairMode s == 1 && fld s aRAS_PAIR 3 3 == 1 && pairState s != 4 && pairCtx s == some c

/-- R297: the runnable contexts of a partition. -/
def runnable (s : State) (k : Nat) : List Nat := (liveCtxs s k).filter fun c => !standby s c

/-- R297: the running context of a partition. -/
def runningOf (s : State) (k : Nat) : Option Nat := (liveCtxs s k).find? fun c => ctxRunning s c

/-- R297: the next context to run: highest PRIORITY, then the one that has been out longest; the one just switched out only
where no other is runnable (DEDUCED, assumption log 41). -/
def nextCtx (s : State) (k : Nat) : Option Nat :=
  let rs := runnable s k
  let cs := match rs.filter fun c => !(runOf s c).justOut with | [] => rs | l => l
  cs.foldl (fun b c => match b with
    | none => some c
    | some a =>
      let pa := (ctxOf s a).priority
      let pc := (ctxOf s c).priority
      if pa < pc ∨ (pa = pc ∧ (runOf s c).lastOut < (runOf s a).lastOut) then some c else some a) none

/-- R298 sequence 1: a switch away from the running context is decided. -/
def decideSwitch (s : State) (c : Nat) : State :=
  if (runOf s c).out || (runOf s c).st != .running then s
  else
    noticeAll (updRun s c fun r => { r with out := true, t0 := s.tense.toNat }) c 1 (s.tense.toNat + 20000)

/-- QUANTUM_EXPIRY (R297): partition `k`. -/
def execQuantumExpiry (k now : Nat) (s : State) : Res :=
  guardUnit (decide (k < 12)) (ran s (
    let s := atTime s now
    match runningOf s k with
    | none => s
    | some c =>
      let x := ctxOf s c
      if (runOf s c).runFrom + 100000 * x.quantum ≤ s.tense.toNat ∧
          (runnable s k).any (fun d => d != c && decide (x.priority ≤ (ctxOf s d).priority)) then decideSwitch s c else s))

/-- R297: is a started Particle held in a PRT_WAIT load or a WFI. -/
def prtIdle (s : State) (p : Nat) : Bool := match (coreOf s p).hold with | .wait _ _ _ => true | .wfi => true | _ => false

/-- R297: has a context no accepted work that runs or waits for a unit; a program held in a CWAIT does neither (DEDUCED, assumption log 41). -/
def noWork (s : State) (c : Nat) : Bool := !s.progs.any fun p => p.2.cid == c && p.2.wait.isNone

/-- CONTEXT_IDLE_SWITCH (R297). -/
def execContextIdleSwitch (k now : Nat) (s : State) : Res :=
  guardUnit (decide (k < 12)) (ran s (
    let s := atTime s now
    match runningOf s k with
    | none => s
    | some c =>
      if (ctxParticles s c).all (prtIdle s) ∧ noWork s c ∧ (runnable s k).any (· != c) then decideSwitch s c else s))

/-- ACCEPTANCE_STOP (R298 sequence 2). -/
def execAcceptanceStop (k now : Nat) (s : State) : Res :=
  guardUnit (decide (k < 12)) (ran s (
    let s := atTime s now
    match runningOf s k with
    | none => s
    | some c =>
      let r := runOf s c
      if r.out ∧ r.st = .running ∧ r.t0 + 20000 ≤ s.tense.toNat then updRun s c fun r => { r with accepting := false, st := .stopping }
      else s))

/-! ### Save (R298 sequences 3 and 4, R299) -/

/-- R298 sequence 3: is every unit of a context at its boundary: no Verb in a compound, every Inflector at a checkpoint, no
Particle within a load of host memory. A solve and an assembly stand at a boundary between any two commands. -/
def atBoundary (s : State) (c : Nat) : Bool :=
  (s.progs.all fun p => p.2.cid != c || (p.2.comp.isNone &&
    (p.2.unit.isNone || p.2.ended.isSome || match mapFind s.infRuns p.1 with | some r => r.upos.isNone && r.group % 1024 == 0 | none => true)))
    && (ctxParticles s c).all fun p => match (coreOf s p).hold with | .host _ => false | _ => true

/-- A range of memory that lies in one piece, as runs of bytes with their poison. -/
def memRuns (m : Mem) (a n : Nat) : List (List Byte × Bool) :=
  if memPoison m a n then (List.range (n / 32)).map fun i => (memBytes m (a + 32 * i) 32, memPoison m (a + 32 * i) 1)
  else [(memBytes m a n, false)]

/-- R298: a page leaves its physical place: copied to its image where it was written since its last restore. -/
def savePage (s : State) (c pg : Nat) (p : Page) : State :=
  match p.phys with
  | none => s
  | some (sl, q) =>
    let s := if p.written then
        ((memRuns s.spm (spmIx sl q 0) pageBytes).foldl (fun (a : State × Nat) r =>
          (dvaPut a.1 (c / 8) 48 a.2 r.1 r.2, a.2 + r.1.length)) (s, imageAt s c pg)).1
      else s
    let p := { p with phys := none, st := .saved, imaged := p.imaged || p.written, written := false }
    updCtx s c fun x => { x with pages := mapIns x.pages pg p }

/-- R276: what is saved of a Particle; its reservation and its instruction cache are no part of it. A held push or PRT_WAIT load
restarts, and so does a WFI. -/
def saveCoreOf (c : PCore) : PCore := { c with hold := .none, resv := none, icache := [], hgot := [], overlay := false }

/-- R299: the SAVE_CORE image, 136 KiB for each started Particle, in the Syntax core's own format, and its digest (DESIGN CHOICE, assumption log 43). -/
def saveCoreImage (s : State) (c n : Nat) : State :=
  let bs := (List.range (n * 139264)).map fun i => Config.coreByte s.free i
  updRun { dvaPut s (c / 8) 48 (ctxOf s c).saveCore bs false with free := s.free + 1 } c fun r => { r with coreDigest := some (leNat (sha256 bs)) }

/-- The 4 KiB spaceGranules that a program's space has written. -/
def spaceGranules (p : Prog) : Nat := (p.written.filter (·.2)).length

/-- Takes the units off the work of a context, which keeps their names for its return. -/
def unitsLeave (s : State) (c : Nat) : State :=
  ((s.progs.filter fun p => p.2.cid == c).map (·.1)).foldl (fun s id =>
    match progOf s id with
    | some p => updProg (unitsDrop s id) id fun q => { q with unit := p.unit }
    | none => s) s

/-- R298 sequence 4, R301: a context is saved (DESIGN CHOICE, assumption log 42). -/
def ctxSave (s : State) (c : Nat) : State :=
  let k := c / 8
  let ps := ctxParticles s c
  let held := s.progs.filter fun p => p.2.cid == c && (match p.2.space with | .verb _ => true | _ => false)
  let written := ((ctxOf s c).pages.filter fun p => p.2.phys.isSome && p.2.written).length
  let bytes := 65536 * written + 139264 * ps.length + 4096 * (held.map fun p => spaceGranules p.2).sum
  let cores := ps.foldl (fun m p =>
      match (partOf s p).lp with
      | some lp => mapIns m lp (SavedCore.mk (saveCoreOf (coreOf s p)) (partOf s p).running)
      | none => m) s.saved
  let s := { s with saved := cores }
  let s := freeParticles s c
  let s := saveCoreImage s c ps.length
  let s := held.foldl (fun s p => spillSpace s p.1) s
  let s := unitsLeave s c
  let s := { s with pmoves := s.pmoves.filter fun m => m.cid != c }
  let s := (ctxOf s c).pages.foldl (fun s p => savePage s c p.1 p.2) s
  let s := { s with runs := s.runs.map fun r => if r.1 / 8 == k then (r.1, { r.2 with justOut := r.1 == c }) else r }
  let now := s.tense.toNat
  let s := updRun s c fun r => { r with
    st := .ready, out := false, switches := satAdd 32 r.switches 1, runNs := satAdd 64 r.runNs (now - r.runFrom), lastOut := now, lastSave := bytes }
  cstatusWrite s c

/-- CONTEXT_SAVE (R298): once every unit is at its boundary. -/
def execContextSave (k now : Nat) (s : State) : Res :=
  guardUnit (decide (k < 12)) (ran s (
    let s := atTime s now
    match runningOf s k with
    | none => s
    | some c => if (runOf s c).st = .stopping ∧ atBoundary s c then ctxSave s c else s))

/-! ### Restore (R298 sequences 5 and 6) -/

/-- Particles of a partition that hold no context's Particle. -/
def freePrts (s : State) (k : Nat) : List Nat :=
  (partSlices s k).flatMap fun sl => ((List.range 4).map (4 * sl + ·)).filter fun p => (partOf s p).lp.isNone

/-- Is a Particle in service. -/
def prtGood (s : State) (p : Nat) : Bool := computeOn s (p / 4) && !unitDown s (p / 4) (8 + p % 4)

/-- R276: the Particle on which a partition's `i`-th one runs: its own where that is free and in service, else another (DESIGN CHOICE, assumption log 94). -/
def seatOf (s : State) (k i : Nat) : Option Nat :=
  let home := 4 * (partSlices s k).getD (i / 4) 0 + i % 4
  let fs := freePrts s k
  if fs.contains home && prtGood s home then some home
  else match fs.find? (prtGood s) with
    | some p => some p
    | none => if fs.contains home then some home else fs.head?

/-- R276: a saved Particle resumes. PRT_QSEQ, PRT_IRQ_PEND and PRT_FAULT are no part of what is saved: their values are free (DESIGN CHOICE, assumption log 15). -/
def wakeCore (n : Nat) (overlay : Bool) (c : PCore) : PCore :=
  let f (i : Nat) : Nat := (Config.freeWord (n + i)).toNat
  { c with
    overlay := overlay
    ctl := { c.ctl with qseq := f 0 % 2 ^ 32, qseqQ := f 1 % 4, irqPend := f 2 % 16, fault := f 3 % 2 ^ 11 } }

/-- R276, R298: the saved Particles of a context take their seats again; `tell`: with the notice RESUMED. -/
def seatSaved (s : State) (c : Nat) (tell : Bool) : State :=
  let mine := s.saved.filter fun x => x.1 / 64 == c
  let s := { s with saved := s.saved.filter fun x => x.1 / 64 != c }
  mine.foldl (fun s x =>
    match seatOf s (c / 8) (x.1 % 64) with
    | none => s
    | some p =>
      let s := updPart s p fun q => { lp := some x.1, running := x.2.running, core := wakeCore s.free q.core.overlay x.2.core }
      let s := { s with free := s.free + 4 }
      if tell && x.2.running then notice s p 2 s.tense.toNat else s) s

/-- R283, R298: the Particles of a context take their seats: at its first run those of PSTART, at PENTRY; else those saved (DESIGN CHOICE, assumption log 7) (DESIGN CHOICE, assumption log 14). -/
def seatAll (s : State) (c : Nat) : State :=
  let k := c / 8
  if (runOf s c).begun then seatSaved s c true
  else
    ((List.range 48).filter fun i => bit (ctxOf s c).pstart i).foldl (fun s i =>
      match seatOf s k i with
      | none => s
      | some p => updPart s p fun q =>
        { lp := some (64 * c + i), running := true, core := { pc := BitVec.ofNat 64 (ctxOf s c).pentry, overlay := q.core.overlay } }) s

/-- R288, R298: a saved page takes a physical place again, with its image's bytes; a page that has no image is unallocated (DEDUCED, assumption log 40). -/
def restorePage (s : State) (c pg : Nat) (p : Page) : State :=
  if p.phys.isSome then s
  else if !p.imaged then updCtx s c fun x => { x with pages := mapIns x.pages pg { p with st := .resident, written := false } }
  else
    match allocPage s c pg ((partSlices s (c / 8)).headD 0) with
    | none => s
    | some (sl, q) =>
      let im := imageAt s c pg
      let (_, po) := dvaRead s (c / 8) 48 im pageBytes
      let rs := if po then (List.range 2048).map fun i => dvaRead s (c / 8) 48 (im + 32 * i) 32 else [((dvaRead s (c / 8) 48 im pageBytes).1, false)]
      let m := (rs.foldl (fun (a : Mem × Nat) r => (memWrite a.1 a.2 r.1 r.2, a.2 + r.1.length))
        (memZero s.spm (spmIx sl q 0) pageBytes, spmIx sl q 0)).1
      let p := { p with phys := some (sl, q), st := .resident, written := false }
      updCtx { s with spm := m } c fun x => { x with pages := mapIns x.pages pg p }

/-- Is a unit of a queue's kind free, by the number that Prog.unit gives it. -/
def kindFree (s : State) (kind : QKind) (u : Nat) : Bool :=
  match kind with
  | .tile => false
  | .element => (mapFind s.infUnits u).isNone && computeOn s (u / 2) && !unitDown s (u / 2) (12 + u % 2)
  | .solve => (mapFind s.parsers u).isNone && computeOn s u && !unitDown s u 16
  | .assembly => (mapFind s.lexers u).isNone && computeOn s u && !unitDown s u 17

/-- R283, R298: work that had begun on a unit goes on on that unit, or on another of its kind where it is out of service; the
unit's mode register is loaded from the context again (DESIGN CHOICE, assumption log 42). -/
def unitBack (s : State) (c id : Nat) : State :=
  match progOf s id with
  | none => s
  | some p =>
    match p.unit with
    | none => s
    | some u0 =>
      let all := (partSlices s (c / 8)).flatMap fun sl => if p.kind = .element then [2 * sl, 2 * sl + 1] else [sl]
      let u := if kindFree s p.kind u0 then u0 else ((all.find? (kindFree s p.kind)).getD u0)
      let s := updProg s id fun p => { p with unit := some u }
      let em := (ctxOf s c).emode
      match p.kind with
      | .tile => s
      | .element =>
        setBitOf (setFld { s with infUnits := mapIns s.infUnits u id } (aINF_MODE (u / 2) (u % 2)) 0 0 (bits em 0 0)) (aINF_STATUS (u / 2) (u % 2)) 8
      | .solve => setBitOf (setFld { s with parsers := mapIns s.parsers u id } (aPRS_MODE u) 0 0 (bits em 1 1)) (aPRS_STATUS u) 8
      | .assembly => setBitOf (setFld { s with lexers := mapIns s.lexers u id } (aLEX_MODE u) 0 0 (bits em 2 2)) (aLEX_STATUS u) 8

/-- R299: does the SAVE_CORE image read back as the Syntax core wrote it (DESIGN CHOICE, assumption log 43). -/
def coreIntact (s : State) (c : Nat) : Bool :=
  match (runOf s c).coreDigest with
  | none => true
  | some d =>
    let n := (s.saved.filter fun x => x.1 / 64 == c).length
    let (bs, po) := dvaRead s (c / 8) 48 (ctxOf s c).saveCore (n * 139264)
    !po && leNat (sha256 bs) == d

/-- R298 sequences 5 and 6: a context is restored and runs (DESIGN CHOICE, assumption log 42). -/
def ctxRestore (s : State) (c : Nat) : State :=
  if !coreIntact s c then ctxEnd s c stCONTEXT_CORRUPT none
  else
    let s := updRun s c fun r => { r with st := .running, accepting := true, out := false, runFrom := s.tense.toNat }
    let s := (ctxOf s c).pages.foldl (fun s p => restorePage s c p.1 p.2) s
    let s := seatAll s c
    let s := ((s.progs.filter fun p => p.2.cid == c).map (·.1)).foldl (fun s id => unitBack s c id) s
    updRun s c fun r => { r with begun := true }

/-- CONTEXT_RESTORE (R298): the restore of the next context completes. -/
def execContextRestore (k now : Nat) (s : State) : Res :=
  guardUnit (decide (k < 12)) (ran s (
    let s := atTime s now
    if (runningOf s k).isSome || !partActive s k || pwrState s ≠ 0 then s
    else match nextCtx s k with
      | some c => ctxRestore s c
      | none => s))

/-! ### Page moves (R288, R296) -/

/-- How often slice `sl` read a page in the epoch. `reads`: page, slice, count. -/
def readsBy (reads : List (Nat × Nat × Nat)) (page sl : Nat) : Nat :=
  ((reads.filter fun r => r.1 == page && r.2.1 == sl).map fun r => r.2.2).sum

/-- R288: the slice to which a page moves at the end of an epoch, if any. -/
def moveTo (s : State) (c : Nat) (reads : List (Nat × Nat × Nat)) (pg sl : Nat) : Option Nat :=
  let (role, reuse, _) := hintOf (ctxOf s c).hints pg
  let others := (partSlices s (c / 8)).filter (· != sl)
  let best := others.foldl (fun b k => match b with
    | none => some k
    | some j => if readsBy reads pg j < readsBy reads pg k then some k else some j) none
  match best with
  | none => none
  | some k =>
    let own := readsBy reads pg sl
    let n := readsBy reads pg k
    let ok := match reuse with
      | 1 => role != 1 && role != 4 && decide (8 * own < n)
      | 2 => decide (2 * own < n)
      | _ => false
    if ok then some k else none

/-- R288, R296: starts the moves of an epoch, in increasing page number, at most 64 into each slice (DEDUCED, assumption log 44). -/
def startMoves (s : State) (c : Nat) (reads : List (Nat × Nat × Nat)) : State :=
  ((ctxOf s c).pages.foldl (fun (a : State × List Nat) p =>
    match p.2.phys with
    | none => a
    | some (sl, _) =>
      if a.1.pmoves.any fun m => m.cid == c && m.page == p.1 then a
      else match moveTo a.1 c reads p.1 sl with
        | none => a
        | some k =>
          if 64 ≤ (a.2.filter (· == k)).length then a
          else match freePage a.1 k 768 with
            | none => a
            | some q => ({ a.1 with pmoves := a.1.pmoves ++ [⟨c, p.1, k, q⟩] }, k :: a.2)) (s, [])).1

/-- PLACEMENT_EPOCH_END (R288). `reads`: how often each slice read each page of the running context in the epoch (DEDUCED, assumption log 44). -/
def execPlacementEpochEnd (k now : Nat) (reads : List (Nat × Nat × Nat)) (s : State) : Res :=
  guardUnit (decide (k < 12)) (ran s (
    let s := atTime s now
    let n := s.tense.toNat / 100000
    if n ≤ mapGet 0 s.epochs k then s
    else
      let s := { s with epochs := mapIns s.epochs k n }
      match runningOf s k with
      | some c => startMoves s c reads
      | none => s))

/-- R296: a page of a context moves to physical page `q2` of slice `k2`, bit for bit. -/
def pageMove (s : State) (cid page k2 q2 : Nat) : State :=
  match (pageOf s cid page).phys with
  | none => s
  | some (sl, q) =>
    let mem := ((memRuns s.spm (spmIx sl q 0) pageBytes).foldl (fun (a : Mem × Nat) r =>
      (memWrite a.1 a.2 r.1 r.2, a.2 + r.1.length)) (memZero s.spm (spmIx k2 q2 0) pageBytes, spmIx k2 q2 0)).1
    let pg := { pageOf s cid page with phys := some (k2, q2) }
    let s := updCtx { s with spm := mem } cid fun x => { x with pages := mapIns x.pages page pg }
    updRun s cid fun r => { r with moves := satAdd 32 r.moves 1 }

/-- MAP_SWITCH (R296): the page lies at its new place, and its old physical page is free. -/
def execMapSwitch (cid page : Nat) (s : State) : Res :=
  ran s (match s.pmoves.find? fun m => m.cid == cid && m.page == page with
    | none => s
    | some m => pageMove { s with pmoves := s.pmoves.filter fun y => !(y.cid == cid && y.page == page) } cid page m.sl m.q)

/-! ### A Particle that mismatches (R593) -/

/-- PARTICLE_MISMATCH (R593): at the first mismatch the instruction is to run once more; at the second the Particle's state goes
to a Particle of the partition that no context has started, or the context ends. -/
def execParticleMismatch (p : Nat) (s : State) : Res :=
  guardUnit (prtOk p) (ran s (
    let q := partOf s p
    match q.lp with
    | none => s
    | some lp =>
      if !q.running then s
      else if !q.retry then updPart s p fun q => { q with retry := true }
      else
        let sl := p / 4
        let k := lp / 64 / 8
        let s := wantQuick (unitOos (report s clCONTAINED 7 (partByte s sl) sl (8 + p % 4) []) sl (8 + p % 4) true) sl (8 + p % 4)
        match (freePrts s k).find? (prtGood s) with
        | none => ctxEnd s (lp / 64) stUNIT_FAULT none
        | some n =>
          let c := saveCoreOf (coreOf s p)
          let s := updPart s p fun q => { lp := none, core := { overlay := q.core.overlay } }
          let s := updPart s n fun x => { lp := some lp, running := true, core := wakeCore s.free x.core.overlay c }
          { s with free := s.free + 4 }))

end Sys2Proof.Machine
end

