-- ==== Sys2Proof/Machine/Launch.lean ====
section
/-! DEFINITION. The LAUNCH descriptor (spec/09_scratchpad_and_placement.md R283 to R285, R287, spec/17_command_rings.md R526). -/

namespace Sys2Proof.Machine

/-- R542. -/
def stCONTEXT_LIMIT : Nat := 0xB0
/-- R542. -/
def stKEY_IN_USE : Nat := 0xB1
/-- R542. -/
def stACC_CONFIG : Nat := 0xB2

/-- R287: the hints of a table. -/
def hintsOf (b : List Byte) : List Hint :=
  (List.range (b.length / 16)).map fun i =>
    { page := bNat b (16 * i) 4 / 65536, pages := bNat b (16 * i + 4) 4, role := bNat b (16 * i + 8) 1 % 16, reuse := bNat b (16 * i + 9) 1 % 4 }

/-- R287: a reserved value in a hint table. -/
def hintsRsv (b : List Byte) : Bool :=
  (List.range (b.length / 16)).any fun i =>
    bNat b (16 * i) 4 % 65536 != 0 || bNat b (16 * i + 4) 4 == 0 || decide (6 < bNat b (16 * i + 8) 1) || decide (3 < bNat b (16 * i + 9) 1)
      || bNat b (16 * i + 10) 6 != 0

/-- R283, R284 order 1. -/
def cdReserved (b : List Byte) : Bool :=
  bNat b 0 4 / 16 != 0 || bNat b 0xC 4 / 8 != 0 || bits (bNat b 8 4) 3 2 != 0 || bNat b 8 4 / 2 ^ 14 != 0 || bNat b 0x20 8 / 2 ^ 48 != 0
    || decide (256 < bNat b 0x2C 2) || bNat b 0x2E 2 == 0 || decide (12288 < bNat b 0x2E 2) || bNat b 0x30 2 / 2 ^ 14 != 0
    || decide (64 < bNat b 0x34 2) || bNat b 0x36 2 != 0 || bNat b 0x32 2 == 0 || bNat b 6 2 == 0 || decide (512 < bNat b 6 2)
    || bNat b 0x60 32 != 0

/-- R284 order 4, R93, R94. -/
def cdAccBad (vm : Nat) : Bool :=
  bits vm 13 12 == 3 || (!bit vm 1 && decide (1048576 < 32 * (bits vm 7 4 + 1) * (32 * (bits vm 11 8 + 1)) * accBytes (vmodeFmt vm)))

/-- Conjunctions of a range. -/
def conjRange (base n : Nat) : List Nat := (List.range n).map (base + ·)

/-- R284 order 5: does the Conjunction range leave the partition's slices or overlap another context's. -/
def cdConjBad (s : State) (k base n : Nat) : Bool :=
  decide (conjTotal < base + n) || ((conjRange base n).any fun j => !(partSlices s k).contains (j / 1024))
    || (liveCtxs s k).any fun c => decide (base < (ctxOf s c).conjBase + (ctxOf s c).conjCount) && decide ((ctxOf s c).conjBase < base + n)

/-- R284 order 6: does an area lie in stacked memory, on its alignment. -/
def cdArea (s : State) (k a n align : Nat) : Bool :=
  a % align == 0 && decide (a + n ≤ 2 ^ 48) && (dvaFault s k 48 a n true).isNone && !dvaHost s k 48 a n true

/-- R284, R299: every area of a context descriptor. -/
def cdAreasOk (s : State) (k : Nat) (b : List Byte) : Bool :=
  let n := (partSlices s k).length
  cdArea s k (bNat b 0x40 8) (752 * n * 65536) 65536 && cdArea s k (bNat b 0x48 8) (bNat b 6 2 * 1088 * 1024) 65536
    && cdArea s k (bNat b 0x50 8) (65536 + 4 * n * 139264 + 1048576) 65536 && cdArea s k (bNat b 0x58 8) 64 64
    && bNat b 0x28 4 % 64 == 0 && inSpace s k (bNat b 0x28 4) (64 * bNat b 0x2C 2)

/-- Does a hint table lie in stacked memory. -/
def cdHintsHere (s : State) (k : Nat) (b : List Byte) : Bool :=
  let n := 16 * bNat b 0x34 2
  n == 0 || (decide (bNat b 0x38 8 + n ≤ 2 ^ 48) && (dvaFault s k 48 (bNat b 0x38 8) n false).isNone && !dvaHost s k 48 (bNat b 0x38 8) n false)

/-- R284: the first failure of a context descriptor; `h` is the hint table (DEDUCED, assumption log 46). -/
def cdCheck (s : State) (k : Nat) (b h : List Byte) : Option Nat :=
  let key := bNat b 4 2
  firstErr [
    (cdReserved b || hintsRsv h, stRESERVED),
    (decide (8 ≤ (liveCtxs s k).length), stCONTEXT_LIMIT),
    (key == 0 || !partHasKey s k key || (ctxByKey s k key).isSome, stKEY_IN_USE),
    (cdAccBad (bNat b 8 4), stACC_CONFIG),
    (cdConjBad s k (bNat b 0x30 2) (bNat b 0x2E 2) || bNat b 0x20 8 / 2 ^ (4 * (partSlices s k).length) != 0
      || (hintsOf h).any (fun x => decide (752 * (partSlices s k).length < x.page + x.pages)), stCONTEXT_INVALID),
    (!cdAreasOk s k b || !cdHintsHere s k b, stADDRESS)]

/-- R283: the context that a descriptor describes. -/
def ctxFrom (b h : List Byte) : Ctx :=
  { live := true, strict := bit (bNat b 0 4) 0, priority := bits (bNat b 0 4) 3 1, ckey := BitVec.ofNat 16 (bNat b 4 2), spillCount := bNat b 6 2
    vmode := bNat b 8 4, emode := bNat b 0xC 4, seed := bNat b 0x10 8, pentry := bNat b 0x18 8, pstart := bNat b 0x20 8
    bindtab := bNat b 0x28 4, bindcount := bNat b 0x2C 2, conjCount := bNat b 0x2E 2, conjBase := bNat b 0x30 2, quantum := bNat b 0x32 2
    hints := hintsOf h, saveSpm := bNat b 0x40 8, saveAcc := bNat b 0x48 8, saveCore := bNat b 0x50 8, cstatus := bNat b 0x58 8 }

/-- R285: the Conjunctions of a new context. -/
def conjGive (s : State) (x : Ctx) : State :=
  { s with conj := (conjRange x.conjBase x.conjCount).foldl (fun m j => mapIns m j { key := x.ckey }) s.conj }

/-- R297: a context that has become runnable takes over from a running one of lower priority. -/
def ctxArrives (s : State) (c : Nat) : State :=
  match runningOf s (c / 8) with
  | some r => if (ctxOf s r).priority < (ctxOf s c).priority ∧ !standby s c then decideSwitch s r else s
  | none => s

/-- R560: a CREATE that is refused is recorded (DEDUCED, assumption log 46). -/
def createRefuse (s : State) (id k key status : Nat) : State :=
  audit (descEnd s id status 0 0) { kind := 4, part := k, aflags := 1, addr := key, detail := status }

/-- R284, R285: a context descriptor has been read: the context is created, or refused. -/
def ctxCreate (s : State) (id k : Nat) (b h : List Byte) : State :=
  let key := bNat b 4 2
  match cdCheck s k b h with
  | some st => createRefuse s id k key st
  | none =>
    match ((List.range 8).map (8 * k + ·)).find? fun c => !(ctxOf s c).live with
    | none => createRefuse s id k key stCONTEXT_LIMIT
    | some c =>
      let x := ctxFrom b h
      let s := conjGive { s with ctxs := mapIns s.ctxs c x, runs := mapIns s.runs c {} } x
      let s := auditCore s 4 k key 0 0
      ctxArrives (descEnd s id stOK 0 key) c

/-- LAUNCH_CREATE (R283 to R285, R355, R526, R545) (DEDUCED, assumption log 46). -/
def execLaunchCreate (d now : Nat) (s : State) : Res :=
  let s := atTime s now
  ran s (match descLive s d dtLAUNCH 0 with
    | none => s
    | some x =>
      let k := x.part
      let a := dNat x 0x10 8
      if !partActive s k then createRefuse s d k 0 stCONTEXT_INVALID
      else if (partSlices s k).any fun sl => !stackOnline s sl then createRefuse s d k 0 stSTACK_OFFLINE
      else if arSpad a || a % 64 != 0 then createRefuse s d k 0 stADDRESS
      else
        gatherParts d (8 * k) (fun b =>
          if b.length < 128 then some (a, 128)
          else if b.length = 128 ∧ bNat b 0x34 2 ≠ 0 ∧ bNat b 0x34 2 ≤ 64 ∧ cdHintsHere s k b then some (bNat b 0x38 8, 16 * bNat b 0x34 2)
          else none) (fun s b => ctxCreate s d k (b.take 128) (b.drop 128)) 4 (updDesc s d fun y => { y with st := .running }))

/-- R526: the issue record that a LAUNCH PROGRAM descriptor stands for. -/
def launchIssue (d : Desc) : IssueRec :=
  { prog := dNat d 0x10 4, statusAddr := dNat d 0x14 4, cconj := 0, cvalid := false, cinc := 0, rtag := dNat d 0x1C 4, mtarget := none, rsv := false }

/-- LAUNCH_PROGRAM (R526, R139, R142). -/
def execLaunchProgram (d : Nat) (s : State) : Res :=
  ran s (match descReady s d dtLAUNCH 1 with
    | none => s
    | some x =>
      match dCtx s x with
      | none => s
      | some c =>
        if !(runOf s c).accepting then s
        else
          let i := launchIssue x
          acceptWork (updDesc s d fun y => { y with st := .running })
            { kind := if dNat x 0x18 1 = 0 then .tile else .element, cid := c, owner := 6144, seq := 0, issue := i
              noStatus := i.statusAddr % 32 != 0 || !inSpace s (c / 8) i.statusAddr 32, noSignal := true
              deferrable := dDefer x, desc := some d })

/-- LAUNCH_END (R526). -/
def execLaunchEnd (d now : Nat) (s : State) : Res :=
  let s := atTime s now
  ran s (match descReady s d dtLAUNCH 2 with
    | none => s
    | some x =>
      match dCtx s x with
      | none => s
      | some c => descEnd (ctxEnd s c stTEARDOWN (some d)) d stOK 0 0)

end Sys2Proof.Machine
end

