-- ==== Sys2Proof/Machine/MaintOps.lean ====
section
/-! DEFINITION. Maintenance tokens and activities: how one begins, takes its slice out of service, and ends
(spec/20_fault_handling.md R599 to R606, spec/17_command_rings.md R533). -/

namespace Sys2Proof.Machine

/-- R542. -/
def stMAINT_BUSY : Nat := 0xB5
/-- R542. -/
def stMAINT_SCOPE : Nat := 0xB6
/-- R604: activities. -/
def maSTRESS : Nat := 1
/-- R604. -/
def maCALIBRATE : Nat := 2
/-- R604. -/
def maSCRUB : Nat := 3
/-- R604. -/
def maSTACK_TEST : Nat := 4
/-- R604. -/
def maUNIT_TEST : Nat := 5
/-- R606: activity results: 0 STARTED, 1 OK. -/
def mrOK : Nat := 1
/-- R606. -/
def mrABORTED : Nat := 2
/-- R606. -/
def mrEVAC_SPACE : Nat := 3
/-- R606. -/
def mrDIP_ABANDON : Nat := 4

/-- R605: may an activity share the token with one that holds it. -/
def tokenShare (a : Act) (kind unit : Nat) : Bool :=
  (a.kind == 3 && kind == 5) || (a.kind == 5 && kind == 3) || (a.kind == 5 && kind == 5 && a.unit != unit)

/-- R605: may an activity take its share of a slice's token now. -/
def tokenOk (s : State) (kind sl unit : Nat) : Bool := s.acts.all fun a => a.slice != sl || tokenShare a kind unit

/-! ### Units (R599, R602) -/

/-- R27: fuse value of a unit's trim code, 4 to 8 (DESIGN CHOICE, assumption log 13). -/
def fuseTrim (s : State) (sl u : Nat) : Nat := mapGet 6 s.nvm.trims (32 * sl + u)

/-- Sets a unit's trim in RAS_UNIT and in the unit's own status register. -/
def trimSet (s : State) (sl u t : Nat) : State :=
  let s := setFld s (aRAS_UNIT sl u) 5 2 t
  match unitStatus sl u with
  | some a => setFld s a 15 12 t
  | none => s

/-- The trim of a unit's health record, or its fuse value. -/
def healthTrim (s : State) (sl u : Nat) : Nat :=
  match mapFind s.nvm.health (32 * sl + u) with
  | some h => bits h 5 2
  | none => fuseTrim s sl u

/-- R600: does a unit stay out of service until a STRESS: it has passed the quick test twice within 24 h. -/
def quickHeld (s : State) (sl u : Nat) : Bool := decide (2 ≤ (mapGet [] s.field.passed (32 * sl + u)).length)

/-- Returns a unit to service, unless it is RETIRED or held until a STRESS. -/
def unitReturn (s : State) (sl u : Nat) : State :=
  unitOos s sl u (fld s (aRAS_UNIT sl u) 1 0 == 2 || quickHeld s sl u)

/-- R598, R599: a change of a unit's health: recorded and reported. `exhausted`: REMEDY_EXHAUSTED. -/
def healthNote (s : State) (sl u : Nat) (exhausted : Bool) : State :=
  let x := regGet s (aRAS_UNIT sl u)
  unitSave (report s clUNIT 0x10 (partByte s sl) sl u [bits x 1 0, bits x 5 2, bits x 7 6, if exhausted then 1 else 0]) sl u

/-- R602: retires a unit. -/
def unitRetire (s : State) (sl u : Nat) : State :=
  healthNote (unitOos (setFld s (aRAS_UNIT sl u) 1 0 2) sl u true) sl u false

/-- What a STRESS makes of a unit, test by test. -/
structure Remedy where
  st : Nat
  trim : Nat
  off : Nat
  changed : Bool := false
  exhausted : Bool := false
  over_ : Bool := false

/-- R602: one test at the three points. `m`: the points failed, bit 0 V_T, bit 1 −80 mV, bit 2 +60 mV. -/
def stressTest (fuse : Nat) (r : Remedy) (m : Nat) : Remedy :=
  if r.over_ then r
  else if bit m 0 then { r with st := 2, over_ := true }
  else if m % 8 = 0 then { r with over_ := true }
  else
    let longer := bit m 1 && decide (r.trim < min 15 (fuse + 3))
    let higher := (bit m 2 || (bit m 1 && !longer)) && decide (r.off < 2)
    let r := { r with trim := if longer then r.trim + 1 else r.trim, off := if higher then r.off + 1 else r.off, st := 1 }
    if longer || higher then { r with changed := true } else { r with exhausted := true, over_ := true }

/-- R602: the outcome of a unit, its tests in order; a test that is not listed passes. -/
def stressUnit (s : State) (sl u : Nat) (tests : List Nat) : Remedy :=
  let x := regGet s (aRAS_UNIT sl u)
  tests.foldl (stressTest (fuseTrim s sl u)) { st := bits x 1 0, trim := bits x 5 2, off := bits x 7 6 }

/-- R602: gives a unit its outcome. -/
def stressApply (s : State) (sl u : Nat) (r : Remedy) : State :=
  let x := regGet s (aRAS_UNIT sl u)
  if bits x 1 0 = r.st ∧ bits x 5 2 = r.trim ∧ bits x 7 6 = r.off ∧ !r.exhausted then s
  else healthNote (setFld (setFld (trimSet s sl u r.trim) (aRAS_UNIT sl u) 1 0 r.st) (aRAS_UNIT sl u) 7 6 r.off) sl u r.exhausted

/-! ### Result records (R606) -/

/-- The fields of a result record that a STRESS or a run fills. -/
structure MaintRes where
  status : Nat
  passed : Nat := 0
  suspected : Nat := 0
  retired : Nat := 0
  remedied : Nat := 0
  repeats : Nat := 0
  detail : Nat := 0

/-- R606: the 64 bytes of a result record. -/
def maintRec (a : Act) (r : MaintRes) (endT : Nat) : List Byte :=
  natLe 1 r.status ++ natLe 1 a.kind ++ natLe 1 a.slice ++ natLe 1 0 ++ natLe 4 r.passed ++ natLe 4 r.suspected ++ natLe 4 r.retired ++
  natLe 4 r.remedied ++ natLe 2 r.repeats ++ natLe 2 0 ++ natLe 8 a.since ++ natLe 8 endT ++ natLe 8 r.detail ++ natLe 8 0 ++ natLe 8 0

/-- R598: the start or the end of an activity; DETAIL holds the first 32 bytes of its result record. -/
def maintReport (s : State) (a : Act) (r : MaintRes) (endT : Nat) : State :=
  let b := maintRec a r endT
  report s clEVENT 0x17 (partByte s a.slice) a.slice (if a.kind = 5 then a.unit else 0xFF)
    ((List.range 4).map fun i => leNat ((b.drop (8 * i)).take 8))

/-! ### Taking a slice out of service (R603 sequence 2) -/

/-- What comes of an evacuation. -/
inductive Evac where
  /-- work of the slice has yet to reach a boundary, or to find another unit -/
  | waits
  /-- the partition cannot take the slice's pages -/
  | noSpace
  | done (s : State)

/-- Does a piece of work hold a unit of a slice. -/
def onSlice (sl : Nat) (p : Prog) : Bool :=
  match p.kind, p.unit with
  | .element, some u => u / 2 == sl
  | .tile, _ => false
  | _, some u => u == sl
  | _, none => false

/-- R603: has the work on a slice reached its boundaries. -/
def sliceQuiet (s : State) (sl : Nat) : Bool :=
  (s.progs.all fun p =>
    (match p.2.comp with | some c => c.verb / 8 != sl | none => true) &&
    (!onSlice sl p.2 || p.2.kind != .element || match mapFind s.infRuns p.1 with | some r => r.upos.isNone && r.group % 1024 == 0 | none => true))
  && ((List.range 4).map (4 * sl + ·)).all fun p => match (coreOf s p).hold with | .host _ => false | _ => true

/-- The pages that lie in a slice: context and page. -/
def slicePages (s : State) (sl : Nat) : List (Nat × Nat) :=
  s.ctxs.flatMap fun c => (c.2.pages.filter fun p => match p.2.phys with | some (k, _) => k == sl | none => false).map fun p => (c.1, p.1)

/-- R603: moves the pages of a slice to the nearest slices of its partition that have room. -/
def pagesLeave (s : State) (sl : Nat) (others : List Nat) : State :=
  (slicePages s sl).foldl (fun s cp =>
    match nearest sl (others.filter fun k => (freePage s k 768).isSome) with
    | some k => match freePage s k 768 with | some q => pageMove s cp.1 cp.2 k q | none => s
    | none => s) s

/-- R603: the Particles of a slice are saved and resume on unstarted ones of the partition, or are held. -/
def particlesLeave (s : State) (sl k : Nat) : State :=
  ((List.range 4).map (4 * sl + ·)).foldl (fun s p =>
    let q := partOf s p
    match q.lp with
    | none => s
    | some lp =>
      let c := saveCoreOf q.core
      let s := updPart s p fun q => { lp := none, core := { overlay := q.core.overlay } }
      match (freePrts s k).find? fun n => n / 4 != sl && prtGood s n with
      | some n => { updPart s n fun x => { lp := some lp, running := q.running, core := wakeCore s.free x.core.overlay c } with free := s.free + 4 }
      | none => { s with saved := mapIns s.saved lp ⟨c, q.running⟩ }) s

/-- R603 sequence 2. -/
def evacuate (s : State) (sl : Nat) : Evac :=
  match sliceOwner s sl with
  | none => .done s
  | some k =>
    let others := (partSlices s k).filter (· != sl)
    let room := (others.map fun o => 768 - (usedPages s o).length).sum
    if others = [] ∨ room < (slicePages s sl).length then .noSpace
    else if !sliceQuiet s sl then .waits
    else
      let s := { s with pmoves := s.pmoves.filter fun m => m.sl != sl && !(slicePages s sl).contains (m.cid, m.page) }
      let s := (s.progs.filter fun p => match p.2.space with | .verb v => v / 8 == sl | _ => false).foldl (fun s p => spillSpace s p.1) s
      let s := particlesLeave (pagesLeave s sl others) sl k
      let moved := s.progs.filter fun p => onSlice sl p.2 && p.2.ended.isNone
      let s := moved.foldl (fun s p =>
        match progOf s p.1 with
        | some q => unitBack (updProg (unitsDrop s p.1) p.1 fun x => { x with unit := q.unit }) q.cid p.1
        | none => s) s
      if s.progs.any (fun p => onSlice sl p.2 && p.2.ended.isNone) then .waits else .done s

/-! ### Start and end -/

/-- Changes the activities that satisfy a condition. -/
def updActs (s : State) (c : Act → Bool) (f : Act → Act) : State := { s with acts := s.acts.map fun a => if c a then f a else a }

/-- An activity takes its share of the token and begins. -/
def actBegin (s : State) (a : Act) : State :=
  let a := { a with since := s.tense.toNat }
  let s := maintReport { s with acts := s.acts ++ [a] } a { status := 0 } 0
  if a.kind = 5 then unitOos s a.slice a.unit true
  else if (sliceOwner s a.slice).isNone ∧ a.kind ≠ 3 then slicePower s a.slice
  else s

/-- R603 sequence 7, R604: an activity ends: its slice or unit returns to service, its record is written, DONE_CONJ is signalled and
its share of the token is free (DEDUCED, assumption log 89). -/
def actEnd (s : State) (a : Act) (r : MaintRes) : State :=
  let sl := a.slice
  let s := { s with acts := s.acts.erase a }
  let s := if a.kind = 5 then
      let s := unitReturn (trimSet s sl a.unit (healthTrim s sl a.unit)) sl a.unit
      -- R290: a targeted program is aborted at its next boundary
      { s with progs := s.progs.map fun p => if p.2.issue.mtarget = some (sl, a.unit) then (p.1, { p.2 with abort := true }) else p }
    else if a.out && a.kind != 3 then
      let s := (List.range 18).foldl (fun s u => unitReturn s sl u) s
      match sliceOwner s sl with
      | some k =>
        let s := dvSet (dvSet s sl (spOf s sl)) (12 + sl) (spOf s (12 + sl))
        match runningOf s k with
        | some c => seatSaved s c false
        | none => s
      | none => sliceIdle s sl
    else if (sliceOwner s sl).isNone ∧ a.kind ≠ 3 then sliceIdle s sl
    else s
  let now := s.tense.toNat
  let s := match a.result with
    | some x => if a.part < 12 ∧ areaCheck s (8 * a.part) 48 x 64 0 true = none then areaStore s (8 * a.part) 48 x (maintRec a r now) false else s
    | none => s
  let s := match a.conj with
    | some j => conjSignal s j 1 (r.status != mrOK) (match ctxByConj s a.part j with | some c => (ctxOf s c).ckey | none => 0)
    | none => s
  maintReport s a r now

/-- R601 to R604: the slice is out of service, and the activity's own work begins: a STRESS sets the voltage of its tests, a STACK_TEST
starts the destructive run. -/
def actOut (s : State) (a : Act) : State :=
  let sl := a.slice
  let s := updActs s (· == a) fun a => { a with out := true }
  let s := (List.range 18).foldl (fun s u => unitOos s sl u true) s
  if a.kind = 1 then dvSet (dvSet s sl (spOf s sl)) (12 + sl) (spOf s (12 + sl))
  else if a.kind = 4 then
    let c := aHBM_TG_CTL sl
    tgStart (setFld (setFld s c 31 16 (bits a.tg 31 16)) c 10 2 (bits a.tg 10 2 ||| 1)) sl true
  else s

/-- R603: an activity that takes its slice out of service goes on as far as it can (DEDUCED, assumption log 89). -/
def actEvac (s : State) (a : Act) : State :=
  match evacuate s a.slice with
  | .waits => s
  | .noSpace => actEnd s a { status := mrEVAC_SPACE }
  | .done s => actOut s a

/-- R533, R606: a MAINT START descriptor: its PARAMS are read, and the activity starts or is refused (DEDUCED, assumption log 89). -/
def maintStart (s : State) (id kind : Nat) (x : Desc) : State :=
  let k := x.part
  let sl := dNat x 0x11 1
  let pa := dNat x 0x18 8
  let ra := dNat x 0x20 8
  if !(partSlices s k).contains sl then descEnd s id stMAINT_SCOPE 0 0
  else if arSpad pa || arSpad ra then descEnd s id stADDRESS 0 0
  else
    gatherParts id (8 * k) (fun b => if b.length < 16 then some (pa, 16) else none) (fun s b =>
      let unit := if kind = 5 then bNat b 2 1 else 0xFF
      match areaCheck s (8 * k) 48 ra 64 0 true with
      | some (s, st) => descEnd s id st 0 0
      | none =>
        if kind = 5 ∧ 18 ≤ unit then descEnd s id stRESERVED 0 0
        else if !tokenOk s kind sl unit then descEnd s id stMAINT_BUSY 0 0
        else
          let s := actBegin s { kind := kind, slice := sl, unit := unit, part := k, result := some ra, conj := some (bNat b 0 2 % 2 ^ 14)
                                tg := bNat b 8 8 }
          let s := if kind = 5 ∧ bit (bNat b 3 1) 7 then trimSet s sl unit (bNat b 3 1 % 16) else s
          descEnd s id stOK 0 0) 3 (updDesc s id fun y => { y with st := .running })

/-- A MAINT descriptor of a form and activity, whose command may begin or goes on. -/
def maintDesc (s : State) (id fm kind : Nat) : Option Desc :=
  match mapFind s.descs id with
  | some d => if (d.st = .accepted ∨ d.st = .running) ∧ dType d = dtMAINT ∧ dForm d = fm ∧ dNat d 0x10 1 = kind then some d else none
  | none => none

/-- R579, R598: has the Syntax core scheduled an activity of a kind on a slice that may begin now. -/
def coreDue (s : State) (kind sl : Nat) : Bool :=
  devReady s && pwrState s == 0 && tokenOk s kind sl 0xFF && ((kind == 2 && s.pwr.calDue.contains sl) || (kind == 4 && s.escaped.contains sl))

/-- The command of an activity that takes its slice out of service: while one of slice `sl` is in evacuation it goes on; else descriptor
`d` starts, or what the Syntax core has scheduled (DEDUCED, assumption log 89). -/
def maintStep (s : State) (d sl kind : Nat) : State :=
  match s.acts.find? fun a => a.kind == kind && a.slice == sl && !a.out with
  | some a => actEvac s a
  | none =>
    match maintDesc s d 0 kind with
    | some x => maintStart s d kind x
    | none =>
      if coreDue s kind sl then
        actBegin { s with escaped := if kind = 4 then s.escaped.filter (· != sl) else s.escaped } { kind := kind, slice := sl }
      else s

end Sys2Proof.Machine
end

