-- ==== Sys2Proof/Machine/PowerOps.lean ====
section
/-! DEFINITION. Power estimate, thermal rules, dips, calibration states and Ellipsis: shared operations
(spec/19_power_and_ellipsis.md R568 to R585, spec/20_fault_handling.md R589, R592, spec/23_package_and_signals.md R654 to R657). -/

namespace Sys2Proof.Machine

/-- A periodic reading: the state with its time noted, where the period has passed since the last one (DEDUCED, assumption log 80). -/
def periodic (s : State) (key ns : Nat) : Option State :=
  let due : Bool := match mapFind s.pwr.lastAt key with | some t => decide (t + ns ≤ s.tense.toNat) | none => true
  if clocksRun s && due then some { s with pwr := { s.pwr with lastAt := mapIns s.pwr.lastAt key s.tense.toNat } } else none

/-- R589, R592, R657: a report of class CONTAINED with cause RAIL. -/
def railReport (s : State) (sl : Nat) (detail : List Nat) : State :=
  report s clCONTAINED 0xE (if sl < 12 then partByte s sl else 0xFF) sl 0xFF detail

/-! ### Set points (R568 to R571) -/

/-- R570, R571: the ceilings that `n` steps of 5 mV give the slices of partition `k`: the compute domains fall first, to their floors, and
then the scratchpad domains (DESIGN CHOICE, assumption log 78). -/
def powerSteps (s : State) (k n : Nat) : State :=
  let d := fld s (aPWR_PART_SP k) 7 0
  let sls := partSlices s k
  let low := sls.foldl (fun a sl => min a (floorOf s sl)) d
  let m := min n (d - low)
  let ceil (x : Nat) (ds : List Nat) (l : Map Nat) : Map Nat :=
    ds.foldl (fun l i => if x = 0 then mapDel l i else mapIns l i (d - x)) l
  { s with pwr := { s.pwr with pceil := ceil (n - m) (sls.map (12 + ·)) (ceil m sls s.pwr.pceil) } }

/-- R572: does the hottest sensor of set `i` stand above TJ_TARGET. -/
def tooHot (s : State) (i : Nat) : Bool := decide ((fld s aPWR_LIMIT 46 40 : Int) < sext 8 (mapGet 0 s.pwr.tj i))

/-- R572: the ceiling of a domain after a period: 5 mV lower while a set of its sensors stands above TJ_TARGET, else 5 mV higher
(DEDUCED, assumption log 79). -/
def thermalCeil (s : State) (d : Nat) : Nat :=
  let c := mapGet 170 s.pwr.tceil d
  if (domSensors d).any (tooHot s) then max 110 (c - 1) else min 170 (c + 1)

/-- R572: the ceilings of temperature. Each fall counts as a set point lowered for temperature (R422) (DEDUCED, assumption log 79). -/
def thermalStep (s : State) : State :=
  let ceils := (List.range 41).foldl (fun m d => mapSet 170 m d (thermalCeil s d)) s.pwr.tceil
  let hot := ((List.range 12).filter (tooHot s)).filterMap (sliceOwner s)
  { s with
    pwr := { s.pwr with tceil := ceils }
    groups := s.groups.map fun g =>
      if hot.contains (g.2.cid / 8) then (g.1, { g.2 with run := g.2.run.map fun r => { r with thermal := true } }) else g }

/-- R568: every powered domain takes its set point. -/
def dvAll (s : State) : State := vinFollow ((List.range 41).foldl (fun s d => if domOn s d then dvSet s d (spOf s d) else s) s)

/-- R569: the slice of highest compute power on which work is still placed. -/
def hungriest (s : State) : Option Nat :=
  ((List.range 12).filter fun sl => computeOn s sl && !s.pwr.held.contains sl).foldl (fun b sl => match b with
    | none => some sl
    | some a => if fld s (aPWR_DOM a) 47 32 < fld s (aPWR_DOM sl) 47 32 then some sl else some a) none

/-- R586: LIMITING and HOLDING. -/
def powerFlags (s : State) : State :=
  let lim := (List.range 41).any fun d => domOn s d && decide (ceilOf s d < demandOf s d)
  setFld (setFld s aPWR_STATUS 2 2 (if lim then 1 else 0)) aPWR_STATUS 3 3 (if s.pwr.held.isEmpty then 0 else 1)

/-! ### Estimate and load class (R570, R576, R578) -/

/-- R576: the class of a power, in units of 0.1 W. -/
def classOf (p : Nat) : Nat := if p < 150 then 0 else if p < 500 then 1 else if p < 900 then 2 else 3

/-- R577, R586: PWR_CAL shows the class and the records of a slice. -/
def calShow (s : State) (sl : Nat) : State :=
  let a := aPWR_CAL sl
  let st (k : Nat) : Nat := match calRec s sl k with | some r => r.st | none => 3
  let s := setFld (setFld (setFld s a 5 4 (st 0)) a 7 6 (st 1)) a 9 8 (st 2)
  setFld (setFld s a 3 2 (match calRec s sl 0 with | some r => r.cls | none => 0)) a 23 16 (calGuard s sl 0)

/-- R578: the records that the load class of a slice passes become PROVISIONAL. -/
def calPass (s : State) (sl : Nat) : State :=
  let s := [0, 1, 2].foldl (fun s k => match calRec s sl k with
    | some r => if r.cls < loadClass s sl ∧ r.st = 0 then
        { s with nvm := { s.nvm with cal := mapIns s.nvm.cal (4 * sl + k) { r with st := 1 } } } else s
    | none => s) s
  calShow s sl

/-- R576, R579: a slice's load class from its compute power of a millisecond. -/
def classStep (s : State) (sl p : Nat) : State :=
  let l := (p :: mapGet [] s.pwr.load sl).take 100
  let s := { s with pwr := { s.pwr with load := mapIns s.pwr.load sl l } }
  let c := classOf (l.sum / l.length)
  if c = loadClass s sl then s
  else calPass { setFld s (aPWR_CAL sl) 1 0 c with pwr := { s.pwr with clsAt := mapIns s.pwr.clsAt sl s.tense.toNat } } sl

/-- R570: one estimate: the powers of the domains, the stacks and the boundary, in units of 0.1 W. -/
def estimate (s : State) (doms : List Nat) (rest : Nat) : State :=
  let tot := ((doms.take 42).sum + rest : Int) + s.pwr.corr
  let est := ((tot.toNat, doms) :: s.pwr.est).take 10
  let s := { s with pwr := { s.pwr with est := est } }
  let n := est.length
  let s := setFld s aPWR_STATUS 31 16 (min 65535 ((est.map (·.1)).sum / n / 10))
  let s := (List.range 42).foldl (fun s d => setFld s (aPWR_DOM d) 47 32 (min 65535 ((est.map fun e => e.2.getD d 0).sum / n))) s
  (List.range 12).foldl (fun s sl => classStep s sl (doms.getD sl 0)) s

/-- R657: a transaction with regulator `i` (0 to 8: 40h to 48h) that fails or not; the third failure in a row is reported, and the
regulator is not reached until one succeeds (DEDUCED, assumption log 80). -/
def pmbusResult (s : State) (i : Nat) (ok : Bool) : State :=
  if ok then { s with pwr := { s.pwr with fails := mapDel s.pwr.fails i, lost := s.pwr.lost.filter (· != i) } }
  else
    let n := mapGet 0 s.pwr.fails i + 1
    let s := { s with pwr := { s.pwr with fails := mapIns s.pwr.fails i n } }
    if n = 3 then railReport { s with pwr := { s.pwr with lost := s.pwr.lost ++ [i] } } 0xFF [0x40 + i] else s

/-! ### Junction temperature (R572, R589) -/

/-- Puts a reading in its place in a rising list. -/
def putRising (x : Int) : List Int → List Int
  | [] => [x]
  | y :: r => if x ≤ y then x :: y :: r else y :: putRising x r

/-- Twice the median of four readings, or of two (DEDUCED, assumption log 80). -/
def median2 (l : List Int) : Int :=
  let s := l.foldr putRising []
  s.getD ((s.length - 1) / 2) 0 + s.getD (s.length / 2) 0

/-- R589: the readings of a set with the sensors that differ by more than 10 °C from the median marked. -/
def sensorCheck (l : List Int) : List (Int × Bool) := l.map fun t => (t, decide ((2 * t - median2 l).natAbs > 20))

/-- The sensors of a slice, or of switch half `i − 12`. -/
def sensorSet (i : Nat) : List Nat := if i < 12 then (List.range 4).map (4 * i + ·) else (List.range 2).map (48 + 2 * (i - 12) + ·)

/-- R612: a FAILOVER leaves at once on each paired mirror port that is UP (DEDUCED, assumption log 69). -/
def failoverNow (s : State) : State :=
  if fld s aRAS_PAIR 0 0 = 1 ∧ (pairState s = 1 ∨ pairState s = 2 ∨ pairState s = 3) then
    (pairPorts s).foldl (fun s p =>
      if portUp s p then
        let step := match pairCtx s with | some c => (runOf s c).step | none => 0
        let body := natLe 2 128 ++ natLe 6 0 ++ natLe 8 pairAddr
        let bs := (natLe 8 5 ++ natLe 8 step ++ List.replicate 112 0).take 128
        sendPkt s p (mkPkt s ptDATA 0 (fld s aRAS_PAIR 31 16) (fld s (aYLV_PORT_STATUS p) 31 16) 0 mirrorTag body bs 0)
      else s) s
  else s

/-- R572, R656: a thermal trip: everything but the always-on domain is switched off, RAIL_EN falls, THERMTRIP_N is asserted (DEDUCED, assumption log 85). -/
def thermalTrip (s : State) (i : Nat) : State :=
  let s := failoverNow s
  let s := report s clEVENT 0x12 (if i < 12 then partByte s i else 0xFF) (if i < 12 then i else 0xFF) 0xFF [mapGet 0 s.pwr.tj i]
  let s := (List.range 41).foldl domOff s
  { setFld s aPWR_STATUS 1 0 0 with pins := { s.pins with trip := true, railEn := false }, pwr := { s.pwr with rails := [] }, wakeWant := none }

/-- R572, R589: one set's readings. -/
def sensorStep (s : State) (i : Nat) (temps : List Int) : State :=
  let ids := sensorSet i
  let l := sensorCheck (ids.map fun n => temps.getD n 0)
  let sl := if i < 12 then i else 0xFF
  let s := (ids.zip l).foldl (fun s x =>
    if x.2.2 && !s.pwr.badSens.contains x.1 then
      report { s with pwr := { s.pwr with badSens := s.pwr.badSens ++ [x.1] } } clCONTAINED 0xF (if i < 12 then partByte s i else 0xFF) sl 0xFF [x.1]
    else if x.2.2 then s
    else { s with pwr := { s.pwr with badSens := s.pwr.badSens.filter (· != x.1) } }) s
  match (l.filter fun x => !x.2).map (·.1) with
  | [] => s
  | t :: ts =>
    let hot := ts.foldl max t
    let s := { s with pwr := { s.pwr with tj := mapIns s.pwr.tj i (toTwos 8 hot) } }
    let ds := (List.range 41).filter fun d => (domSensors d).contains i
    let s := ds.foldl (fun s d =>
      let worst := (domSensors d).foldl (fun (a : Int) j => max a (sext 8 (mapGet 0 s.pwr.tj j))) hot
      setFld s (aPWR_DOM d) 55 48 (toTwos 8 worst)) s
    let held := s.pwr.therm.contains i
    let s := if 105 ≤ hot ∧ !held then
        let s := report { s with pwr := { s.pwr with therm := s.pwr.therm ++ [i] } } clEVENT 0x12 (if i < 12 then partByte s i else 0xFF) sl 0xFF [toTwos 8 hot]
        ds.foldl (fun s d => if domOn s d then dvSet s d (spOf s d) else s) s
      else if hot < 100 then { s with pwr := { s.pwr with therm := s.pwr.therm.filter (· != i) } }
      else s
    let s := setFld s aPWR_STATUS 4 4 (if s.pwr.therm.any (· < 12) then 1 else 0)
    if 115 ≤ hot ∧ !s.pins.trip then thermalTrip s i else s

/-! ### Dips (R573 to R575, R592) -/

/-- R573: warning level of a domain, in mV: with the lower of the old and new set point while it moves. -/
def warnLevel (s : State) (d : Nat) : Nat :=
  let sp := fld s (aPWR_DOM d) 7 0
  let sp := match mapFind s.pwr.moves d with | some (old, t) => if s.tense.toNat < t then min old sp else sp | none => sp
  min 560 (5 * sp - 30)

/-- R592: the reading that R573 takes, and whether the monitors and the telemetry disagree by more than 15 mV (DEDUCED, assumption log 80). -/
def monitorPick (a b : Nat) (tele : Option Nat) : Nat × Bool :=
  let far (x y : Nat) : Bool := decide (x + 15 < y) || decide (y + 15 < x)
  let bad := far a b || match tele with | some t => far a t || far b t | none => false
  (if bad then max a b else min a b, bad)

/-- R574: a sample of a rail joins or opens a dip event, or brings its rail back toward the event's end. -/
def dipSample (s : State) (d v : Nat) : State :=
  let w := warnLevel s d
  let now := s.tense.toNat
  let low (e : Dip) : Dip := if v < e.minV then { e with minV := v, minDom := d } else e
  match s.pwr.dip with
  | none => if v < w then { s with pwr := { s.pwr with dip := some { start := now, doms := [(d, none)], minV := v, minDom := d } } } else s
  | some e =>
    if v < w then { s with pwr := { s.pwr with dip := some (low { e with doms := mapIns e.doms d none }) } }
    else
      match mapFind e.doms d with
      | none => s
      | some since =>
        let since' := if v ≤ w + 10 then none else match since with | some t => some t | none => some now
        { s with pwr := { s.pwr with dip := some (low { e with doms := mapIns e.doms d since' }) } }

/-- R573: one sample of a monitored rail, in mV. -/
def railSample (s : State) (d a b : Nat) (tele : Option Nat) : State :=
  let (v, bad) := monitorPick a b tele
  let s := if bad && !s.pwr.mism.contains d then
      let s := { s with pwr := { s.pwr with mism := s.pwr.mism ++ [d] } }
      let s := railReport s (if d < 36 then domSlice d else 0xFF) [d, a, b]
      dvSet s d (spOf s d)
    else s
  let s := setFld s (aPWR_DOM d) 15 8 (min 255 (v / 5))
  let s := if s.pwr.seen.contains d || decide (v < 5 * fld s (aPWR_DOM d) 7 0) then s else { s with pwr := { s.pwr with seen := s.pwr.seen ++ [d] } }
  if !s.pwr.seen.contains d then s
  else
    let n := if a < 500 ∧ b < 500 then mapGet 0 s.pwr.low d + 1 else 0
    dipSample { s with pwr := { s.pwr with low := mapSet 0 s.pwr.low d n } } d v

/-- R575: what the Syntax core does at the end of a dip event (DESIGN CHOICE, assumption log 81) (DEDUCED, assumption log 90). -/
def dipEnd (s : State) (e : Dip) : State :=
  let now := s.tense.toNat
  let a := aPWR_DIP
  let s := setFld (setFld (setFld s a 47 0 e.start) a 53 48 e.minDom) a 63 56 (min 255 (e.minV / 5))
  let s := satFld s aPWR_STATUS 47 32 1
  let det := [e.start, now, e.minV / 5, e.doms.foldl (fun m d => m + 2 ^ d.1) 0]
  let s := report s clEVENT 0x11 0xFF 0xFF 0xFF det
  let dips := (s.pwr.dips.filter fun x => decide (now ≤ x.2 + 60000000000)) ++ [(e.start, now)]
  let s := { s with pwr := { s.pwr with
    dip := none, dips := dips
    raise := e.doms.foldl (fun m d => mapIns m d.1 (now + 10000000000)) s.pwr.raise
    -- R579: the five seconds start again after the event
    clsAt := s.pwr.clsAt.map fun c => (c.1, max c.2 now) } }
  let s := e.doms.foldl (fun s d => dvSet (setBitOf s (aPWR_DOM d.1) 17) d.1 (spOf s d.1)) s
  if 3 ≤ dips.length then report (setBitOf s aPWR_STATUS 5) clEVENT 0x11 0xFF 0xFF 0xFF det else s

/-! ### Ellipsis (R581 to R584) -/

/-- R581: is a request to enter Ellipsis refused. -/
def sleepRefused (s : State) : Bool :=
  !s.acts.isEmpty || (List.range 12).any (fun k => partState s k == 3) || fld s aSYN_LC_CMD 1 1 == 1 || fld s aSYN_FW_STATUS 2 0 == 1
    || (List.range 12).any (fun k => fld s (aHBM_STATUS k) 13 13 == 1) || !devReady s || pwrState s != 0

/-- R581, R582 sequences 1 and 2. -/
def sleepRequest (s : State) : State :=
  if sleepRefused s then setBitOf s aPWR_STATUS 6
  else (List.range 12).foldl (fun s k => match runningOf s k with | some c => decideSwitch s c | none => s) (setFld s aPWR_STATUS 1 0 1)

/-- R582: does an accepted descriptor wait, rather than act: on a Conjunction, a generation or inputs, on its context (which is SAVED), or
for a release of its deferred start (DEDUCED, assumption log 86). -/
def descSettled (d : Desc) : Bool :=
  match d.st with
  | .ended _ _ _ => true
  | .accepted => dDefer d || dType d == dtWAIT || dType d == dtFENCE
  | .running => dType d == dtLAUNCH || dType d == dtSOLVE || dType d == dtASSEMBLE || dType d == dtCOLLECTIVE || dType d == dtWAIT
      || dType d == dtFENCE || (dType d == dtSTEP && decide (d.pos ≤ 1))

/-- R581: does accepted work run (DEDUCED, assumption log 86). -/
def workRuns (s : State) : Bool :=
  s.progs.any (fun p => p.2.wait.isNone) || s.descs.any fun d => match d.2.st with | .ended _ _ _ => false | _ => !descSettled d.2

/-- The cause of the report of an entry into Ellipsis or of a wake, which R598 does not give: a free value (DESIGN CHOICE, assumption log 82). -/
def ellipsisReport (s : State) (detail : List Nat) : State :=
  report { s with free := s.free + 1 } clEVENT ((Config.freeWord s.free).toNat % 256) 0xFF 0xFF 0xFF detail

/-- R582 sequences 4 and 5. -/
def ellipsisEnter (s : State) : State :=
  let s := (List.range 12).foldl (fun s k => clrBitOf (selfRefresh s k true) (aHBM_TG_RESULT k) 0) s
  let s := (List.range 36).foldl domOff s
  ellipsisReport (setFld s aPWR_STATUS 1 0 2) [0]

/-- R584 sequences 1 and 2: the slices of partitions ramp; of the others, the stack controllers (DEDUCED, assumption log 85). -/
def wakeBegin (s : State) (src : Nat) : State :=
  let s := { satFld (setFld s aPWR_STATUS 1 0 3) aPWR_STATUS 63 48 1 with wakeWant := none, pwr := { s.pwr with t0 := s.tense.toNat } }
  let s := ellipsisReport s [1, src]
  vinFollow ((List.range 12).foldl (fun s sl => if (sliceOwner s sl).isSome then slicePower s sl else domPower s (24 + sl)) s)

end Sys2Proof.Machine
end

