-- ==== Sys2Proof/Machine/Boot.lean ====
section
/-! DEFINITION. Resets and the boot (spec/21_reset_and_boot.md R615 to R628, spec/23_package_and_signals.md R654 to R656, R660). -/

namespace Sys2Proof.Machine

/-! ### Resets -/

/-- POWER_ON_RESET (R615). -/
def execPowerOnReset (s : State) : Res := ran s (powerReset s)

/-- COLD_RST_N_ASSERT (R616, R660). -/
def execColdRstNAssert (s : State) : Res := ran s (if s.pins.coldLow then s else coldReset s 1)

/-- SYN_RESET_COLD (R628): carries out a COLD written to SYN_RESET with its key: cause HOST or MGMT by the writer. -/
def execSynResetCold (s : State) : Res :=
  ran s (match strobeOf s aSYN_RESET 8 with
    | none => s
    | some v => coldReset s (if v = 1 + orgMG then 6 else 5))

/-- RAIL_EN_FALL (R656): COLD_RST_N has been low for 1 ms (DEDUCED, assumption log 87). -/
def execRailEnFall (s : State) : Res :=
  ran s (if s.pins.coldLow then { s with pins := { s.pins with railEn := false }, pwr := { s.pwr with rails := [] } } else s)

/-- PERST_N_ASSERT (R627, R656): no effect beyond the pin while the device is held in reset (DEDUCED, assumption log 71). -/
def execPerstNAssert (s : State) : Res :=
  ran s (if s.pins.perst then s
    else
      let s := if s.pins.reset then s else fnResetAll s 0
      let s := if s.pins.reset then s else { s with fns := s.fns.map fun f => (f.1, { f.2 with bme := false, d3hot := false }) }
      { s with pins := { s.pins with perst := true } })

/-- PERST_N_RELEASE (R627). -/
def execPerstNRelease (s : State) : Res := ran s { s with pins := { s.pins with perst := false } }

/-! ### The boot (R619). STATE names the row under way: each event below is the end of its row, and the next row begins. -/

/-- A boot row: at STATE `st`, after release (DEDUCED, assumption log 91). -/
def bootRow (s : State) (st : Nat) (act : State → State) : State :=
  if !s.pins.reset && bootState s == st then setFld (act s) aSYN_BOOT 3 0 (st + 1) else s

/-- R27, R617: every unit takes its fuse trim. -/
def fuseTrims (s : State) : State :=
  (List.range 12).foldl (fun s sl => (List.range 18).foldl (fun s u => trimSet s sl u (fuseTrim s sl u)) s) s

/-- BOOT_RELEASE (R619 sequences 1 and 2, R620): the rails are good and every cause is over. `strap`: I3C_ADDR; `majority`: the fuse copies
have one. -/
def execBootRelease (strap : Nat) (majority : Bool) (s : State) : Res :=
  ran s (if !s.pins.reset then s
    else
      let s := { s with pins := { s.pins with reset := false, coldLow := false }, i3c := { s.i3c with strap := strap % 4 } }
      if !majority then setFld s aSYN_BOOT 3 0 15
      else
        let s := setFld (setFld s aSYN_LC 1 0 s.nvm.lc) aSYN_LC 5 2 s.nvm.allow
        let s := regSet (regSet s (aSYN_SERIAL 0) s.nvm.serial) (aSYN_SERIAL 1) (s.nvm.serial / 2 ^ 64)
        setFld (fuseTrims s) aSYN_BOOT 3 0 1)

/-- BOOT_CLOCKS (R619 sequence 3): CK90 locks; Tense is 0. -/
def execBootClocks (s : State) : Res := ran s (bootRow s 1 fun s => { s with tense := 0 })

/-- BOOT_ROM (R556, R619 sequence 4, R620): the newer bank, else the other; where both fail, FW_FAIL (DESIGN CHOICE, assumption log 7). -/
def execBootRom (now : Nat) (s : State) : Res :=
  let s := atTime s now
  ran s (
    let n := s.nvm.newer
    let ok (b : Nat) : Bool := fwCheck s (s.nvm.banks.getD b [])
    if !s.pins.reset && bootState s == 2 && !ok n && !ok (1 - n) then setFld s aSYN_BOOT 3 0 14
    else bootRow s 2 fun s =>
      let b := if ok n then n else 1 - n
      let img := s.nvm.banks.getD b []
      let s := setFld (setFld s aSYN_BOOT 4 4 b) aSYN_BOOT 5 5 (if ok n then 0 else 1)
      let s := setFld (setFld s aSYN_FW_STATUS 31 16 (fwRelease img)) aSYN_FW_STATUS 63 32 (fwSvn img)
      fwAudit s 0 b (fwSvn img) (fwRelease img) 0)

/-- R599: a unit takes its health record. -/
def healthLoad (s : State) (sl u : Nat) : State :=
  match mapFind s.nvm.health (32 * sl + u) with
  | some h => trimSet (regSet s (aRAS_UNIT sl u) (h % 2 ^ 32)) sl u (bits h 5 2)
  | none => s

/-- BOOT_FW_INIT (R619 sequence 5): health and calibration records. -/
def execBootFwInit (now : Nat) (s : State) : Res :=
  let s := atTime s now
  ran s (bootRow s 3 fun s =>
    let s := (List.range 12).foldl (fun s sl => calShow ((List.range 18).foldl (fun s u => healthLoad s sl u) s) sl) s
    setBitOf (setFld s (aPWR_DOM 41) 7 0 150) (aPWR_DOM 41) 16)

/-- R620: a failure that does not stop the boot: it is reported at READY. -/
def bootFail (s : State) (cls cause sl unit det : Nat) : State :=
  let s := setBitOf s aSYN_BOOT 18
  { s with field := { s.field with bootRpt := s.field.bootRpt ++ [(cls, cause, sl, unit, det)] } }

/-- BOOT_FABRIC_TEST (R619 sequence 6, R620, R655 sequence 3). `failed`: a ring stop or bridge pair fails its self-test. -/
def execBootFabricTest (failed : Bool) (now : Nat) (s : State) : Res :=
  let s := atTime s now
  ran s (bootRow s 4 fun s =>
    let s := { s with
      pins := { s.pins with railEn := true }
      pwr := { s.pwr with rails := [2, 3, 4, 5, 0, 1], vin := [162, 162], ring := if failed then 8 else 0 } }
    let s := [36, 37, 38, 39, 40].foldl domPower s
    if failed then bootFail s clUNIT 0x10 0xFF 0xFF 40 else s)

/-- R619, R620: a unit that fails its built-in tests is RETIRED; its report waits for READY. -/
def bootRetire (s : State) (sl u : Nat) : State :=
  let s := unitOos (setFld s (aRAS_UNIT sl u) 1 0 2) sl u true
  bootFail (unitSave s sl u) clUNIT 0x10 sl u 2

/-- R620: a slice domain that does not reach its set point. -/
def bootDomFail (s : State) (d : Nat) : State :=
  let s := if d < 12 then (List.range 18).foldl (fun s u => unitOos s d u true) s else s
  bootFail (domOff s d) clUNIT 0x10 (domSlice d) 0xFF d

/-- BOOT_SLICES (R619 sequence 7, R620). `failed`: units (slice, unit) that fail their tests; `badDoms`: domains 0 to 23 that do not
reach their set points. -/
def execBootSlices (failed : List (Nat × Nat)) (badDoms : List Nat) (now : Nat) (s : State) : Res :=
  let s := atTime s now
  ran s (bootRow s 5 fun s =>
    let s := (List.range 24).foldl domPower s
    let s := (failed.filter fun x => decide (x.1 < 12) && decide (x.2 < 18)).foldl (fun s x => bootRetire s x.1 x.2) s
    (badDoms.filter (· < 24)).foldl bootDomFail s)

/-- BOOT_STACKS (R619 sequence 8, R620, R655 sequences 4 and 5). `bad`: stacks that fail training or whose PHY domain fails; `unrep`: by
stack, the rows that cannot be repaired (R351). -/
def execBootStacks (bad : List Nat) (unrep : List (Nat × List (Nat × Nat × Nat))) (now : Nat) (s : State) : Res :=
  let s := atTime s now
  ran s (bootRow s 6 fun s =>
    let s := { s with pwr := { s.pwr with rails := s.pwr.rails ++ [8, 6, 7] }, cust := { s.cust with wiping := List.range 12 } }
    (List.range 12).foldl (fun s k =>
      if bad.contains k then bootFail (domOff s (24 + k)) clEVENT 0x13 k 0xFF 0
      else stackTrain (domPower s (24 + k)) k ((unrep.find? fun x => x.1 == k).map (·.2) |>.getD [])) s)

/-- BOOT_WIPE (R623, R624): every slice, and every stack that is online, is zero. -/
def execBootWipe (now : Nat) (s : State) : Res :=
  let s := atTime s now
  ran s (if s.pins.reset || bootState s != 7 || s.cust.wiping.isEmpty then s
    else
      let s := wipeNote (s.cust.wiping.foldl sliceWipe s)
      let on := (List.range 12).foldl (fun m k => if stackOnline s k then m + 2 ^ k else m) 0
      setFld { s with cust := { s.cust with wiping := [] } } aSYN_BOOT 17 6 on)

/-- R626: the slices with a retired unit or a domain switched off, as a mask. -/
def degradedSlices (s : State) : Nat :=
  (List.range 12).foldl (fun m sl =>
    if (List.range 18).any (fun u => fld s (aRAS_UNIT sl u) 1 0 == 2) || !domOn s sl || !domOn s (12 + sl) then m + 2 ^ sl else m) 0

/-- R561, R626: pending audit entries are sent again (DEDUCED, assumption log 91). -/
def audResend (s : State) : State :=
  let n := audNext s
  let p := audPending s
  if !audMirror s then s
  else (List.range p).foldl (fun s i =>
    let q := (n + 2 ^ 32 - p + i) % 2 ^ 32
    match mapFind s.audit (q % 8192) with
    | some e =>
      let (s, r) := sendRpt s (audRpt e)
      { s with audit := mapIns s.audit (q % 8192) { e with rseq := some r.seq } }
    | none => s) s

/-- BOOT_READY (R619 sequence 10, R620, R625, R626, R543): READY; the BOOT record; the failures of the boot; the audit entries; slices,
all unowned, are switched off (DESIGN CHOICE, assumption log 81) (DEDUCED, assumption log 91). -/
def execBootReady (now : Nat) (s : State) : Res :=
  let s := atTime s now
  ran s (if !s.cust.wiping.isEmpty then s
    else bootRow s 7 fun s =>
      let s := setFld s aSYN_BOOT 63 32 (s.tense.toNat / 1000)
      let s := { s with pins := { s.pins with ready := true }, field := { s.field with resentAt := s.tense.toNat, scrubAt := s.tense.toNat } }
      let off := (List.range 12).foldl (fun m k => if stackOnline s k then m else m + 2 ^ k) 0
      let s := report s clEVENT 0x18 0xFF 0xFF 0xFF
        [regGet s aSYN_RST_CAUSE, setBits (regGet s aSYN_BOOT) 3 0 8, fld s aSYN_FW_STATUS 31 16 + 2 ^ 32 * fld s aSYN_FW_STATUS 63 32,
         degradedSlices s + 2 ^ 32 * off]
      let s := s.field.bootRpt.foldl (fun s x => report s x.1 x.2.1 0xFF x.2.2.1 x.2.2.2.1 [x.2.2.2.2]) s
      let s := audResend { s with field := { s.field with bootRpt := [] } }
      (List.range 12).foldl sliceIdle s)

end Sys2Proof.Machine
end

