-- ==== Sys2Proof/Machine/Gloss.lean ====
section
/-! DEFINITION. Inputs, the Gloss and snapshots (spec/14_bit_identity.md R440 to R453, spec/15_training_steps.md R485, R486). -/

namespace Sys2Proof.Machine

/-! ### Inputs (R440, R441, R445) -/

/-- R527: is a PLAIN COPY an external input (DEDUCED, assumption log 64). -/
def cpInput (d : Desc) : Bool := bit (dNat d 0x28 1) 2

/-- Has an OPEN of a context begun that has not ended. -/
def opening (s : State) (c : Nat) : Bool := (ctxOf s c).gloss.isSome && !(ctxOf s c).glossOpen

/-- R444, R445: what refuses an input. `starts`: its COPY begins (DEDUCED, assumption log 64). -/
def inputErr (s : State) (c : Nat) (d : Desc) (starts : Bool) : Option Nat :=
  let st := dNat d 0x38 6
  let x := ctxOf s c
  if st = stepPre ∧ (x.glossOpen ∨ (starts ∧ opening s c)) then some stINPUT_LATE
  else if st ≠ stepPre ∧ x.table.isSome ∧ st < (runOf s c).step then some stINPUT_LATE
  else if x.inputs.any fun i => i.step == st && i.isid == dNat d 0x2C 4 && i.iseq == dNat d 0x30 4 then some stINPUT_DUP
  else if 4096 ≤ x.inputs.length then some stINPUT_FULL
  else none

/-- R508: does an area lie inside its space. -/
def areaInside (s : State) (c r n : Nat) : Bool :=
  if arSpad r then inSpace s (c / 8) (arAddr r) n else decide (arAddr r + n ≤ 2 ^ 48)

/-- R527: a PLAIN COPY moves its next megabyte (DEDUCED, assumption log 66). -/
def copyMove (s : State) (id : Nat) (d : Desc) (c : Nat) : State :=
  let n := min chunkBytes (dNat d 0x20 8 - d.pos)
  let src := dNat d 0x10 8 + d.pos
  let dst := dNat d 0x18 8 + d.pos
  if n = 0 then s
  else
    let rs := areaRuns s c src n (.desc id)
    match areaGather s c 48 src n (dKey d) (.desc id) with
    | (s, .waiting) => s
    | (s, .failed st) => descEnd s id st 0 0
    | (s, .done b po hostData) =>
      match areaCheck s c 48 dst n (dKey d) true with
      | some (s, st) => descEnd s id st 0 0
      | none =>
        let toHost := dvaHost s (c / 8) 48 (arAddr dst) n true && !arSpad dst
        let s := storeRuns s c dst rs
        let s := if hostData && !cpInput d then markUnrec s c else s
        let s := descPoison s id (po && (hostData || toHost))
        let s := updDesc s id fun x => { x with
          pos := x.pos + n, chunks := if cpInput d then x.chunks ++ [(d.pos / chunkBytes, b)] else x.chunks }
        if !cpInput d && decide (d.pos + n = dNat d 0x20 8) then copyEnd s id c else s

/-- COPY_PLAIN (R527, R440): begins, or goes on by a megabyte. -/
def execCopyPlain (d now : Nat) (s : State) : Res :=
  let s := atTime s now
  ran s (match descLive s d dtCOPY 0 with
    | none => s
    | some x =>
      match dCtx s x with
      | none => s
      | some c =>
        let n := dNat x 0x20 8
        if x.st = .accepted then
          if !areaInside s c (dNat x 0x10 8) n || !areaInside s c (dNat x 0x18 8) n then descEnd s d stADDRESS 0 0
          else if cpInput x && !areaAll s c (dNat x 0x10 8) n false true then descEnd s d stFORMAT 0 0
          else
            match (if cpInput x then inputErr s c x true else none) with
            | some st => descEnd s d st 0 0
            | none => copyMove (updDesc s d fun x => { x with st := .running }) d x c
        else copyMove s d x c)

/-- HASH_LANE_CHUNK (R441): a lane completes the digest of chunk `k` of an input. -/
def execHashLaneChunk (d k : Nat) (s : State) : Res :=
  ran s (match mapFind s.descs d with
    | some x =>
      match x.chunks.find? fun y => y.1 == k with
      | some y => updDesc s d fun x => { x with chunks := x.chunks.filter fun z => z.1 != k, digs := x.digs ++ [(k, sha256 y.2)] }
      | none => s
    | none => s)

/-- Digests in increasing chunk number. -/
def digList (d : Desc) : List (List Byte) := (d.digs.mergeSort fun a b => decide (a.1 ≤ b.1)).map (·.2)

/-- INPUT_ACCEPTED (R441, R445, R452). -/
def execInputAccepted (d now : Nat) (s : State) : Res :=
  let s := atTime s now
  ran s (match descRunning s d dtCOPY 0 with
    | none => s
    | some x =>
      match dCtx s x with
      | none => s
      | some c =>
        let n := dNat x 0x20 8
        if !cpInput x || x.pos ≠ n || !x.chunks.isEmpty then s
        else
          match inputErr s c x false with
          | some st => descEnd s d st 0 0
          | none =>
            let (s, cp) := inputCopy s c (dNat x 0x18 8) n
            let i : Input := { isid := dNat x 0x2C 4, iseq := dNat x 0x30 4, step := dNat x 0x38 6
                               digest := cdOuter tagINPUT n (digList x), len := n, copy := cp }
            copyEnd (updCtx s c fun y => { y with inputs := y.inputs ++ [i] }) d c)

/-! ### OPEN (R443, R444) -/

/-- R443: the rules of the gloss setup record. -/
def glossSetupOk (b : List Byte) (at_ : Nat) : Bool :=
  let f (o n : Nat) : Nat := leNat ((b.drop o).take n)
  let fl := f 0 4
  let jc := f 0x18 4
  at_ % 64 == 0 && fl / 4 == 0 && fl != 3 && decide (f 4 4 ≤ 4096) && decide (f 0x1C 4 ≤ 4096)
    && (fl == 0 || (2 ^ clog2 jc == jc && decide (64 ≤ jc) && decide (jc ≤ 2 ^ 24)))
    && f 0x10 8 % 64 == 0 && f 0x20 8 % 64 == 0 && f 0x30 8 % 64 == 0 && f 0x38 8 == 0
    && !([f 8 8, f 0x10 8, f 0x20 8, f 0x30 8].any arRsv)

/-- R443: the Gloss that a setup record describes, not yet formed. -/
def glossOf (b : List Byte) : Gloss :=
  let f (o n : Nat) : Nat := leNat ((b.drop o).take n)
  { record := bit (f 0 4) 0, replay := bit (f 0 4) 1, journal := f 0x10 8, jcount := f 0x18 4, pre := f 0x1C 4, wlist := f 8 8
    wcount := f 4 4, copyArea := f 0x20 8, copyBytes := f 0x28 8, addr := f 0x30 8, step := 2 ^ 64 - 1, p := [], w0 := [], gloss := [] }

/-- STEP_COMMIT_OPEN (R443): reads and checks the setup record and the weight list, and begins to wait. -/
def execStepCommitOpen (d : Nat) (s : State) : Res :=
  ran s (match descReady s d dtSTEP 2 with
    | none => s
    | some x =>
      match dCtx s x with
      | none => s
      | some c =>
        let r := dNat x 0x10 8
        if (ctxOf s c).gloss.isSome then descEnd s d stGLOSS_STATE 0 0
        else
          gatherParts d c (fun b =>
            if b.isEmpty then some (r, 64)
            else if b.length = 64 ∧ glossSetupOk b r ∧ (glossOf b).wcount ≠ 0 then some ((glossOf b).wlist, 32 * (glossOf b).wcount)
            else none) (fun s b =>
              if !glossSetupOk (b.take 64) r then descEnd s d stRESERVED 0 0
              else if !wOk (b.drop 64) then descEnd s d stFORMAT 0 0
              else updDesc (updCtx s c fun y => { y with gloss := some (glossOf b) }) d fun x => { x with st := .running }) 4 s)

/-- R444: the pre-open inputs that OPEN folds: the first PRECOUNT that were accepted, in increasing (ISID, ISEQ) (DEDUCED, assumption log 64). -/
def preInputs (s : State) (c : Nat) (n : Nat) : List Input := inputSort (((ctxOf s c).inputs.filter fun i => i.step == stepPre).take n)

/-- R444: forms p, w0 and the Gloss. -/
def glossForm (s : State) (id c : Nat) : State :=
  match mapFind s.descs id, (ctxOf s c).gloss with
  | some d, some g =>
    let l := preInputs s c g.pre
    let p := sha256 (tagPROG1 ++ natLe 8 l.length ++ l.flatMap inputE)
    let w0 := wdOf d.digs
    let gl := sha256 (tagGLOS0 ++ p ++ w0 ++ natLe 8 (ctxOf s c).seed ++ natLe 8 (runOf s c).step)
    let (s, g, _) := journalInputs s c { g with p := p, w0 := w0, gloss := gl, poison := g.poison || d.note == stPOISONED } l
    let s := updCtx s c fun x => { x with gloss := some g, glossOpen := true, inputs := x.inputs.filter fun i => i.step != stepPre }
    descEnd (glossWrite s c) id d.note 0 0
  | _, _ => s

/-- GLOSS_OPEN (R444) (DEDUCED, assumption log 64). -/
def execGlossOpen (d : Nat) (s : State) : Res :=
  ran s (match descRunning s d dtSTEP 2 with
    | none => s
    | some x =>
      match dCtx s x with
      | none => s
      | some c =>
        match (ctxOf s c).gloss with
        | some g =>
          if (preInputs s c g.pre).length < g.pre then s
          else digestChunks d c (fun s => glossForm s d c) (wChunks (wEnts ((auxBytes x).drop 64))) s
        | none => s)

/-! ### Snapshots (R451, R485, R486) -/

/-- R451: folds WD, and records it (DEDUCED, assumption log 65). -/
def snapFold (s : State) (c : Nat) (wd : List Byte) (poison : Bool) : State :=
  if (ctxOf s c).glossOpen then
    let st := (runOf s c).step
    glossWrite (updGloss s c fun g => { g with
      gloss := sha256 (tagSNAP1 ++ g.gloss ++ natLe 8 st ++ wd), lastWd := wd, lastWstep := st, step := st
      poison := g.poison || poison }) c
  else s

/-- R451: writes chunk digests at DLIST + 32k; none where all are written. -/
def writeDigs (s : State) (c ckey r : Nat) (digs : List (Nat × List Byte)) : State × Option Nat :=
  match areaCheck s c 48 r (32 * (digs.foldl (fun a d => max a (d.1 + 1)) 0)) ckey true with
  | some (s, st) => (s, some st)
  | none => (digs.foldl (fun s d => areaStore s c 48 (r + 32 * d.1) d.2 false) s, none)

/-- R451: the DIGEST form, once every chunk has its digest. -/
def digestForm (s : State) (id c : Nat) : State :=
  match mapFind s.descs id with
  | none => s
  | some d =>
    match writeDigs s c (dKey d) (dNat d 0x18 8) d.digs with
    | (s, some st) => descEnd s id st 0 0
    | (s, none) => descEnd (snapFold s c (wdOf d.digs) (d.note == stPOISONED)) id d.note 0 0

/-- SNAPSHOT_DIGEST (R451, R531). -/
def execSnapshotDigest (d : Nat) (s : State) : Res :=
  ran s (match descLive s d dtSNAPSHOT 0 with
    | none => s
    | some x =>
      match dCtx s x with
      | none => s
      | some c =>
        if !(ctxOf s c).glossOpen then descEnd s d stGLOSS_STATE 0 0
        else
          let n := (((ctxOf s c).gloss).map (·.wcount)).getD 0
          let s := if x.st = .accepted then updDesc (promoteCtx s c) d fun x => { x with st := .running } else s
          gatherParts d c (fun b => if b.length < 32 * n then some (dNat x 0x10 8, 32 * n) else none) (fun s b =>
            if !wOk b then descEnd s d stFORMAT 0 0
            else digestChunks d c (fun s => digestForm s d c) (wChunks (wEnts b)) s) 3 s)

/-- SNAPSHOT_FINAL (R451). -/
def execSnapshotFinal (d : Nat) (s : State) : Res :=
  ran s (match descLive s d dtSNAPSHOT 1 with
    | none => s
    | some x =>
      match dCtx s x with
      | none => s
      | some c =>
        let n := 32 * dNat x 0x2C 4
        let s := if x.st = .accepted then updDesc (promoteCtx s c) d fun x => { x with st := .running } else s
        gatherParts d c (fun b => if b.length < n then some (dNat x 0x18 8, n) else none) (fun s b =>
          let out := dNat x 0x30 8
          match areaCheck s c 48 out 32 (dKey x) true with
          | some (s, st) => descEnd s d st 0 0
          | none => descEnd (areaStore s c 48 out (sha256 (tagWEIGH ++ natLe 8 (dNat x 0x20 8) ++ b)) false) d stOK 0 0) 3 s)

/-- R531: PEER. -/
def exPeer (d : Desc) : Bool := bit (dNat d 0x2C 1) 0

/-- TAG of an EXPORT's DATA writes (DEDUCED, assumption log 65). -/
def exTag (id : Nat) : Nat := id % 65536

/-- R485: sends bytes to a peer as DATA writes with ACKREQ, at most 4,096 to a packet. -/
def peerWrite (s : State) (id : Nat) (d : Desc) (at_ : Nat) (rs : List (List Byte × Bool)) : State :=
  match mapGet .none s.handles (1024 * d.part + dNat d 0x2A 2) with
  | .route dev cid ckt _ =>
    let bs := rs.flatMap fun r => r.1.map fun b => (b, r.2)
    (List.range ((bs.length + 4095) / 4096)).foldl (fun s i =>
      let p := (bs.drop (4096 * i)).take 4096
      let po := (List.range 128).foldl (fun m u => if ((p.drop (32 * u)).take 32).any (·.2) then m ||| 2 ^ u else m) 0
      let body := natLe 2 p.length ++ natLe 6 0 ++ natLe 8 (at_ + 4096 * i)
      let (n, w) := mapGet (0, 0) s.ackWait (exTag id)
      let s := { s with ackWait := mapIns s.ackWait (exTag id) (n + 1, w) }
      inject s 14 (mkPkt s ptDATA (4 + if ckt then 2 else 0) (dKey d) dev (if ckt then cid else 0) (exTag id) body (p.map (·.1)) po) false) s
  | _ => s

/-- R485: writes part of a snapshot at its destination; none, or the status of a failure. -/
def exportPut (s : State) (id c : Nat) (d : Desc) (off : Nat) (rs : List (List Byte × Bool)) : State × Option Nat :=
  let at_ := dNat d 0x18 8 + off
  if exPeer d then (peerWrite s id d at_ rs, none)
  else
    match areaCheck s c 48 at_ (rs.map fun r => r.1.length).sum (dKey d) true with
    | some (s, st) => (s, some st)
    | none => (storeRuns s c at_ rs, none)

/-- R486: the header, the gloss state record and the chunk digests. A context whose Gloss is closed has a record of zeros but for
its flags (DEDUCED, assumption log 65). -/
def exportHead (s : State) (c : Nat) (ws : List WEnt) (digs : List (Nat × List Byte)) : List Byte :=
  let x := ctxOf s c
  let g := x.gloss.getD { record := false, replay := false, journal := 0, jcount := 0, pre := 0, wlist := 0, wcount := 0, copyArea := 0
                          copyBytes := 0, addr := 0, step := 0, p := [], w0 := [], gloss := [] }
  tagEXPRT ++ natLe 8 (runOf s c).step ++ natLe 8 (wLen ws) ++ natLe 8 digs.length ++ wdOf digs ++ glossBytes x g ++
    (digs.mergeSort fun a b => decide (a.1 ≤ b.1)).flatMap (·.2)

/-- R485: writes the chunks still to come of a snapshot; `pos` counts 1 for the head and 1 for each chunk. -/
def exportChunks (id c m : Nat) : List (Nat × Nat × Nat) → Nat → State → State
  | [], _, s => s
  | (_, r, n) :: rest, i, s =>
    match mapFind s.descs id with
    | none => s
    | some d =>
      if d.st ≠ .running ∨ i + 1 < d.pos then exportChunks id c m rest (i + 1) s
      else
        let rs := areaRuns s c r n (.desc id)
        match areaGather s c 48 r n (dKey d) (.desc id) with
        | (s, .waiting) => s
        | (s, .failed st) => descEnd s id st 0 0
        | (s, .done _ po _) =>
          match exportPut s id c d (0x140 + 32 * m + chunkBytes * i) rs with
          | (s, some st) => descEnd s id st 0 0
          | (s, none) => exportChunks id c m rest (i + 1) (descPoison (updDesc s id fun x => { x with pos := i + 2 }) id po)

/-- R485: has every byte been accepted. -/
def exportDone (s : State) (id : Nat) : State :=
  match mapFind s.descs id with
  | none => s
  | some d =>
    if d.st ≠ .running then s
    else if exPeer d then
      match mapFind s.ackWait (exTag id) with
      | some (0, w) => descEnd { s with ackWait := mapDel s.ackWait (exTag id) } id (max w d.note) 0 0
      | some _ => s
      | none => descEnd s id d.note 0 0
    else descEnd s id d.note 0 0

/-- R485: once every chunk has its digest, the fold and the head. -/
def exportForm (s : State) (id c : Nat) (ws : List WEnt) : State :=
  match mapFind s.descs id with
  | none => s
  | some d =>
    let s := if d.pos = 0 then
        let s := snapFold s c (wdOf d.digs) (d.note == stPOISONED)
        match exportPut s id c d 0 [(exportHead s c ws d.digs, false)] with
        | (s, some st) => descEnd s id st 0 0
        | (s, none) => updDesc s id fun x => { x with pos := 1 }
      else s
    let cs := wChunks ws
    let s := exportChunks id c cs.length cs 0 s
    match mapFind s.descs id with
    | some d => if d.pos = cs.length + 1 then exportDone s id else s
    | none => s

/-- SNAPSHOT_EXPORT (R485, R486): begins, goes on, or meets its last acknowledgement. -/
def execSnapshotExport (d now : Nat) (s : State) : Res :=
  let s := atTime s now
  ran s (match descLive s d dtSNAPSHOT 2 with
    | none => s
    | some x =>
      match dCtx s x with
      | none => s
      | some c =>
        let g := (ctxOf s c).gloss
        let open_ := (ctxOf s c).glossOpen
        let wl := if open_ then (g.map (·.wlist)).getD 0 else dNat x 0x10 8
        let n := if open_ then (g.map (·.wcount)).getD 0 else dNat x 0x28 2
        if x.st = .accepted ∧ exPeer x ∧ routeOk s x.part (dNat x 0x2A 2) = false then descEnd s d stCONJ_KEY 0 0
        else
          let s := if x.st = .accepted then updDesc (promoteCtx s c) d fun x => { x with st := .running } else s
          gatherParts d c (fun b => if b.length < 32 * n then some (wl, 32 * n) else none) (fun s b =>
            if !wOk b then descEnd s d stFORMAT 0 0
            else if x.pos = 0 && !exPeer x && !areaAll s c (dNat x 0x18 8) (0x140 + 32 * (wChunks (wEnts b)).length) true true then
              descEnd s d stFORMAT 0 0
            else digestChunks d c (fun s => exportForm s d c (wEnts b)) (wChunks (wEnts b)) s) 3 s)

end Sys2Proof.Machine
end

