-- ==== Sys2Proof/Machine/Maint.lean ====
section
/-! DEFINITION. Maintenance activities, quick tests, scheduled tests and scrubs, and work that finds no unit
(spec/20_fault_handling.md R591, R595, R600 to R606, spec/11_stacked_memory.md R346, R356). -/

namespace Sys2Proof.Machine

/-- MAINT_START_STRESS (R601, R603). -/
def execMaintStartStress (d sl now : Nat) (s : State) : Res := ran s (maintStep (atTime s now) d sl maSTRESS)
/-- MAINT_START_CALIBRATE (R604). -/
def execMaintStartCalibrate (d sl now : Nat) (s : State) : Res := ran s (maintStep (atTime s now) d sl maCALIBRATE)
/-- MAINT_START_STACK_TEST (R356, R604). -/
def execMaintStartStackTest (d sl now : Nat) (s : State) : Res := ran s (maintStep (atTime s now) d sl maSTACK_TEST)

/-- MAINT_START_SCRUB (R346, R604). -/
def execMaintStartScrub (d now : Nat) (s : State) : Res :=
  let s := atTime s now
  ran s (match maintDesc s d 0 maSCRUB with | some x => maintStart s d maSCRUB x | none => s)

/-- MAINT_START_UNIT_TEST (R604). -/
def execMaintStartUnitTest (d now : Nat) (s : State) : Res :=
  let s := atTime s now
  ran s (match maintDesc s d 0 maUNIT_TEST with | some x => maintStart s d maUNIT_TEST x | none => s)

/-- MAINT_END (R533, R604): the activity ends ABORTED. The oldest one of its kind on the slice is meant; with none there is nothing
to end (DEDUCED, assumption log 89). -/
def execMaintEnd (d now : Nat) (s : State) : Res :=
  let s := atTime s now
  ran s (match mapFind s.descs d with
    | none => s
    | some x =>
      if !(x.st == .accepted && dType x == dtMAINT && dForm x == 1) then s
      else
        let sl := dNat x 0x11 1
        if !(partSlices s x.part).contains sl then descEnd s d stMAINT_SCOPE 0 0
        else
          match s.acts.find? fun a => a.kind == dNat x 0x10 1 && a.slice == sl with
          | none => descEnd s d stOK 0 0
          | some a =>
            -- the traffic generator's run ends with its activity, and its stack is wiped
            let s := if a.kind = 4 ∧ (stkOf s sl).run.isSome then
                clrBitOf (updStk (stackWipe s sl) sl fun y => { y with run := none }) (aHBM_TG_RESULT sl) 0 else s
            descEnd (actEnd s a { status := mrABORTED }) d stOK mrABORTED 0)

/-- R602, R603: a STRESS ends: health changes, FIELD_DUE clears, and its record. `tests`: unit and its tests in order. -/
def stressEnd (s : State) (a : Act) (tests : List (Nat × List Nat)) (repeats : List Nat) : State :=
  let sl := a.slice
  let n := repeats.sum
  if repeats.any (4 ≤ ·) then actEnd s a { status := mrDIP_ABANDON, repeats := min 65535 n }
  else
    let rs := (List.range 18).map fun u => (u, regGet s (aRAS_UNIT sl u), stressUnit s sl u ((tests.find? fun t => t.1 == u).map (·.2) |>.getD []))
    let mask (f : Nat → Remedy → Bool) : Nat := rs.foldl (fun m r => if f r.2.1 r.2.2 then m + 2 ^ r.1 else m) 0
    let res : MaintRes :=
      { status := mrOK, repeats := min 65535 n
        passed := mask fun _ r => r.st != 2 && !r.exhausted
        suspected := mask fun old r => r.st == 1 && bits old 1 0 == 0
        retired := mask fun old r => r.st == 2 && bits old 1 0 != 2
        remedied := mask fun _ r => r.changed }
    let s := rs.foldl (fun s r => stressApply s sl r.1 r.2.2) s
    let s := (List.range 18).foldl (fun s u => clrBitOf s (aRAS_UNIT sl u) 8) s
    let s := { s with field := { s.field with
      stressAt := mapIns s.field.stressAt sl s.tense.toNat, passed := s.field.passed.filter fun p => p.1 / 32 != sl } }
    actEnd s a res

/-- R577, R604: a CALIBRATE ends: the records are captured at the slice's present class. `data`: VRATE, THERMAL, STRESS. -/
def calibrateEnd (s : State) (a : Act) (data : List (List Nat)) : State :=
  let sl := a.slice
  let put (m : Map CalRec) (i : Nat) : Map CalRec :=
    mapIns m (4 * sl + i) { cls := loadClass s sl, st := 0, tense := s.tense.toNat, data := data.getD i [] }
  let s := { s with
    nvm := { s.nvm with cal := [0, 1, 2].foldl put s.nvm.cal }
    pwr := { s.pwr with mism := s.pwr.mism.filter (fun d => decide (36 ≤ d) || domSlice d != sl), calDue := s.pwr.calDue.filter (· != sl) } }
  let c := aPWR_CAL sl
  let s := setFld (setFld (setFld s c 3 2 (loadClass s sl)) c 9 4 0) c 23 16 0
  actEnd s a { status := mrOK }

/-- ACTIVITY_END (R604): the activity of a kind on slice `sl` ends by itself. `tests`, `repeats`: a STRESS's tests of each unit and how
often each step was repeated (R575); `data`: a CALIBRATE's records; `errs`: the beats in error that a SCRUB met: pseudo-channel, local
address, beat, outcome. A STACK_TEST ends when its run has. -/
def execActivityEnd (kind sl now : Nat) (tests : List (Nat × List Nat)) (repeats : List Nat) (data : List (List Nat))
    (errs : List (Nat × Nat × Nat × Nat)) (s : State) : Res :=
  let s := atTime s now
  ran s (match s.acts.find? fun a => a.kind == kind && a.slice == sl && (a.out || a.kind == 3) with
    | none => s
    | some a =>
      match kind with
      | 1 => stressEnd s a tests repeats
      | 2 => calibrateEnd s a data
      | 3 =>
        let s := errs.foldl (fun s e => beatCheck s sl (e.1 % 64) (e.2.1 % 2 ^ 22) (e.2.2.1 % 8) e.2.2.2) s
        actEnd s a { status := mrOK, detail := (errs.filter fun e => e.2.2.2 == 1).length }
      | 4 => if (stkOf s sl).run.isSome then s else actEnd s a { status := mrOK, detail := regGet s (aHBM_TG_RESULT sl) }
      | _ => s)

/-! ### The Syntax core's own tests (R591, R600, R603) -/

/-- Is a unit within its work. -/
def unitBusy (s : State) (sl u : Nat) : Bool :=
  if u < 8 then (verbOf s (8 * sl + u)).prog.isSome
  else if u = 12 ∨ u = 13 then (mapFind s.infUnits (2 * sl + u - 12)).isSome
  else if u = 16 then (mapFind s.parsers sl).isSome
  else if u = 17 then (mapFind s.lexers sl).isSome
  else false

/-- QUICK_TEST (R600): the test of unit `u` of slice `sl` ends, passed or failed. -/
def execQuickTest (sl u now : Nat) (pass : Bool) (s : State) : Res :=
  guardUnit (decide (sl < 12) && decide (u < 18)) (ran s (
    let s := atTime s now
    if !s.quickQ.contains (32 * sl + u) || !tokenOk s maUNIT_TEST sl u || unitBusy s sl u || !computeOn s sl then s
    else
      let a : Act := { kind := 5, slice := sl, unit := u, since := s.tense.toNat - 1000000 }
      let s := { maintReport s a { status := 0 } 0 with quickQ := s.quickQ.filter (· != 32 * sl + u) }
      let s := if !pass then unitRetire s sl u
        else
          let l := s.tense.toNat :: (mapGet [] s.field.passed (32 * sl + u)).filter fun t => decide (s.tense.toNat < t + 86400000000000)
          let s := { s with field := { s.field with passed := mapIns s.field.passed (32 * sl + u) l } }
          let s := (List.range 18).foldl (fun s v => setBitOf s (aRAS_UNIT sl v) 8) s
          unitReturn s sl u
      maintReport s a { status := if pass then mrOK else mrABORTED, passed := if pass then 2 ^ u else 0, retired := if pass then 0 else 2 ^ u } s.tense.toNat))

/-- R603: may the Syntax core test a slice: it is unowned, or FIELD_DUE with its partition's AUTO_TEST set. -/
def stressDue (s : State) (sl : Nat) : Bool :=
  match sliceOwner s sl with
  | none => true
  | some k => partActive s k && fld s (aRAS_PART k) 0 0 == 1 && (List.range 18).any fun u => fld s (aRAS_UNIT sl u) 8 8 == 1

/-- SCHEDULED_STRESS (R603): the Syntax core starts a STRESS of slice `sl`; it waits for the token. -/
def execScheduledStress (sl now : Nat) (s : State) : Res :=
  guardUnit (decide (sl < 12)) (ran s (
    let s := atTime s now
    if devReady s && pwrState s == 0 && stressDue s sl && tokenOk s maSTRESS sl 0xFF then actBegin s { kind := 1, slice := sl } else s))

/-- LATENT_SCRUB (R591): the pass of a minute ends. `ces`: slices in which the codes corrected a bit; `ues`: scratchpad units
(slice, byte of the slice) and `acc`: accumulator slots (program, slot) that they only detected. -/
def execLatentScrub (now : Nat) (ces : List Nat) (ues acc : List (Nat × Nat)) (s : State) : Res :=
  let s := atTime s now
  ran s (
    if !devReady s || s.tense.toNat < s.field.scrubAt + 60000000000 then s
    else
      let s := { s with field := { s.field with scrubAt := s.tense.toNat } }
      let s := (ces.filter (· < 12)).foldl (fun s sl => corrNote s 1 sl 0xFF) s
      let s := (ues.filter fun u => decide (u.1 < 12) && scratchOn s u.1).foldl (fun s u =>
        let ix := u.1 * 50331648 + u.2 % 50331648 / 32 * 32
        report { s with spm := { s.spm with poison := mapIns s.spm.poison (ix / 32) true } } clCONTAINED 2 (partByte s u.1) u.1 0xFF [u.2]) s
      acc.foldl (fun s x => match progOf s x.1 with
        | some p =>
          match p.space with
          | .verb v =>
            report (updProg s x.1 fun p => { p with tsw := mapSet 0 p.tsw (x.2 % 256) (mapGet 0 p.tsw (x.2 % 256) ||| tsPOISON) })
              clCONTAINED 2 (partByte s (v / 8)) (v / 8) (v % 8) [x.2]
          | _ => s
        | none => s) s)

/-! ### Work without a unit (R595) -/

/-- R595: has a partition no unit of a queue's kind in service. -/
def kindGone (s : State) (k : Nat) (q : QKind) : Bool :=
  let units : List Nat := match q with
    | .tile => List.range 8
    | .element => [12, 13]
    | .solve => [16]
    | .assembly => [17]
  (partSlices s k).all fun sl => !computeOn s sl || units.all fun u => unitOut s sl u

/-- NO_UNIT (R595): accepted work has waited 100 ms for a unit of a kind of which its partition has none in service (DEDUCED, assumption log 90). -/
def execNoUnit (prog now : Nat) (s : State) : Res :=
  let s := atTime s now
  ran s (match progOf s prog with
    | none => s
    | some p =>
      if p.ended.isNone && p.comp.isNone && p.unit.isNone && p.issue.mtarget.isNone && kindGone s (p.cid / 8) p.kind then workKill s prog stNO_UNIT
      else s)

/-! ### Reports (R597, R598) -/

/-- REPORT_RESEND (R597): pending records are sent again every 10 ms. -/
def execReportResend (now : Nat) (s : State) : Res :=
  let s := atTime s now
  ran s (if s.tense.toNat < s.field.resentAt + 10000000 then s
    else { mgmtSend s s.reports with field := { s.field with resentAt := s.tense.toNat } })

/-- CORRECTED_REPORT (R598): source `key` (2^16 × cause + 2^8 × slice + unit) sends the record of its second. -/
def execCorrectedReport (key now : Nat) (s : State) : Res :=
  let s := atTime s now
  ran s (match mapFind s.corrected key with
    | none => s
    | some n =>
      let early : Bool := match mapFind s.corrAt key with | some t => decide (s.tense.toNat < t + 1000000000) | none => false
      if early || n = 0 then s
      else
        let sl := key / 256 % 256
        let s := { s with corrected := mapDel s.corrected key, corrAt := mapIns s.corrAt key s.tense.toNat }
        postRpt s { tense := 0, seq := 0, cls := clCORRECTED, cause := key / 65536, part := partByte s sl, slice := sl, unit := key % 256, count := n })

end Sys2Proof.Machine
end

