-- ==== Sys2Proof/Machine/Mgmt.lean ====
section
/-! DEFINITION. Writes of the setup space by path, and the I3C and JTAG targets (spec/22_setup_registers.md R630 to R634, R647,
R649, spec/16_host_link.md R490, R491, spec/18_partitions_and_custody.md R546, R561, spec/23_package_and_signals.md R661, R662). -/

namespace Sys2Proof.Machine

/-! ### Paths -/

/-- R490, R625: does a host function's request reach its BAR: after READY, an enabled function that no reset holds. -/
def fnOpen (s : State) (f : Nat) : Bool := barOpen s && decide (f ≤ 12) && (fnOf s f).flr == 0 && (f == 0 || (fnOf s f).enabled)

/-- R631: status and data of an I3C command. -/
def i3cSet (s : State) (st : Nat) (data : List Byte) : State := { s with i3c := { s.i3c with status := st, data := data } }

/-- R631: status and data of a JTAG access. -/
def jtagSet (s : State) (st data : Nat) : State := { s with jtag := { s.jtag with status := st, data := data } }

/-- A write of `n` aligned bytes at a PF0 offset, on the path of its origin: host functions until their BAR is open have none;
management wakes the device (R583), and it and JTAG are answered OFF until READY (R631) (DEDUCED, assumption log 54). -/
def setupBy (s : State) (org off n v : Nat) : State :=
  if org = orgMG then
    let s := wakeBy s 5
    if !devReady s then i3cSet s suOFF []
    else
      let (s, st) := setupWrite s org off n v
      i3cSet s st []
  else if org = orgJT then
    if lcState s ≠ 0 ∧ lcState s ≠ 3 then s
    else if !devReady s then jtagSet s suOFF 0
    else
      let (s, st) := setupWrite s org off n v
      jtagSet s st 0
  else if fnOpen s (if org = orgPF then 0 else org / 16) then (setupWrite s org off n v).1
  else s

/-- R558, R559: does an ORIGIN byte name a sender: PF, VF1 to VF12, management, JTAG. -/
def orgOk (org : Nat) : Bool :=
  org == orgPF || org == orgMG || org == orgJT || (org % 16 == 2 && decide (1 ≤ org / 16) && decide (org / 16 ≤ 12))

/-! ### Writes with a row of their own -/

/-- CIRCUIT_ENTRY_WRITE (R384, R647): an 8-byte write by origin `org` to entry `cid` of port `port`. -/
def execCircuitEntryWrite (org port cid v : Nat) (s : State) : Res :=
  guardUnit (orgOk org && decide (port < 14) && decide (cid < 256)) (ran s (setupBy s org (aCKT port cid) 8 v))

/-- PART_CKT_ENTRY_WRITE (R384, R649): a write of partition `k`'s PART_CKT_ENTRY. -/
def execPartCktEntryWrite (org k v : Nat) (s : State) : Res :=
  guardUnit (orgOk org && decide (k < 12)) (ran s (setupBy s org (aPART_CKT_ENTRY k) 8 v))

/-- PART_KEY_WRITE (R546). -/
def execPartKeyWrite (org k j v : Nat) (s : State) : Res :=
  guardUnit (orgOk org && decide (k < 12) && decide (j < 8)) (ran s (setupBy s org (aPART_KEY k j) 4 (v % 2 ^ 32)))

/-- AUD_ACK_WRITE (R561). -/
def execAudAckWrite (org v : Nat) (s : State) : Res := guardUnit (orgOk org) (ran s (setupBy s org aAUD_ACK 4 (v % 2 ^ 32)))

/-- RAS_RPT_ACK_WRITE (R597). -/
def execRasRptAckWrite (org v : Nat) (s : State) : Res := guardUnit (orgOk org) (ran s (setupBy s org aRAS_RPT_ACK 4 (v % 2 ^ 32)))

/-- R490: PF0 offset of a BAR0 offset of a function; none outside its setup space. -/
def fnOffset (f off : Nat) : Option Nat :=
  if f = 0 then (if off < 0xF00000 then some off else none)
  else if off < 0x40000 then some (aPart (f - 1) + off) else none

/-- SETUP_REGISTER_WRITE (R491, R632): a memory write request of function `fn` at offset `off` of its BAR0. -/
def execSetupRegisterWrite (fn off : Nat) (data : List (BitVec 8)) (poisoned : Bool) (s : State) : Res :=
  guardUnit (fnExists fn) (ran s (
    match fnOffset fn off with
    | none => s
    | some o =>
      let org := if fn = 0 then orgPF else orgVF fn
      let n := data.length
      let v := leNat (data.take 8)
      if !fnOpen s fn then s
      else if poisoned then aerPoisoned (badAccess s) fn
      else if !barAligned off n then
        (if audFull s && !unlogged o then audRefused (badAccess s) else (setupRefuse (badAccess s) org o n v suBAD).1)
      else (setupWrite s org o n v).1))

/-! ### I3C (R631, R661) -/

/-- R631: an I3C write of `n` bytes. -/
def i3cWrite (s : State) (off n v : Nat) : State :=
  let o := off % 2 ^ 24
  if o % n = 0 then setupBy s orgMG o n (v % 2 ^ (8 * n))
  else
    let s := wakeBy s 5
    if !devReady s then i3cSet s suOFF []
    else if audFull s && !unlogged o then i3cSet (audRefused s) suBAD []
    else
      let (s, st) := setupRefuse s orgMG o n (v % 2 ^ (8 * n)) suBAD
      i3cSet s st []

/-- R631: an I3C read of `n` bytes; SYN_BOOT and SYN_RST_CAUSE are served in every state (DEDUCED, assumption log 54). -/
def i3cRead (s : State) (off n : Nat) : State :=
  let o := off % 2 ^ 24
  let s := wakeBy s 5
  if !devReady s && !(o / 8 * 8 == aSYN_BOOT || o / 8 * 8 == aSYN_RST_CAUSE) then i3cSet s suOFF (natLe n 0)
  else if o % n ≠ 0 then i3cSet s suBAD (natLe n 0)
  else
    let (d, st) := setupRead s o n
    i3cSet s st (natLe n d)

/-- I3C_WRITE_4 (R631). -/
def execI3cWrite4 (off v : Nat) (s : State) : Res := ran s (i3cWrite s off 4 v)
/-- I3C_WRITE_8 (R631). -/
def execI3cWrite8 (off v : Nat) (s : State) : Res := ran s (i3cWrite s off 8 v)
/-- I3C_READ_4 (R631). -/
def execI3cRead4 (off : Nat) (s : State) : Res := ran s (i3cRead s off 4)
/-- I3C_READ_8 (R631). -/
def execI3cRead8 (off : Nat) (s : State) : Res := ran s (i3cRead s off 8)

/-- I3C_PRIVATE_READ (R631): the status of the last command and, after a read command, its data. -/
def execI3cPrivateRead (s : State) : Res :=
  ran s { s with i3c := { s.i3c with out := s.i3c.out ++ [natLe 1 s.i3c.status ++ s.i3c.data] } }

/-- R661: the static address. -/
def i3cStatic (s : State) : Nat := 0x2C + s.i3c.strap % 4

/-- SETDASA (R661): the target of static address `addr` takes dynamic address `dyn` (PRESUMED, assumption log 55). -/
def execSetdasa (addr dyn : Nat) (s : State) : Res :=
  ran s (if addr = i3cStatic s then { s with i3c := { s.i3c with dyn := some (dyn % 128) } } else s)

/-- ENTDAA (R661): a target that has no dynamic address takes one (PRESUMED, assumption log 55). -/
def execEntdaa (dyn : Nat) (s : State) : Res :=
  ran s (if s.i3c.dyn.isNone then { s with i3c := { s.i3c with dyn := some (dyn % 128) } } else s)

/-! ### JTAG (R631, R662) -/

/-- R662: IDCODE. -/
def jtagId : Nat := 0x11E00ABD

/-- A scan under an instruction: what it captures is shifted out. -/
def jtagScan (s : State) (ir tdo : Nat) : State := { s with jtag := { s.jtag with ir := ir, tdo := tdo } }

/-- EXTEST (R662): the boundary cells drive their pins from the latches; the scan captures `pins` and the update latches `load`. -/
def execExtest (pins load : Nat) (s : State) : Res :=
  ran s { s with jtag := { s.jtag with ir := 0, tdo := pins, bnd := load } }

/-- IDCODE (R662). -/
def execIdcode (s : State) : Res := ran s (jtagScan s 1 jtagId)

/-- SAMPLE/PRELOAD (R662). -/
def execSamplePreload (pins load : Nat) (s : State) : Res :=
  ran s { s with jtag := { s.jtag with ir := 2, tdo := pins, bnd := load } }

/-- BYPASS (R662). -/
def execBypass (s : State) : Res := ran s (jtagScan s 0xFF 0)

/-- R631: the access that the update of SETUPACC runs (DEDUCED, assumption log 54). -/
def jtagAccess (s : State) (dr : Nat) : State :=
  let off := bits dr 87 64
  let n := if bit dr 89 then 8 else 4
  let v := dr % 2 ^ (8 * n)
  if bit dr 88 then
    if off % n = 0 then setupBy s orgJT off n v
    else if !devReady s then jtagSet s suOFF 0
    else if audFull s && !unlogged off then jtagSet (audRefused s) suBAD 0
    else
      let (s, st) := setupRefuse s orgJT off n v suBAD
      jtagSet s st 0
  else if !devReady s then jtagSet s suOFF 0
  else if off % n ≠ 0 then jtagSet s suBAD 0
  else
    let (d, st) := setupRead s off n
    jtagSet s st d

/-- SETUPACC (R631): it exists in BLANK and RETURNED; elsewhere it selects the bypass register. `dr`: the 96 bits shifted in. -/
def execSetupacc (dr : Nat) (s : State) : Res :=
  ran s (
    if lcState s = 0 ∨ lcState s = 3 then
      jtagAccess (jtagScan s 0x40 (s.jtag.data % 2 ^ 64 + s.jtag.status % 8 * 2 ^ 90)) dr
    else jtagScan s 0x40 0)

/-- TEST_RESET (R615): the TAP reset selects IDCODE (DEDUCED, assumption log 54). -/
def execTestReset (s : State) : Res := ran s (jtagScan s 1 0)

end Sys2Proof.Machine
end

