-- ==== Sys2Proof/Machine/Yilvo.lean ====
section
/-! DEFINITION. Events of the Yilvo links, packets that arrive, and the time alignment exchange
(spec/12_yilvo_links.md R365 to R396). -/

namespace Sys2Proof.Machine

/-- Ports that exist: Y0 to Y11, M0 and M1. -/
def isPort (p : Nat) : Bool := decide (p < 14)

/-! ### Link-local beats (R367, R371 to R377) -/

/-- IDLE_BEAT (R367). -/
def execIdleBeat (p : Nat) (fec : Bool) (bytes : List (BitVec 8)) (s : State) : Res :=
  guardUnit (isPort p) (ran s (rxLocal s p 0 fec bytes id))

/-- R371, R375, R376: what a LINKCTL beat carries. -/
def takeLinkctl (s : State) (p : Nat) (bytes : List Byte) : State :=
  let at_ (o n : Nat) : Nat := leNat ((bytes.drop o).take n)
  let a := at_ 2 2
  let (s, ok) := if bit a 15 then takeAck s p (a % 4096) else (s, true)
  if !ok then s
  else
    let s := updPort s p fun q => { q with heard := s.tense.toNat, cred := (List.range 4).map fun i => q.cred.getD i 0 + at_ (8 + 2 * i) 2 }
    if bit (at_ 4 1) 0 then replayFrom s p (a % 4096) else s

/-- LINKCTL (R371). -/
def execLinkctl (p : Nat) (fec : Bool) (bytes : List (BitVec 8)) (now : Nat) (s : State) : Res :=
  guardUnit (isPort p) (ran s (rxLocal (atTime s now) p ptLINKCTL fec bytes fun s => takeLinkctl s p bytes))

/-- LINKCTL_SEND (R371): with credit to return, after 64 packets, or a microsecond after the last one. -/
def execLinkctlSend (p now : Nat) (s : State) : Res :=
  guardUnit (isPort p) (ran s (
    let s := atTime s now
    let q := portOf s p
    if portUp s p && ((q.give.any (· != 0)) || decide (64 ≤ q.unacked) || decide (q.ctlAt + 1000 ≤ s.tense.toNat)) then
      sendLinkctl s p false
    else s))

/-- REPLAY_START (R372, R376). -/
def execReplayStart (p : Nat) (fec : Bool) (bytes : List (BitVec 8)) (s : State) : Res :=
  guardUnit (isPort p) (ran s (rxLocal s p ptREPLAY fec bytes fun s => updPort s p fun q => { q with deaf := false, nakSent := false }))

/-- REPLAY_TIMEOUT (R376). -/
def execReplayTimeout (p now : Nat) (s : State) : Res :=
  guardUnit (isPort p) (ran s (
    let s := atTime s now
    let q := portOf s p
    if portUp s p && !q.replay.isEmpty && decide (q.waitFrom + 20000 ≤ s.tense.toNat) then replayFrom s p q.oldest else s))

/-! ### Training, link state and link loss (R363, R365, R377) -/

/-- R364: the DEVID and port that a port's peer must have; a mirror port accepts any. -/
def peerWanted (s : State) (p : Nat) : Option (Nat × Nat) :=
  (portDir s p).map fun d =>
    let dim := d / 2
    let n := dimSize s dim
    let x := devCoord (ownDev s) dim
    let x' := if d % 2 = 0 then (x + 1) % n else (x + n - 1) % n
    let dev := match dim with
      | 0 => setBits (ownDev s) 4 0 x'
      | 1 => setBits (ownDev s) 9 5 x'
      | _ => setBits (ownDev s) 13 10 x'
    let i := (dirPorts s d).findIdx (· == p)
    (dev, (dirPorts s (if d % 2 = 0 then d + 1 else d - 1)).getD i 0)

/-- R377: the packets in the replay buffer go out again from the peer's E, which also acknowledges what lies below it. -/
def replayAt (s : State) (p e : Nat) : State :=
  let (s, ok) := takeAck s p (e % 4096)
  if !ok then s
  else
    let rs := natLe 1 ptREPLAY ++ List.replicate 59 0
    let s := wireOut s p (.beats (rs ++ natLe 4 (crc32 rs)))
    updPort (resendFrom s p (e % 4096)) p fun q => { q with waitFrom := s.tense.toNat }

/-- R377: the down port of the group whose link a LINK_STATE names. -/
def downNamed (s : State) (p devid dp : Nat) : Option Nat :=
  (List.range 14).find? fun q =>
    q != p && portDir s q == portDir s p && (portDir s p).isSome && portState s q == 4 && (portOf s q).downAt.isSome
      && fld s (aYLV_PORT_STATUS q) 31 16 == devid && fld s (aYLV_PORT_STATUS q) 35 32 == dp

/-- R377: the packets that a down port holds go out through `p` instead, from `e` on, in order. -/
def takeOver (s : State) (p q e : Nat) : State :=
  let rs := (portOf s q).replay.filter fun r => decide ((r.1 + 4096 - e % 4096) % 4096 < 2048)
  let s := updPort s q fun x => { x with replay := [], oldest := x.next, downAt := none }
  rs.foldl (fun s r => egressPush s p 16 (vcdNext s 14 p r.2) false) s

/-- R365, R377: a LINK_STATE beat. -/
def linkStateIn (s : State) (p devid port e : Nat) (down : Option (Nat × Nat)) : State :=
  let st := portState s p
  if st ≠ 1 ∧ st ≠ 2 ∧ st ≠ 3 then s
  else
    let a := aYLV_PORT_STATUS p
    let s := setFld (setFld s a 31 16 devid) a 35 32 port
    if (match peerWanted s p with | some w => w != (devid % 65536, port % 16) | none => false) then
      reportLink (setFld s a 2 0 5) p
    else if st = 2 then
      let s := replayAt s p e
      match down with
      | some (dp, de) => match downNamed s p devid dp with | some q => takeOver s p q de | none => s
      | none => s
    else updPort s p fun q => { q with peerE := some e }

/-- LINK_STATE (R365, R377). The beat's fields are its operands: the spec gives it no layout (DESIGN CHOICE, assumption log 60). `down`: the
peer's down port that it names, with that port's E. -/
def execLinkState (p devid port e : Nat) (down : Option (Nat × Nat)) (now : Nat) (s : State) : Res :=
  guardUnit (isPort p) (ran s (linkStateIn (atTime s now) p devid port e down))

/-- R377, R379: a port comes up; a first training begins at number 0 with empty buffers. -/
def portComesUp (s : State) (p : Nat) (x4 : Bool) : State :=
  let first := portState s p == 1
  let a := aYLV_PORT_STATUS p
  let s := setFld (setFld s a 2 0 2) a 3 3 (if x4 then 1 else 0)
  let s := updPort s p fun q => { q with fails := 0, deaf := false, nakSent := false, fruitless := 0, ctlAt := s.tense.toNat, waitFrom := s.tense.toNat }
  let s := if first then
      updPort s p fun q => { q with next := 0, oldest := 0, exp := 0, replay := [], cred := [1536, 1536, 256, 256], give := [0, 0, 0, 0], unacked := 0 }
    else s
  let s := wireOut s p (.linkState (ownDev s) p (portOf s p).exp none)
  let s := match (portOf s p).peerE with
    | some e => replayAt (updPort s p fun q => { q with peerE := none }) p e
    | none => s
  if x4 then reportLink s p else s

/-- R377, R382: a port goes DOWN: its link is told of through the group's other ports, and what waits finds another way. -/
def portGoesDown (s : State) (p : Nat) : State :=
  let s := reportLink (setFld s (aYLV_PORT_STATUS p) 2 0 4) p
  let s := updPort s p fun q => { q with fails := 0, downAt := some s.tense.toNat }
  let others := match portDir s p with | some d => (dirPorts s d).filter (portUp s) | none => []
  let s := match others with
    | o :: _ => wireOut s o (.linkState (ownDev s) o (portOf s o).exp (some (p, (portOf s p).exp)))
    | [] => s
  rerouteWaiting s p

/-- LINK_TRAINING_COMPLETE (R363, R377). `failed`: a mask of the lanes that failed. -/
def execLinkTrainingComplete (p failed now : Nat) (s : State) : Res :=
  guardUnit (isPort p) (ran s (
    let s := atTime s now
    if portState s p ≠ 1 ∧ portState s p ≠ 3 then s
    else if failed % 256 = 0 then portComesUp s p false
    else if (failed % 16 = 0 ∨ failed / 16 % 16 = 0) ∧ fld s (aYLV_PORT_CTL p) 3 3 = 1 then portComesUp s p true
    else if 2 ≤ (portOf s p).fails then portGoesDown s p
    else updPort s p fun q => { q with fails := q.fails + 1 }))

/-- LINK_LOSS_WAIT_EXPIRY (R377, R382). -/
def execLinkLossWaitExpiry (p now : Nat) (s : State) : Res :=
  guardUnit (isPort p) (ran s (
    let s := atTime s now
    match (portOf s p).downAt with
    | some t =>
      if t + 1000000 ≤ s.tense.toNat then
        let ps := (portOf s p).replay
        let s := updPort s p fun q => { q with downAt := none, replay := [], oldest := q.next }
        ps.foldl (fun s r => undeliverable s p r.2 3) s
      else s
    | none => s))

/-- PORT_RETRAIN (R401): a one written to RETRAIN (DEDUCED, assumption log 61). -/
def execPortRetrain (p : Nat) (s : State) : Res :=
  guardUnit (isPort p) (ran s (
    let a := aYLV_PORT_CTL p
    match strobeOf s a 4 with
    | none => s
    | some _ =>
      let s := strobeClr s a 4
      if portState s p = 2 ∨ portState s p = 4 ∨ portState s p = 5 then retrain (updPort s p fun q => { q with fails := 0 }) p else s))

/-- LINK_LOST (R377). -/
def execLinkLost (p : Nat) (s : State) : Res :=
  guardUnit (isPort p) (ran s (if portUp s p then retrain s p else s))

/-! ### Packets delivered here (R386, R387, R583) -/

/-- An ingress port, or 14: a packet that the device sent to itself. -/
def isIngress (p : Nat) : Bool := decide (p < 15)

/-- R386: the context that a packet is for, or its discard. -/
def withCtx (p : Nat) (f : State → Pkt → Nat → State) (s : State) (pk : Pkt) : State :=
  match devCtx s (pkKey pk) with
  | some c => f s pk c
  | none => keyDrop s p pk

/-- SIGNAL_PACKET (R316, R308, R583). -/
def execSignalPacket (p : Nat) (fec : Bool) (bytes : List (BitVec 8)) (s : State) : Res :=
  guardUnit (isIngress p) (ran s (rxPacket s p fec bytes (fun pk => pkType pk == ptSIGNAL) (withCtx p fun s pk _ =>
    let j := pkNat pk 16 2
    let key := BitVec.ofNat 16 (pkKey pk)
    let s := wakeBy s 2
    if conjKeyOk s j key then conjSignal s j (pkNat pk 18 2) (bit (pkNat pk 20 1) 0) key
    else report (conjSignal s j (pkNat pk 18 2) (bit (pkNat pk 20 1) 0) key) clEVENT 0xD 0xFF (if j < conjTotal then j / 1024 else 0xFF) 0xFF [j])))

/-- Takes an outcome of a write with a tag that is waited for. -/
def ackTake (s : State) (tag status : Nat) : State :=
  match mapFind s.ackWait tag with
  | some (n, worst) => { s with ackWait := mapIns s.ackWait tag (n - 1, max worst status) }
  | none => s

/-- WRITE_ACK (R387). -/
def execWriteAck (p : Nat) (fec : Bool) (bytes : List (BitVec 8)) (s : State) : Res :=
  guardUnit (isIngress p) (ran s (rxPacket s p fec bytes (fun pk => pkType pk == ptWACK) (withCtx p fun s pk _ =>
    ackTake s (pkNat pk 16 2) (pkNat pk 18 1))))

/-- R583: in Ellipsis local DATA and READ packets are answered with UNDELIVERABLE, and ask for a wake. -/
def awake (f : State → Pkt → Nat → State) (s : State) (pk : Pkt) (c : Nat) : State :=
  if pwrState s = 1 ∨ pwrState s = 2 then wakeBy (sendUndel s pk 4) 1 else f s pk c

/-- R387, R369: the status of a write of `n` bytes to an area of a context, and the state with a fault recorded. -/
def peerReach (s : State) (c r n ckey : Nat) (write : Bool) : State × Nat :=
  if arRsv r ∨ arAddr r % 8 ≠ 0 then (s, stADDRESS)
  else
    match areaCheck s c 48 r n ckey write with
    | some (s, _) => (s, stADDRESS)
    | none =>
      if !arSpad r && (dvaPieces (n / 65536 + 2) (arAddr r) n).any (fun q =>
          match xlat s (c / 8) 48 q.1 write with | .pm a => pmOffline s (c / 8) a q.2 | _ => false) then (s, stSTACK_OFFLINE)
      else (s, stOK)

/-- R387: writes a packet's payload, poison where POISON marks it. -/
def putPayload (s : State) (c : Nat) (pk : Pkt) : State :=
  let r := pkNat pk 24 8
  if pk.poison = 0 then areaStore s c 48 r pk.payload false
  else (List.range ((pk.payload.length + 31) / 32)).foldl (fun s i =>
    areaStore s c 48 (r + 32 * i) ((pk.payload.drop (32 * i)).take 32) (bit pk.poison i)) s

/-- R387: a delivered DATA WRITE. -/
def dataWrite (s : State) (pk : Pkt) (c : Nat) : State :=
  let (s, st) := peerReach s c (pkNat pk 24 8) pk.payload.length (pkKey pk) true
  let s := if st = stADDRESS then s else putPayload s c pk
  let st := if st = stOK ∧ pk.poison ≠ 0 then stPOISONED else st
  if bit (pkNat pk 1 1) 2 then
    inject s 14 (mkPkt s ptWACK 0 (pkKey pk) (pkNat pk 10 2) 0 (pkNat pk 14 2) (natLe 2 (pkNat pk 14 2) ++ natLe 1 st) [] 0) false
  else s

/-- R608: a pair message, on a mirror port. -/
def pairMsg (p : Nat) (pk : Pkt) : Bool := (p == 12 || p == 13) && pkType pk == ptDATA && pkNat pk 24 8 == 2 ^ 63 + 0xFFFFFF80

/-- DATA_WRITE (R387). -/
def execDataWrite (p : Nat) (fec : Bool) (bytes : List (BitVec 8)) (s : State) : Res :=
  guardUnit (isIngress p) (ran s (rxPacket s p fec bytes
    (fun pk => pkType pk == ptDATA && pkNat pk 18 1 != 1 && pkNat pk 18 1 != 2 && !pairMsg p pk) (withCtx p (awake dataWrite))))

/-- DATA_READ_RESP (R387). -/
def execDataReadResp (p : Nat) (fec : Bool) (bytes : List (BitVec 8)) (s : State) : Res :=
  guardUnit (isIngress p) (ran s (rxPacket s p fec bytes (fun pk => pkType pk == ptDATA && pkNat pk 18 1 == 1)
    (withCtx p (awake fun s pk c =>
      let (s, st) := peerReach s c (pkNat pk 24 8) pk.payload.length (pkKey pk) true
      if st = stADDRESS then s else putPayload s c pk))))

/-- R387: serves a READ from memory of this device. One whose area cannot be read here has no answer (DEDUCED, assumption log 61) (DESIGN CHOICE, assumption log 59). -/
def serveRead (s : State) (pk : Pkt) (c : Nat) : State :=
  let r := pkNat pk 24 8
  let n := pkNat pk 16 2
  if arRsv r then s
  else
    match arReach s c 48 r n false with
    | .ok =>
      let (bs, _) := arRead s c 48 r n
      let po := (List.range ((n + 31) / 32)).foldl (fun m i =>
        if (arRead s c 48 (r + 32 * i) (min 32 (n - 32 * i))).2 then m ||| 2 ^ i else m) 0
      inject s 14 (mkPkt s ptDATA 0 (pkKey pk) (pkNat pk 10 2) 0 (pkNat pk 14 2)
        (natLe 2 n ++ natLe 1 1 ++ natLe 5 0 ++ natLe 8 (pkNat pk 32 8)) bs po) false
    | .fault d ca l => xFault s (c / 8) (pkKey pk) d ca l false
    | _ => s

/-- READ_PACKET (R379, R387). `full`: the READ queue of its switch half holds 512 entries (DESIGN CHOICE, assumption log 59). -/
def execReadPacket (p : Nat) (fec : Bool) (bytes : List (BitVec 8)) (full : Bool) (s : State) : Res :=
  guardUnit (isIngress p) (ran s (rxPacket s p fec bytes (fun pk => pkType pk == ptREAD)
    (withCtx p (awake fun s pk c => if full then sendUndel s pk 4 else serveRead s pk c))))

/-- R382, R423, R428: an UNDELIVERABLE reaches its origin. -/
def undelIn (s : State) (pk : Pkt) (c : Nat) : State :=
  let tag := pkNat pk 16 2
  let ty := pkNat pk 19 1
  if bit (pkNat pk 20 1) 0 then
    if ty = ptDATA ∨ ty = ptCOLL ∨ ty = ptABORT then collFail s (65536 * c + tag) 3 0xFFFFFFFF else s
  else if ty = ptSIGNAL then
    match mapGet .none s.handles (1024 * (c / 8) + tag) with
    | .route _ _ _ rep =>
      conjSignal (satFld s aYLV_RED_CNT 63 48 1) rep 1 true (BitVec.ofNat 16 (pkKey pk))
    | _ => s
  else if ty = ptDATA then ackTake s tag 0x60
  else s

/-- UNDELIVERABLE_PACKET (R382, R423, R428). -/
def execUndeliverablePacket (p : Nat) (fec : Bool) (bytes : List (BitVec 8)) (s : State) : Res :=
  guardUnit (isIngress p) (ran s (rxPacket s p fec bytes (fun pk => pkType pk == ptUNDEL) (withCtx p undelIn)))

/-- R386, R418: a collective packet that is delivered here. -/
def collHere (p : Nat) : State → Pkt → State := withCtx p fun s pk _ => collDeliver s pk

/-- ABORT_PACKET (R424). -/
def execAbortPacket (p : Nat) (fec : Bool) (bytes : List (BitVec 8)) (s : State) : Res :=
  guardUnit (isIngress p) (ran s (rxPacket s p fec bytes (fun pk => pkType pk == ptABORT) (collHere p)))
/-- COLLECTIVE_FREE (R409). -/
def execCollectiveFree (p : Nat) (fec : Bool) (bytes : List (BitVec 8)) (s : State) : Res :=
  guardUnit (isIngress p) (ran s (rxPacket s p fec bytes (fun pk => pkType pk == ptCOLL && pkNat pk 16 1 == 1) (collHere p)))
/-- COLLECTIVE_DONE (R420). -/
def execCollectiveDone (p : Nat) (fec : Bool) (bytes : List (BitVec 8)) (now : Nat) (s : State) : Res :=
  guardUnit (isIngress p) (ran s (rxPacket (atTime s now) p fec bytes (fun pk => pkType pk == ptCOLL && pkNat pk 16 1 == 2) (collHere p)))
/-- COLLECTIVE_CLOSE (R420). A reserved COP has no effect. -/
def execCollectiveClose (p : Nat) (fec : Bool) (bytes : List (BitVec 8)) (now : Nat) (s : State) : Res :=
  guardUnit (isIngress p) (ran s (rxPacket (atTime s now) p fec bytes
    (fun pk => pkType pk == ptCOLL && pkNat pk 16 1 != 1 && pkNat pk 16 1 != 2)
    (fun s pk => if pkNat pk 16 1 = 3 then collHere p s pk else s)))
/-- DATA_REDUCE (R410). -/
def execDataReduce (p : Nat) (fec : Bool) (bytes : List (BitVec 8)) (now : Nat) (s : State) : Res :=
  guardUnit (isIngress p) (ran s (rxPacket (atTime s now) p fec bytes
    (fun pk => pkType pk == ptDATA && pkNat pk 18 1 == 2) (collHere p)))

/-! ### Arbitration (R389, R393) -/

/-- REQUEST_CANCEL (R393): a cancel of request `id` at egress `e`, decided before its commit where it still waits. -/
def execRequestCancel (e id : Nat) (s : State) : Res :=
  guardUnit (isPort e) (ran s (
    if (portOf s e).wait.any fun r => r.id == id then
      { updPort s e fun q => { q with wait := q.wait.filter fun r => r.id != id } with cancelled := s.cancelled ++ [id] }
    else s))

/-! ### The time alignment exchange (R395, R396) -/

/-- R396: the port toward this device's parent. -/
def parentPort (s : State) : Option Nat :=
  if tnsSource s = 3 then some (12 + fld s aTNS_CTL 8 8)
  else
    let m := s.servo.master
    let by_ (o : List Nat) : Option Nat := (routeDir s m o).bind fun d => groupPort s d (ownDev s) m
    match by_ [0, 1, 2] with
    | some p => some p
    | none => match by_ [1, 2, 0] with | some p => some p | none => by_ [2, 0, 1]

/-- R395: a TSYNC beat (DEDUCED, assumption log 48). -/
def tsyncBeat (step master hops state t1 t2 t3 : Nat) : List Byte :=
  let b := natLe 1 ptTSYNC ++ natLe 1 step ++ natLe 2 master ++ natLe 1 hops ++ natLe 1 state ++ natLe 2 0 ++ natLe 8 t1 ++
    natLe 8 t2 ++ natLe 8 t3 ++ List.replicate 28 0
  b ++ natLe 4 (crc32 b)

/-- R329, R396: HOPS. -/
def tnsHops (s : State) : Nat := fld s aTNS_OFFSET 47 32

/-- TSYNC_REQUEST_SEND (R395). `sub`: eighths of a nanosecond of the transmit stamp. -/
def execTsyncRequestSend (now sub : Nat) (s : State) : Res :=
  ran s (
    let s := atTime s now
    match parentPort s with
    | some p =>
      if tnsSource s < 2 || !portUp s p || (match s.servo.sent with | some t => decide (s.tense.toNat < t + 125000) | none => false) then s
      else
        let t1 := (8 * s.tense.toNat + sub % 8) % 2 ^ 64
        let s := wireOut s p (.beats (tsyncBeat 0 s.servo.master 0 0 t1 0 0))
        updServo s fun v => { v with t1 := some t1, sent := some s.tense.toNat, due := s.tense.toNat + 125000 }
    | none => s)

/-- TSYNC_REQUEST (R395): a request is answered. `t2`, `t3`: the stamps of its arrival and of the response's departure. -/
def execTsyncRequest (p : Nat) (fec : Bool) (bytes : List (BitVec 8)) (t2 t3 : Nat) (s : State) : Res :=
  guardUnit (isPort p) (ran s (rxLocal s p ptTSYNC fec bytes fun s =>
    if leNat ((bytes.drop 1).take 1) ≠ 0 then s
    else
      let master := if fld s aTNS_CTL 3 3 = 1 then ownDev s else s.servo.master
      let st := (if tnsLocked s then 1 else 0) + if tnsHoldover s then 2 else 0
      wireOut s p (.beats (tsyncBeat 1 master (tnsHops s) st (leNat ((bytes.drop 8).take 8)) (t2 % 2 ^ 64) (t3 % 2 ^ 64)))))

/-- TSYNC_RESPONSE (R395, R396). `t4`: the stamp of its arrival. -/
def execTsyncResponse (p : Nat) (fec : Bool) (bytes : List (BitVec 8)) (t4 now : Nat) (s : State) : Res :=
  guardUnit (isPort p) (ran s (rxLocal (atTime s now) p ptTSYNC fec bytes fun s =>
    let at_ (o n : Nat) : Nat := leNat ((bytes.drop o).take n)
    if at_ 1 1 = 1 ∧ 2 ≤ tnsSource s ∧ parentPort s = some p ∧ s.servo.t1 = some (at_ 8 8) then
      let t1 : Int := at_ 8 8
      let off := (((at_ 16 8 : Int) - t1) - (((t4 % 2 ^ 64 : Nat) : Int) - at_ 24 8)) / 2
      let s := updServo s fun v => { v with t1 := none, master := at_ 2 2 }
      let s := setFld s aTNS_OFFSET 47 32 (if tnsSource s = 2 then at_ 4 1 + 1 else 0)
      tnsMeasure s off
    else s))

end Sys2Proof.Machine
end

