-- ==== Sys2Proof/Machine/Pairing.lean ====
section
/-! DEFINITION. The pair engine's events, egress commits, and a lockstep mismatch (spec/20_fault_handling.md R594, R607 to R614,
spec/12_yilvo_links.md R389). -/

namespace Sys2Proof.Machine

/-- EGRESS_COMMIT (R389): writes that the pair engine forwards (R610) stand among the requests. -/
def execEgressCommit (e now : Nat) (s : State) : Res :=
  guardUnit (isPort e) (ran s (egressCommit (if 12 ≤ e then drainMirror (atTime s now) else atTime s now) e))

/-! ### LAYOUT (R607) -/

/-- R607: region count and view sizes of the paired context's step table; none where it has no table. -/
def ownLayout (s : State) : List Nat :=
  match pairCtx s with
  | some c => if (ctxOf s c).table.isSome then (ctxOf s c).views.length :: (ctxOf s c).views.map (·.bytes) else []
  | none => []

/-- R607: do the layouts agree, with at most 128 GiB in a bank. -/
def layoutOk (s : State) (l : List Nat) : Bool := l == ownLayout s && !l.isEmpty && decide ((l.drop 1).sum ≤ 2 ^ 37)

/-- R607, R613: in SYNCING, the layouts are compared once both are known; a COMPARE pair is then PAIRED, a MIRROR pair copies its
views first. -/
def layoutMeet (s : State) : State :=
  match s.pair.seen with
  | none => s
  | some l => if pairState s ≠ 1 then s else if !layoutOk s l then pairSet s 6 else if pairMode s = 2 then pairSet s 2 else s

/-- R608: sends LAYOUT (DESIGN CHOICE, assumption log 67). -/
def layoutSend (s : State) : State :=
  let l := ownLayout s
  pairSend s 1 (match pairCtx s with | some c => (runOf s c).step | none => 0) ((List.range 112).map (Config.pairLayout l))

/-- PAIRING_ENABLE (R607, R612, R614): carries out a change of EN that a write of RAS_PAIR has made. A reserved MODE pairs nothing (DEDUCED, assumption log 68). -/
def execPairingEnable (s : State) : Res :=
  ran s (match strobeOf s aRAS_PAIR 0 with
    | none => s
    | some v =>
      let s := strobeClr s aRAS_PAIR 0
      if v = 2 then
        if pairMode s = 0 then s else layoutMeet (layoutSend (pairSet s 1))
      else
        let s := if pairState s = 1 ∨ pairState s = 2 then pairSend s 6 0 [] else s
        { pairSet s 0 with pair := {}, mirror := [] })

/-- A pair message (R608) of a kind. -/
def isPairMsg (p msg : Nat) (pk : Pkt) : Bool := pairMsg p pk && leNat (pk.payload.take 1) == msg
/-- STEP of a pair message. -/
def pmStep (pk : Pkt) : Nat := leNat ((pk.payload.drop 8).take 8)
/-- R608, R614: does a message carry the key of an enabled pair, on one of its ports. -/
def pairHere (s : State) (p : Nat) (pk : Pkt) : Bool :=
  fld s aRAS_PAIR 0 0 == 1 && (pairPorts s).contains p && pkKey pk == fld s aRAS_PAIR 31 16

/-- PAIR_LAYOUT (R607, R608). `layout`: what the message spells; the spec gives its bytes no form (DESIGN CHOICE, assumption log 67). One that comes
before pairing is enabled here is kept until it is. -/
def execPairLayout (p : Nat) (fec : Bool) (bytes : List (BitVec 8)) (layout : List Nat) (s : State) : Res :=
  guardUnit (isPort p) (ran s (rxPacket s p fec bytes (isPairMsg p 1) fun s _ => layoutMeet { s with pair := { s.pair with seen := some layout } }))

/-! ### MIRROR (R610, R611) -/

/-- R610: sends the bytes of a committed view to the same offset of the partner's committed bank. -/
def viewSend (s : State) (c : Nat) (v : View) : State :=
  let base := (if v.spad then 2 ^ 63 else 0) + v.vc
  ((hereRuns s c base v.bytes).foldl (fun (a : State × Nat) r =>
    ((splitAtGran 4096 (r.1.length / 4096 + 2) a.2 r.1).foldl (fun s x =>
      pairData s mirrorTag x.1 true x.2 (if r.2 then 2 ^ ((x.2.length + 31) / 32) - 1 else 0)) a.1, a.2 + r.1.length)) (s, base)).1

/-- INITIAL_VIEW_COPY (R610): the primary's committed views are sent, and the pair is PAIRED. On the partner, the copy has arrived. -/
def execInitialViewCopy (s : State) : Res :=
  ran s (match pairCtx s, s.pair.seen with
    | some c, some l =>
      if fld s aRAS_PAIR 0 0 = 1 ∧ pairMode s = 1 ∧ pairState s = 1 ∧ layoutOk s l then
        pairSet (if pairPrimary s then (ctxOf s c).views.foldl (fun s v => viewSend s c v) s else s) 2
      else s
    | _, _ => s)

/-- R611: is this the partner of a MIRROR pair whose engine runs. -/
def mirrorPartner (s : State) : Bool :=
  pairMode s == 1 && !pairPrimary s && (pairState s == 1 || pairState s == 2)

/-- R611: the partner takes a COMMIT. -/
def pairCommitIn (s : State) (pk : Pkt) : State :=
  match pairCtx s with
  | none => s
  | some c =>
    match (ctxOf s c).table with
    | none => s
    | some _ =>
      let step := pmStep pk
      let genS := (List.range 8).map fun i => leNat ((pk.payload.drop (16 + 8 * i)).take 8)
      let s := exchangeViews s c
      let s := updRun s c fun r => { r with step := step + 1 }
      let s := updCtx s c fun x => { x with table := x.table.map fun t => { t with genC := genS } }
      let s := stepRecWrite (clearBitmaps s c) c genS
      pairSend (setFld s aRAS_PAIR_STATUS 63 16 step) 3 step []

/-- PAIR_COMMIT (R611). -/
def execPairCommit (p : Nat) (fec : Bool) (bytes : List (BitVec 8)) (s : State) : Res :=
  guardUnit (isPort p) (ran s (rxPacket s p fec bytes (isPairMsg p 2) fun s pk =>
    if pairHere s p pk && mirrorPartner s then pairCommitIn s pk else s))

/-- R611: COMMIT_ACK of a step: the commit that waits for it may go on. -/
def pairAckIn (s : State) (pk : Pkt) : State :=
  match s.descs.find? fun d => dType d.2 == dtSTEP && dForm d.2 == 1 && d.2.st == .running && d.2.pos == 3 && cmStep d.2 == pmStep pk
      && dCtx s d.2 == pairCtx s with
  | some (id, _) =>
    updDesc (setFld (satFld s aRAS_PAIR_CNT 63 32 1) aRAS_PAIR_STATUS 63 16 (pmStep pk)) id fun d => { d with pos := 4 }
  | none => s

/-- PAIR_COMMIT_ACK (R611). -/
def execPairCommitAck (p : Nat) (fec : Bool) (bytes : List (BitVec 8)) (s : State) : Res :=
  guardUnit (isPort p) (ran s (rxPacket s p fec bytes (isPairMsg p 3) fun s pk =>
    if pairHere s p pk && pairMode s == 1 && pairPrimary s && pairState s == 2 then pairAckIn s pk else s))

/-- PAIR_CMPWORD (R613). -/
def execPairCmpword (p : Nat) (fec : Bool) (bytes : List (BitVec 8)) (s : State) : Res :=
  guardUnit (isPort p) (ran s (rxPacket s p fec bytes (isPairMsg p 4) fun s pk =>
    if pairHere s p pk && pairMode s == 2 && pairState s == 2 then
      pairMatch { s with pair := { s.pair with got := s.pair.got ++ [(pmStep pk, (pk.payload.drop 16).take 32)] } }
    else s))

/-! ### Failover and loss (R594, R609, R612) -/

/-- R612: the standby context becomes runnable, at the step that its step record names; forwarded writes of a step not committed lie
in staged views, which no one has exchanged. -/
def promote (s : State) : State :=
  let s := match pairCtx s with
    | some c => (match (ctxOf s c).table with | some t => stepRecWrite s c t.genC | none => s)
    | none => s
  pairSet (signalOwn s (fld s aRAS_PAIR 45 32) 1 false) 4

/-- R612: may the standby of this device be promoted (DEDUCED, assumption log 69). -/
def mayPromote (s : State) : Bool :=
  fld s aRAS_PAIR 0 0 == 1 && pairMode s == 1 && !pairPrimary s && (pairState s == 1 || pairState s == 2 || pairState s == 3)

/-- PAIR_FAILOVER (R612). -/
def execPairFailover (p : Nat) (fec : Bool) (bytes : List (BitVec 8)) (s : State) : Res :=
  guardUnit (isPort p) (ran s (rxPacket s p fec bytes (isPairMsg p 5) fun s pk => if pairHere s p pk && mayPromote s then promote s else s))

/-- PAIR_END (R612). -/
def execPairEnd (p : Nat) (fec : Bool) (bytes : List (BitVec 8)) (s : State) : Res :=
  guardUnit (isPort p) (ran s (rxPacket s p fec bytes (isPairMsg p 6) fun s pk =>
    if pairHere s p pk && pairState s != 4 then { pairSet s 0 with pair := {}, mirror := [] } else s))

/-- PARTNER_LOST (R609, R611 to R613): no paired port has delivered a LINKCTL for a millisecond. A commit that waits goes on alone (DEDUCED, assumption log 69). -/
def execPartnerLost (now : Nat) (s : State) : Res :=
  let s := atTime s now
  ran s (
    let ps := pairPorts s
    if fld s aRAS_PAIR 0 0 = 1 ∧ (pairState s = 1 ∨ pairState s = 2) ∧ ps ≠ [] ∧ ps.all (fun p => decide ((portOf s p).heard + 1000000 ≤ s.tense.toNat)) then
      let s := { pairSet s 3 with mirror := [], pair := { s.pair with own := [], got := [] }, ackWait := mapDel s.ackWait mirrorTag }
      if fld s aRAS_PAIR 6 6 = 1 ∧ mayPromote s then promote s else s
    else s)

/-- PROMOTE (R612, R614): carries out a one that management wrote to PROMOTE. -/
def execPromote (s : State) : Res :=
  ran s (match strobeOf s aRAS_PAIR 7 with
    | none => s
    | some _ =>
      let s := strobeClr s aRAS_PAIR 7
      if mayPromote s then promote s else s)

/-- LOCKSTEP_MISMATCH (R594). The wait for the record's acknowledgement, at most 1 ms, adds time only. -/
def execLockstepMismatch (s : State) : Res :=
  ran s (if s.pins.reset then s else coldReset (report (failoverNow s) clFATAL 0x15 0xFF 0xFF 0xFF []) 3)

end Sys2Proof.Machine
end

