-- ==== Sys2Proof/Machine/Power.lean ====
section
/-! DEFINITION. Power, thermal and Ellipsis events (spec/19_power_and_ellipsis.md R566 to R586). -/

namespace Sys2Proof.Machine

/-- SET_POINT_UPDATE (R568 to R572). `steps`: by partition, how many steps of 5 mV the Syntax core lowers its ceilings for the power
limit; `over_`: the limit can be kept only by going below a floor (DESIGN CHOICE, assumption log 78). -/
def execSetPointUpdate (now : Nat) (steps : List (Nat × Nat)) (over_ : Bool) (s : State) : Res :=
  let s := atTime s now
  ran s (match periodic s 0 100000 with
    | none => s
    | some s =>
      let s := { s with pwr := { s.pwr with pceil := [] } }
      let s := (steps.filter (·.1 < 12)).foldl (fun s x => powerSteps s x.1 x.2) s
      let s := thermalStep s
      let held := if over_ then (match hungriest s with | some sl => s.pwr.held ++ [sl] | none => s.pwr.held) else []
      powerFlags (dvAll { s with pwr := { s.pwr with held := held } }))

/-- POWER_ESTIMATE (R570, R576, R578). `doms`: the estimates of domains 0 to 41, the stacks (`hbm`) and the `boundary`, in units of 0.1 W. -/
def execPowerEstimate (now : Nat) (doms : List Nat) (hbm boundary : Nat) (s : State) : Res :=
  let s := atTime s now
  ran s (match periodic s 1 10000 with | none => s | some s => estimate s doms (hbm + boundary))

/-- PMBUS_CORRECTION (R570, R657). `readings`: for regulators 40h to 48h, the power reported less the estimate for that rail, in
units of 0.1 W; none: the transaction failed. A rail whose regulator does not answer is not corrected. -/
def execPmbusCorrection (now : Nat) (readings : List (Option Int)) (s : State) : Res :=
  let s := atTime s now
  ran s (match periodic s 2 1000000 with
    | none => s
    | some s =>
      let s := ((List.range 9).zip readings).foldl (fun s x => pmbusResult s x.1 x.2.isSome) s
      { s with pwr := { s.pwr with corr := (readings.map fun r => r.getD 0).sum } })

/-- PMBUS_ALERT (R657): PMB_ALERT_N is asserted; STATUS_WORD of each regulator is read. -/
def execPmbusAlert (words : List (Option Nat)) (s : State) : Res :=
  ran s (if s.pins.reset then s
    else
      let s := { s with pins := { s.pins with alert := true } }
      ((List.range 9).zip words).foldl (fun s x =>
        let s := pmbusResult s x.1 x.2.isSome
        match x.2 with | some w => { s with pwr := { s.pwr with word := mapIns s.pwr.word x.1 (w % 65536) } } | none => s) s)

/-- JUNCTION_SENSOR_READ (R572, R589). `temps`: four sensors of each slice, then two of each switch half, in °C. -/
def execJunctionSensorRead (now : Nat) (temps : List Int) (s : State) : Res :=
  let s := atTime s now
  ran s (match periodic s 3 10000 with | none => s | some s => (List.range 14).foldl (fun s i => sensorStep s i temps) s)

/-- RAIL_MONITOR_SAMPLE (R573, R574, R592): the two monitors of domain `dom`, and its regulator's telemetry where this sample is compared
with it, in mV. -/
def execRailMonitorSample (dom a b : Nat) (tele : Option Nat) (now : Nat) (s : State) : Res :=
  guardUnit (decide (dom < 41)) (ran s (
    let s := atTime s now
    if !domOn s dom then s
    else match periodic s (100 + dom) 20 with | none => s | some s => railSample s dom a b tele))

/-- DIP_EVENT_END (R574, R575). -/
def execDipEventEnd (now : Nat) (s : State) : Res :=
  let s := atTime s now
  ran s (match s.pwr.dip with
    | none => s
    | some e =>
      -- a rail that has been switched off is monitored no more
      let over_ := e.doms.all fun d => !domOn s d.1 || match d.2 with | some t => decide (t + 1000 ≤ s.tense.toNat) | none => false
      if over_ then dipEnd s e else s)

/-- RAIL_RESET (R573, R616, R654): an interior rail, by domain (0 to 40), of which both monitors have read below 0.50 V for 100 samples; a
board rail, by its regulator (42h to 48h), which the device has commanded on; or FFh, VDD_IO18 (DEDUCED, assumption log 87). -/
def execRailReset (rail : Nat) (s : State) : Res :=
  guardUnit (decide (rail < 41) || (decide (0x42 ≤ rail) && decide (rail ≤ 0x48)) || rail == 0xFF) (ran s (
    let falls := if rail < 41 then decide (100 ≤ mapGet 0 s.pwr.low rail) else rail == 0xFF || s.pwr.rails.contains (rail - 0x40)
    if falls then coldReset s 2 else s))

/-- DIP_RAISE_EXPIRY (R575). -/
def execDipRaiseExpiry (dom now : Nat) (s : State) : Res :=
  guardUnit (decide (dom < 41)) (ran s (
    let s := atTime s now
    match mapFind s.pwr.raise dom with
    | none => s
    | some t =>
      if s.tense.toNat < t then s
      else
        let s := clrBitOf { s with pwr := { s.pwr with raise := mapDel s.pwr.raise dom } } (aPWR_DOM dom) 17
        if domOn s dom then dvSet s dom (spOf s dom) else s))

/-- RECORD_REVALIDATION (R579): record `kind` of slice `sl` after five seconds at a class above its own. `ok`: every prediction held;
`data`: the contents captured again (DEDUCED, assumption log 88). -/
def execRecordRevalidation (sl kind : Nat) (ok : Bool) (data : List Nat) (now : Nat) (s : State) : Res :=
  guardUnit (decide (sl < 12) && decide (kind < 3)) (ran s (
    let s := atTime s now
    match calRec s sl kind with
    | none => s
    | some r =>
      if !(r.st == 1 && decide (r.cls < loadClass s sl) && decide (mapGet 0 s.pwr.clsAt sl + 5000000000 ≤ s.tense.toNat) && s.pwr.dip.isNone) then s
      else
        let put (r : CalRec) : State := { s with nvm := { s.nvm with cal := mapIns s.nvm.cal (4 * sl + kind) r } }
        if ok then calShow (put { r with st := 0, cls := loadClass s sl, tense := s.tense.toNat, data := data }) sl
        else
          let s := calShow (put { r with st := 2 }) sl
          if s.pwr.calDue.contains sl then s else { s with pwr := { s.pwr with calDue := s.pwr.calDue ++ [sl] } }))

/-- PWR_SLEEP (R581): carries out a one written to SLEEP. -/
def execPwrSleep (now : Nat) (s : State) : Res :=
  let s := atTime s now
  ran s (match strobeOf s aPWR_CTL 0 with
    | none => s
    | some _ => sleepRequest (strobeClr s aPWR_CTL 0))

/-- IDLE_SLEEP (R581). -/
def execIdleSleep (now : Nat) (s : State) : Res :=
  let s := atTime s now
  ran s (
    if fld s aPWR_CTL 2 2 = 1 ∧ devReady s ∧ pwrState s = 0 ∧ !workRuns s ∧ s.pwr.workAt + 1000000 * fld s aPWR_CTL 31 16 ≤ s.tense.toNat then
      sleepRequest s
    else s)

/-- ELLIPSIS_ENTERED (R582): once every context is SAVED and every accepted descriptor has completed or waits. -/
def execEllipsisEntered (now : Nat) (s : State) : Res :=
  let s := atTime s now
  ran s (if pwrState s = 1 ∧ (List.range 12).all (fun k => (runningOf s k).isNone) ∧ s.descs.all (fun d => descSettled d.2) then ellipsisEnter s
    else s)

/-- PWR_WAKE (R583 to R585): a one written to WAKE, or an arrival that asks for a wake, in Ellipsis. -/
def execPwrWake (now : Nat) (s : State) : Res :=
  let s := atTime s now
  ran s (
    let s := match strobeOf s aPWR_CTL 1 with | some _ => wakeBy (strobeClr s aPWR_CTL 1) 5 | none => s
    match s.wakeWant with
    | some src => if pwrState s = 2 then wakeBegin s src else s
    | none => s)

/-- WAKE_COMPLETE (R584): 400 µs after the wake was decided. `badStacks`: stacks not ready, `badDoms`: domains not at their set points. -/
def execWakeComplete (now : Nat) (badStacks badDoms : List Nat) (s : State) : Res :=
  let s := atTime s now
  ran s (if pwrState s = 3 ∧ s.pwr.t0 + 400000 ≤ s.tense.toNat then
      setFld (vinFollow (slicesReady s ((List.range 12).filter fun sl => (sliceOwner s sl).isSome) badStacks badDoms)) aPWR_STATUS 1 0 0
    else s)

end Sys2Proof.Machine
end

