-- ==== Sys2Proof/Machine/PvxOps.lean ====
section
/-! DEFINITION. What the PVX instructions share: registers and elements, legality, and the shapes of operation
(spec/08_particle_cores.md R256 to R269). -/

namespace Sys2Proof.Machine

/-! ### Registers and elements (R256, R267) -/

/-- A vector register; in overlay mode it is the float register. -/
def vReg (c : PCore) (i : Nat) : Nat := if c.overlay then fGet c i else (mapGet 0#512 c.v i).toNat
/-- Writes a vector register. -/
def vRegPut (c : PCore) (i x : Nat) : PCore :=
  if c.overlay then fsDirty { c with f := mapSet 0#64 c.f i (BitVec.ofNat 64 x) }
  else { c with v := mapSet 0#512 c.v i (BitVec.ofNat 512 x) }
/-- Where element `e` of a group of `sew`-bit elements lies: register and lowest bit. -/
def vAt (c : PCore) (vn sew e : Nat) : Nat × Nat := (vn + e * sew / vlenOf c, e * sew % vlenOf c)
/-- An element. -/
def vEl (c : PCore) (vn sew e : Nat) : Nat := let (r, b) := vAt c vn sew e; bits (vReg c r) (b + sew - 1) b

/-- The poison keys of an element: vector bytes, or the float register in overlay mode. -/
def vKeys (c : PCore) (vn sew e : Nat) : List Nat :=
  let (r, b) := vAt c vn sew e
  if c.overlay then [r] else (List.range (sew / 8)).map fun i => 64 * r + b / 8 + i

/-- Writes an element. `po`: the address of a poisoned load that gave it. -/
def vPut (c : PCore) (vn sew e v : Nat) (po : Option Nat) : PCore :=
  let (r, b) := vAt c vn sew e
  let ks := vKeys c vn sew e
  let upd (m : Map Nat) : Map Nat := ks.foldl (fun m k => match po with | some a => mapIns m k a | none => mapDel m k) m
  let d := vRegPut c r (setBits (vReg c r) (b + sew - 1) b v)
  if c.overlay then { d with pf := upd c.pf } else { d with pv := upd c.pv }

/-- A mask register. -/
def mReg (c : PCore) (i : Nat) : Nat := (mapGet 0#512 c.m i).toNat
/-- Writes a mask register. -/
def mRegPut (c : PCore) (i x : Nat) : PCore := { c with m := mapSet 0#512 c.m i (BitVec.ofNat (vlenOf c) x |>.setWidth 512) }

/-! ### Configuration and fields (R257, R260) -/

/-- A PVX instruction's fields and the configuration it runs under. -/
structure VEnv where
  p : Nat
  w : Nat
  nx : Nat
  sew : Nat
  lmul : Nat
  fp16 : Bool
  rm : RMode
  vd : Nat
  pred : Nat
  r1 : Nat
  r2 : Nat
  z : Bool
  /-- VS: vs1 is a scalar -/
  scalar : Bool
  /-- elements that may be active -/
  n : Nat
deriving DecidableEq, Repr

/-- R60: the rounding mode of a RND code. -/
def rndMode (k : Nat) : RMode := match k with | 0 => .rne | 1 => .rtz | 2 => .rup | _ => .rdn

/-- R256 (DEDUCED, assumption log 22). -/
def vlmaxOf (c : PCore) (sew lmul : Nat) : Nat := lmul * vlenOf c / sew

/-- The environment of an instruction. An element beyond VLMAX is never active (DEDUCED, assumption log 22). -/
def vEnv (s : State) (p w len : Nat) : VEnv :=
  let c := coreOf s p
  let g := c.csr.pvxcfg.toNat
  let sew := 8 * 2 ^ bits g 1 0
  let lmul := 2 ^ bits g 3 2
  { p := p, w := w, nx := lo64 (c.pc.toNat + len), sew := sew, lmul := lmul, fp16 := bit g 4, rm := rndMode (bits g 7 5)
    vd := bits w 11 7, pred := bits w 14 12, r1 := bits w 19 15, r2 := bits w 24 20, z := bit w 25
    scalar := bits w 6 0 == 0x5B, n := min c.vl (vlmaxOf c sew lmul) }

/-- R264: is PVX enabled in the present mode. -/
def pvxOn (c : PCore) : Bool := bit c.csr.pvxctl.toNat 0 && (c.mach || bit c.csr.pvxctl.toNat 1)

/-- R259: is element `e` not masked off (DEDUCED, assumption log 22). -/
def vAct (c : PCore) (v : VEnv) (e : Nat) : Bool := v.pred == 0 || bit (mReg c v.pred) e

/-- R261: the float layout at an element width. -/
def vLay (v : VEnv) (sew : Nat) : FLay :=
  if sew = 64 then laD else if sew = 32 then laS else if v.fp16 then layOf .f16 else layOf .bf16

/-- R44: every NaN is read as a quiet NaN (DEDUCED, assumption log 28). -/
def quiet (l : FLay) (x : Nat) : Nat := if patNan l x then layNan l else x

/-- Does a group of `m` registers starting at `n` break its alignment (R264). -/
def vBad (n m : Nat) : Bool := n % m != 0
/-- Do two register groups overlap. -/
def vMeet (a m b k : Nat) : Bool := decide (a < b + k) && decide (b < a + m)

/-- R254: the first use of a poisoned element among those a PVX instruction reads, or of a poisoned scalar. -/
def vUse (s : State) (p : Nat) (els : List (Nat × Nat × Nat)) (xs fs : List Nat) : Option (State × Trap) :=
  let c := coreOf s p
  let ks := els.flatMap fun t => vKeys c t.1 t.2.1 t.2.2
  let hit := match ks.findSome? fun k => mapFind (if c.overlay then c.pf else c.pv) k with
    | some a => some a
    | none => poisonUse c xs fs
  hit.map fun a =>
    (updCore s p fun c =>
      { c with
        pv := if c.overlay then c.pv else ks.foldl mapDel c.pv
        pf := (if c.overlay then ks ++ fs else fs).foldl mapDel c.pf
        px := xs.foldl mapDel c.px },
     ⟨5, a, some pfPOISON⟩)

/-- Runs a PVX body once it is enabled and its form is legal, and no value it uses is poisoned. -/
def vRun (s : State) (v : VEnv) (bad : Bool) (els : List (Nat × Nat × Nat)) (xs fs : List Nat) (body : Unit → RvOut) : RvOut :=
  if !pvxOn (coreOf s v.p) || bad then .trap s (illegal 0)
  else match vUse s v.p els xs fs with
    | some (t, tr) => .trap t tr
    | none => body ()

/-- The elements of a group that a list of indices names. -/
def vEls (vn sew : Nat) (es : List Nat) : List (Nat × Nat × Nat) := es.map fun e => (vn, sew, e)

/-- The indices of the active elements (R259). -/
def vActs (c : PCore) (v : VEnv) : List Nat := (List.range v.n).filter (vAct c v)

/-- The scalar of VS: the low bits of x[rs1] or f[rs1]. -/
def vScalar (c : PCore) (v : VEnv) (float : Bool) (sew : Nat) : Nat :=
  (if float then fGet c v.r1 else xGet c v.r1) % 2 ^ sew

/-- Writes the active elements of a group, and zero or nothing to those masked off (R259). -/
def vWrite (c : PCore) (v : VEnv) (sew : Nat) (f : Nat → FpR) : PCore :=
  (List.range v.n).foldl (fun d e =>
    if vAct c v e then let r := f e; accrue (vPut d v.vd sew e r.1 none) r.2
    else if v.z then vPut d v.vd sew e 0 none else d) c

/-- The shape of an element-wise operation (R261, R262). -/
structure VSpec where
  /-- a float FUNC: illegal at SEW 8, a scalar comes from f -/
  float : Bool := false
  /-- element widths of vd and of vs2, in units of SEW -/
  dst : Nat := 1
  src : Nat := 1
  uses1 : Bool := true
  usesD : Bool := false
  only32 : Bool := false
  /-- vs1 must be 0 -/
  zero1 : Bool := false

/-- R261, R262: an element-wise operation: `f` gets the environment and the elements of vs2, vs1 and vd. -/
def vElem (o : VSpec) (f : VEnv → Nat → Nat → Nat → FpR) (p : Nat) (s : State) (w len : Nat) : RvOut :=
  let c := coreOf s p
  let v := vEnv s p w len
  let wide := decide (1 < o.dst) || decide (1 < o.src)
  let md := o.dst * v.lmul
  let m2 := o.src * v.lmul
  let vv1 := o.uses1 && !v.scalar
  let bad := (o.float && v.sew == 8) || (o.only32 && v.sew != 32) || (o.zero1 && v.r1 != 0)
    || (wide && (v.lmul == 8 || v.sew == 64))
    || vBad v.vd md || vBad v.r2 m2 || (vv1 && vBad v.r1 v.lmul)
    || (wide && (vMeet v.vd md v.r2 m2 || (vv1 && vMeet v.vd md v.r1 v.lmul)))
  let es := vActs c v
  let els := vEls v.r2 (o.src * v.sew) es ++ (if vv1 then vEls v.r1 v.sew es else [])
    ++ (if o.usesD then vEls v.vd (o.dst * v.sew) es else [])
  let sc := o.uses1 && v.scalar
  vRun s v bad els (if sc && !o.float then [v.r1] else []) (if sc && o.float then [v.r1] else []) fun _ =>
    let b (e : Nat) : Nat := if v.scalar then vScalar c v o.float v.sew else vEl c v.r1 v.sew e
    .done (retire (updCore s p fun c => vWrite c v (o.dst * v.sew) fun e =>
      f v (vEl c v.r2 (o.src * v.sew) e) (b e) (vEl c v.vd (o.dst * v.sew) e)) p v.nx)

/-- An integer operation of two elements. -/
def vInt (f : Nat → Nat → Nat → Nat) (p : Nat) (s : State) (w len : Nat) : RvOut :=
  vElem {} (fun v a b _ => (f v.sew a b % 2 ^ v.sew, 0)) p s w len

/-- A float operation of vs2, vs1 and vd at SEW, on quiet operands (R263). -/
def vFloat (uses1 usesD zero1 : Bool) (f : FLay → RMode → Nat → Nat → Nat → FpR) (p : Nat) (s : State) (w len : Nat) : RvOut :=
  vElem { float := true, uses1 := uses1, usesD := usesD, zero1 := zero1 } (fun v a b d =>
    let l := vLay v v.sew
    f l v.rm (quiet l a) (quiet l b) (quiet l d)) p s w len

/-- FMIN and FMAX, as R179 orders: a NaN gives the canonical NaN, −0 lies below +0. -/
def vMinMax (mx : Bool) (l : FLay) (a b : Nat) : FpR :=
  if patNan l a || patNan l b then (layNan l, 0) else ((fpMinMax l mx a b).1, 0)

/-- R261: a compare: bit e of the mask register vd[2:0]. -/
def vCmp (float : Bool) (f : VEnv → Nat → Nat → FpR) (p : Nat) (s : State) (w len : Nat) : RvOut :=
  let c := coreOf s p
  let v := vEnv s p w len
  let vv1 := !v.scalar
  let bad := (float && v.sew == 8) || decide (8 ≤ v.vd) || vBad v.r2 v.lmul || (vv1 && vBad v.r1 v.lmul)
  let es := vActs c v
  vRun s v bad (vEls v.r2 v.sew es ++ (if vv1 then vEls v.r1 v.sew es else []))
      (if v.scalar && !float then [v.r1] else []) (if v.scalar && float then [v.r1] else []) fun _ =>
    let b (e : Nat) : Nat := if v.scalar then vScalar c v float v.sew else vEl c v.r1 v.sew e
    let r := (List.range v.n).foldl (fun (acc : Nat × Nat) e =>
      if vAct c v e then
        let x := f v (vEl c v.r2 v.sew e) (b e)
        (setBits acc.1 e e x.1, acc.2 ||| x.2)
      else if v.z then (setBits acc.1 e e 0, acc.2) else acc) (mReg c v.vd, 0)
    .done (retire (updCore s p fun c => accrue (mRegPut c v.vd r.1) r.2) p v.nx)

/-- R261, R263: a reduction, in increasing element order, from vs1[0]; with vl zero no element is written (DEDUCED, assumption log 28). -/
def vRed (float : Bool) (f : VEnv → Nat → Nat → FpR) (p : Nat) (s : State) (w len : Nat) : RvOut :=
  let c := coreOf s p
  let v := vEnv s p w len
  let vv1 := !v.scalar
  let bad := (float && v.sew == 8) || vBad v.vd v.lmul || vBad v.r2 v.lmul || (vv1 && vBad v.r1 v.lmul)
  let es := vActs c v
  vRun s v bad (vEls v.r2 v.sew es ++ (if vv1 && v.n != 0 then vEls v.r1 v.sew [0] else []))
      (if v.scalar && !float then [v.r1] else []) (if v.scalar && float then [v.r1] else []) fun _ =>
    let i := if v.scalar then vScalar c v float v.sew else vEl c v.r1 v.sew 0
    let r := es.foldl (fun (acc : FpR) e => let x := f v acc.1 (vEl c v.r2 v.sew e); (x.1, acc.2 ||| x.2)) (i, 0)
    .done (retire (if v.n = 0 then s else updCore s p fun c => accrue (vPut c v.vd v.sew 0 r.1 none) r.2) p v.nx)

/-! ### VK (R266) -/

/-- A mask operation over bits 0 to vl − 1: `f` of the bits of ms1 and ms2. -/
def vMask (two : Bool) (f : Bool → Bool → Bool) (p : Nat) (s : State) (w len : Nat) : RvOut :=
  let c := coreOf s p
  let v := { vEnv s p w len with pred := 0 }
  vRun s v (v.z || decide (8 ≤ v.vd) || decide (8 ≤ v.r1) || (two && decide (8 ≤ v.r2))) [] [] [] fun _ =>
    let r := (List.range v.n).foldl (fun m e => setBits m e e (b2n (f (bit (mReg c v.r1) e) (bit (mReg c v.r2) e)))) (mReg c v.vd)
    .done (retire (updCore s p fun c => mRegPut c v.vd r) p v.nx)

/-- The environment of a VK instruction: no predicate; bit 25 must be 0. -/
def vkEnv (s : State) (p w len : Nat) : VEnv := { vEnv s p w len with pred := 0, z := false }
/-- Is bit 25 of a VK instruction set (DEDUCED, assumption log 28). -/
def vkBad (w : Nat) : Bool := bit w 25

/-- A VK move into a vector group: element e from `f`. -/
def vMove (useV2 : Bool) (xs fs : VEnv → List Nat) (els : PCore → VEnv → List (Nat × Nat × Nat))
    (f : PCore → VEnv → Nat → Option Nat) (p : Nat) (s : State) (w len : Nat) : RvOut :=
  let c := coreOf s p
  let v := vkEnv s p w len
  vRun s v (vkBad w || vBad v.vd v.lmul || (useV2 && vBad v.r2 v.lmul)) (els c v) (xs v) (fs v) fun _ =>
    .done (retire (updCore s p fun c => (List.range v.n).foldl (fun d e =>
      match f c v e with | some x => vPut d v.vd v.sew e x none | none => d) c) p v.nx)

/-! ### VM (R265) -/

/-- The fields of a VM instruction: the predicate lies in bits 28 and 30:29. -/
def vmEnv (s : State) (p w len : Nat) : VEnv := { vEnv s p w len with pred := bits w 28 28 + bits w 30 29 * 2, scalar := false }

/-- EEW. -/
def vmEew (w : Nat) : Nat := 8 * 2 ^ bits w 27 26

/-- Registers that the index group of an indexed access takes (DEDUCED, assumption log 28). -/
def vmIdxRegs (v : VEnv) : Nat := max 1 (v.lmul * vmEew v.w / v.sew)

/-- The address of element `e`. `kind`: 0 unit-stride, 1 strided, 2 indexed. -/
def vmAddr (c : PCore) (v : VEnv) (kind e : Nat) : Nat :=
  let base := xGet c v.r1
  match kind with
  | 0 => lo64 (base + e * (v.sew / 8))
  | 1 => lo64 (base + e * xGet c v.r2)
  | _ => lo64 (base + vEl c v.r2 (vmEew v.w) e)

/-- R265, R264: is the form illegal. -/
def vmBad (v : VEnv) (kind : Nat) (store : Bool) : Bool :=
  bit v.w 31 || (store && v.z) || vBad v.vd v.lmul
    || (if kind = 2 then decide (8 < v.lmul * vmEew v.w / v.sew) || vBad v.r2 (vmIdxRegs v) else vmEew v.w != v.sew)
    || (kind == 0 && v.r2 != 0)

/-- R265: the checks of one element; the control and Conjunction windows take scalar accesses only (DEDUCED, assumption log 26). -/
def vmTrap (s : State) (v : VEnv) (a : Nat) (k : AKind) : Option Trap :=
  let ld := k == .load
  match accessTrap s v.p a (v.sew / 8) k with
  | some t => some t
  | none =>
    if regionOf a = .control ∨ regionOf a = .conj then some ⟨if ld then 5 else 7, a, some pfREGION⟩ else none

/-- What a PVX memory instruction reads from registers. -/
def vmUses (c : PCore) (v : VEnv) (kind : Nat) (store : Bool) : List (Nat × Nat × Nat) :=
  let es := vActs c v
  (if kind = 2 then vEls v.r2 (vmEew v.w) es else []) ++ (if store then vEls v.vd v.sew es else [])

/-- Loads the elements in turn; the host's data may have to come first. -/
def vmLoadAll (s0 : State) (v : VEnv) (kind : Nat) : List Nat → State → RvOut
  | [], s => .done (retire s v.p v.nx)
  | e :: es, s =>
    let a := vmAddr (coreOf s0 v.p) v kind e
    match loadAt s v.p a (v.sew / 8) with
    | .trap _ t => .trap s0 t
    | .held _ => .held s0
    | .val s x po => vmLoadAll s0 v kind es (updCore s v.p fun c => vPut c v.vd v.sew e x (if po then some a else none))

/-- R265: a vector load: every active element is checked before any access. -/
def vmLoad (kind : Nat) (p : Nat) (s : State) (w len : Nat) : RvOut :=
  let c := coreOf s p
  let v := vmEnv s p w len
  vRun s v (vmBad v kind false) (vmUses c v kind false) (if kind = 1 then [v.r1, v.r2] else [v.r1]) [] fun _ =>
    let es := vActs c v
    match es.findSome? fun e => (vmTrap s v (vmAddr c v kind e) .load).map fun t => (vmAddr c v kind e, t) with
    | some (a, t) => .trap (noteXlat s p a false) t
    | none =>
      let z (d : PCore) : PCore := if v.z then ((List.range v.n).filter fun e => !vAct c v e).foldl (fun d e => vPut d v.vd v.sew e 0 none) d else d
      match vmLoadAll s v kind es s with
      | .done t => .done (updCore t p z)
      | .held t =>
        -- the first read that the host aperture has to answer is asked for from the state before the instruction
        match es.findSome? fun e =>
          match loadAt s p (vmAddr c v kind e) (v.sew / 8) with | .held u => some u | _ => none with
        | some u => .held u
        | none => .held t
      | r => r

/-- R265: a vector store, in increasing element order. -/
def vmStore (kind : Nat) (p : Nat) (s : State) (w len : Nat) : RvOut :=
  let c := coreOf s p
  let v := vmEnv s p w len
  vRun s v (vmBad v kind true) (vmUses c v kind true) (if kind = 1 then [v.r1, v.r2] else [v.r1]) [] fun _ =>
    let es := vActs c v
    match es.findSome? fun e => (vmTrap s v (vmAddr c v kind e) .store).map fun t => (vmAddr c v kind e, t) with
    | some (a, t) => .trap (noteXlat s p a true) t
    | none =>
      let st (s : State) (e : Nat) : Option State := memStore s p (vmAddr c v kind e) (natLe (v.sew / 8) (vEl c v.vd v.sew e))
      match es.find? fun e => (st s e).isNone with
      | some e => .trap s ⟨7, vmAddr c v kind e, some 0⟩
      | none => .done (retire (es.foldl (fun s e => (st s e).getD s) s) p v.nx)

/-! ### VC (R258) -/

/-- PVX.SETVL. -/
def vSetvl (p : Nat) (s : State) (w len : Nat) : RvOut :=
  let c := coreOf s p
  let v := vEnv s p w len
  let rnd := bits w 28 26
  vRun s v (bit w 24 || decide (4 ≤ rnd) || bits w 31 29 != 0) [] [v.r1] [] fun _ =>
    let g := bits w 21 20 + bits w 23 22 * 4 + bits w 25 25 * 16 + rnd * 32
    let vl := min (xGet c v.r1) (vlmaxOf c (8 * 2 ^ bits w 21 20) (2 ^ bits w 23 22))
    .done (retire (updCore s p fun c =>
      xPut { c with vl := vl, csr := { c.csr with pvxcfg := BitVec.ofNat 64 g } } v.vd vl none) p v.nx)

end Sys2Proof.Machine
end

