-- ==== Sys2Proof/Machine/Pvx.lean ====
section
/-! DEFINITION. The PVX commands (spec/08_particle_cores.md R257 to R268). -/

namespace Sys2Proof.Machine

/-- A PVX instruction of operation `op`. -/
def pvxRow (p : Nat) (hit : Bool) (op : Nat) (body : Nat → State → Nat → Nat → RvOut) (s : State) : Res :=
  guardUnit (prtOk p) (ran s (prtStep s p hit (.pvx op) (body p)))

/-- MERGE: vs2 where the predicate's bit is 1, else vs1; PRED must be non-zero. -/
def vMerge (p : Nat) (s : State) (w len : Nat) : RvOut :=
  let c := coreOf s p
  let v := vEnv s p w len
  let all := { v with pred := 0 }
  let es := List.range v.n
  let on := es.filter (vAct c v)
  let off := es.filter fun e => !vAct c v e
  vRun s v (v.pred == 0 || vBad v.vd v.lmul || vBad v.r2 v.lmul || (!v.scalar && vBad v.r1 v.lmul))
      (vEls v.r2 v.sew on ++ (if v.scalar then [] else vEls v.r1 v.sew off)) (if v.scalar then [v.r1] else []) [] fun _ =>
    .done (retire (updCore s p fun c => vWrite c all v.sew fun e =>
      (if vAct c v e then vEl c v.r2 v.sew e else if v.scalar then vScalar c v false v.sew else vEl c v.r1 v.sew e, 0)) p v.nx)

/-- A widening integer operation into a group of 2 × SEW: of vs2, vs1 and vd. -/
def vWideInt (usesD : Bool) (f : Nat → Nat → Nat → Nat → Nat) (p : Nat) (s : State) (w len : Nat) : RvOut :=
  vElem { dst := 2, usesD := usesD } (fun v a b d => (f v.sew a b d % 2 ^ (2 * v.sew), 0)) p s w len

/-- The value of a float pattern, every NaN quiet. -/
def vVal (l : FLay) (x : Nat) : Num := decFloat l x

/-- An exact sum of products and an addend, rounded once into `d`. -/
def vDotRound (d : FLay) (rm : RMode) (ps : List (Num × Num)) (z : Num) : FpR :=
  let prods := ps.map fun q => numMul q.1 q.2
  let r := (prods ++ [z]).foldl (fun acc x => match acc with | none => some x | some a => some (numAdd (rm == .rdn) a x)) none
  let r := r.getD numZero
  let anyNan := ps.any (fun q => numIsNan q.1 || numIsNan q.2) || numIsNan z
  let (x, f) := fpRound d rm r
  (x, f ||| (if numIsNan r && (!anyNan || (prods.zip ps).any fun q => numIsNan q.1 && !numIsNan q.2.1 && !numIsNan q.2.2) then fxNV else 0))

/-- The byte sums of DOT4 and DOT4U. -/
def vDot4 (signed : Bool) (a b d : Nat) : Nat :=
  let g (x i : Nat) : Int := if signed then sext 8 (x / 256 ^ i) else (x / 256 ^ i % 256 : Nat)
  toTwos 32 ((List.range 4).foldl (fun t i => t + g a i * g b i) (d : Int))

/-- DOT2BF: the lane's two bfloat16 products and the addend, formed exactly and rounded once into binary32. -/
def vDot2bf (v : VEnv) (a b d : Nat) : FpR :=
  let l := layOf .bf16
  vDotRound laS v.rm ((List.range 2).map fun i => (vVal l (a / 65536 ^ i % 65536), vVal l (b / 65536 ^ i % 65536))) (vVal laS d)


/-- Rounds an exact product once; an invalid operation is a NaN from operands that are none. -/
def fpFromNum (d : FLay) (rm : RMode) (r : Num) (ops : List Num) : FpR :=
  let (x, f) := fpRound d rm r
  (x, f ||| (if numIsNan r && !ops.any numIsNan then fxNV else 0))

/-- A float compare: a NaN operand gives 0, and is invalid for the ordered compares (as the F extension defines them). -/
def vFcmp (op : Nat) (l : FLay) (a b : Nat) : FpR := fpCmp l op (quiet l a) (quiet l b)

/-- MSET: bits 0 to vl − 1 of md become 1. -/
def vMset (p : Nat) (s : State) (w len : Nat) : RvOut :=
  let c := coreOf s p
  let v := vkEnv s p w len
  vRun s v (vkBad w || decide (8 ≤ v.vd)) [] [] [] fun _ =>
    .done (retire (updCore s p fun d => mRegPut d v.vd ((List.range v.n).foldl (fun m e => setBits m e e 1) (mReg c v.vd))) p v.nx)

/-- MCOUNT and MFIRST: x[rd] from the set bits of ms1 below vl. -/
def vMaskX (f : List Nat → Nat) (p : Nat) (s : State) (w len : Nat) : RvOut :=
  let c := coreOf s p
  let v := vkEnv s p w len
  vRun s v (vkBad w || decide (8 ≤ v.r1)) [] [] [] fun _ =>
    rvX s p v.vd (f ((List.range v.n).filter (bit (mReg c v.r1)))) v.nx

/-- MV.X: element 0 of vs2, sign-extended. -/
def vMvX (p : Nat) (s : State) (w len : Nat) : RvOut :=
  let c := coreOf s p
  let v := vkEnv s p w len
  vRun s v (vkBad w || vBad v.r2 v.lmul) (vEls v.r2 v.sew [0]) [] [] fun _ =>
    rvX s p v.vd (sx v.sew (vEl c v.r2 v.sew 0)) v.nx

/-- MV.F: element 0 of vs2, NaN-boxed. -/
def vMvF (p : Nat) (s : State) (w len : Nat) : RvOut :=
  let c := coreOf s p
  let v := vkEnv s p w len
  vRun s v (vkBad w || vBad v.r2 v.lmul) (vEls v.r2 v.sew [0]) [] [] fun _ =>
    .done (retire (updCore s p fun d => fPut d v.vd (boxW v.sew (vEl c v.r2 v.sew 0)) none) p v.nx)

/-- PVX_ADD (R261). -/
def execPvxAdd (p : Nat) (hit : Bool) (s : State) : Res := pvxRow p hit 0x0 (vInt (fun w a b => (a + b) % 2 ^ w)) s

/-- PVX_SUB (R261). -/
def execPvxSub (p : Nat) (hit : Bool) (s : State) : Res := pvxRow p hit 0x1 (vInt (fun w a b => (a + 2 ^ w - b) % 2 ^ w)) s

/-- PVX_MUL (R261). -/
def execPvxMul (p : Nat) (hit : Bool) (s : State) : Res := pvxRow p hit 0x2 (vInt (fun w a b => a * b % 2 ^ w)) s

/-- PVX_MULH (R261). -/
def execPvxMulh (p : Nat) (hit : Bool) (s : State) : Res := pvxRow p hit 0x3 (vInt (fun w a b => toTwos w ((sext w a * sext w b) >>> w))) s

/-- PVX_MULHU (R261). -/
def execPvxMulhu (p : Nat) (hit : Bool) (s : State) : Res := pvxRow p hit 0x4 (vInt (fun w a b => a * b / 2 ^ w)) s

/-- PVX_AND (R261). -/
def execPvxAnd (p : Nat) (hit : Bool) (s : State) : Res := pvxRow p hit 0x5 (vInt (fun _ a b => a &&& b)) s

/-- PVX_OR (R261). -/
def execPvxOr (p : Nat) (hit : Bool) (s : State) : Res := pvxRow p hit 0x6 (vInt (fun _ a b => a ||| b)) s

/-- PVX_XOR (R261). -/
def execPvxXor (p : Nat) (hit : Bool) (s : State) : Res := pvxRow p hit 0x7 (vInt (fun _ a b => a ^^^ b)) s

/-- PVX_SLL (R261). -/
def execPvxSll (p : Nat) (hit : Bool) (s : State) : Res := pvxRow p hit 0x8 (vInt (fun w a b => a * 2 ^ (b % w))) s

/-- PVX_SRL (R261). -/
def execPvxSrl (p : Nat) (hit : Bool) (s : State) : Res := pvxRow p hit 0x9 (vInt (fun w a b => a >>> (b % w))) s

/-- PVX_SRA (R261). -/
def execPvxSra (p : Nat) (hit : Bool) (s : State) : Res := pvxRow p hit 0xa (vInt (fun w a b => toTwos w (sext w a >>> (b % w)))) s

/-- PVX_MIN (R261). -/
def execPvxMin (p : Nat) (hit : Bool) (s : State) : Res := pvxRow p hit 0xb (vInt (fun w a b => if sext w a ≤ sext w b then a else b)) s

/-- PVX_MAX (R261). -/
def execPvxMax (p : Nat) (hit : Bool) (s : State) : Res := pvxRow p hit 0xc (vInt (fun w a b => if sext w a ≤ sext w b then b else a)) s

/-- PVX_MINU (R261). -/
def execPvxMinu (p : Nat) (hit : Bool) (s : State) : Res := pvxRow p hit 0xd (vInt (fun _ a b => min a b)) s

/-- PVX_MAXU (R261). -/
def execPvxMaxu (p : Nat) (hit : Bool) (s : State) : Res := pvxRow p hit 0xe (vInt (fun _ a b => max a b)) s

/-- PVX_MERGE (R261). -/
def execPvxMerge (p : Nat) (hit : Bool) (s : State) : Res := pvxRow p hit 0xf (vMerge) s

/-- PVX_FADD (R261). -/
def execPvxFadd (p : Nat) (hit : Bool) (s : State) : Res := pvxRow p hit 0x10 (vFloat true false false fun l m a b _ => fpAdd l m a b) s

/-- PVX_FSUB (R261). -/
def execPvxFsub (p : Nat) (hit : Bool) (s : State) : Res := pvxRow p hit 0x11 (vFloat true false false fun l m a b _ => fpSub l m a b) s

/-- PVX_FMUL (R261). -/
def execPvxFmul (p : Nat) (hit : Bool) (s : State) : Res := pvxRow p hit 0x12 (vFloat true false false fun l m a b _ => fpMul l m a b) s

/-- PVX_FDIV (R261). -/
def execPvxFdiv (p : Nat) (hit : Bool) (s : State) : Res := pvxRow p hit 0x13 (vFloat true false false fun l m a b _ => fpDiv l m a b) s

/-- PVX_FMA (R261). -/
def execPvxFma (p : Nat) (hit : Bool) (s : State) : Res := pvxRow p hit 0x14 (vFloat true true false fun l m a b d => fpFma l m false false a b d) s

/-- PVX_FMIN (R261). -/
def execPvxFmin (p : Nat) (hit : Bool) (s : State) : Res := pvxRow p hit 0x15 (vFloat true false false fun l _ a b _ => vMinMax false l a b) s

/-- PVX_FMAX (R261). -/
def execPvxFmax (p : Nat) (hit : Bool) (s : State) : Res := pvxRow p hit 0x16 (vFloat true false false fun l _ a b _ => vMinMax true l a b) s

/-- PVX_FSQRT (R261). -/
def execPvxFsqrt (p : Nat) (hit : Bool) (s : State) : Res := pvxRow p hit 0x17 (vFloat false false true fun l m a _ _ => fpSqrt l m a) s

/-- PVX_FCVT_F_I (R261). -/
def execPvxFcvtFI (p : Nat) (hit : Bool) (s : State) : Res :=
  pvxRow p hit 0x18 (vElem { float := true, uses1 := false } fun v a _ _ => fpRound (vLay v v.sew) v.rm (numInt (sext v.sew a))) s

/-- PVX_FCVT_I_F (R261). -/
def execPvxFcvtIF (p : Nat) (hit : Bool) (s : State) : Res := pvxRow p hit 0x19 (vFloat false false false fun l m a _ _ => fpToInt (layW l) true false m (decFloat l a)) s

/-- PVX_FCVT_NARROW (R261). -/
def execPvxFcvtNarrow (p : Nat) (hit : Bool) (s : State) : Res := pvxRow p hit 0x1a (vElem { float := true, src := 2, uses1 := false } fun v a _ _ => let l := vLay v (2 * v.sew); fpCvt l (vLay v v.sew) v.rm (quiet l a)) s

/-- PVX_FCVT_WIDEN (R261). -/
def execPvxFcvtWiden (p : Nat) (hit : Bool) (s : State) : Res := pvxRow p hit 0x1b (vElem { float := true, dst := 2, uses1 := false } fun v a _ _ => let l := vLay v v.sew; fpCvt l (vLay v (2 * v.sew)) v.rm (quiet l a)) s

/-- PVX_WMUL (R261). -/
def execPvxWmul (p : Nat) (hit : Bool) (s : State) : Res := pvxRow p hit 0x20 (vWideInt false fun w a b _ => toTwos (2 * w) (sext w a * sext w b)) s

/-- PVX_WMULU (R261). -/
def execPvxWmulu (p : Nat) (hit : Bool) (s : State) : Res := pvxRow p hit 0x21 (vWideInt false fun _ a b _ => a * b) s

/-- PVX_WMACC (R261). -/
def execPvxWmacc (p : Nat) (hit : Bool) (s : State) : Res := pvxRow p hit 0x22 (vWideInt true fun w a b d => toTwos (2 * w) (sext w a * sext w b + (d : Int))) s

/-- PVX_FWMUL (R261). -/
def execPvxFwmul (p : Nat) (hit : Bool) (s : State) : Res := pvxRow p hit 0x23 (vElem { float := true, dst := 2 } fun v a b _ => let l := vLay v v.sew; fpFromNum (vLay v (2 * v.sew)) v.rm (numMul (vVal l a) (vVal l b)) [vVal l a, vVal l b]) s

/-- PVX_FWMACC (R261). -/
def execPvxFwmacc (p : Nat) (hit : Bool) (s : State) : Res := pvxRow p hit 0x24 (vElem { float := true, dst := 2, usesD := true } fun v a b d => let l := vLay v v.sew; let m := vLay v (2 * v.sew); vDotRound m v.rm [(vVal l a, vVal l b)] (vVal m d)) s

/-- PVX_DOT4 (R261). -/
def execPvxDot4 (p : Nat) (hit : Bool) (s : State) : Res := pvxRow p hit 0x28 (vElem { only32 := true, usesD := true } fun _ a b d => (vDot4 true a b d, 0)) s

/-- PVX_DOT4U (R261). -/
def execPvxDot4u (p : Nat) (hit : Bool) (s : State) : Res := pvxRow p hit 0x29 (vElem { only32 := true, usesD := true } fun _ a b d => (vDot4 false a b d, 0)) s

/-- PVX_DOT2BF (R261). -/
def execPvxDot2bf (p : Nat) (hit : Bool) (s : State) : Res := pvxRow p hit 0x2a (vElem { float := true, only32 := true, usesD := true } vDot2bf) s

/-- PVX_CMPEQ (R261). -/
def execPvxCmpeq (p : Nat) (hit : Bool) (s : State) : Res := pvxRow p hit 0x30 (vCmp false fun _ a b => (b2n (a == b), 0)) s

/-- PVX_CMPLT (R261). -/
def execPvxCmplt (p : Nat) (hit : Bool) (s : State) : Res := pvxRow p hit 0x31 (vCmp false fun v a b => (b2n (decide (sext v.sew a < sext v.sew b)), 0)) s

/-- PVX_CMPLTU (R261). -/
def execPvxCmpltu (p : Nat) (hit : Bool) (s : State) : Res := pvxRow p hit 0x32 (vCmp false fun _ a b => (b2n (decide (a < b)), 0)) s

/-- PVX_FCMPEQ (R261): a NaN operand gives 0. -/
def execPvxFcmpeq (p : Nat) (hit : Bool) (s : State) : Res := pvxRow p hit 0x33 (vCmp true fun v a b => vFcmp 0 (vLay v v.sew) a b) s

/-- PVX_FCMPLT (R261): a NaN operand gives 0. -/
def execPvxFcmplt (p : Nat) (hit : Bool) (s : State) : Res := pvxRow p hit 0x34 (vCmp true fun v a b => vFcmp 1 (vLay v v.sew) a b) s

/-- PVX_FCMPLE (R261): a NaN operand gives 0. -/
def execPvxFcmple (p : Nat) (hit : Bool) (s : State) : Res := pvxRow p hit 0x35 (vCmp true fun v a b => vFcmp 2 (vLay v v.sew) a b) s

/-- PVX_REDSUM (R261). -/
def execPvxRedsum (p : Nat) (hit : Bool) (s : State) : Res := pvxRow p hit 0x38 (vRed false fun v t a => ((t + a) % 2 ^ v.sew, 0)) s

/-- PVX_REDMAX (R261). -/
def execPvxRedmax (p : Nat) (hit : Bool) (s : State) : Res := pvxRow p hit 0x39 (vRed false fun v t a => (if sext v.sew t < sext v.sew a then a else t, 0)) s

/-- PVX_REDMIN (R261). -/
def execPvxRedmin (p : Nat) (hit : Bool) (s : State) : Res := pvxRow p hit 0x3a (vRed false fun v t a => (if sext v.sew a < sext v.sew t then a else t, 0)) s

/-- PVX_FREDSUM (R261). -/
def execPvxFredsum (p : Nat) (hit : Bool) (s : State) : Res := pvxRow p hit 0x3b (vRed true fun v t a => let l := vLay v v.sew; fpAdd l v.rm (quiet l t) (quiet l a)) s

/-- PVX_FREDMAX (R261). -/
def execPvxFredmax (p : Nat) (hit : Bool) (s : State) : Res := pvxRow p hit 0x3c (vRed true fun v t a => vMinMax true (vLay v v.sew) t a) s

/-- PVX_FREDMIN (R261). -/
def execPvxFredmin (p : Nat) (hit : Bool) (s : State) : Res := pvxRow p hit 0x3d (vRed true fun v t a => vMinMax false (vLay v v.sew) t a) s

/-- PVX_MAND (R266). -/
def execPvxMand (p : Nat) (hit : Bool) (s : State) : Res := pvxRow p hit 0x40 (vMask true fun a b => a && b) s

/-- PVX_MOR (R266). -/
def execPvxMor (p : Nat) (hit : Bool) (s : State) : Res := pvxRow p hit 0x41 (vMask true fun a b => a || b) s

/-- PVX_MXOR (R266). -/
def execPvxMxor (p : Nat) (hit : Bool) (s : State) : Res := pvxRow p hit 0x42 (vMask true fun a b => a != b) s

/-- PVX_MANDN (R266). -/
def execPvxMandn (p : Nat) (hit : Bool) (s : State) : Res := pvxRow p hit 0x43 (vMask true fun a b => a && !b) s

/-- PVX_MNOT (R266). -/
def execPvxMnot (p : Nat) (hit : Bool) (s : State) : Res := pvxRow p hit 0x44 (vMask false fun a _ => !a) s

/-- PVX_MSET (R266). -/
def execPvxMset (p : Nat) (hit : Bool) (s : State) : Res := pvxRow p hit 0x45 (vMset) s

/-- PVX_MCOUNT (R266). -/
def execPvxMcount (p : Nat) (hit : Bool) (s : State) : Res := pvxRow p hit 0x48 (vMaskX fun l => l.length) s

/-- PVX_MFIRST (R266). -/
def execPvxMfirst (p : Nat) (hit : Bool) (s : State) : Res := pvxRow p hit 0x49 (vMaskX fun l => l.headD (2 ^ 64 - 1)) s

/-- PVX_MV_X (R266). -/
def execPvxMvX (p : Nat) (hit : Bool) (s : State) : Res := pvxRow p hit 0x50 (vMvX) s

/-- PVX_MV_F (R266). -/
def execPvxMvF (p : Nat) (hit : Bool) (s : State) : Res := pvxRow p hit 0x51 (vMvF) s

/-- PVX_BCAST_X (R266). -/
def execPvxBcastX (p : Nat) (hit : Bool) (s : State) : Res := pvxRow p hit 0x52 (vMove false (fun v => [v.r1]) (fun _ => []) (fun _ _ => []) fun c v _ => some (xGet c v.r1 % 2 ^ v.sew)) s

/-- PVX_BCAST_F (R266). -/
def execPvxBcastF (p : Nat) (hit : Bool) (s : State) : Res := pvxRow p hit 0x53 (vMove false (fun _ => []) (fun v => [v.r1]) (fun _ _ => []) fun c v _ => some (fGet c v.r1 % 2 ^ v.sew)) s

/-- PVX_MV_V (R266). -/
def execPvxMvV (p : Nat) (hit : Bool) (s : State) : Res := pvxRow p hit 0x54 (vMove true (fun _ => []) (fun _ => []) (fun c v => vEls v.r2 v.sew (vActs c v)) fun c v e => some (vEl c v.r2 v.sew e)) s

/-- PVX_IOTA (R266). -/
def execPvxIota (p : Nat) (hit : Bool) (s : State) : Res := pvxRow p hit 0x58 (vMove false (fun _ => []) (fun _ => []) (fun _ _ => []) fun _ v e => some (e % 2 ^ v.sew)) s

/-- PVX_SLIDEDN (R266). -/
def execPvxSlidedn (p : Nat) (hit : Bool) (s : State) : Res := pvxRow p hit 0x60 (vMove true (fun v => [v.r1]) (fun _ => []) (fun c v => vEls v.r2 v.sew (((vActs c v).map (· + xGet c v.r1)).filter (· < vlmaxOf c v.sew v.lmul))) fun c v e => some (if e + xGet c v.r1 < vlmaxOf c v.sew v.lmul then vEl c v.r2 v.sew (e + xGet c v.r1) else 0)) s

/-- PVX_SLIDEUP (R266). -/
def execPvxSlideup (p : Nat) (hit : Bool) (s : State) : Res := pvxRow p hit 0x61 (vMove true (fun v => [v.r1]) (fun _ => []) (fun c v => vEls v.r2 v.sew (((vActs c v).filter (xGet c v.r1 ≤ ·)).map (· - xGet c v.r1))) fun c v e => if xGet c v.r1 ≤ e then some (vEl c v.r2 v.sew (e - xGet c v.r1)) else none) s

/-- PVX_LOAD (R265). -/
def execPvxLoad (p : Nat) (hit : Bool) (s : State) : Res := pvxRow p hit 128 (vmLoad 0) s

/-- PVX_STRIDED_LOAD (R265). -/
def execPvxStridedLoad (p : Nat) (hit : Bool) (s : State) : Res := pvxRow p hit 129 (vmLoad 1) s

/-- PVX_INDEXED_LOAD (R265). -/
def execPvxIndexedLoad (p : Nat) (hit : Bool) (s : State) : Res := pvxRow p hit 130 (vmLoad 2) s

/-- PVX_STORE (R265). -/
def execPvxStore (p : Nat) (hit : Bool) (s : State) : Res := pvxRow p hit 132 (vmStore 0) s

/-- PVX_STRIDED_STORE (R265). -/
def execPvxStridedStore (p : Nat) (hit : Bool) (s : State) : Res := pvxRow p hit 133 (vmStore 1) s

/-- PVX_INDEXED_STORE (R265). -/
def execPvxIndexedStore (p : Nat) (hit : Bool) (s : State) : Res := pvxRow p hit 134 (vmStore 2) s

/-- PVX_SETVL (R258). -/
def execPvxSetvl (p : Nat) (hit : Bool) (s : State) : Res := pvxRow p hit 136 (vSetvl) s

/-- R268: the Syntax core changes the mode of a stopped Particle, before a context starts on it or under a maintenance token
(it is then not running): vector registers, mask registers and vl become zero; f0 to f31 keep their values on entry only. -/
def overlayChange (s : State) (p : Nat) : State :=
  if (partOf s p).running then s
  else updCore s p fun c =>
    { c with overlay := !c.overlay, v := [], m := [], vl := 0, pv := []
             f := if c.overlay then [] else c.f, pf := if c.overlay then [] else c.pf }

/-- OVERLAY_MODE_CHANGE (R268). On entry f0 to f31 keep their values, and v0 to v31 name the same bits (R267). -/
def execOverlayModeChange (p : Nat) (s : State) : Res := guardUnit (prtOk p) (ran s (overlayChange s p))

end Sys2Proof.Machine
end

