-- ==== Sys2Proof/Machine/Transform.lean ====
section
/-! DEFINITION. Offload, prefetch and the COPY transforms (spec/15_training_steps.md R473 to R479). -/

namespace Sys2Proof.Machine

/-! ### OFFLOAD and PREFETCH (R478, R479) -/

/-- R478: an offload record. -/
def offRecord (host bytes step state : Nat) (od : List Byte) : List Byte :=
  natLe 8 host ++ natLe 8 bytes ++ natLe 8 step ++ natLe 1 state ++ List.replicate 7 0 ++ (od ++ List.replicate 32 0).take 32

/-- R478: an OFFLOAD moves its next megabyte; after the last one its record is written (DEDUCED, assumption log 66). -/
def offloadMove (s : State) (id : Nat) (d : Desc) (c : Nat) : State :=
  let total := dNat d 0x20 8
  let n := min chunkBytes (total - d.pos)
  let src := dNat d 0x10 8 + d.pos
  let host := dNat d 0x18 8 + d.pos
  match arReach s c 48 src n false with
  | .fault a ca l => descEnd (xFault s (c / 8) (dKey d) a ca l false) id stXLAT_FAULT 0 0
  | .ok =>
    match areaCheck s c 48 host n (dKey d) true with
    | some (s, st) => descEnd s id st 0 0
    | none =>
      let rs := hereRuns s c src n
      let s := storeRuns s c host rs
      let s := descPoison (updDesc s id fun x => { x with
        pos := x.pos + n, digs := x.digs ++ [(d.pos / chunkBytes, sha256 (rs.flatMap (·.1)))] }) id (rs.any (·.2))
      if d.pos + n < total then s
      else
        match mapFind s.descs id with
        | none => s
        | some d =>
          let r := dNat d 0x30 8
          match areaCheck s c 48 r 64 (dKey d) true with
          | some (s, st) => descEnd s id st 0 0
          | none =>
            copyEnd (areaStore s c 48 r
              (offRecord (dNat d 0x18 8) total (runOf s c).step 1 (cdOuter tagOFFLD total (digList d))) false) id c
  | _ => descEnd s id stADDRESS 0 0

/-- COPY_OFFLOAD (R478, R527): begins, or goes on by a megabyte. -/
def execCopyOffload (d now : Nat) (s : State) : Res :=
  let s := atTime s now
  ran s (match descLive s d dtCOPY 1 with
    | none => s
    | some x =>
      match dCtx s x with
      | none => s
      | some c =>
        let n := dNat x 0x20 8
        if x.st = .accepted then
          if !areaInside s c (dNat x 0x10 8) n || !areaInside s c (dNat x 0x18 8) n then descEnd s d stADDRESS 0 0
          else if !areaAll s c (dNat x 0x10 8) n false false || !areaAll s c (dNat x 0x18 8) n true true then descEnd s d stFORMAT 0 0
          else offloadMove (updDesc s d fun x => { x with st := .running }) d x c
        else offloadMove s d x c)

/-- R479: once every byte has been read back, the digest decides (DEDUCED, assumption log 66). -/
def prefetchEnd (s : State) (id : Nat) (d : Desc) (c : Nat) (b : List Byte) : State :=
  let total := bNat b 8 8
  let r := dNat d 0x30 8
  let dst := dNat d 0x18 8
  let good := cdOuter tagOFFLD total (digList d) == (b.drop 0x20).take 32
  let s := match areaCheck s c 48 r 64 (dKey d) true with
    | none => areaStore s c 48 (r + 0x18) (natLe 1 (if good then 2 else 3)) false
    | some (s, _) => s
  if good then copyEnd s id c
  else
    let s := if areaInside s c dst total && areaAll s c dst total true false then
        storeRuns s c dst [((arRead s c 48 dst total).1, true)] else s
    descEnd (markUnrec (orSflags s c (128 + 8)) c) id stOFFLOAD_CHECK 0 0

/-- R479: a PREFETCH reads its next megabyte back. -/
def prefetchMove (s : State) (id : Nat) (d : Desc) (c : Nat) (b : List Byte) : State :=
  let total := bNat b 8 8
  let n := min chunkBytes (total - d.pos)
  let src := bNat b 0 8 + d.pos
  let dst := dNat d 0x18 8 + d.pos
  let rs := areaRuns s c src n (.desc id)
  match areaGather s c 48 src n (dKey d) (.desc id) with
  | (s, .waiting) => s
  | (s, .failed st) => descEnd s id st 0 0
  | (s, .done x po _) =>
    match areaCheck s c 48 dst n (dKey d) true with
    | some (s, st) => descEnd s id st 0 0
    | none =>
      let s := descPoison (storeRuns s c dst rs) id po
      let s := updDesc s id fun y => { y with pos := y.pos + n, digs := y.digs ++ [(d.pos / chunkBytes, sha256 x)] }
      if d.pos + n < total then s
      else match mapFind s.descs id with | some d => prefetchEnd s id d c b | none => s

/-- COPY_PREFETCH (R479, R527): reads the record, then a megabyte at a time. -/
def execCopyPrefetch (d now : Nat) (s : State) : Res :=
  let s := atTime s now
  ran s (match descLive s d dtCOPY 2 with
    | none => s
    | some x =>
      match dCtx s x with
      | none => s
      | some c =>
        let r := dNat x 0x30 8
        gatherParts d c (fun b => if b.length < 64 then some (r, 64) else none) (fun s b =>
          let n := bNat b 8 8
          let st := bNat b 0x18 1
          if x.pos = 0 ∧ ((st ≠ 1 ∧ st ≠ 2) ∨ n = 0 ∨ 2 ^ 40 < n ∨ arRsv (bNat b 0 8) = true ∨ areaAll s c (bNat b 0 8) n false true = false) then
            descEnd s d stFORMAT 0 0
          else if x.pos = 0 && (!areaInside s c (bNat b 0 8) n || !areaInside s c (dNat x 0x18 8) n) then descEnd s d stADDRESS 0 0
          else prefetchMove (updDesc s d fun y => { y with st := .running }) d x c b) 3 s)

/-! ### Compression (R473 to R477) -/

/-- The fields of R528. -/
structure Xf where
  grad : Nat
  out : Nat
  n : Nat
  kb : Nat
  rreg : Nat
  g : Nat
  cb : Nat
  gf : Nat
  vf : Nat
  rf : Nat
  of_ : Nat

/-- R528. -/
def xfOf (d : Desc) : Xf :=
  let f := dNat d 0x32 2
  { grad := dNat d 0x10 8, out := dNat d 0x18 8, n := dNat d 0x20 5, kb := dNat d 0x28 4, rreg := dNat d 0x2C 2, g := dNat d 0x2E 2
    cb := 2 ^ dNat d 0x31 1, gf := f % 16, vf := bits f 7 4, rf := bits f 11 8, of_ := bits f 15 12 }

/-- Bytes of an element of a format code. -/
def fw (f : Nat) : Nat := fmtWidth (fmtOf f) / 8
/-- Compression blocks of a gradient. -/
def xfBlocks (x : Xf) : Nat := (x.n + x.cb - 1) / x.cb
/-- R476: bytes of a block. -/
def xfBlockBytes (x : Xf) (sign : Bool) : Nat := if sign then 4 + x.cb / 8 else x.kb * (4 + fw x.vf)

/-- R477: the RESIDUAL region that RREG names, where it fits the gradient. -/
def xfRegion (s : State) (c : Nat) (x : Xf) : Option View :=
  match (ctxOf s c).views[x.rreg]? with
  | some v => if v.role = 3 ∧ v.bytes = x.n * fw x.rf then some v else none
  | none => none

/-- R473 to R477: the rules of a transform's fields. -/
def xfOk (s : State) (c : Nat) (d : Desc) (x : Xf) : Bool :=
  let k := dNat d 0x30 1
  let l := dNat d 0x31 1
  decide (10 ≤ l) && decide (l ≤ 20) && decide (1 ≤ x.n) &&
  (match k with
    | 0 => (1 ≤ x.gf && x.gf ≤ 3) && (x.rf == 1 || x.rf == 3) && (x.vf == 1 || x.vf == 3) && decide (1 ≤ x.kb) && decide (x.kb ≤ x.cb)
        && (xfRegion s c x).isSome
    | 1 => (1 ≤ x.gf && x.gf ≤ 3) && (x.rf == 1 || x.rf == 3) && (xfRegion s c x).isSome
    | 2 => (x.vf == 1 || x.vf == 3) && (x.of_ == 0 || x.of_ == 1 || x.of_ == 3) && decide (1 ≤ x.kb) && decide (x.kb ≤ x.cb)
        && decide (1 ≤ x.g) && decide (x.g ≤ 8192)
    | _ => (x.of_ == 0 || x.of_ == 1 || x.of_ == 3) && decide (1 ≤ x.g) && decide (x.g ≤ 8192))

/-- An area reference to a place of a view. -/
def viewRef (v : View) (a : Nat) : Nat := (if v.spad then 2 ^ 63 else 0) + a

/-- Elements of an area, in a format. -/
def elems (f : Nat) (b : List Byte) : List Num :=
  (List.range (b.length / fw f)).map fun i => decNum (fmtOf f) 0 (leNat ((b.drop (fw f * i)).take (fw f)))

/-- The pattern of a value in a format, rounded RNE, as bytes. -/
def encEl (f : Nat) (x : Num) : List Byte := natLe (fw f) (encNum (fmtOf f) 0 .rne false 0 x).pat

/-- A value rounded RNE to a format. -/
def rndEl (f : Nat) (x : Num) : Num := roundTo (fmtOf f) .rne false 0 x

/-- R473: is element `a` (its magnitude and index) selected before `b`. -/
def topBefore (a b : Num × Nat) : Bool :=
  let nx := numIsNan a.1
  let ny := numIsNan b.1
  if nx || ny then (nx && (!ny || decide (a.2 < b.2)))
  else if numLt (numAbs b.1) (numAbs a.1) then true
  else if numEq (numAbs a.1) (numAbs b.1) then decide (a.2 < b.2) else false

/-- R473, R476: a TOPK block: its bytes and the residuals staged. -/
def topkBlock (x : Xf) (es : List Num) : List Byte × List Byte :=
  let sel := ((es.zipIdx).mergeSort fun a b => topBefore a b || a.2 == b.2).take (min x.kb es.length)
  let ix := (sel.map (·.2)).mergeSort fun a b => decide (a ≤ b)
  let pad := x.kb - ix.length
  let val (i : Nat) : Num := rndEl x.vf (es.getD i numZero)
  (ix.flatMap (natLe 4) ++ (List.replicate pad (natLe 4 0xFFFFFFFF)).flatten ++ ix.flatMap (fun i => encEl x.vf (es.getD i numZero))
      ++ List.replicate (pad * fw x.vf) 0,
    (es.zipIdx).flatMap fun e => encEl x.rf (if ix.contains e.2 then numSub false e.1 (val e.2) else e.1))

/-- R474, R476: a SIGN block. -/
def signBlock (x : Xf) (es : List Num) : List Byte × List Byte :=
  let nan := es.any numIsNan
  let mean := numDiv (numSum (es.map numAbs)) (numInt es.length)
  let sg : Num := if nan then .nan else rndEl 1 mean
  let neg (e : Num) : Bool := numNeg e && !numIsZero e && !numIsNan e
  let m := (es.zipIdx).foldl (fun m e => if neg e.1 then m ||| 2 ^ e.2 else m) 0
  (encEl 1 sg ++ natLe (x.cb / 8) m, es.flatMap fun e => encEl x.rf (numSub false e (if neg e then numNegate sg else sg)))

/-- Gathers areas of a transform, each whole, and goes on with their bytes and whether any is poisoned. A request that waits leaves
the descriptor accepted. -/
def xfGather (s : State) (id : Nat) (d : Desc) (c : Nat) (r n : Nat) (fin : State → List Byte → Bool → State) : State :=
  match areaGather s c 48 r n (dKey d) (.desc id) with
  | (s, .waiting) => s
  | (s, .failed st) => descEnd s id st 0 0
  | (s, .done b po hostData) => fin (if hostData then markUnrec s c else s) b po

/-- R473, R474: compresses a gradient block by block. -/
def compress (s : State) (id : Nat) (sign : Bool) : State :=
  match descReady s id dtCOPY 3 with
  | none => s
  | some d =>
    let x := xfOf d
    if dNat d 0x30 1 ≠ (if sign then 1 else 0) then s
    else
      match dCtx s d with
      | none => s
      | some c =>
        if !xfOk s c d x then descEnd s id stFORMAT 0 0
        else
          match xfRegion s c x with
          | none => descEnd s id stFORMAT 0 0
          | some v =>
            xfGather s id d c x.grad (x.n * fw x.gf) fun s gb po =>
              xfGather s id d c (viewRef v v.vc) v.bytes fun s rb pr =>
                let out := x.out
                match areaCheck s c 48 out (xfBlocks x * xfBlockBytes x sign) (dKey d) true with
                | some (s, st) => descEnd s id st 0 0
                | none =>
                  let es := ((elems x.gf gb).zip (elems x.rf rb)).map fun p => rndEl 0 (numAdd false p.1 p.2)
                  let po := po || pr
                  let s := (List.range (xfBlocks x)).foldl (fun s b =>
                    let blk := (es.drop (x.cb * b)).take x.cb
                    let (ob, rs) := if sign then signBlock x blk else topkBlock x blk
                    let s := areaStore s c 48 (out + b * xfBlockBytes x sign) ob po
                    areaStore s c 48 (viewRef v (v.vs + b * x.cb * fw x.rf)) rs po) s
                  copyEnd (descPoison (orSflags s c (if es.any numIsNan then 1 else 0)) id po) id c

/-- COPY_TOPK (R473). -/
def execCopyTopk (d : Nat) (s : State) : Res := ran s (compress s d false)
/-- COPY_SIGN (R474). -/
def execCopySign (d : Nat) (s : State) : Res := ran s (compress s d true)

/-- R475: the decoded value of element `i` of a member's blocks. An unselected element is +0; an index outside its block selects
nothing (DEDUCED, assumption log 66). -/
def decEl (x : Xf) (sign : Bool) (mb : List Byte) (i : Nat) : Num :=
  let bb := xfBlockBytes x sign
  let b := (mb.drop (i / x.cb * bb)).take bb
  let j := i % x.cb
  if sign then
    let sg := decNum .f32 0 (leNat (b.take 4))
    if bit (leNat ((b.drop (4 + j / 8)).take 1)) (j % 8) then numNegate sg else sg
  else
    numSum ((List.range x.kb).filterMap fun k =>
      if leNat ((b.drop (4 * k)).take 4) = j then some (decNum (fmtOf x.vf) 0 (leNat ((b.drop (4 * x.kb + fw x.vf * k)).take (fw x.vf)))) else none)

/-- R475: the dense sum over the members (DEDUCED, assumption log 66). -/
def expand (s : State) (id : Nat) (sign : Bool) : State :=
  match descReady s id dtCOPY 3 with
  | none => s
  | some d =>
    let x := xfOf d
    if dNat d 0x30 1 ≠ (if sign then 3 else 2) then s
    else
      match dCtx s d with
      | none => s
      | some c =>
        if !xfOk s c d x then descEnd s id stFORMAT 0 0
        else
          let mbn := xfBlocks x * xfBlockBytes x sign
          xfGather s id d c x.grad (x.g * mbn) fun s b po =>
            match areaCheck s c 48 x.out (x.n * fw x.of_) (dKey d) true with
            | some (s, st) => descEnd s id st 0 0
            | none =>
              let sums := (List.range x.n).map fun i =>
                numSum ((List.range x.g).map fun m => decEl x sign ((b.drop (m * mbn)).take mbn) i)
              let s := areaStore s c 48 x.out (sums.flatMap (encEl x.of_)) po
              copyEnd (descPoison (orSflags s c (if sums.any numIsNan then 1 else 0)) id po) id c

/-- COPY_EXPAND_TOPK (R475). -/
def execCopyExpandTopk (d : Nat) (s : State) : Res := ran s (expand s d false)
/-- COPY_EXPAND_SIGN (R475). -/
def execCopyExpandSign (d : Nat) (s : State) : Res := ran s (expand s d true)

end Sys2Proof.Machine
end

