-- ==== Sys2Proof/Machine/Dispatch.lean ====
section
/-! DEFINITION. One arm per command: the meaning of each, or its refusal by name. -/

namespace Sys2Proof.Machine

def exec (i : Instr) (s : State) : Host.Outcome State Fault Refusal :=
  match i with
  | .dispatcherAccept lp queue => Sys2Proof.Machine.execDispatcherAccept lp queue s
  | .compoundPlacement prog => Sys2Proof.Machine.execCompoundPlacement prog s
  | .tileNop prog => Sys2Proof.Machine.execTileNop prog s
  | .ldAcc prog => Sys2Proof.Machine.execLdAcc prog s
  | .zero prog => Sys2Proof.Machine.execZero prog s
  | .mma prog => Sys2Proof.Machine.execMma prog s
  | .stageBufferFill verb sideB => Sys2Proof.Machine.execStageBufferFill verb sideB s
  | .verbStep verb upset fault => Sys2Proof.Machine.execVerbStep verb upset fault s
  | .treeComb prog upset => Sys2Proof.Machine.execTreeComb prog upset s
  | .accAdd prog upset => Sys2Proof.Machine.execAccAdd prog upset s
  | .cvt prog => Sys2Proof.Machine.execCvt prog s
  | .qnt prog => Sys2Proof.Machine.execQnt prog s
  | .tileSt prog => Sys2Proof.Machine.execTileSt prog s
  | .hist prog => Sys2Proof.Machine.execHist prog s
  | .chkStat prog => Sys2Proof.Machine.execChkStat prog s
  | .chkInject prog => Sys2Proof.Machine.execChkInject prog s
  | .csig prog => Sys2Proof.Machine.execCsig prog s
  | .cwait prog now => Sys2Proof.Machine.execCwait prog now s
  | .cwaitMet prog => Sys2Proof.Machine.execCwaitMet prog s
  | .cwaitTimeout prog now => Sys2Proof.Machine.execCwaitTimeout prog now s
  | .tileFence prog => Sys2Proof.Machine.execTileFence prog s
  | .tnsRd prog now => Sys2Proof.Machine.execTnsRd prog now s
  | .perfRd prog => Sys2Proof.Machine.execPerfRd prog s
  | .continuationCount => Sys2Proof.Machine.execContinuationCount s
  | .programCompletion prog => Sys2Proof.Machine.execProgramCompletion prog s
  | .programAbort prog => Sys2Proof.Machine.execProgramAbort prog s
  | .prtPush p hit => Sys2Proof.Machine.execPrtPush p hit s
  | .heldPushEntry p => Sys2Proof.Machine.execHeldPushEntry p s
  | .prtQctlFlush p hit => Sys2Proof.Machine.execPrtQctlFlush p hit s
  | .prtAbort p hit => Sys2Proof.Machine.execPrtAbort p hit s
  | .prtWait p hit now => Sys2Proof.Machine.execPrtWait p hit now s
  | .prtWaitMet p => Sys2Proof.Machine.execPrtWaitMet p s
  | .prtWaitTimeout p now => Sys2Proof.Machine.execPrtWaitTimeout p now s
  | .prtTimecmpMatch p now => Sys2Proof.Machine.execPrtTimecmpMatch p now s
  | .csignal p hit => Sys2Proof.Machine.execCsignal p hit s
  | .rv64Instruction p hit => Sys2Proof.Machine.execRv64Instruction p hit s
  | .atomicAccess p hit => Sys2Proof.Machine.execAtomicAccess p hit s
  | .counterCsrRead p hit now stages => Sys2Proof.Machine.execCounterCsrRead p hit now stages s
  | .pvxcfgWrite p hit => Sys2Proof.Machine.execPvxcfgWrite p hit s
  | .pvxSetvl p hit => Sys2Proof.Machine.execPvxSetvl p hit s
  | .pvxAdd p hit => Sys2Proof.Machine.execPvxAdd p hit s
  | .pvxSub p hit => Sys2Proof.Machine.execPvxSub p hit s
  | .pvxMul p hit => Sys2Proof.Machine.execPvxMul p hit s
  | .pvxMulh p hit => Sys2Proof.Machine.execPvxMulh p hit s
  | .pvxMulhu p hit => Sys2Proof.Machine.execPvxMulhu p hit s
  | .pvxAnd p hit => Sys2Proof.Machine.execPvxAnd p hit s
  | .pvxOr p hit => Sys2Proof.Machine.execPvxOr p hit s
  | .pvxXor p hit => Sys2Proof.Machine.execPvxXor p hit s
  | .pvxSll p hit => Sys2Proof.Machine.execPvxSll p hit s
  | .pvxSrl p hit => Sys2Proof.Machine.execPvxSrl p hit s
  | .pvxSra p hit => Sys2Proof.Machine.execPvxSra p hit s
  | .pvxMin p hit => Sys2Proof.Machine.execPvxMin p hit s
  | .pvxMax p hit => Sys2Proof.Machine.execPvxMax p hit s
  | .pvxMinu p hit => Sys2Proof.Machine.execPvxMinu p hit s
  | .pvxMaxu p hit => Sys2Proof.Machine.execPvxMaxu p hit s
  | .pvxMerge p hit => Sys2Proof.Machine.execPvxMerge p hit s
  | .pvxFadd p hit => Sys2Proof.Machine.execPvxFadd p hit s
  | .pvxFsub p hit => Sys2Proof.Machine.execPvxFsub p hit s
  | .pvxFmul p hit => Sys2Proof.Machine.execPvxFmul p hit s
  | .pvxFdiv p hit => Sys2Proof.Machine.execPvxFdiv p hit s
  | .pvxFma p hit => Sys2Proof.Machine.execPvxFma p hit s
  | .pvxFmin p hit => Sys2Proof.Machine.execPvxFmin p hit s
  | .pvxFmax p hit => Sys2Proof.Machine.execPvxFmax p hit s
  | .pvxFsqrt p hit => Sys2Proof.Machine.execPvxFsqrt p hit s
  | .pvxFcvtFI p hit => Sys2Proof.Machine.execPvxFcvtFI p hit s
  | .pvxFcvtIF p hit => Sys2Proof.Machine.execPvxFcvtIF p hit s
  | .pvxFcvtNarrow p hit => Sys2Proof.Machine.execPvxFcvtNarrow p hit s
  | .pvxFcvtWiden p hit => Sys2Proof.Machine.execPvxFcvtWiden p hit s
  | .pvxWmul p hit => Sys2Proof.Machine.execPvxWmul p hit s
  | .pvxWmulu p hit => Sys2Proof.Machine.execPvxWmulu p hit s
  | .pvxWmacc p hit => Sys2Proof.Machine.execPvxWmacc p hit s
  | .pvxFwmul p hit => Sys2Proof.Machine.execPvxFwmul p hit s
  | .pvxFwmacc p hit => Sys2Proof.Machine.execPvxFwmacc p hit s
  | .pvxDot4 p hit => Sys2Proof.Machine.execPvxDot4 p hit s
  | .pvxDot4u p hit => Sys2Proof.Machine.execPvxDot4u p hit s
  | .pvxDot2bf p hit => Sys2Proof.Machine.execPvxDot2bf p hit s
  | .pvxCmpeq p hit => Sys2Proof.Machine.execPvxCmpeq p hit s
  | .pvxCmplt p hit => Sys2Proof.Machine.execPvxCmplt p hit s
  | .pvxCmpltu p hit => Sys2Proof.Machine.execPvxCmpltu p hit s
  | .pvxFcmpeq p hit => Sys2Proof.Machine.execPvxFcmpeq p hit s
  | .pvxFcmplt p hit => Sys2Proof.Machine.execPvxFcmplt p hit s
  | .pvxFcmple p hit => Sys2Proof.Machine.execPvxFcmple p hit s
  | .pvxRedsum p hit => Sys2Proof.Machine.execPvxRedsum p hit s
  | .pvxRedmax p hit => Sys2Proof.Machine.execPvxRedmax p hit s
  | .pvxRedmin p hit => Sys2Proof.Machine.execPvxRedmin p hit s
  | .pvxFredsum p hit => Sys2Proof.Machine.execPvxFredsum p hit s
  | .pvxFredmax p hit => Sys2Proof.Machine.execPvxFredmax p hit s
  | .pvxFredmin p hit => Sys2Proof.Machine.execPvxFredmin p hit s
  | .pvxMand p hit => Sys2Proof.Machine.execPvxMand p hit s
  | .pvxMor p hit => Sys2Proof.Machine.execPvxMor p hit s
  | .pvxMxor p hit => Sys2Proof.Machine.execPvxMxor p hit s
  | .pvxMandn p hit => Sys2Proof.Machine.execPvxMandn p hit s
  | .pvxMnot p hit => Sys2Proof.Machine.execPvxMnot p hit s
  | .pvxMset p hit => Sys2Proof.Machine.execPvxMset p hit s
  | .pvxMcount p hit => Sys2Proof.Machine.execPvxMcount p hit s
  | .pvxMfirst p hit => Sys2Proof.Machine.execPvxMfirst p hit s
  | .pvxMvX p hit => Sys2Proof.Machine.execPvxMvX p hit s
  | .pvxMvF p hit => Sys2Proof.Machine.execPvxMvF p hit s
  | .pvxBcastX p hit => Sys2Proof.Machine.execPvxBcastX p hit s
  | .pvxBcastF p hit => Sys2Proof.Machine.execPvxBcastF p hit s
  | .pvxMvV p hit => Sys2Proof.Machine.execPvxMvV p hit s
  | .pvxIota p hit => Sys2Proof.Machine.execPvxIota p hit s
  | .pvxSlidedn p hit => Sys2Proof.Machine.execPvxSlidedn p hit s
  | .pvxSlideup p hit => Sys2Proof.Machine.execPvxSlideup p hit s
  | .pvxLoad p hit => Sys2Proof.Machine.execPvxLoad p hit s
  | .pvxStridedLoad p hit => Sys2Proof.Machine.execPvxStridedLoad p hit s
  | .pvxIndexedLoad p hit => Sys2Proof.Machine.execPvxIndexedLoad p hit s
  | .pvxStore p hit => Sys2Proof.Machine.execPvxStore p hit s
  | .pvxStridedStore p hit => Sys2Proof.Machine.execPvxStridedStore p hit s
  | .pvxIndexedStore p hit => Sys2Proof.Machine.execPvxIndexedStore p hit s
  | .overlayModeChange p => Sys2Proof.Machine.execOverlayModeChange p s
  | .particleMismatch p => Sys2Proof.Machine.execParticleMismatch p s
  | .infGroup prog fault => Sys2Proof.Machine.execInfGroup prog fault s
  | .infNop inf => Sys2Proof.Machine.execInfNop inf s
  | .infLd inf => Sys2Proof.Machine.execInfLd inf s
  | .infLdi inf => Sys2Proof.Machine.execInfLdi inf s
  | .infSt inf => Sys2Proof.Machine.execInfSt inf s
  | .infSti inf => Sys2Proof.Machine.execInfSti inf s
  | .infLdk inf => Sys2Proof.Machine.execInfLdk inf s
  | .infMov inf => Sys2Proof.Machine.execInfMov inf s
  | .infLane inf => Sys2Proof.Machine.execInfLane inf s
  | .infFadd inf => Sys2Proof.Machine.execInfFadd inf s
  | .infFsub inf => Sys2Proof.Machine.execInfFsub inf s
  | .infFmul inf => Sys2Proof.Machine.execInfFmul inf s
  | .infFdiv inf => Sys2Proof.Machine.execInfFdiv inf s
  | .infFma inf => Sys2Proof.Machine.execInfFma inf s
  | .infFsqrt inf => Sys2Proof.Machine.execInfFsqrt inf s
  | .infRsqrt inf => Sys2Proof.Machine.execInfRsqrt inf s
  | .infFmin inf => Sys2Proof.Machine.execInfFmin inf s
  | .infFmax inf => Sys2Proof.Machine.execInfFmax inf s
  | .infFabs inf => Sys2Proof.Machine.execInfFabs inf s
  | .infFneg inf => Sys2Proof.Machine.execInfFneg inf s
  | .infExp2 inf => Sys2Proof.Machine.execInfExp2 inf s
  | .infLog2 inf => Sys2Proof.Machine.execInfLog2 inf s
  | .infExp inf => Sys2Proof.Machine.execInfExp inf s
  | .infLog inf => Sys2Proof.Machine.execInfLog inf s
  | .infTanh inf => Sys2Proof.Machine.execInfTanh inf s
  | .infSigmoid inf => Sys2Proof.Machine.execInfSigmoid inf s
  | .infGelu inf => Sys2Proof.Machine.execInfGelu inf s
  | .infSilu inf => Sys2Proof.Machine.execInfSilu inf s
  | .infSoftplus inf => Sys2Proof.Machine.execInfSoftplus inf s
  | .infSin inf => Sys2Proof.Machine.execInfSin inf s
  | .infCos inf => Sys2Proof.Machine.execInfCos inf s
  | .infFcmplt inf => Sys2Proof.Machine.execInfFcmplt inf s
  | .infFcmple inf => Sys2Proof.Machine.execInfFcmple inf s
  | .infFcmpeq inf => Sys2Proof.Machine.execInfFcmpeq inf s
  | .infFisnan inf => Sys2Proof.Machine.execInfFisnan inf s
  | .infSel inf => Sys2Proof.Machine.execInfSel inf s
  | .infFtoi inf => Sys2Proof.Machine.execInfFtoi inf s
  | .infItof inf => Sys2Proof.Machine.execInfItof inf s
  | .infIadd inf => Sys2Proof.Machine.execInfIadd inf s
  | .infIsub inf => Sys2Proof.Machine.execInfIsub inf s
  | .infImul inf => Sys2Proof.Machine.execInfImul inf s
  | .infAnd inf => Sys2Proof.Machine.execInfAnd inf s
  | .infOr inf => Sys2Proof.Machine.execInfOr inf s
  | .infXor inf => Sys2Proof.Machine.execInfXor inf s
  | .infShl inf => Sys2Proof.Machine.execInfShl inf s
  | .infShr inf => Sys2Proof.Machine.execInfShr inf s
  | .infSar inf => Sys2Proof.Machine.execInfSar inf s
  | .infIcmplt inf => Sys2Proof.Machine.execInfIcmplt inf s
  | .infIcmpeq inf => Sys2Proof.Machine.execInfIcmpeq inf s
  | .infUnpack inf => Sys2Proof.Machine.execInfUnpack inf s
  | .infPack inf => Sys2Proof.Machine.execInfPack inf s
  | .infShfl inf => Sys2Proof.Machine.execInfShfl inf s
  | .infRed inf => Sys2Proof.Machine.execInfRed inf s
  | .infSmax inf => Sys2Proof.Machine.execInfSmax inf s
  | .infSmin inf => Sys2Proof.Machine.execInfSmin inf s
  | .infScnt inf => Sys2Proof.Machine.execInfScnt inf s
  | .infSor inf => Sys2Proof.Machine.execInfSor inf s
  | .solveCg id => Sys2Proof.Machine.execSolveCg id s
  | .solveBicgstab id => Sys2Proof.Machine.execSolveBicgstab id s
  | .solveGmres id => Sys2Proof.Machine.execSolveGmres id s
  | .solveLu id => Sys2Proof.Machine.execSolveLu id s
  | .solveCholesky id => Sys2Proof.Machine.execSolveCholesky id s
  | .solveQr id => Sys2Proof.Machine.execSolveQr id s
  | .outerIteration id => Sys2Proof.Machine.execOuterIteration id s
  | .innerIteration id fault => Sys2Proof.Machine.execInnerIteration id fault s
  | .solveDeadlineMatch id now => Sys2Proof.Machine.execSolveDeadlineMatch id now s
  | .assembleStencil id => Sys2Proof.Machine.execAssembleStencil id s
  | .assembleElements id => Sys2Proof.Machine.execAssembleElements id s
  | .colourBoundary id => Sys2Proof.Machine.execColourBoundary id s
  | .assembleMeasure id => Sys2Proof.Machine.execAssembleMeasure id s
  | .assembleAdj id => Sys2Proof.Machine.execAssembleAdj id s
  | .placementEpochEnd k now reads => Sys2Proof.Machine.execPlacementEpochEnd k now reads s
  | .mapSwitch cid page => Sys2Proof.Machine.execMapSwitch cid page s
  | .quantumExpiry k now => Sys2Proof.Machine.execQuantumExpiry k now s
  | .contextIdleSwitch k now => Sys2Proof.Machine.execContextIdleSwitch k now s
  | .acceptanceStop k now => Sys2Proof.Machine.execAcceptanceStop k now s
  | .contextSave k now => Sys2Proof.Machine.execContextSave k now s
  | .contextRestore k now => Sys2Proof.Machine.execContextRestore k now s
  | .conjSignal d => Sys2Proof.Machine.execConjSignal d s
  | .conjReset d => Sys2Proof.Machine.execConjReset d s
  | .conjArm d => Sys2Proof.Machine.execConjArm d s
  | .conjDisarm d => Sys2Proof.Machine.execConjDisarm d s
  | .conjRead d => Sys2Proof.Machine.execConjRead d s
  | .comparatorMatch conj now apply => Sys2Proof.Machine.execComparatorMatch conj now apply s
  | .ppsEdge fall now sub => Sys2Proof.Machine.execPpsEdge fall now sub s
  | .missingMeasurement now => Sys2Proof.Machine.execMissingMeasurement now s
  | .ppsAbsence now => Sys2Proof.Machine.execPpsAbsence now s
  | .tsyncRequestSend now sub => Sys2Proof.Machine.execTsyncRequestSend now sub s
  | .tsyncRequest p fec bytes t2 t3 => Sys2Proof.Machine.execTsyncRequest p fec bytes t2 t3 s
  | .tsyncResponse p fec bytes t4 now => Sys2Proof.Machine.execTsyncResponse p fec bytes t4 now s
  | .stackTemperatureReading k temp now => Sys2Proof.Machine.execStackTemperatureReading k temp now s
  | .stackOnline k now unrep => Sys2Proof.Machine.execStackOnline k now unrep s
  | .pseudoChannelGrant k pc now arrivals pass cap out => Sys2Proof.Machine.execPseudoChannelGrant k pc now arrivals pass cap out s
  | .rowRemap k => Sys2Proof.Machine.execRowRemap k s
  | .patrolScrub k now outs => Sys2Proof.Machine.execPatrolScrub k now outs s
  | .refresh k => Sys2Proof.Machine.execRefresh k s
  | .hbmTgStart k => Sys2Proof.Machine.execHbmTgStart k s
  | .hbmTgStop k => Sys2Proof.Machine.execHbmTgStop k s
  | .trafficGeneratorRunEnd k now fails => Sys2Proof.Machine.execTrafficGeneratorRunEnd k now fails s
  | .idleBeat p fec bytes => Sys2Proof.Machine.execIdleBeat p fec bytes s
  | .linkctl p fec bytes now => Sys2Proof.Machine.execLinkctl p fec bytes now s
  | .linkctlSend p now => Sys2Proof.Machine.execLinkctlSend p now s
  | .replayStart p fec bytes => Sys2Proof.Machine.execReplayStart p fec bytes s
  | .replayTimeout p now => Sys2Proof.Machine.execReplayTimeout p now s
  | .linkState p devid port e down now => Sys2Proof.Machine.execLinkState p devid port e down now s
  | .linkTrainingComplete p failed now => Sys2Proof.Machine.execLinkTrainingComplete p failed now s
  | .linkLossWaitExpiry p now => Sys2Proof.Machine.execLinkLossWaitExpiry p now s
  | .portRetrain p => Sys2Proof.Machine.execPortRetrain p s
  | .signalPacket p fec bytes => Sys2Proof.Machine.execSignalPacket p fec bytes s
  | .writeAck p fec bytes => Sys2Proof.Machine.execWriteAck p fec bytes s
  | .readPacket p fec bytes full => Sys2Proof.Machine.execReadPacket p fec bytes full s
  | .abortPacket p fec bytes => Sys2Proof.Machine.execAbortPacket p fec bytes s
  | .undeliverablePacket p fec bytes => Sys2Proof.Machine.execUndeliverablePacket p fec bytes s
  | .collectiveFree p fec bytes => Sys2Proof.Machine.execCollectiveFree p fec bytes s
  | .collectiveDone p fec bytes now => Sys2Proof.Machine.execCollectiveDone p fec bytes now s
  | .collectiveClose p fec bytes now => Sys2Proof.Machine.execCollectiveClose p fec bytes now s
  | .dataWrite p fec bytes => Sys2Proof.Machine.execDataWrite p fec bytes s
  | .dataReadResp p fec bytes => Sys2Proof.Machine.execDataReadResp p fec bytes s
  | .dataReduce p fec bytes now => Sys2Proof.Machine.execDataReduce p fec bytes now s
  | .egressCommit e now => Sys2Proof.Machine.execEgressCommit e now s
  | .requestCancel e id => Sys2Proof.Machine.execRequestCancel e id s
  | .circuitEntryWrite org port cid v => Sys2Proof.Machine.execCircuitEntryWrite org port cid v s
  | .partCktEntryWrite org k v => Sys2Proof.Machine.execPartCktEntryWrite org k v s
  | .collectiveSetup d => Sys2Proof.Machine.execCollectiveSetup d s
  | .collectiveLaunch d now => Sys2Proof.Machine.execCollectiveLaunch d now s
  | .collectiveBind d => Sys2Proof.Machine.execCollectiveBind d s
  | .collectiveUnbind d => Sys2Proof.Machine.execCollectiveUnbind d s
  | .collectiveAbort d => Sys2Proof.Machine.execCollectiveAbort d s
  | .collectiveRelease d => Sys2Proof.Machine.execCollectiveRelease d s
  | .collectiveRoute d => Sys2Proof.Machine.execCollectiveRoute d s
  | .segmentSend cid group st seg now => Sys2Proof.Machine.execSegmentSend cid group st seg now s
  | .collectiveTimeout cid group now => Sys2Proof.Machine.execCollectiveTimeout cid group now s
  | .hashLaneChunk d k => Sys2Proof.Machine.execHashLaneChunk d k s
  | .inputAccepted d now => Sys2Proof.Machine.execInputAccepted d now s
  | .stepCommitOpen d => Sys2Proof.Machine.execStepCommitOpen d s
  | .glossOpen d => Sys2Proof.Machine.execGlossOpen d s
  | .stepCommitSetup d => Sys2Proof.Machine.execStepCommitSetup d s
  | .stepCommitCommit d now => Sys2Proof.Machine.execStepCommitCommit d now s
  | .stepDecision d now => Sys2Proof.Machine.execStepDecision d now s
  | .viewExchange d now => Sys2Proof.Machine.execViewExchange d now s
  | .retentionRelease cid j => Sys2Proof.Machine.execRetentionRelease cid j s
  | .deferrableStart d => Sys2Proof.Machine.execDeferrableStart d s
  | .copyPlain d now => Sys2Proof.Machine.execCopyPlain d now s
  | .copyOffload d now => Sys2Proof.Machine.execCopyOffload d now s
  | .copyPrefetch d now => Sys2Proof.Machine.execCopyPrefetch d now s
  | .copyTopk d => Sys2Proof.Machine.execCopyTopk d s
  | .copySign d => Sys2Proof.Machine.execCopySign d s
  | .copyExpandTopk d => Sys2Proof.Machine.execCopyExpandTopk d s
  | .copyExpandSign d => Sys2Proof.Machine.execCopyExpandSign d s
  | .snapshotDigest d => Sys2Proof.Machine.execSnapshotDigest d s
  | .snapshotFinal d => Sys2Proof.Machine.execSnapshotFinal d s
  | .snapshotExport d now => Sys2Proof.Machine.execSnapshotExport d now s
  | .launchCreate d now => Sys2Proof.Machine.execLaunchCreate d now s
  | .launchProgram d => Sys2Proof.Machine.execLaunchProgram d s
  | .launchEnd d now => Sys2Proof.Machine.execLaunchEnd d now s
  | .wait d now => Sys2Proof.Machine.execWait d now s
  | .waitComplete d => Sys2Proof.Machine.execWaitComplete d s
  | .waitTimeout d now => Sys2Proof.Machine.execWaitTimeout d now s
  | .fence d => Sys2Proof.Machine.execFence d s
  | .fenceRelease d => Sys2Proof.Machine.execFenceRelease d s
  | .maintStartStress d sl now => Sys2Proof.Machine.execMaintStartStress d sl now s
  | .maintStartCalibrate d sl now => Sys2Proof.Machine.execMaintStartCalibrate d sl now s
  | .maintStartScrub d now => Sys2Proof.Machine.execMaintStartScrub d now s
  | .maintStartStackTest d sl now => Sys2Proof.Machine.execMaintStartStackTest d sl now s
  | .maintStartUnitTest d now => Sys2Proof.Machine.execMaintStartUnitTest d now s
  | .maintEnd d now => Sys2Proof.Machine.execMaintEnd d now s
  | .activityEnd kind sl now tests repeats data errs => Sys2Proof.Machine.execActivityEnd kind sl now tests repeats data errs s
  | .sqDoorbell fn k q data poisoned => Sys2Proof.Machine.execSqDoorbell fn k q data poisoned s
  | .cqDoorbell fn k m data poisoned => Sys2Proof.Machine.execCqDoorbell fn k m data poisoned s
  | .eqDoorbell fn k data poisoned => Sys2Proof.Machine.execEqDoorbell fn k data poisoned s
  | .ringFetch k q => Sys2Proof.Machine.execRingFetch k q s
  | .fetchCompletion k q now => Sys2Proof.Machine.execFetchCompletion k q now s
  | .slotReread k q now => Sys2Proof.Machine.execSlotReread k q now s
  | .descriptorAccept k q now => Sys2Proof.Machine.execDescriptorAccept k q now s
  | .descriptorCompletion d => Sys2Proof.Machine.execDescriptorCompletion d s
  | .sqFlush k q => Sys2Proof.Machine.execSqFlush k q s
  | .ringEnable k ring => Sys2Proof.Machine.execRingEnable k ring s
  | .memoryWindowRead fn off n => Sys2Proof.Machine.execMemoryWindowRead fn off n s
  | .memoryWindowWrite fn off data poisoned => Sys2Proof.Machine.execMemoryWindowWrite fn off data poisoned s
  | .atomicopReceived fn => Sys2Proof.Machine.execAtomicopReceived fn s
  | .busMasterEnableClear fn => Sys2Proof.Machine.execBusMasterEnableClear fn s
  | .busMasterEnableSet fn => Sys2Proof.Machine.execBusMasterEnableSet fn s
  | .functionLevelReset fn finish => Sys2Proof.Machine.execFunctionLevelReset fn finish s
  | .hostCompletion fn tag status off data ep last => Sys2Proof.Machine.execHostCompletion fn tag status off data ep last s
  | .completionTimeout tracker => Sys2Proof.Machine.execCompletionTimeout tracker s
  | .translationWalk k sl dva write evict => Sys2Proof.Machine.execTranslationWalk k sl dva write evict s
  | .xlatInvalidate k => Sys2Proof.Machine.execXlatInvalidate k s
  | .xlatInvalidateDone k => Sys2Proof.Machine.execXlatInvalidateDone k s
  | .partForm k now => Sys2Proof.Machine.execPartForm k now s
  | .partitionActive k now badStacks badDoms => Sys2Proof.Machine.execPartitionActive k now badStacks badDoms s
  | .partTeardown k now => Sys2Proof.Machine.execPartTeardown k now s
  | .wipe k now => Sys2Proof.Machine.execWipe k now s
  | .partKeyWrite org k j v => Sys2Proof.Machine.execPartKeyWrite org k j v s
  | .lifecycleSubmit => Sys2Proof.Machine.execLifecycleSubmit s
  | .lifecycleDecision now => Sys2Proof.Machine.execLifecycleDecision now s
  | .firmwareStageGo => Sys2Proof.Machine.execFirmwareStageGo s
  | .firmwareStagingDone now => Sys2Proof.Machine.execFirmwareStagingDone now s
  | .commitSvn => Sys2Proof.Machine.execCommitSvn s
  | .audAckWrite org v => Sys2Proof.Machine.execAudAckWrite org v s
  | .setPointUpdate now steps over_ => Sys2Proof.Machine.execSetPointUpdate now steps over_ s
  | .powerEstimate now doms hbm boundary => Sys2Proof.Machine.execPowerEstimate now doms hbm boundary s
  | .pmbusCorrection now readings => Sys2Proof.Machine.execPmbusCorrection now readings s
  | .pmbusAlert words => Sys2Proof.Machine.execPmbusAlert words s
  | .junctionSensorRead now temps => Sys2Proof.Machine.execJunctionSensorRead now temps s
  | .railMonitorSample dom a b tele now => Sys2Proof.Machine.execRailMonitorSample dom a b tele now s
  | .dipEventEnd now => Sys2Proof.Machine.execDipEventEnd now s
  | .railReset rail => Sys2Proof.Machine.execRailReset rail s
  | .dipRaiseExpiry dom now => Sys2Proof.Machine.execDipRaiseExpiry dom now s
  | .recordRevalidation sl kind ok data now => Sys2Proof.Machine.execRecordRevalidation sl kind ok data now s
  | .pwrSleep now => Sys2Proof.Machine.execPwrSleep now s
  | .idleSleep now => Sys2Proof.Machine.execIdleSleep now s
  | .ellipsisEntered now => Sys2Proof.Machine.execEllipsisEntered now s
  | .pwrWake now => Sys2Proof.Machine.execPwrWake now s
  | .wakeComplete now badStacks badDoms => Sys2Proof.Machine.execWakeComplete now badStacks badDoms s
  | .lockstepMismatch => Sys2Proof.Machine.execLockstepMismatch s
  | .quickTest sl u now pass => Sys2Proof.Machine.execQuickTest sl u now pass s
  | .scheduledStress sl now => Sys2Proof.Machine.execScheduledStress sl now s
  | .latentScrub now ces ues acc => Sys2Proof.Machine.execLatentScrub now ces ues acc s
  | .noUnit prog now => Sys2Proof.Machine.execNoUnit prog now s
  | .reportResend now => Sys2Proof.Machine.execReportResend now s
  | .correctedReport key now => Sys2Proof.Machine.execCorrectedReport key now s
  | .rasRptAckWrite org v => Sys2Proof.Machine.execRasRptAckWrite org v s
  | .pairingEnable => Sys2Proof.Machine.execPairingEnable s
  | .pairLayout p fec bytes layout => Sys2Proof.Machine.execPairLayout p fec bytes layout s
  | .initialViewCopy => Sys2Proof.Machine.execInitialViewCopy s
  | .pairCommit p fec bytes => Sys2Proof.Machine.execPairCommit p fec bytes s
  | .pairCommitAck p fec bytes => Sys2Proof.Machine.execPairCommitAck p fec bytes s
  | .pairCmpword p fec bytes => Sys2Proof.Machine.execPairCmpword p fec bytes s
  | .pairFailover p fec bytes => Sys2Proof.Machine.execPairFailover p fec bytes s
  | .pairEnd p fec bytes => Sys2Proof.Machine.execPairEnd p fec bytes s
  | .partnerLost now => Sys2Proof.Machine.execPartnerLost now s
  | .promote => Sys2Proof.Machine.execPromote s
  | .powerOnReset => Sys2Proof.Machine.execPowerOnReset s
  | .coldRstNAssert => Sys2Proof.Machine.execColdRstNAssert s
  | .synResetCold => Sys2Proof.Machine.execSynResetCold s
  | .bootRelease strap majority => Sys2Proof.Machine.execBootRelease strap majority s
  | .bootClocks => Sys2Proof.Machine.execBootClocks s
  | .bootRom now => Sys2Proof.Machine.execBootRom now s
  | .bootFwInit now => Sys2Proof.Machine.execBootFwInit now s
  | .bootFabricTest failed now => Sys2Proof.Machine.execBootFabricTest failed now s
  | .bootSlices failed badDoms now => Sys2Proof.Machine.execBootSlices failed badDoms now s
  | .bootStacks bad unrep now => Sys2Proof.Machine.execBootStacks bad unrep now s
  | .bootWipe now => Sys2Proof.Machine.execBootWipe now s
  | .bootReady now => Sys2Proof.Machine.execBootReady now s
  | .perstNAssert => Sys2Proof.Machine.execPerstNAssert s
  | .perstNRelease => Sys2Proof.Machine.execPerstNRelease s
  | .testReset => Sys2Proof.Machine.execTestReset s
  | .extest pins load => Sys2Proof.Machine.execExtest pins load s
  | .idcode => Sys2Proof.Machine.execIdcode s
  | .samplePreload pins load => Sys2Proof.Machine.execSamplePreload pins load s
  | .setupacc dr => Sys2Proof.Machine.execSetupacc dr s
  | .bypass => Sys2Proof.Machine.execBypass s
  | .i3cWrite4 off v => Sys2Proof.Machine.execI3cWrite4 off v s
  | .i3cWrite8 off v => Sys2Proof.Machine.execI3cWrite8 off v s
  | .i3cRead4 off => Sys2Proof.Machine.execI3cRead4 off s
  | .i3cRead8 off => Sys2Proof.Machine.execI3cRead8 off s
  | .i3cPrivateRead => Sys2Proof.Machine.execI3cPrivateRead s
  | .setdasa addr dyn => Sys2Proof.Machine.execSetdasa addr dyn s
  | .entdaa dyn => Sys2Proof.Machine.execEntdaa dyn s
  | .setupRegisterWrite fn off data poisoned => Sys2Proof.Machine.execSetupRegisterWrite fn off data poisoned s
  | .linkLost p => Sys2Proof.Machine.execLinkLost p s
  | .railEnFall => Sys2Proof.Machine.execRailEnFall s
  | .vfEnable num on => Sys2Proof.Machine.execVfEnable num on s
  | .d3hotEntry fn => Sys2Proof.Machine.execD3hotEntry fn s

end Sys2Proof.Machine
end

