-- ==== Sys2Proof/Machine/Step.lean ====
section
/-! DEFINITION. One step: the command at the front of the queue, or one clock of Tense on an empty queue. -/

namespace Sys2Proof.Machine

/-- The step: take the command at the front of the queue and run it with the queue's rest; on an empty queue one clock of
CK90 passes (DESIGN CHOICE, assumption log 1) (DESIGN CHOICE, assumption log 6). -/
def step (s : State) : Host.Outcome State Fault Refusal :=
  match s.pending with
  | c :: rest => exec c { s with pending := rest }
  | [] => .next (idleClock s)

/-- No word spells a command (no row of the table has bits), so the state is unchanged (DEDUCED, assumption log 8). -/
def State.withFetchWord (s : State) (nbits w : Nat) : State :=
  match decodeTableWord nbits w with
  | some c => { s with pending := c :: s.pending }
  | none => s

end Sys2Proof.Machine
end

