-- ==== Sys2Proof/WellFormed.lean ====
section
/-! DEFINITION. Well-formed commands: the units that a command names exist (spec/01_organisation.md R17). -/

namespace Sys2Proof

/-- A slice, or the partition or stack controller of its number. -/
def ixSlice (k : Nat) : Bool := decide (k < 12)
/-- A partition. -/
def ixPart (k : Nat) : Bool := decide (k < 12)
/-- A Verb. -/
def ixVerb (v : Nat) : Bool := decide (v < 96)
/-- An Inflector. -/
def ixInflector (n : Nat) : Bool := decide (n < 24)
/-- A Particle. -/
def ixParticle (p : Nat) : Bool := decide (p < 48)
/-- A port: Y0 to Y11, M0, M1. -/
def ixPort (p : Nat) : Bool := decide (p < 14)
/-- Where packets come in: a port, or 14, the device itself. -/
def ixIngress (p : Nat) : Bool := decide (p < 15)
/-- A function of the host port. -/
def ixFunction (f : Nat) : Bool := decide (f < 13)
/-- A domain that has a set point. -/
def ixDomain (d : Nat) : Bool := decide (d < 41)
/-- An origin of setup writes (R558): PF, a VF, management or JTAG. -/
def ixOrigin (o : Nat) : Bool := o == 1 || o == 3 || o == 4 || (o % 16 == 2 && decide (1 ≤ o / 16) && decide (o / 16 ≤ 12))

/-- Does a command name units that exist (DESIGN CHOICE, assumption log 3). -/
def wellFormed : Instr → Bool
  | .dispatcherAccept lp queue => decide (queue < 4) && decide (lp < 6144)
  | .compoundPlacement _ => true
  | .tileNop _ => true
  | .ldAcc _ => true
  | .zero _ => true
  | .mma _ => true
  | .stageBufferFill verb _ => ixVerb verb
  | .verbStep verb _ _ => ixVerb verb
  | .treeComb _ _ => true
  | .accAdd _ _ => true
  | .cvt _ => true
  | .qnt _ => true
  | .tileSt _ => true
  | .hist _ => true
  | .chkStat _ => true
  | .chkInject _ => true
  | .csig _ => true
  | .cwait _ _ => true
  | .cwaitMet _ => true
  | .cwaitTimeout _ _ => true
  | .tileFence _ => true
  | .tnsRd _ _ => true
  | .perfRd _ => true
  | .continuationCount => true
  | .programCompletion _ => true
  | .programAbort _ => true
  | .prtPush p _ => ixParticle p
  | .heldPushEntry p => ixParticle p
  | .prtQctlFlush p _ => ixParticle p
  | .prtAbort p _ => ixParticle p
  | .prtWait p _ _ => ixParticle p
  | .prtWaitMet p => ixParticle p
  | .prtWaitTimeout p _ => ixParticle p
  | .prtTimecmpMatch p _ => ixParticle p
  | .csignal p _ => ixParticle p
  | .rv64Instruction p _ => ixParticle p
  | .atomicAccess p _ => ixParticle p
  | .counterCsrRead p _ _ _ => ixParticle p
  | .pvxcfgWrite p _ => ixParticle p
  | .pvxSetvl p _ => ixParticle p
  | .pvxAdd p _ => ixParticle p
  | .pvxSub p _ => ixParticle p
  | .pvxMul p _ => ixParticle p
  | .pvxMulh p _ => ixParticle p
  | .pvxMulhu p _ => ixParticle p
  | .pvxAnd p _ => ixParticle p
  | .pvxOr p _ => ixParticle p
  | .pvxXor p _ => ixParticle p
  | .pvxSll p _ => ixParticle p
  | .pvxSrl p _ => ixParticle p
  | .pvxSra p _ => ixParticle p
  | .pvxMin p _ => ixParticle p
  | .pvxMax p _ => ixParticle p
  | .pvxMinu p _ => ixParticle p
  | .pvxMaxu p _ => ixParticle p
  | .pvxMerge p _ => ixParticle p
  | .pvxFadd p _ => ixParticle p
  | .pvxFsub p _ => ixParticle p
  | .pvxFmul p _ => ixParticle p
  | .pvxFdiv p _ => ixParticle p
  | .pvxFma p _ => ixParticle p
  | .pvxFmin p _ => ixParticle p
  | .pvxFmax p _ => ixParticle p
  | .pvxFsqrt p _ => ixParticle p
  | .pvxFcvtFI p _ => ixParticle p
  | .pvxFcvtIF p _ => ixParticle p
  | .pvxFcvtNarrow p _ => ixParticle p
  | .pvxFcvtWiden p _ => ixParticle p
  | .pvxWmul p _ => ixParticle p
  | .pvxWmulu p _ => ixParticle p
  | .pvxWmacc p _ => ixParticle p
  | .pvxFwmul p _ => ixParticle p
  | .pvxFwmacc p _ => ixParticle p
  | .pvxDot4 p _ => ixParticle p
  | .pvxDot4u p _ => ixParticle p
  | .pvxDot2bf p _ => ixParticle p
  | .pvxCmpeq p _ => ixParticle p
  | .pvxCmplt p _ => ixParticle p
  | .pvxCmpltu p _ => ixParticle p
  | .pvxFcmpeq p _ => ixParticle p
  | .pvxFcmplt p _ => ixParticle p
  | .pvxFcmple p _ => ixParticle p
  | .pvxRedsum p _ => ixParticle p
  | .pvxRedmax p _ => ixParticle p
  | .pvxRedmin p _ => ixParticle p
  | .pvxFredsum p _ => ixParticle p
  | .pvxFredmax p _ => ixParticle p
  | .pvxFredmin p _ => ixParticle p
  | .pvxMand p _ => ixParticle p
  | .pvxMor p _ => ixParticle p
  | .pvxMxor p _ => ixParticle p
  | .pvxMandn p _ => ixParticle p
  | .pvxMnot p _ => ixParticle p
  | .pvxMset p _ => ixParticle p
  | .pvxMcount p _ => ixParticle p
  | .pvxMfirst p _ => ixParticle p
  | .pvxMvX p _ => ixParticle p
  | .pvxMvF p _ => ixParticle p
  | .pvxBcastX p _ => ixParticle p
  | .pvxBcastF p _ => ixParticle p
  | .pvxMvV p _ => ixParticle p
  | .pvxIota p _ => ixParticle p
  | .pvxSlidedn p _ => ixParticle p
  | .pvxSlideup p _ => ixParticle p
  | .pvxLoad p _ => ixParticle p
  | .pvxStridedLoad p _ => ixParticle p
  | .pvxIndexedLoad p _ => ixParticle p
  | .pvxStore p _ => ixParticle p
  | .pvxStridedStore p _ => ixParticle p
  | .pvxIndexedStore p _ => ixParticle p
  | .overlayModeChange p => ixParticle p
  | .particleMismatch p => ixParticle p
  | .infGroup _ _ => true
  | .infNop inf => ixInflector inf
  | .infLd inf => ixInflector inf
  | .infLdi inf => ixInflector inf
  | .infSt inf => ixInflector inf
  | .infSti inf => ixInflector inf
  | .infLdk inf => ixInflector inf
  | .infMov inf => ixInflector inf
  | .infLane inf => ixInflector inf
  | .infFadd inf => ixInflector inf
  | .infFsub inf => ixInflector inf
  | .infFmul inf => ixInflector inf
  | .infFdiv inf => ixInflector inf
  | .infFma inf => ixInflector inf
  | .infFsqrt inf => ixInflector inf
  | .infRsqrt inf => ixInflector inf
  | .infFmin inf => ixInflector inf
  | .infFmax inf => ixInflector inf
  | .infFabs inf => ixInflector inf
  | .infFneg inf => ixInflector inf
  | .infExp2 inf => ixInflector inf
  | .infLog2 inf => ixInflector inf
  | .infExp inf => ixInflector inf
  | .infLog inf => ixInflector inf
  | .infTanh inf => ixInflector inf
  | .infSigmoid inf => ixInflector inf
  | .infGelu inf => ixInflector inf
  | .infSilu inf => ixInflector inf
  | .infSoftplus inf => ixInflector inf
  | .infSin inf => ixInflector inf
  | .infCos inf => ixInflector inf
  | .infFcmplt inf => ixInflector inf
  | .infFcmple inf => ixInflector inf
  | .infFcmpeq inf => ixInflector inf
  | .infFisnan inf => ixInflector inf
  | .infSel inf => ixInflector inf
  | .infFtoi inf => ixInflector inf
  | .infItof inf => ixInflector inf
  | .infIadd inf => ixInflector inf
  | .infIsub inf => ixInflector inf
  | .infImul inf => ixInflector inf
  | .infAnd inf => ixInflector inf
  | .infOr inf => ixInflector inf
  | .infXor inf => ixInflector inf
  | .infShl inf => ixInflector inf
  | .infShr inf => ixInflector inf
  | .infSar inf => ixInflector inf
  | .infIcmplt inf => ixInflector inf
  | .infIcmpeq inf => ixInflector inf
  | .infUnpack inf => ixInflector inf
  | .infPack inf => ixInflector inf
  | .infShfl inf => ixInflector inf
  | .infRed inf => ixInflector inf
  | .infSmax inf => ixInflector inf
  | .infSmin inf => ixInflector inf
  | .infScnt inf => ixInflector inf
  | .infSor inf => ixInflector inf
  | .solveCg _ => true
  | .solveBicgstab _ => true
  | .solveGmres _ => true
  | .solveLu _ => true
  | .solveCholesky _ => true
  | .solveQr _ => true
  | .outerIteration _ => true
  | .innerIteration _ _ => true
  | .solveDeadlineMatch _ _ => true
  | .assembleStencil _ => true
  | .assembleElements _ => true
  | .colourBoundary _ => true
  | .assembleMeasure _ => true
  | .assembleAdj _ => true
  | .placementEpochEnd k _ _ => ixPart k
  | .mapSwitch _ _ => true
  | .quantumExpiry k _ => ixPart k
  | .contextIdleSwitch k _ => ixPart k
  | .acceptanceStop k _ => ixPart k
  | .contextSave k _ => ixPart k
  | .contextRestore k _ => ixPart k
  | .conjSignal _ => true
  | .conjReset _ => true
  | .conjArm _ => true
  | .conjDisarm _ => true
  | .conjRead _ => true
  | .comparatorMatch _ _ _ => true
  | .ppsEdge _ _ _ => true
  | .missingMeasurement _ => true
  | .ppsAbsence _ => true
  | .tsyncRequestSend _ _ => true
  | .tsyncRequest p _ _ _ _ => ixPort p
  | .tsyncResponse p _ _ _ _ => ixPort p
  | .stackTemperatureReading k _ _ => ixPart k
  | .stackOnline k _ _ => ixPart k
  | .pseudoChannelGrant k pc _ _ _ _ _ => ixPart k && decide (pc < 64)
  | .rowRemap k => ixPart k
  | .patrolScrub k _ _ => ixPart k
  | .refresh k => ixPart k
  | .hbmTgStart k => ixPart k
  | .hbmTgStop k => ixPart k
  | .trafficGeneratorRunEnd k _ _ => ixPart k
  | .idleBeat p _ _ => ixPort p
  | .linkctl p _ _ _ => ixPort p
  | .linkctlSend p _ => ixPort p
  | .replayStart p _ _ => ixPort p
  | .replayTimeout p _ => ixPort p
  | .linkState p _ _ _ _ _ => ixPort p
  | .linkTrainingComplete p _ _ => ixPort p
  | .linkLossWaitExpiry p _ => ixPort p
  | .portRetrain p => ixPort p
  | .signalPacket p _ _ => ixIngress p
  | .writeAck p _ _ => ixIngress p
  | .readPacket p _ _ _ => ixIngress p
  | .abortPacket p _ _ => ixIngress p
  | .undeliverablePacket p _ _ => ixIngress p
  | .collectiveFree p _ _ => ixIngress p
  | .collectiveDone p _ _ _ => ixIngress p
  | .collectiveClose p _ _ _ => ixIngress p
  | .dataWrite p _ _ => ixIngress p
  | .dataReadResp p _ _ => ixIngress p
  | .dataReduce p _ _ _ => ixIngress p
  | .egressCommit e _ => ixPort e
  | .requestCancel e _ => ixPort e
  | .circuitEntryWrite org port cid _ => ixOrigin org && ixPort port && decide (cid < 256)
  | .partCktEntryWrite org k _ => ixOrigin org && ixPart k
  | .collectiveSetup _ => true
  | .collectiveLaunch _ _ => true
  | .collectiveBind _ => true
  | .collectiveUnbind _ => true
  | .collectiveAbort _ => true
  | .collectiveRelease _ => true
  | .collectiveRoute _ => true
  | .segmentSend _ _ _ _ _ => true
  | .collectiveTimeout _ _ _ => true
  | .hashLaneChunk _ _ => true
  | .inputAccepted _ _ => true
  | .stepCommitOpen _ => true
  | .glossOpen _ => true
  | .stepCommitSetup _ => true
  | .stepCommitCommit _ _ => true
  | .stepDecision _ _ => true
  | .viewExchange _ _ => true
  | .retentionRelease _ _ => true
  | .deferrableStart _ => true
  | .copyPlain _ _ => true
  | .copyOffload _ _ => true
  | .copyPrefetch _ _ => true
  | .copyTopk _ => true
  | .copySign _ => true
  | .copyExpandTopk _ => true
  | .copyExpandSign _ => true
  | .snapshotDigest _ => true
  | .snapshotFinal _ => true
  | .snapshotExport _ _ => true
  | .launchCreate _ _ => true
  | .launchProgram _ => true
  | .launchEnd _ _ => true
  | .wait _ _ => true
  | .waitComplete _ => true
  | .waitTimeout _ _ => true
  | .fence _ => true
  | .fenceRelease _ => true
  | .maintStartStress _ _ _ => true
  | .maintStartCalibrate _ _ _ => true
  | .maintStartScrub _ _ => true
  | .maintStartStackTest _ _ _ => true
  | .maintStartUnitTest _ _ => true
  | .maintEnd _ _ => true
  | .activityEnd _ _ _ _ _ _ _ => true
  | .sqDoorbell _ k q _ _ => ixPart k && decide (q < 16)
  | .cqDoorbell _ k m _ _ => ixPart k && decide (m < 4)
  | .eqDoorbell _ k _ _ => ixPart k
  | .ringFetch k q => ixPart k && decide (q < 16)
  | .fetchCompletion k q _ => ixPart k && decide (q < 16)
  | .slotReread k q _ => ixPart k && decide (q < 16)
  | .descriptorAccept k q _ => ixPart k && decide (q < 16)
  | .descriptorCompletion _ => true
  | .sqFlush k q => ixPart k && decide (q < 16)
  | .ringEnable k ring => ixPart k && decide (ring < 21)
  | .memoryWindowRead _ _ _ => true
  | .memoryWindowWrite _ _ _ _ => true
  | .atomicopReceived _ => true
  | .busMasterEnableClear fn => ixFunction fn
  | .busMasterEnableSet fn => ixFunction fn
  | .functionLevelReset fn _ => ixFunction fn
  | .hostCompletion _ _ _ _ _ _ _ => true
  | .completionTimeout _ => true
  | .translationWalk k _ _ _ _ => ixPart k
  | .xlatInvalidate k => ixPart k
  | .xlatInvalidateDone k => ixPart k
  | .partForm k _ => ixPart k
  | .partitionActive k _ _ _ => ixPart k
  | .partTeardown k _ => ixPart k
  | .wipe k _ => ixPart k
  | .partKeyWrite org k j _ => ixOrigin org && ixPart k && decide (j < 8)
  | .lifecycleSubmit => true
  | .lifecycleDecision _ => true
  | .firmwareStageGo => true
  | .firmwareStagingDone _ => true
  | .commitSvn => true
  | .audAckWrite org _ => ixOrigin org
  | .setPointUpdate _ _ _ => true
  | .powerEstimate _ _ _ _ => true
  | .pmbusCorrection _ _ => true
  | .pmbusAlert _ => true
  | .junctionSensorRead _ _ => true
  | .railMonitorSample dom _ _ _ _ => ixDomain dom
  | .dipEventEnd _ => true
  | .railReset rail => decide (rail < 41) || (decide (0x42 ≤ rail) && decide (rail ≤ 0x48)) || rail == 0xFF
  | .dipRaiseExpiry dom _ => ixDomain dom
  | .recordRevalidation sl kind _ _ _ => ixSlice sl && decide (kind < 3)
  | .pwrSleep _ => true
  | .idleSleep _ => true
  | .ellipsisEntered _ => true
  | .pwrWake _ => true
  | .wakeComplete _ _ _ => true
  | .lockstepMismatch => true
  | .quickTest sl u _ _ => ixSlice sl && decide (u < 18)
  | .scheduledStress sl _ => ixSlice sl
  | .latentScrub _ _ _ _ => true
  | .noUnit _ _ => true
  | .reportResend _ => true
  | .correctedReport _ _ => true
  | .rasRptAckWrite org _ => ixOrigin org
  | .pairingEnable => true
  | .pairLayout p _ _ _ => ixPort p
  | .initialViewCopy => true
  | .pairCommit p _ _ => ixPort p
  | .pairCommitAck p _ _ => ixPort p
  | .pairCmpword p _ _ => ixPort p
  | .pairFailover p _ _ => ixPort p
  | .pairEnd p _ _ => ixPort p
  | .partnerLost _ => true
  | .promote => true
  | .powerOnReset => true
  | .coldRstNAssert => true
  | .synResetCold => true
  | .bootRelease _ _ => true
  | .bootClocks => true
  | .bootRom _ => true
  | .bootFwInit _ => true
  | .bootFabricTest _ _ => true
  | .bootSlices _ _ _ => true
  | .bootStacks _ _ _ => true
  | .bootWipe _ => true
  | .bootReady _ => true
  | .perstNAssert => true
  | .perstNRelease => true
  | .testReset => true
  | .extest _ _ => true
  | .idcode => true
  | .samplePreload _ _ => true
  | .setupacc _ => true
  | .bypass => true
  | .i3cWrite4 _ _ => true
  | .i3cWrite8 _ _ => true
  | .i3cRead4 _ => true
  | .i3cRead8 _ => true
  | .i3cPrivateRead => true
  | .setdasa _ _ => true
  | .entdaa _ => true
  | .setupRegisterWrite fn _ _ _ => ixFunction fn
  | .linkLost p => ixPort p
  | .railEnFall => true
  | .vfEnable _ _ => true
  | .d3hotEntry fn => ixFunction fn

end Sys2Proof
end

