-- ==== Sys2Proof/Safety.lean ====
section
/-! DEFINITION. What a safe run is: the block takes commands in order and none stops it. -/

namespace Sys2Proof.Machine

/-- Every command that waits names units that exist. -/
def queueOk (s : State) : Bool := s.pending.all wellFormed

/-- Does a step answer a next state. -/
def stepNext (s : State) : Option State := match step s with | .next t => some t | _ => none

end Sys2Proof.Machine
end

