-- ==== Sys2Proof/Certificates/Slice0/Obligations.lean ====
section
/-! DEFINITION. The statements about the block, from the numbered rules of spec/, one `def Obligations.<Name> : Prop` each. -/

namespace Sys2Proof.Claims

open Sys2Proof.Machine

/-- The links of a tile program that complete when they issue, each with its opcode. -/
def tileLinks (prog now : Nat) (up : Option (Nat × Nat)) : List (Nat × Instr) :=
  [(opNOP, .tileNop prog), (opLDACC, .ldAcc prog), (opZERO, .zero prog), (opTREECOMB, .treeComb prog up),
    (opACCADD, .accAdd prog up), (opCVT, .cvt prog), (opQNT, .qnt prog), (opST, .tileSt prog), (opHIST, .hist prog),
    (opCHKSTAT, .chkStat prog), (opCHKINJECT, .chkInject prog), (opCSIG, .csig prog), (opFENCE, .tileFence prog),
    (opTNSRD, .tnsRd prog now), (opPERFRD, .perfRd prog)]

/-- R249: a Particle about to run an instruction of a row, with nothing in its way: it runs, its slice's domain is on, it holds
nothing, no interrupt is taken, the fetch succeeds, and no register that the instruction uses holds a poisoned value. `s₁` is
the state with the instruction cache filled. -/
def prtRuns (s : State) (p : Nat) (hit : Bool) (cls : RvCls) (raw w len : Nat) (s₁ : State) : Prop :=
  p < 48 ∧ (partOf s p).running = true ∧ (partOf s p).lp.isSome = true ∧ computeOn s (p / 4) = true ∧ (coreOf s p).hold = .none ∧
  irqTake (coreOf s p) = none ∧ fetchInsn s p hit = .ok (raw, w, len) ∧ rvCls (coreOf s p) w = cls ∧ s₁ = fillCache s p raw len ∧
  poisonUse (coreOf s₁ p) (rvSources w).1 (rvSources w).2 = none

/-- The instruction that retires: its effect on the core, then the pc. -/
def retired (s s₁ : State) (p pc : Nat) (f : PCore → PCore) : Host.Outcome State Fault Refusal :=
  .next { retire (updCore s₁ p f) p pc with pending := s.pending }

/-- R261, R262, R264: the element-wise PVX rows: FUNC, the row, its shape, and the operation. -/
def pvxElems (p : Nat) (hit : Bool) : List (Nat × Instr × VSpec × (VEnv → Nat → Nat → Nat → FpR)) :=
  let int (f : Nat → Nat → Nat → Nat) : VEnv → Nat → Nat → Nat → FpR := fun v a b _ => (f v.sew a b % 2 ^ v.sew, 0)
  let flt (f : FLay → RMode → Nat → Nat → Nat → FpR) : VEnv → Nat → Nat → Nat → FpR := fun v a b d =>
    let l := vLay v v.sew
    f l v.rm (quiet l a) (quiet l b) (quiet l d)
  let wide (f : Nat → Nat → Nat → Nat → Nat) : VEnv → Nat → Nat → Nat → FpR := fun v a b d => (f v.sew a b d % 2 ^ (2 * v.sew), 0)
  [(0x0, .pvxAdd p hit, {}, int fun w a b => (a + b) % 2 ^ w),
   (0x1, .pvxSub p hit, {}, int fun w a b => (a + 2 ^ w - b) % 2 ^ w),
   (0x2, .pvxMul p hit, {}, int fun w a b => a * b % 2 ^ w),
   (0x3, .pvxMulh p hit, {}, int fun w a b => toTwos w ((sext w a * sext w b) >>> w)),
   (0x4, .pvxMulhu p hit, {}, int fun w a b => a * b / 2 ^ w),
   (0x5, .pvxAnd p hit, {}, int fun _ a b => a &&& b),
   (0x6, .pvxOr p hit, {}, int fun _ a b => a ||| b),
   (0x7, .pvxXor p hit, {}, int fun _ a b => a ^^^ b),
   (0x8, .pvxSll p hit, {}, int fun w a b => a * 2 ^ (b % w)),
   (0x9, .pvxSrl p hit, {}, int fun w a b => a >>> (b % w)),
   (0xA, .pvxSra p hit, {}, int fun w a b => toTwos w (sext w a >>> (b % w))),
   (0xB, .pvxMin p hit, {}, int fun w a b => if sext w a ≤ sext w b then a else b),
   (0xC, .pvxMax p hit, {}, int fun w a b => if sext w a ≤ sext w b then b else a),
   (0xD, .pvxMinu p hit, {}, int fun _ a b => min a b),
   (0xE, .pvxMaxu p hit, {}, int fun _ a b => max a b),
   (0x10, .pvxFadd p hit, { float := true }, flt fun l m a b _ => fpAdd l m a b),
   (0x11, .pvxFsub p hit, { float := true }, flt fun l m a b _ => fpSub l m a b),
   (0x12, .pvxFmul p hit, { float := true }, flt fun l m a b _ => fpMul l m a b),
   (0x13, .pvxFdiv p hit, { float := true }, flt fun l m a b _ => fpDiv l m a b),
   (0x14, .pvxFma p hit, { float := true, usesD := true }, flt fun l m a b d => fpFma l m false false a b d),
   (0x15, .pvxFmin p hit, { float := true }, flt fun l _ a b _ => vMinMax false l a b),
   (0x16, .pvxFmax p hit, { float := true }, flt fun l _ a b _ => vMinMax true l a b),
   (0x17, .pvxFsqrt p hit, { float := true, uses1 := false, zero1 := true }, flt fun l m a _ _ => fpSqrt l m a),
   (0x18, .pvxFcvtFI p hit, { float := true, uses1 := false }, fun v a _ _ => fpRound (vLay v v.sew) v.rm (numInt (sext v.sew a))),
   (0x19, .pvxFcvtIF p hit, { float := true, uses1 := false }, flt fun l m a _ _ => fpToInt (layW l) true false m (decFloat l a)),
   (0x1A, .pvxFcvtNarrow p hit, { float := true, src := 2, uses1 := false }, fun v a _ _ =>
     fpCvt (vLay v (2 * v.sew)) (vLay v v.sew) v.rm (quiet (vLay v (2 * v.sew)) a)),
   (0x1B, .pvxFcvtWiden p hit, { float := true, dst := 2, uses1 := false }, fun v a _ _ =>
     fpCvt (vLay v v.sew) (vLay v (2 * v.sew)) v.rm (quiet (vLay v v.sew) a)),
   (0x20, .pvxWmul p hit, { dst := 2 }, wide fun w a b _ => toTwos (2 * w) (sext w a * sext w b)),
   (0x21, .pvxWmulu p hit, { dst := 2 }, wide fun _ a b _ => a * b),
   (0x22, .pvxWmacc p hit, { dst := 2, usesD := true }, wide fun w a b d => toTwos (2 * w) (sext w a * sext w b + (d : Int))),
   (0x23, .pvxFwmul p hit, { float := true, dst := 2 }, fun v a b _ =>
     fpFromNum (vLay v (2 * v.sew)) v.rm (numMul (vVal (vLay v v.sew) a) (vVal (vLay v v.sew) b)) [vVal (vLay v v.sew) a, vVal (vLay v v.sew) b]),
   (0x24, .pvxFwmacc p hit, { float := true, dst := 2, usesD := true }, fun v a b d =>
     vDotRound (vLay v (2 * v.sew)) v.rm [(vVal (vLay v v.sew) a, vVal (vLay v v.sew) b)] (vVal (vLay v (2 * v.sew)) d)),
   (0x28, .pvxDot4 p hit, { only32 := true, usesD := true }, fun _ a b d => (vDot4 true a b d, 0)),
   (0x29, .pvxDot4u p hit, { only32 := true, usesD := true }, fun _ a b d => (vDot4 false a b d, 0)),
   (0x2A, .pvxDot2bf p hit, { float := true, only32 := true, usesD := true }, vDot2bf)]

/-- R264: the forms of an element-wise row that are legal: no float at SEW 8, the widths that the row takes, aligned register
groups, and no overlap where the widths differ. -/
def elemLegal (o : VSpec) (v : VEnv) : Prop :=
  (o.float = true → v.sew ≠ 8) ∧ (o.only32 = true → v.sew = 32) ∧ (o.zero1 = true → v.r1 = 0) ∧
  v.vd % (o.dst * v.lmul) = 0 ∧ v.r2 % (o.src * v.lmul) = 0 ∧ (o.uses1 = true → v.scalar = false → v.r1 % v.lmul = 0) ∧
  (1 < o.dst ∨ 1 < o.src → v.lmul ≠ 8 ∧ v.sew ≠ 64 ∧
    (v.vd + o.dst * v.lmul ≤ v.r2 ∨ v.r2 + o.src * v.lmul ≤ v.vd) ∧
    (o.uses1 = true → v.scalar = false → v.vd + o.dst * v.lmul ≤ v.r1 ∨ v.r1 + v.lmul ≤ v.vd))

/-- No element and no scalar that a PVX instruction reads is poisoned (R254). -/
def pvxClean (s : State) (p : Nat) (els : List (Nat × Nat × Nat)) (xs fs : List Nat) : Prop := vUse s p els xs fs = none

/-- R261: the compares: FUNC, the row, whether it is a float compare, and the operation. -/
def pvxCompares (p : Nat) (hit : Bool) : List (Nat × Instr × Bool × (VEnv → Nat → Nat → FpR)) :=
  [(0x30, .pvxCmpeq p hit, false, fun _ a b => (b2n (a == b), 0)),
   (0x31, .pvxCmplt p hit, false, fun v a b => (b2n (decide (sext v.sew a < sext v.sew b)), 0)),
   (0x32, .pvxCmpltu p hit, false, fun _ a b => (b2n (decide (a < b)), 0)),
   (0x33, .pvxFcmpeq p hit, true, fun v a b => vFcmp 0 (vLay v v.sew) a b),
   (0x34, .pvxFcmplt p hit, true, fun v a b => vFcmp 1 (vLay v v.sew) a b),
   (0x35, .pvxFcmple p hit, true, fun v a b => vFcmp 2 (vLay v v.sew) a b)]

/-- R261, R263: the reductions: FUNC, the row, whether it is a float reduction, and the operation on the running value. -/
def pvxReductions (p : Nat) (hit : Bool) : List (Nat × Instr × Bool × (VEnv → Nat → Nat → FpR)) :=
  [(0x38, .pvxRedsum p hit, false, fun v t a => ((t + a) % 2 ^ v.sew, 0)),
   (0x39, .pvxRedmax p hit, false, fun v t a => (if sext v.sew t < sext v.sew a then a else t, 0)),
   (0x3A, .pvxRedmin p hit, false, fun v t a => (if sext v.sew a < sext v.sew t then a else t, 0)),
   (0x3B, .pvxFredsum p hit, true, fun v t a => fpAdd (vLay v v.sew) v.rm (quiet (vLay v v.sew) t) (quiet (vLay v v.sew) a)),
   (0x3C, .pvxFredmax p hit, true, fun v t a => vMinMax true (vLay v v.sew) t a),
   (0x3D, .pvxFredmin p hit, true, fun v t a => vMinMax false (vLay v v.sew) t a)]

/-- R266: the operations on mask registers: operation, the row, whether it reads ms2, and the bit that it gives. -/
def pvxMasks (p : Nat) (hit : Bool) : List (Nat × Instr × Bool × (Bool → Bool → Bool)) :=
  [(0x40, .pvxMand p hit, true, fun a b => a && b), (0x41, .pvxMor p hit, true, fun a b => a || b),
   (0x42, .pvxMxor p hit, true, fun a b => a != b), (0x43, .pvxMandn p hit, true, fun a b => a && !b),
   (0x44, .pvxMnot p hit, false, fun a _ => !a)]

/-- R266: the moves into a vector group: operation, the row, whether it reads vs2, the x registers, the f registers and the elements
that it reads, and element `e` of the result (none: not written). -/
def pvxMoves (p : Nat) (hit : Bool) : List (Nat × Instr × Bool × (VEnv → List Nat) × (VEnv → List Nat) × (PCore → VEnv → List (Nat × Nat × Nat)) ×
    (PCore → VEnv → Nat → Option Nat)) :=
  [(0x52, .pvxBcastX p hit, false, fun v => [v.r1], fun _ => [], fun _ _ => [], fun c v _ => some (xGet c v.r1 % 2 ^ v.sew)),
   (0x53, .pvxBcastF p hit, false, fun _ => [], fun v => [v.r1], fun _ _ => [], fun c v _ => some (fGet c v.r1 % 2 ^ v.sew)),
   (0x54, .pvxMvV p hit, true, fun _ => [], fun _ => [], fun c v => vEls v.r2 v.sew (vActs c v), fun c v e => some (vEl c v.r2 v.sew e)),
   (0x58, .pvxIota p hit, false, fun _ => [], fun _ => [], fun _ _ => [], fun _ v e => some (e % 2 ^ v.sew)),
   (0x60, .pvxSlidedn p hit, true, fun v => [v.r1], fun _ => [],
     fun c v => vEls v.r2 v.sew (((vActs c v).map (· + xGet c v.r1)).filter (· < vlmaxOf c v.sew v.lmul)),
     fun c v e => some (if e + xGet c v.r1 < vlmaxOf c v.sew v.lmul then vEl c v.r2 v.sew (e + xGet c v.r1) else 0)),
   (0x61, .pvxSlideup p hit, true, fun v => [v.r1], fun _ => [],
     fun c v => vEls v.r2 v.sew (((vActs c v).filter (xGet c v.r1 ≤ ·)).map (· - xGet c v.r1)),
     fun c v e => if xGet c v.r1 ≤ e then some (vEl c v.r2 v.sew (e - xGet c v.r1)) else none)]

/-- R178, R179: the micro-operations that write DST in the active lanes: OP, the row, and what a lane gives. -/
def infOps (inf : Nat) : List (Nat × Instr × (UEnv → Nat → LaneOut)) :=
  [(0x01, .infLd inf, laneLd),
   (0x02, .infLdi inf, laneLdi),
   (0x05, .infLdk inf, fun e _ =>
       ({ v := e.run.consts.getD (uAUX e.word % 16) 0, tan := noTan e }, 0)),
   (0x06, .infMov inf, fun e l => (rA e l, 0)),
   (0x07, .infLane inf, fun e l => ({ v := laneIx e l, tan := noTan e }, 0)),
   (0x08, .infFadd inf, fun e l =>
       fBin e l (numAdd (uRND e.word == 3)) fun _ _ da db => numAdd (uRND e.word == 3) da db),
   (0x09, .infFsub inf, fun e l =>
       fBin e l (numSub (uRND e.word == 3)) fun _ _ da db => numSub (uRND e.word == 3) da db),
   (0x0A, .infFmul inf, fun e l =>
       fBin e l numMul fun a b da db => numAdd (uRND e.word == 3) (numMul a db) (numMul da b)),
   (0x0B, .infFdiv inf, fun e l =>
       fBin e l numDiv fun a b da db => numDiv (numSub (uRND e.word == 3) (numMul da b) (numMul a db)) (numMul b b)),
   (0x0C, .infFma inf, fun e l =>
       let a := rA e l
       let b := rB e l
       let c := rC e l
       let dn := uRND e.word == 3
       fOut e l [a, b, c] (numAdd dn (numMul (fVal e a) (fVal e b)) (fVal e c)) fun t =>
         numAdd dn (numAdd dn (numMul (fVal e a) (fTan e b t)) (numMul (fTan e a t) (fVal e b))) (fTan e c t)),
   (0x0D, .infFsqrt inf, fun e l =>
       fUn e l numSqrt fun a da =>
         if numIsZero a then (if numIsZero da then numZero else if numIsNan da then .nan else .inf (numNeg da))
         else numDiv da (numScale (numSqrt a) 1)),
   (0x0E, .infRsqrt inf, fun e l =>
       fUn e l (fun a => numDiv (numInt 1) (numSqrt a)) fun a da => numDiv (numNegate da) (numMul (numScale a 1) (numSqrt a))),
   (0x0F, .infFmin inf, fun e l => fChoice e l fun a b => ltZ b a),
   (0x10, .infFmax inf, fun e l => fChoice e l fun a b => ltZ a b),
   (0x11, .infFabs inf, fun e l =>
       let neg := bit (rA e l).v 63
       fUn e l numAbs fun _ da => if neg then numNegate da else da),
   (0x12, .infFneg inf, fun e l =>
       fUn e l numNegate fun _ da => numNegate da),
   (0x13, .infExp2 inf, fun e l => fElem e l .exp2),
   (0x14, .infLog2 inf, fun e l => fElem e l .log2),
   (0x15, .infExp inf, fun e l => fElem e l .exp),
   (0x16, .infLog inf, fun e l => fElem e l .log),
   (0x17, .infTanh inf, fun e l => fElem e l .tanh),
   (0x18, .infSigmoid inf, fun e l => fElem e l .sigmoid),
   (0x19, .infGelu inf, fun e l => fElem e l .gelu),
   (0x1A, .infSilu inf, fun e l => fElem e l .silu),
   (0x1B, .infSoftplus inf, fun e l => fElem e l .softplus),
   (0x1C, .infSin inf, fun e l => fElem e l .sin),
   (0x1D, .infCos inf, fun e l => fElem e l .cos),
   (0x20, .infFcmplt inf, fun e l => fCmp e l ltZ),
   (0x21, .infFcmple inf, fun e l => fCmp e l fun a b => !ltZ b a),
   (0x22, .infFcmpeq inf, fun e l => fCmp e l fun a b => !ltZ a b && !ltZ b a),
   (0x23, .infFisnan inf, fun e l =>
       let a := rA e l
       ({ v := if numIsNan (fVal e a) then 1 else 0, poison := a.poison, tan := noTan e }, rdFlags e [a])),
   (0x24, .infSel inf, fun e l =>
       let a := rA e l
       let q := if a.v = 0 then rC e l else rB e l
       ({ q with poison := a.poison || (rB e l).poison || (rC e l).poison }, 0)),
   (0x25, .infFtoi inf, fun e l =>
       let a := rA e l
       let c := encIntAt 64 false ((rndOf (uRND e.word)).getD .rne) (uBits e l 0) (fVal e a) 0
       ({ v := c.pat, poison := a.poison, tan := noTan e }, rdFlags e [a] ||| (if c.saturated then ifSAT else 0))),
   (0x26, .infItof inf, fun e l =>
       let a := rA e l
       ({ v := (fRound e l 0 (numInt (sext 64 a.v))).pat, poison := a.poison, tan := noTan e }, 0)),
   (0x28, .infIadd inf, fun e l => iBin e l (· + ·)),
   (0x29, .infIsub inf, fun e l => iBin e l fun a b => a + (2 ^ 64 - b)),
   (0x2A, .infImul inf, fun e l => iBin e l (· * ·)),
   (0x2B, .infAnd inf, fun e l => iBin e l (· &&& ·)),
   (0x2C, .infOr inf, fun e l => iBin e l (· ||| ·)),
   (0x2D, .infXor inf, fun e l => iBin e l (· ^^^ ·)),
   (0x2E, .infShl inf, fun e l => iBin e l fun a b => a <<< (b % 64)),
   (0x2F, .infShr inf, fun e l => iBin e l fun a b => a >>> (b % 64)),
   (0x30, .infSar inf, fun e l =>
       iBin e l fun a b => toTwos 64 ((sext 64 a).fdiv (2 ^ (b % 64) : Nat))),
   (0x31, .infIcmplt inf, fun e l =>
       iBin e l fun a b => if sext 64 a < sext 64 b then 1 else 0),
   (0x32, .infIcmpeq inf, fun e l =>
       iBin e l fun a b => if a = b then 1 else 0),
   (0x36, .infShfl inf, fun e l =>
       let q := laneReg e ((rB e l).v % 32) (uSA e.word)
       ({ q with poison := q.poison || (rB e l).poison }, 0))]

/-- R179: UNPACK and PACK: OP, the row, and what a lane gives for the field's position and width. -/
def infFields (inf : Nat) : List (Nat × Instr × (UEnv → Nat → Nat → Nat → LaneOut)) :=
  [(0x33, .infUnpack inf, fun e l p w =>
       ({ v := bits (rA e l).v (p + w - 1) p, poison := (rA e l).poison || (rB e l).poison, tan := noTan e }, 0)),
   (0x34, .infPack inf, fun e l p w =>
       ({ v := setBits (rA e l).v (p + w - 1) p (rC e l).v, poison := (rA e l).poison || (rB e l).poison || (rC e l).poison
          tan := noTan e }, 0))]

/-- R525, R534: a descriptor's outcome is decided: its status, DETAIL and RESULT. -/
def endsAs (s : State) (d status detail result : Nat) : Prop := (mapFind s.descs d).map (·.st) = some (.ended status detail result)

/-- R372: a good link-local beat of a TYPE at an UP port that is not waiting for a REPLAY_START. -/
def beatGood (s : State) (p ty : Nat) (bytes : List Byte) : Prop :=
  portUp s p = true ∧ (portOf s p).deaf = false ∧ headOk bytes = true ∧ leNat (bytes.take 1) = ty

/-- R372 to R374, R378, R380, R386: a whole packet `pk` without CKT is delivered here: the device's own, or one that came in sequence,
with no acknowledgement, by UP port `p` with a key of its filter. `s₁`: the state once it is taken in. -/
def arrives (s : State) (p : Nat) (bytes : List Byte) (pk : Pkt) (s₁ : State) : Prop :=
  (p = 14 ∧ ∃ rest, s.loop = pk :: rest ∧ s₁ = { s with loop := rest }) ∨
  (p < 14 ∧ portUp s p = true ∧ (portOf s p).deaf = false ∧ headOk bytes = true ∧
    (leNat (bytes.take 1) = ptDATA → pk = (parseData bytes).1 ∧ (parseData bytes).2 = 0) ∧
    (leNat (bytes.take 1) ≠ ptDATA → pk = { hdr := bytes.take 64 }) ∧ 0x10 ≤ pkType pk ∧ bit (pkNat pk 4 2) 15 = false ∧
    (pkNat pk 2 2 + 4096 - (portOf s p).exp) % 4096 = 0 ∧ pkReserved pk = false ∧ pkCkt pk = false ∧ keyFiltered s p (pkKey pk) = true ∧
    (12 ≤ p ∨ 1 < pkNat pk 13 1 ∧ routeOf s pk = .here) ∧ s₁ = takeIn s p pk)

end Sys2Proof.Claims

open Sys2Proof Sys2Proof.Machine Sys2Proof.Claims


/-! ### The block: its queue, its clock, its state after reset -/

/-- A step takes the command at the front of the queue and is that command's meaning on the state with the queue's rest. -/
def Obligations.StepRunsFrontCommand : Prop :=
  ∀ (c : Instr) (rest : List Instr) (s : State), step { s with pending := c :: rest } = exec c { s with pending := rest }

/-- The model's choice (assumption log 1): on an empty queue one clock of CK90 passes once the clocks run, Tense counting it; before that the block
idles. -/
def Obligations.EmptyQueueCountsClock : Prop :=
  ∀ s : State, s.pending = [] →
    (clocksRun s = false → step s = .next s) ∧
    (clocksRun s = true → s.servo.left = 0 →
      step s = .next { s with tense := s.tense + 1, servo := { s.servo with clk := 0 } })

/-- Every command answers: a next state, with the queue as it was, exactly where it names units that exist, and the fault noSuchUnit where it does
not (the model's choice, assumption log 3). -/
def Obligations.CommandAnswersIffUnitsExist : Prop :=
  ∀ (i : Instr) (s : State),
    (wellFormed i = true → ∃ t, exec i s = .next t ∧ t.pending = s.pending) ∧
    (wellFormed i = false → exec i s = .fault .noSuchUnit)

/-- From a queue whose commands name units that exist, every run of steps goes on: `n` steps consume the first `n` commands in the order in which
they came, and what still waits names units that exist. Where the rules leave a point open it rests on the model's reading or choice in assumption
log 3 and 6. -/
def Obligations.QueueRunsInOrder : Prop :=
  ∀ (n : Nat) (s : State), queueOk s = true →
    ∃ t, Host.Core.run core n s = .next t ∧ t.pending = s.pending.drop n ∧ queueOk t = true

/-- The state after reset meets the invariant of `QueueRunsInOrder`, has Tense 0 (R322), every Conjunction unassigned (R305), no context and no
partition, and holds no byte and no poison in either memory. Where the rules leave a point open it rests on the model's reading or choice in
assumption log 10, 13, 14, 17 and 92. -/
def Obligations.ResetState : Prop :=
  queueOk State.reset = true ∧ State.reset.pending = [] ∧ State.reset.tense = 0 ∧ (∀ j, conjOf State.reset j = {}) ∧
  (∀ c, (ctxOf State.reset c).live = false) ∧ (∀ k, k < 12 → partState State.reset k = 0) ∧
  (∀ a, memByte State.reset.spm a = 0 ∧ memByte State.reset.hbm a = 0) ∧ State.reset.spm.wf = true ∧ State.reset.hbm.wf = true

/-! ### Tile programs (chapters 03 to 05) -/

/-- R140, R145, R147: an instruction about to issue that no check of R145 refuses completes: the program goes on to the next instruction and counts
this one (outside a sweep, whose instructions count once at its last key tile). R133, R134, R135, R137: what the control and synchronisation links do
besides completing: CHK.INJECT arms the failure, CSIG by the local form signals the Conjunction with the context's key, CSIG by the remote form sends
a signal under its handle, and CHK.STAT, TNS.RD and PERF.RD are one write each of the bytes that the rules give. R126, R121, R134, R137: LD.ACC,
ZERO, NOP, CHK.INJECT and FENCE store nothing: both memories, every page, every Conjunction and every other program are as they were. Where the rules
leave a point open it rests on the model's reading or choice in assumption log 31 to 33. -/
def Obligations.TileLinksComplete : Prop :=
  (∀ s prog now up e op i, tileEnv s prog = some e → tileRefusal s e = none → e.c.sweepIp = none →
    (op, i) ∈ tileLinks prog now up → inOp e.i = op →
    ∃ t p, exec i s = .next t ∧ progOf t prog = some p ∧ p.ip = e.p.ip + 1 ∧ p.completed = e.p.completed + 1) ∧
  (∀ s prog now e, tileEnv s prog = some e → tileRefusal s e = none →
    (inOp e.i = opCHKINJECT → exec (.chkInject prog) s = .next { tileDone (updProg s prog fun p =>
      { p with inject := some (inSLOT e.i, bits e.i.w3 8 0, bits e.i.w3 24 16, bit e.i.w3 32) }) prog e stOK with pending := s.pending }) ∧
    (inOp e.i = opCSIG → bit e.i.w1 32 = false → exec (.csig prog) s = .next { tileDone
      (conjSignal s (bits e.i.w1 13 0) (bits e.i.w1 31 16) false (ctxOf s e.p.cid).ckey) prog e stOK with pending := s.pending }) ∧
    (inOp e.i = opCSIG → bit e.i.w1 32 = true → ∃ t, exec (.csig prog) s = .next t ∧ t.conj = s.conj ∧
      t.outSigs = s.outSigs ++ [⟨e.p.cid / 8, bits e.i.w1 63 48, bits e.i.w1 13 0, bits e.i.w1 31 16, false, (ctxOf s e.p.cid).ckey⟩]) ∧
    (inOp e.i = opTNSRD → clocksRun s = true → ∃ z, z = { s with tense := BitVec.ofNat 64 (max s.tense.toNat now) } ∧
      exec (.tnsRd prog now) s = .next { tileDone (spWrite z e.p.cid (e.c.verb / 8) (bits e.i.w1 31 0) (natLe 8 z.tense.toNat) false) prog e stOK
        with pending := s.pending }) ∧
    (inOp e.i = opPERFRD → exec (.perfRd prog) s = .next { tileDone (spWrite s e.p.cid (e.c.verb / 8) (bits e.i.w1 31 0)
      ((List.range 8).flatMap fun j => natLe 8 (regGet s (aVRB_PERF (e.c.verb / 8) (e.c.verb % 8) j))) false) prog e stOK with pending := s.pending })) ∧
  (∀ s t prog i, i ∈ [Instr.tileNop prog, .ldAcc prog, .zero prog, .chkInject prog, .tileFence prog] → exec i s = .next t →
    t = { s with progs := t.progs, verbs := t.verbs, regs := t.regs } ∧ ∀ j, j ≠ prog → progOf t j = progOf s j)

/-- R145, R146: a check of R145 that fails ends the program at the refused instruction with that code and with no other effect: memory, Conjunctions
and signals are as they were. Where the rules leave a point open it rests on the model's reading or choice in assumption log 31. -/
def Obligations.TileRefusalEndsProgram : Prop :=
  ∀ s prog now up e op i code, tileEnv s prog = some e → tileRefusal s e = some code →
    (op, i) ∈ (opMMA, .mma prog) :: (opCWAIT, .cwait prog now) :: tileLinks prog now up → inOp e.i = op →
    ∃ t p, exec i s = .next t ∧ progOf t prog = some p ∧ p.ended = some ⟨code, e.p.ip, inTAG e.i⟩ ∧ p.comp = none ∧ p.completed = e.p.completed ∧
      t.spm = s.spm ∧ t.hbm = s.hbm ∧ t.conj = s.conj ∧ t.outSigs = s.outSigs ∧ (verbOf t e.c.verb).prog = none

/-- R136, R141, R307: CWAIT ends its compound and holds the program; the read that meets the target lets it go on, an ERROR ends it with CONJ_ERROR,
and the limit with WAIT_TIMEOUT and INDET. Where the rules leave a point open it rests on the model's reading or choice in assumption log 5. -/
def Obligations.CwaitHoldsAndEnds : Prop :=
  (∀ s prog now e, tileEnv s prog = some e → tileRefusal s e = none → inOp e.i = opCWAIT → ∃ t p, exec (.cwait prog now) s = .next t ∧
    progOf t prog = some p ∧ p.comp = none ∧ p.ip = e.p.ip ∧ (verbOf t e.c.verb).prog = none ∧
    p.wait = some ⟨bits e.i.w1 13 0, bits e.i.w1 63 32,
      if bits e.i.w2 31 0 = 0 then none else some ((atTime s now).tense.toNat + bits e.i.w2 31 0)⟩) ∧
  (∀ s prog p w, progOf s prog = some p → p.wait = some w → (conjOf s w.conj).error = false →
    reached (conjOf s w.conj).count (BitVec.ofNat 32 w.target) = true →
    ∃ t q, exec (.cwaitMet prog) s = .next t ∧ progOf t prog = some q ∧ q.wait = none ∧ q.ip = p.ip + 1 ∧ q.completed = p.completed + 1) ∧
  (∀ s prog p w, progOf s prog = some p → p.wait = some w → (conjOf s w.conj).error = true →
    ∃ t q, exec (.cwaitMet prog) s = .next t ∧ progOf t prog = some q ∧ q.wait = none ∧ q.ip = p.ip ∧ q.ended.map (·.status) = some stCONJ_ERROR) ∧
  (∀ s prog now p w d, progOf s prog = some p → p.wait = some w → w.deadline = some d → d ≤ (atTime s now).tense.toNat →
    waitOver (conjOf s w.conj) (BitVec.ofNat 32 w.target) = false →
    ∃ t q, exec (.cwaitTimeout prog now) s = .next t ∧ progOf t prog = some q ∧ q.wait = none ∧ (ctxOf t p.cid).indet = true ∧
      q.ended.map (·.status) = some stWAIT_TIMEOUT)

/-- R123, R97, R101: MMA gives its Verb the pass with the operands resolved at issue; a stage buffer half takes the next panel of the pass; a step of
the pass goes on through the tile's blocks and then through the phases of the chunk, counting itself. R593: a control fault of a Verb ends its
program with UNIT_FAULT, frees the Verb, and takes the unit out of service. Where the rules leave a point open it rests on the model's reading or
choice in assumption log 32 and 33. -/
def Obligations.VerbStepsAdvanceOrFault : Prop :=
  ((∀ s prog e, tileEnv s prog = some e → tileRefusal s e = none → inOp e.i = opMMA →
    ∃ t ps, exec (.mma prog) s = .next t ∧ (verbOf t e.c.verb).pass = some ps ∧ ps.p = mmaOf s e ∧ ps.chunk = 0 ∧ ps.blk = 0 ∧ ps.phase = 0) ∧
  (∀ s v sideB id q ps, v < 96 → (verbOf s v).prog = some id → (verbOf s v).pass = some ps → progOf s id = some q → ctxRunning s q.cid = true →
    (if sideB then ps.fillB else ps.fillA) < passChunks ps.p → (if sideB then ps.sbb.length else ps.sba.length) < 2 →
    ∃ t qs, exec (.stageBufferFill v sideB) s = .next t ∧ (verbOf t v).pass = some qs ∧
      (sideB = true → qs.fillB = ps.fillB + 1 ∧ qs.fillA = ps.fillA ∧ qs.sba = ps.sba ∧ qs.sbb.length = ps.sbb.length + 1) ∧
      (sideB = false → qs.fillA = ps.fillA + 1 ∧ qs.fillB = ps.fillB ∧ qs.sbb = ps.sbb ∧ qs.sba.length = ps.sba.length + 1)) ∧
  (∀ s v up id q ps pa pb, v < 96 → (verbOf s v).prog = some id → (verbOf s v).pass = some ps → progOf s id = some q → ctxRunning s q.cid = true →
    ps.sba.find? (fun x => x.chunk == ps.chunk) = some pa → ps.sbb.find? (fun x => x.chunk == ps.chunk) = some pb →
    (ps.blk + 1 < passBlocks ps.p ∨ ps.phase + 1 < (phasesOf ps.p).length) →
    ∃ t, exec (.verbStep v up false) s = .next t ∧ (verbOf t v).pass =
      some (if ps.blk + 1 < passBlocks ps.p then { ps with blk := ps.blk + 1 } else { ps with blk := 0, phase := ps.phase + 1 }))) ∧
  (∀ s v up id p, v < 96 → (verbOf s v).prog = some id → progOf s id = some p →
    ∃ t q, exec (.verbStep v up true) s = .next t ∧ progOf t id = some q ∧ q.ended = some ⟨stUNIT_FAULT, p.ip, 0⟩ ∧ q.comp = none ∧
      q.space = .nowhere ∧ unitIsOos t (v / 8) (v % 8) = true)

/-- R139, R667: the dispatcher takes the oldest record of a queue whose context runs and whose records are accepted; the work that the record names
is taken in under the next acceptance number. R289, R292, R107: a program at a compound boundary, with a Verb free beyond those that go before it,
has its next compound placed on one of the free Verbs, whose BUSY bit sets. Where the rules leave a point open it rests on the model's reading or
choice in assumption log 39 and 94. -/
def Obligations.WorkIsTakenAndPlaced : Prop :=
  (∀ s lp queue r rest, queue < 4 → lp < 6144 → (queueOf s lp queue).recs = r :: rest → ctxRunning s (lp / 64) = true →
    (runOf s (lp / 64)).accepting = true →
    ∃ t p, exec (.dispatcherAccept lp queue) s = .next t ∧ (queueOf t lp queue).recs = rest ∧ t.nextProg = s.nextProg + 1 ∧
      progOf t s.nextProg = some p ∧ p.owner = lp ∧ p.seq = r.seq ∧ p.cid = lp / 64 ∧ p.kind = queueKind queue ∧ p.issue = parseIssue r.bytes) ∧
  (∀ s prog p, progOf s prog = some p → wantsVerb s p = true → spaceReady s p = true → p.issue.mtarget = none →
    (goesBefore s prog p).length < (freeVerbs s (p.cid / 8)).length →
    ∃ t v q c, exec (.compoundPlacement prog) s = .next t ∧ v ∈ freeVerbs s (p.cid / 8) ∧ progOf t prog = some q ∧ q.comp = some c ∧ c.verb = v ∧
      c.first = p.ip ∧ (verbOf t v).prog = some prog ∧ fld t (vrbStatus v) 8 8 = 1)

/-- R147, R148, R144, R168: a piece of work that has ended and holds no unit is completed and leaves the block; an abort that was requested ends a
tile program at its compound boundary with ABORTED; and the oldest tile that waits is counted toward its handle's group. Where the rules leave a
point open it rests on the model's reading or choice in assumption log 45. -/
def Obligations.WorkCompletesAndAborts : Prop :=
  (∀ s prog p e, progOf s prog = some p → p.ended = some e → p.comp = none →
    ∃ t, exec (.programCompletion prog) s = .next t ∧ progOf t prog = none) ∧
  (∀ s prog p, progOf s prog = some p → p.abort = true → p.ended = none → p.kind = .tile → p.comp = none →
    ∃ t q, exec (.programAbort prog) s = .next t ∧ progOf t prog = some q ∧ q.ended = some ⟨stABORTED, p.ip, 0⟩ ∧ q.wait = none) ∧
  (∀ s x rest gk, s.contQ = x :: rest → mapGet .none s.handles (1024 * (x.cid / 8) + x.handle) = .cont gk → x.lost = false →
    exec .continuationCount s = .next { contCount { s with contQ := rest } gk x.ranges with pending := s.pending })

/-! ### Particles (chapter 08) -/

/-- R249: the instructions of the integer base write their result and the pc, and nothing else; x0 discards the write. R249: the F and D extensions'
arithmetic, while mstatus.FS is on and the rounding mode is legal. -/
def Obligations.ScalarResults : Prop :=
  (∀ s p hit raw w len s₁, prtRuns s p hit .base raw w len s₁ →
    let c := coreOf s₁ p
    let pc := c.pc.toNat
    let nx := lo64 (pc + len)
    (∀ rd i, rvDecode w = .lui rd i → exec (.rv64Instruction p hit) s = retired s s₁ p nx fun c => xPut c rd i none) ∧
    (∀ rd i, rvDecode w = .auipc rd i → exec (.rv64Instruction p hit) s = retired s s₁ p nx fun c => xPut c rd (lo64 (pc + i)) none) ∧
    (∀ rd i, rvDecode w = .jal rd i → exec (.rv64Instruction p hit) s = retired s s₁ p (lo64 (pc + i)) fun c => xPut c rd nx none) ∧
    (∀ rd r i, rvDecode w = .jalr rd r i →
      exec (.rv64Instruction p hit) s = retired s s₁ p (eaOf c r i / 2 * 2) fun c => xPut c rd nx none) ∧
    (∀ f a b i, rvDecode w = .branch f a b i → exec (.rv64Instruction p hit) s =
      .next { retire s₁ p (if rvTaken f (xGet c a) (xGet c b) then lo64 (pc + i) else nx) with pending := s.pending }) ∧
    (∀ f rd a i, rvDecode w = .opImm f rd a i → exec (.rv64Instruction p hit) s =
      retired s s₁ p nx fun d => xPut d rd (rvAlu f (f == 5 && bit i 10) (xGet c a) i) none) ∧
    (∀ f rd a i, rvDecode w = .opImm32 f rd a i → exec (.rv64Instruction p hit) s =
      retired s s₁ p nx fun d => xPut d rd (rvAlu32 f (f == 5 && bit i 10) (xGet c a) i) none) ∧
    (∀ f7 f rd a b, rvDecode w = .op f7 f rd a b → exec (.rv64Instruction p hit) s = retired s s₁ p nx fun d => xPut d rd
      (if f7 = 1 then rvMul f (xGet c a) (xGet c b) else rvAlu f (f7 == 0x20) (xGet c a) (xGet c b)) none) ∧
    (∀ f7 f rd a b, rvDecode w = .op32 f7 f rd a b → exec (.rv64Instruction p hit) s = retired s s₁ p nx fun d => xPut d rd
      (if f7 = 1 then rvMul32 f (xGet c a) (xGet c b) else rvAlu32 f (f7 == 0x20) (xGet c a) (xGet c b)) none)) ∧
  (∀ s p hit raw w len s₁, prtRuns s p hit .base raw w len s₁ → mst (coreOf s₁ p) 14 13 ≠ 0 →
    let c := coreOf s₁ p
    let nx := lo64 (c.pc.toNat + len)
    let done (d : Bool) (rd : Nat) (r : FpR) : Host.Outcome State Fault Refusal :=
      retired s s₁ p nx fun k => accrue (fPut k rd (if d then r.1 else boxW 32 r.1) none) r.2
    (∀ d rm rd a b m, rvRm c rm = some m →
      (rvDecode w = .fop 0x00 d rm rd a b → exec (.rv64Instruction p hit) s = done d rd (fpAdd (fLay d) m (fOp c d a) (fOp c d b))) ∧
      (rvDecode w = .fop 0x01 d rm rd a b → exec (.rv64Instruction p hit) s = done d rd (fpSub (fLay d) m (fOp c d a) (fOp c d b))) ∧
      (rvDecode w = .fop 0x02 d rm rd a b → exec (.rv64Instruction p hit) s = done d rd (fpMul (fLay d) m (fOp c d a) (fOp c d b))) ∧
      (rvDecode w = .fop 0x03 d rm rd a b → exec (.rv64Instruction p hit) s = done d rd (fpDiv (fLay d) m (fOp c d a) (fOp c d b))) ∧
      (rvDecode w = .fop 0x0B d rm rd a b → exec (.rv64Instruction p hit) s = done d rd (fpSqrt (fLay d) m (fOp c d a)))) ∧
    (∀ k d rm rd a b e m, rvRm c rm = some m → rvDecode w = .fma k d rm rd a b e → exec (.rv64Instruction p hit) s =
      done d rd (fpFma (fLay d) m (k == 2 || k == 3) (k == 1 || k == 3) (fOp c d a) (fOp c d b) (fOp c d e))))

/-- R249, R253, R254: a load that the checks let through writes its value; a store that they let through writes its bytes; and an access that they
turn away takes the exception that they give, with PRT_FAULT where the rule gives a cause. R251: LR holds a reservation of what it reads; SC within
the reservation stores and writes 0, SC without one stores nothing and writes 1, and both end it; an AMO writes the old value and stores the new.
Where the rules leave a point open it rests on the model's reading or choice in assumption log 21 and 27. -/
def Obligations.MemoryAndAtomicAccess : Prop :=
  (∀ s p hit raw w len s₁, prtRuns s p hit .base raw w len s₁ →
    let c := coreOf s₁ p
    let nx := lo64 (c.pc.toNat + len)
    (∀ f rd r i s₂ v po, rvDecode w = .load f rd r i → loadAt s₁ p (eaOf c r i) (rvWidth f) = .val s₂ v po →
      exec (.rv64Instruction p hit) s =
        retired s s₂ p nx fun d => xPut d rd (rvExt f v) (if po then some (eaOf c r i) else none)) ∧
    (∀ f a b i s₂, rvDecode w = .store f a b i → storeAt s₁ p (eaOf c a i) (natLe (rvWidth f) (xGet c b)) = .done s₂ →
      exec (.rv64Instruction p hit) s = .next { retire s₂ p nx with pending := s.pending }) ∧
    (∀ f rd r i tr, rvDecode w = .load f rd r i → accessTrap s₁ p (eaOf c r i) (rvWidth f) .load = some tr → tr.code ≠ 2 →
      exec (.rv64Instruction p hit) s = .next { takeTrap (noteXlat s₁ p (eaOf c r i) false) p tr with pending := s.pending })) ∧
  (∀ s p hit raw w len s₁ f5 dbl rd r1 r2 v, prtRuns s p hit .atomic raw w len s₁ → rvDecode w = .amo f5 dbl rd r1 r2 →
    let c := coreOf s₁ p
    let a := xGet c r1
    let n := if dbl then 8 else 4
    let nx := lo64 (c.pc.toNat + len)
    a % n = 0 → pmpOk c (dataMach c) a (if f5 = 2 then .load else if f5 = 3 then .store else .atomic) = true →
    mapErr s₁ p a n .atomic = none → memLoad s₁ p a n = .val v false →
    (f5 = 2 → exec (.atomicAccess p hit) s =
      retired s (updCore s₁ p fun d => { d with resv := some (a, n) }) p nx fun d => xPut d rd (sx (8 * n) v) none) ∧
    (f5 = 3 → (∃ ra m, c.resv = some (ra, m) ∧ ra ≤ a ∧ a + n ≤ ra + m) → ∀ s₂, memStore s₁ p a (natLe n (xGet c r2)) = some s₂ →
      exec (.atomicAccess p hit) s = retired s (updCore s₂ p fun d => { d with resv := none }) p nx fun d => xPut d rd 0 none) ∧
    (f5 = 3 → c.resv = none →
      exec (.atomicAccess p hit) s = retired s (updCore s₁ p fun d => { d with resv := none }) p nx fun d => xPut d rd 1 none) ∧
    (f5 ≠ 2 → f5 ≠ 3 → ∀ s₂, memStore s₁ p a (natLe n (rvAmo f5 (8 * n) v (xGet c r2))) = some s₂ →
      exec (.atomicAccess p hit) s = retired s s₂ p nx fun d => xPut d rd (sx (8 * n) v) none))

/-- R249, R250: taking an exception saves the pc and the mode and goes to the base of mtvec in machine mode: an environment call has cause 8 from
user mode and 11 from machine mode, a breakpoint 3, and an illegal instruction 2 with the instruction in mtval. R249: MRET in machine mode goes back
to mepc, in the mode of MPP, with MIE from MPIE. Where the rules leave a point open it rests on the model's reading or choice in assumption log 23
and 25. -/
def Obligations.ParticleExceptionsEnterAndReturn : Prop :=
  (∀ s p hit raw w len s₁, prtRuns s p hit .base raw w len s₁ →
    ∀ code tval, (rvDecode w = .ecall ∧ code = (if (coreOf s₁ p).mach then 11 else 8) ∧ tval = 0) ∨
      (rvDecode w = .ebreak ∧ code = 3 ∧ tval = (coreOf s₁ p).pc.toNat) ∨ (rvDecode w = .illegal ∧ code = 2 ∧ tval = raw) →
    ∃ t, exec (.rv64Instruction p hit) s = .next t ∧
      (coreOf t p).mach = true ∧ (coreOf t p).csr.mepc = (coreOf s p).pc ∧ (coreOf t p).csr.mcause = BitVec.ofNat 64 code ∧
      (coreOf t p).csr.mtval = BitVec.ofNat 64 tval ∧ (coreOf t p).pc.toNat = (coreOf s p).csr.mtvec.toNat / 4 * 4 ∧
      mst (coreOf t p) 3 3 = 0 ∧ mst (coreOf t p) 7 7 = mst (coreOf s p) 3 3 ∧
      mst (coreOf t p) 12 11 = (if (coreOf s p).mach then 3 else 0) ∧ (coreOf t p).x = (coreOf s p).x) ∧
  (∀ s p hit raw w len s₁, prtRuns s p hit .base raw w len s₁ → rvDecode w = .mret → (coreOf s p).mach = true →
    ∃ t, exec (.rv64Instruction p hit) s = .next t ∧ (coreOf t p).pc = (coreOf s p).csr.mepc ∧
      (coreOf t p).mach = (mst (coreOf s p) 12 11 == 3) ∧ mst (coreOf t p) 3 3 = mst (coreOf s p) 7 7 ∧ mst (coreOf t p) 7 7 = 1 ∧
      mst (coreOf t p) 12 11 = 0 ∧ (coreOf t p).x = (coreOf s p).x)

/-- R252, R438, R257: a CSRRS of a counter with source x0 writes its value to rd and sets INDET of the context; a write of PVXCFG that holds no
reserved value takes it, OVERLAY reading as it stands. R268, R593: a stopped Particle changes its overlay mode, its vector and mask registers and vl
becoming zero; a first mismatch has the instruction run once more, with the Particle's registers as they were. R258, R257: SETVL takes vl from rs1,
at most VLMAX of the configuration that it sets, and gives it to rd. Where the rules leave a point open it rests on the model's reading or choice in
assumption log 16, 22 and 24. -/
def Obligations.ParticleCsrsAndModes : Prop :=
  ((∀ s p hit now stages raw w len s₁ rd n v, prtRuns (reachStages (atTime s now) p stages) p hit .counter raw w len s₁ →
    rvDecode w = .csr 2 rd 0 n → csrRead s₁ p n = some v →
    ∃ t, exec (.counterCsrRead p hit now stages) s = .next t ∧ (∀ i, i < 32 → xGet (coreOf t p) i = if i = rd ∧ i ≠ 0 then v % 2 ^ 64 else xGet (coreOf s₁ p) i) ∧
      (ctxOf t (prtCid s₁ p)).indet = true ∧ (coreOf t p).pc = BitVec.ofNat 64 (lo64 ((coreOf s₁ p).pc.toNat + len))) ∧
  (∀ s p hit raw w len s₁ rd src, prtRuns s p hit .pvxcfg raw w len s₁ → rvDecode w = .csr 1 rd src 0x800 →
    pvxcfgOk (xGet (coreOf s₁ p) src) = true →
    ∃ t, exec (.pvxcfgWrite p hit) s = .next t ∧ (coreOf t p).csr.pvxcfg = BitVec.ofNat 64 (setBits (xGet (coreOf s₁ p) src) 8 8 0) ∧
      (coreOf t p).vl = (coreOf s₁ p).vl)) ∧
  ((∀ s p, p < 48 → (partOf s p).running = false → ∃ t, exec (.overlayModeChange p) s = .next t ∧ (coreOf t p).overlay = !(coreOf s p).overlay ∧
    (coreOf t p).v = [] ∧ (coreOf t p).m = [] ∧ (coreOf t p).vl = 0 ∧ ((coreOf s p).overlay = false → (coreOf t p).f = (coreOf s p).f)) ∧
  (∀ s p lp, p < 48 → (partOf s p).lp = some lp → (partOf s p).running = true → (partOf s p).retry = false →
    ∃ t, exec (.particleMismatch p) s = .next t ∧ (partOf t p).retry = true ∧ coreOf t p = coreOf s p ∧ (partOf t p).running = true)) ∧
  (∀ s p hit raw w len s₁, prtRuns s p hit (.pvx 136) raw w len s₁ → pvxOn (coreOf s₁ p) = true → bit w 24 = false → bits w 28 26 < 4 → bits w 31 29 = 0 →
    pvxClean s₁ p [] [bits w 19 15] [] →
    let c := coreOf s₁ p
    let vl := min (xGet c (bits w 19 15)) (vlmaxOf c (8 * 2 ^ bits w 21 20) (2 ^ bits w 23 22))
    ∃ t, exec (.pvxSetvl p hit) s = .next t ∧ (coreOf t p).vl = vl ∧ (bits w 11 7 ≠ 0 → xGet (coreOf t p) (bits w 11 7) = vl % 2 ^ 64) ∧
      (coreOf t p).csr.pvxcfg = BitVec.ofNat 64 (bits w 21 20 + bits w 23 22 * 4 + bits w 25 25 * 16 + bits w 28 26 * 32) ∧ (coreOf t p).v = c.v)

/-- R271, R272, R139: a store to PRT_PUSH enters the staged record in a queue that has room and writes PRT_QSEQ; on a full queue it holds the
Particle; a held push enters once a slot is free; PRT_QCTL with FLUSH empties the queue; and PRT_ABORT marks the accepted work of that queue and
sequence number. Where the rules leave a point open it rests on the model's reading or choice in assumption log 26 and 31. -/
def Obligations.IssueQueueCommands : Prop :=
  (∀ s p hit raw w len s₁ a v rd, prtRuns s p hit .push raw w len s₁ → ctlAccess (coreOf s₁ p) w = (a, v, rd) → rd < 32 →
    accessTrap s₁ p a 8 .store = none →
    let lp := (partOf s p).lp.getD 0
    let old := queueOf s₁ lp (v % 4)
    (old.recs.length < queueSize (v % 4) → ∃ t r, exec (.prtPush p hit) s = .next t ∧ r.seq = old.next ∧ r.bytes.length = 32 ∧
      queueOf t lp (v % 4) = { recs := old.recs ++ [r], next := (old.next + 1) % 2 ^ 32 } ∧
      (coreOf t p).ctl.qseq = old.next ∧ (coreOf t p).ctl.qseqQ = v % 4) ∧
    (queueSize (v % 4) ≤ old.recs.length → ∃ t, exec (.prtPush p hit) s = .next t ∧ (coreOf t p).hold = .push (v % 4) len ∧
      (coreOf t p).pc = (coreOf s p).pc ∧ t.queues = s.queues)) ∧
  (∀ s p q len lp, p < 48 → (partOf s p).lp = some lp → (coreOf s p).hold = .push q len → (queueOf s lp q).recs.length < queueSize q →
    ∃ t r, exec (.heldPushEntry p) s = .next t ∧ (coreOf t p).hold = .none ∧
      (queueOf t lp q).recs = (queueOf s lp q).recs ++ [r] ∧ r.seq = (queueOf s lp q).next) ∧
  (∀ s p hit raw w len s₁ a v rd, prtRuns s p hit .qctl raw w len s₁ → ctlAccess (coreOf s₁ p) w = (a, v, rd) → rd < 32 →
    accessTrap s₁ p a 8 .store = none → bit v 8 = true →
    let lp := (partOf s p).lp.getD 0
    ∃ t, exec (.prtQctlFlush p hit) s = .next t ∧ (queueOf t lp (v % 4)).recs = [] ∧
      t.nextProg = s.nextProg + (queueOf s lp (v % 4)).recs.length) ∧
  (∀ s p hit raw w len s₁ a v rd, prtRuns s p hit .abort raw w len s₁ → ctlAccess (coreOf s₁ p) w = (a, v, rd) → rd < 32 →
    accessTrap s₁ p a 8 .store = none →
    exec (.prtAbort p hit) s = .next { retire (requestAbort s₁ ((partOf s p).lp.getD 0) (bits v 33 32) (bits v 31 0)) p
      (lo64 ((coreOf s₁ p).pc.toNat + len)) with pending := s.pending })

/-- R273, R307: a load from PRT_WAIT holds its Particle; the hold ends with MET once the count has reached the target, or with TIMEOUT and INDET once
the limit has passed. R275, R331: PRT_TIMECMP raises TIMER once for each value written, when Tense has reached it. R274, R308: a store to CSIGNAL
with a non-zero increment signals the Conjunction with the context's key. Where the rules leave a point open it rests on the model's reading or
choice in assumption log 5, 26 and 30. -/
def Obligations.ParticleWaitsTimersAndSignals : Prop :=
  ((∀ s p hit now raw w len s₁ a v rd, prtRuns (atTime s now) p hit .wait raw w len s₁ → ctlAccess (coreOf s₁ p) w = (a, v, rd) → rd < 32 →
    accessTrap s₁ p a 8 .load = none → conjKeyOk s₁ ((coreOf s₁ p).ctl.waitset.toNat % 2 ^ 14) (ctxOf s₁ (prtCid s₁ p)).ckey = true →
    ∃ t, exec (.prtWait p hit now) s = .next t ∧ (coreOf t p).hold = .wait rd (atTime s now).tense.toNat len ∧ (coreOf t p).pc = (coreOf s p).pc) ∧
  (∀ s p rd since len, p < 48 → rd < 32 → rd ≠ 0 → (coreOf s p).hold = .wait rd since len → (coreOf s p).ctl.waitto = 0 →
    let j := (coreOf s p).ctl.waitset.toNat % 2 ^ 14
    (conjOf s j).error = false → reached (conjOf s j).count ((coreOf s p).ctl.waitset.extractLsb' 32 32) = true →
    ∃ t, exec (.prtWaitMet p) s = .next t ∧ (coreOf t p).hold = .none ∧ xGet (coreOf t p) rd = (conjOf s j).count.toNat + 2 ^ 34) ∧
  (∀ s p now rd since len, p < 48 → rd < 32 → (coreOf s p).hold = .wait rd since len → (coreOf s p).ctl.waitto ≠ 0 →
    since + (coreOf s p).ctl.waitto.toNat ≤ (atTime s now).tense.toNat →
    ∃ t, exec (.prtWaitTimeout p now) s = .next t ∧ (coreOf t p).hold = .none ∧ (ctxOf t (prtCid s p)).indet = true)) ∧
  (∀ s p now, p < 48 → (partOf s p).lp.isSome = true → (coreOf s p).ctl.armed = true →
    (coreOf s p).ctl.timecmp.toNat ≤ (atTime s now).tense.toNat →
    ∃ t, exec (.prtTimecmpMatch p now) s = .next t ∧ bit (coreOf t p).ctl.irqPend irqTIMER = true ∧ (coreOf t p).ctl.armed = false ∧
      ∀ later, ∃ u, exec (.prtTimecmpMatch p later) t = .next u ∧ u.particles = t.particles) ∧
  (∀ s p hit raw w len s₁ a v rd, prtRuns s p hit .csignal raw w len s₁ → ctlAccess (coreOf s₁ p) w = (a, v, rd) → rd < 32 →
    accessTrap s₁ p a 8 .store = none → bits v 15 0 ≠ 0 → bit v 17 = false →
    exec (.csignal p hit) s = .next { retire (conjSignal s₁ ((a - 0x1000000) / 16) (bits v 15 0) (bit v 16) (ctxOf s₁ (prtCid s₁ p)).ckey) p
      (lo64 ((coreOf s₁ p).pc.toNat + len)) with pending := s.pending })

/-! ### PVX (chapter 08) -/

/-- R261, R262, R264: an element-wise PVX instruction that is enabled and legal writes the operation of its operands to the active elements of its
group, which it reads before it writes, and retires. R259: what a write of a group does: an active element takes its result, one that the predicate
masks off becomes zero under Z and keeps its value otherwise; the elements beyond those, and every other register, keep theirs. Where the rules leave
a point open it rests on the model's reading or choice in assumption log 22 and 28. -/
def Obligations.PvxElementwiseResults : Prop :=
  (∀ s p hit raw w len s₁ func i o f, (func, i, o, f) ∈ pvxElems p hit → prtRuns s p hit (.pvx func) raw w len s₁ → pvxOn (coreOf s₁ p) = true →
    let c := coreOf s₁ p
    let v := vEnv s₁ p w len
    elemLegal o v →
    pvxClean s₁ p (vEls v.r2 (o.src * v.sew) (vActs c v) ++ (if o.uses1 && !v.scalar then vEls v.r1 v.sew (vActs c v) else []) ++
        (if o.usesD then vEls v.vd (o.dst * v.sew) (vActs c v) else []))
      (if o.uses1 && v.scalar && !o.float then [v.r1] else []) (if o.uses1 && v.scalar && o.float then [v.r1] else []) →
    exec i s = retired s s₁ p v.nx fun d => vWrite d v (o.dst * v.sew) fun e =>
      f v (vEl c v.r2 (o.src * v.sew) e) (if v.scalar then vScalar c v o.float v.sew else vEl c v.r1 v.sew e) (vEl c v.vd (o.dst * v.sew) e)) ∧
  (∀ c v sew f, 0 < sew → sew ∣ vlenOf c →
    (∀ e, e < v.n → vEl (vWrite c v sew f) v.vd sew e =
      if vAct c v e then (f e).1 % 2 ^ sew else if v.z then 0 else vEl c v.vd sew e) ∧
    (∀ e, v.n ≤ e → vEl (vWrite c v sew f) v.vd sew e = vEl c v.vd sew e) ∧
    (∀ r, r < v.vd → vReg (vWrite c v sew f) r = vReg c r) ∧ (vWrite c v sew f).x = c.x ∧ (vWrite c v sew f).m = c.m ∧ (vWrite c v sew f).vl = c.vl)

/-- R261, R264: a compare writes bit e of the mask register for each active element, zero for one masked off under Z, and leaves the other bits.
R261, R263: a reduction writes to element 0 of vd the running value over the active elements, in increasing order, from element 0 of vs1 (or the
scalar); with no element it writes nothing. Where the rules leave a point open it rests on the model's reading or choice in assumption log 22 and 28.
-/
def Obligations.PvxComparesAndReductions : Prop :=
  (∀ s p hit raw w len s₁ func i fl f, (func, i, fl, f) ∈ pvxCompares p hit → prtRuns s p hit (.pvx func) raw w len s₁ → pvxOn (coreOf s₁ p) = true →
    let c := coreOf s₁ p
    let v := vEnv s₁ p w len
    (fl = true → v.sew ≠ 8) → v.vd < 8 → v.r2 % v.lmul = 0 → (v.scalar = false → v.r1 % v.lmul = 0) →
    pvxClean s₁ p (vEls v.r2 v.sew (vActs c v) ++ (if v.scalar then [] else vEls v.r1 v.sew (vActs c v)))
      (if v.scalar && !fl then [v.r1] else []) (if v.scalar && fl then [v.r1] else []) →
    ∃ t, exec i s = .next t ∧ (coreOf t p).pc = BitVec.ofNat 64 v.nx ∧ ∀ e, e < vlenOf c → bit (mReg (coreOf t p) v.vd) e =
      if e < v.n ∧ vAct c v e then bit (f v (vEl c v.r2 v.sew e) (if v.scalar then vScalar c v fl v.sew else vEl c v.r1 v.sew e)).1 0
      else if e < v.n ∧ v.z then false else bit (mReg c v.vd) e) ∧
  (∀ s p hit raw w len s₁ func i fl f, (func, i, fl, f) ∈ pvxReductions p hit → prtRuns s p hit (.pvx func) raw w len s₁ → pvxOn (coreOf s₁ p) = true →
    let c := coreOf s₁ p
    let v := vEnv s₁ p w len
    (fl = true → v.sew ≠ 8) → v.vd % v.lmul = 0 → v.r2 % v.lmul = 0 → (v.scalar = false → v.r1 % v.lmul = 0) →
    pvxClean s₁ p (vEls v.r2 v.sew (vActs c v) ++ (if !v.scalar && v.n != 0 then vEls v.r1 v.sew [0] else []))
      (if v.scalar && !fl then [v.r1] else []) (if v.scalar && fl then [v.r1] else []) →
    let r := (vActs c v).foldl (fun (acc : FpR) e => ((f v acc.1 (vEl c v.r2 v.sew e)).1, acc.2 ||| (f v acc.1 (vEl c v.r2 v.sew e)).2))
      (if v.scalar then vScalar c v fl v.sew else vEl c v.r1 v.sew 0, 0)
    (v.n = 0 → exec i s = .next { retire s₁ p v.nx with pending := s.pending }) ∧
    (v.n ≠ 0 → exec i s = retired s s₁ p v.nx fun d => accrue (vPut d v.vd v.sew 0 r.1 none) r.2))

/-- R266: the mask operations write bits 0 to vl − 1 of md and leave the others; MSET sets them; MCOUNT and MFIRST give to rd how many of them ms1
has set, and the lowest that it has set or all ones. R266, R261: the moves: a vector group takes element by element what the row gives; MV.X and MV.F
give element 0 to a scalar register; MERGE takes vs2 where the predicate is set and vs1 elsewhere. Where the rules leave a point open it rests on the
model's reading or choice in assumption log 22 and 28. -/
def Obligations.PvxMasksAndMoves : Prop :=
  ((∀ s p hit raw w len s₁ func i two f, (func, i, two, f) ∈ pvxMasks p hit → prtRuns s p hit (.pvx func) raw w len s₁ → pvxOn (coreOf s₁ p) = true →
    let c := coreOf s₁ p
    let v := vEnv s₁ p w len
    v.z = false → v.vd < 8 → v.r1 < 8 → (two = true → v.r2 < 8) →
    ∃ t, exec i s = .next t ∧ (coreOf t p).pc = BitVec.ofNat 64 v.nx ∧ ∀ e, e < vlenOf c → bit (mReg (coreOf t p) v.vd) e =
      if e < v.n then f (bit (mReg c v.r1) e) (bit (mReg c v.r2) e) else bit (mReg c v.vd) e) ∧
  (∀ s p hit raw w len s₁, prtRuns s p hit (.pvx 0x45) raw w len s₁ → pvxOn (coreOf s₁ p) = true → bit w 25 = false → bits w 11 7 < 8 →
    ∃ t, exec (.pvxMset p hit) s = .next t ∧ ∀ e, e < vlenOf (coreOf s₁ p) → bit (mReg (coreOf t p) (bits w 11 7)) e =
      (decide (e < (vEnv s₁ p w len).n) || bit (mReg (coreOf s₁ p) (bits w 11 7)) e)) ∧
  (∀ s p hit raw w len s₁ op i, (op, i) ∈ [(0x48, Instr.pvxMcount p hit), (0x49, .pvxMfirst p hit)] → prtRuns s p hit (.pvx op) raw w len s₁ →
    pvxOn (coreOf s₁ p) = true → bit w 25 = false → bits w 19 15 < 8 →
    let l := (List.range (vEnv s₁ p w len).n).filter (bit (mReg (coreOf s₁ p) (bits w 19 15)))
    exec i s = retired s s₁ p (vEnv s₁ p w len).nx fun d => xPut d (bits w 11 7) (if op = 0x48 then l.length else l.headD (2 ^ 64 - 1)) none)) ∧
  ((∀ s p hit raw w len s₁ op i u2 xs fs els f, (op, i, u2, xs, fs, els, f) ∈ pvxMoves p hit → prtRuns s p hit (.pvx op) raw w len s₁ →
    pvxOn (coreOf s₁ p) = true →
    let c := coreOf s₁ p
    let v := vkEnv s₁ p w len
    bit w 25 = false → v.vd % v.lmul = 0 → (u2 = true → v.r2 % v.lmul = 0) → pvxClean s₁ p (els c v) (xs v) (fs v) →
    exec i s = retired s s₁ p v.nx fun d => (List.range v.n).foldl (fun d e =>
      match f c v e with | some x => vPut d v.vd v.sew e x none | none => d) d) ∧
  (∀ s p hit raw w len s₁, pvxOn (coreOf s₁ p) = true → bit w 25 = false →
    let c := coreOf s₁ p
    let v := vkEnv s₁ p w len
    v.r2 % v.lmul = 0 → pvxClean s₁ p (vEls v.r2 v.sew [0]) [] [] →
    (prtRuns s p hit (.pvx 0x50) raw w len s₁ → exec (.pvxMvX p hit) s =
      retired s s₁ p v.nx fun d => xPut d v.vd (sx v.sew (vEl c v.r2 v.sew 0)) none) ∧
    (prtRuns s p hit (.pvx 0x51) raw w len s₁ → exec (.pvxMvF p hit) s =
      retired s s₁ p v.nx fun d => fPut d v.vd (boxW v.sew (vEl c v.r2 v.sew 0)) none)) ∧
  (∀ s p hit raw w len s₁, prtRuns s p hit (.pvx 0xF) raw w len s₁ → pvxOn (coreOf s₁ p) = true →
    let c := coreOf s₁ p
    let v := vEnv s₁ p w len
    v.pred ≠ 0 → v.vd % v.lmul = 0 → v.r2 % v.lmul = 0 → (v.scalar = false → v.r1 % v.lmul = 0) →
    pvxClean s₁ p (vEls v.r2 v.sew ((List.range v.n).filter (vAct c v)) ++
      (if v.scalar then [] else vEls v.r1 v.sew ((List.range v.n).filter fun e => !vAct c v e))) (if v.scalar then [v.r1] else []) [] →
    exec (.pvxMerge p hit) s = retired s s₁ p v.nx fun d => vWrite d { v with pred := 0 } v.sew fun e =>
      (if vAct c v e then vEl c v.r2 v.sew e else if v.scalar then vScalar c v false v.sew else vEl c v.r1 v.sew e, 0)))

/-- R265: a PVX load whose active elements all pass their checks loads them in increasing order; a store whose elements all pass stores them in
increasing order; and where the first active element of a store fails outside device virtual space, its exception is taken with nothing stored. Loads
are stated of local memory. Where the rules leave a point open it rests on the model's reading or choice in assumption log 22, 27 and 28. -/
def Obligations.PvxMemoryResults : Prop :=
  (∀ s p hit raw w len s₁ kind i, (kind, i) ∈ [(0, Instr.pvxLoad p hit), (1, .pvxStridedLoad p hit), (2, .pvxIndexedLoad p hit)] →
    prtRuns s p hit (.pvx (128 + kind)) raw w len s₁ → pvxOn (coreOf s₁ p) = true →
    let c := coreOf s₁ p
    let v := vmEnv s₁ p w len
    vmBad v kind false = false → pvxClean s₁ p (vmUses c v kind false) (if kind = 1 then [v.r1, v.r2] else [v.r1]) [] →
    (∀ e, e ∈ vActs c v → vmTrap s₁ v (vmAddr c v kind e) .load = none ∧ regionOf (vmAddr c v kind e) = .local_ ∧
      memPoison c.lmem (vmAddr c v kind e) (v.sew / 8) = false) →
    ∃ t, exec i s = .next t ∧ (coreOf t p).pc = BitVec.ofNat 64 v.nx ∧ (coreOf t p).x = c.x ∧ t.spm = s.spm ∧ t.hbm = s.hbm ∧
      ∀ e, e < v.n → vEl (coreOf t p) v.vd v.sew e =
        if vAct c v e then leNat (memBytes c.lmem (vmAddr c v kind e) (v.sew / 8)) else if v.z then 0 else vEl c v.vd v.sew e) ∧
  (∀ s p hit raw w len s₁ kind i, (kind, i) ∈ [(0, Instr.pvxStore p hit), (1, .pvxStridedStore p hit), (2, .pvxIndexedStore p hit)] →
    prtRuns s p hit (.pvx (132 + kind)) raw w len s₁ → pvxOn (coreOf s₁ p) = true →
    let c := coreOf s₁ p
    let v := vmEnv s₁ p w len
    vmBad v kind true = false → pvxClean s₁ p (vmUses c v kind true) (if kind = 1 then [v.r1, v.r2] else [v.r1]) [] →
    (∀ e, e ∈ vActs c v → vmTrap s₁ v (vmAddr c v kind e) .store = none) →
    (∀ e, e ∈ vActs c v → (memStore s₁ p (vmAddr c v kind e) (natLe (v.sew / 8) (vEl c v.vd v.sew e))).isSome = true) →
    exec i s = .next { retire ((vActs c v).foldl (fun s e =>
      (memStore s p (vmAddr c v kind e) (natLe (v.sew / 8) (vEl c v.vd v.sew e))).getD s) s₁) p v.nx with pending := s.pending }) ∧
  (∀ s p hit raw w len s₁ e es tr, prtRuns s p hit (.pvx 132) raw w len s₁ → pvxOn (coreOf s₁ p) = true →
    let c := coreOf s₁ p
    let v := vmEnv s₁ p w len
    vmBad v 0 true = false → pvxClean s₁ p (vmUses c v 0 true) [v.r1] [] → vActs c v = e :: es → vmTrap s₁ v (vmAddr c v 0 e) .store = some tr →
    regionOf (vmAddr c v 0 e) ≠ .dvs → ∃ t, exec (.pvxStore p hit) s = .next t ∧ t.spm = s.spm ∧ t.hbm = s.hbm ∧ (coreOf t p).csr.mcause = BitVec.ofNat 64 tr.code ∧
      (coreOf t p).lmem = (coreOf s p).lmem)

/-! ### The Inflector (chapter 06) -/

/-- R178, R179, R174: a micro-operation writes its result to DST in every active lane and no other register, and goes on to the next one; neither
memory nor any Conjunction changes. R179: UNPACK and PACK of a field inside the register give their result as the other micro-operations do; a field
that runs past bit 63 in an active lane refuses the program with FORMAT at the micro-operation. -/
def Obligations.InflectorLaneResults : Prop :=
  (∀ s inf op i f e, inf < 24 → (op, i, f) ∈ infOps inf → infEnv s inf op = some e → e.pos + 1 < e.run.ucount →
    e.run.lanes.length = 32 → (∀ l ∈ e.run.lanes, l.length = 16) →
    ∃ t r, exec i s = .next t ∧ mapFind t.infRuns e.id = some r ∧ r.upos = some (e.pos + 1) ∧ r.group = e.run.group ∧
      (∀ l k, l < 32 → k < 16 → laneReg { e with run := r } l k =
        if k = uDST e.word then (if laneOn e l then (f e l).1 else {}) else laneReg e l k) ∧
      t = { s with infRuns := t.infRuns, regs := t.regs }) ∧
  ((∀ s inf op i f e, inf < 24 → (op, i, f) ∈ infFields inf → infEnv s inf op = some e → e.pos + 1 < e.run.ucount →
    e.run.lanes.length = 32 → (∀ l ∈ e.run.lanes, l.length = 16) →
    (∀ l, l < 32 → laneOn e l = true → (rB e l).v % 64 + uAUX e.word ≤ 64) →
    ∃ t r, exec i s = .next t ∧ mapFind t.infRuns e.id = some r ∧ r.upos = some (e.pos + 1) ∧
      (∀ l k, l < 32 → k < 16 → laneReg { e with run := r } l k =
        if k = uDST e.word then (if laneOn e l then (f e l ((rB e l).v % 64) (uAUX e.word)).1 else {}) else laneReg e l k) ∧
      t = { s with infRuns := t.infRuns, regs := t.regs }) ∧
  (∀ s inf op i f e l, inf < 24 → (op, i, f) ∈ infFields inf → infEnv s inf op = some e → l < 32 → laneOn e l = true →
    64 < (rB e l).v % 64 + uAUX e.word →
    ∃ t p, exec i s = .next t ∧ progOf t e.id = some p ∧ p.ended = some ⟨stFORMAT, e.pos, 0⟩ ∧ mapFind t.infUnits inf = none ∧
      t.spm = s.spm ∧ t.hbm = s.hbm))

/-- R178, R182, R186: NOP goes on; a summary operation changes its cell by the offers of the active lanes that hold no poison; RED presents the
active lanes, in increasing order, to its channel; and ST and STI of an element program write what R181 gives and go on. R173, R174, R197, R201: a
lane group of a program that runs on an Inflector enters with its registers at +0; the last micro-operation of the last group ends the program with
OK, or POISONED where POISON_SEEN is set, and frees the Inflector. Where the rules leave a point open it rests on the model's reading or choice in
assumption log 34. -/
def Obligations.InflectorOtherResults : Prop :=
  ((∀ s inf e, inf < 24 → infEnv s inf 0x00 = some e → e.pos + 1 < e.run.ucount →
    ∃ t r, exec (.infNop inf) s = .next t ∧ mapFind t.infRuns e.id = some r ∧ r = { e.run with upos := some (e.pos + 1) } ∧ t.spm = s.spm) ∧
  (∀ s inf op i e, inf < 24 → (op, i) ∈ [(0x39, Instr.infSmax inf), (0x3A, .infSmin inf), (0x3B, .infScnt inf), (0x3C, .infSor inf)] →
    infEnv s inf op = some e → e.pos + 1 < e.run.ucount →
    ∃ t r, exec i s = .next t ∧ mapFind t.infRuns e.id = some r ∧ r.upos = some (e.pos + 1) ∧ r.lanes = e.run.lanes ∧ t.spm = s.spm ∧
      r.cells = e.run.cells.set (uAUX e.word % 8) ((((List.range 32).filter (laneOn e)).map (rA e)).foldl
        (fun c a => if a.poison then c else cellOffer e op c a) (e.run.cells.getD (uAUX e.word % 8) 0))) ∧
  (∀ s inf e c, inf < 24 → infEnv s inf 0x38 = some e → e.run.chans[uAUX e.word % 2]? = some c →
    exec (.infRed inf) s = .next { infNext ((List.range 32).foldl (fun s l =>
      if laneOn e l then redLane s inf e (uAUX e.word % 2) c l else s) s) inf e with pending := s.pending }) ∧
  (∀ s inf e x, inf < 24 → infEnv s inf 0x03 = some e → e.run.kernel = false → e.run.outs[uAUX e.word % 2]? = some x →
    (∀ l, l < 32 → laneOn e l = true → expOk (streamExp s e.cid x (mapPos x (laneIx e l))) = true) →
    let vs := (List.range 32).map fun l => if laneOn e l then
      (({ x := fVal e (rA e l), tan := (List.range e.run.tang).map (fTan e (rA e l)), poison := (rA e l).poison } : StVal), rdFlags e [rA e l])
      else ({ x := numZero }, 0)
    exec (.infSt inf) s = .next { infNext ((if tdScaled x.d then storeBlock else storePlain)
      (infFlags s inf e.id (vs.foldl (fun a v => a ||| v.2) 0)) inf e (uAUX e.word % 2) x (vs.map (·.1))) inf e with pending := s.pending }) ∧
  (∀ s inf e x, inf < 24 → infEnv s inf 0x04 = some e → e.run.kernel = false → e.run.outs[uAUX e.word % 2]? = some x →
    (∀ l, l < 32 → laneOn e l = true → expOk (streamExp s e.cid x (mapPos x (laneIx e l))) = true) →
    let vs := (List.range 32).map fun l => if laneOn e l then
      ({ x := numInt (sext 64 (rA e l).v), raw := if x.raw then some (rA e l).v else none, poison := (rA e l).poison } : StVal)
      else { x := numZero }
    exec (.infSti inf) s = .next { infNext ((if tdScaled x.d then storeBlock else storePlain) (infFlags s inf e.id 0) inf e
      (uAUX e.word % 2) x vs) inf e with pending := s.pending })) ∧
  ((∀ s prog p r u, progOf s prog = some p → mapFind s.infRuns prog = some r → p.unit = some u → p.ended = none → r.upos = none →
    ctxRunning s p.cid = true → p.abort = false → (runOf s p.cid).st = .running → r.kernel = false →
    (∀ x l, x ∈ r.ins → l < 32 → 32 * r.group + l < r.length → expOk (streamExp s p.cid x (mapPos x (32 * r.group + l))) = true) →
    ∃ t q, exec (.infGroup prog false) s = .next t ∧ mapFind t.infRuns prog = some q ∧ q.upos = some 0 ∧ q.group = r.group ∧
      q.lanes = List.replicate 32 (List.replicate 16 { tan := List.replicate r.tang 0 })) ∧
  (∀ s inf e p, inf < 24 → infEnv s inf 0x00 = some e → e.run.ucount ≤ e.pos + 1 → e.run.length ≤ 32 * (e.run.group + 1) →
    progOf s e.id = some p → ∃ t q, exec (.infNop inf) s = .next t ∧ progOf t e.id = some q ∧
      q.ended = some ⟨if bit e.run.flags 6 then stPOISONED else stOK, e.run.ucount, 0⟩ ∧ mapFind t.infUnits inf = none))

/-! ### Solves and assemblies (chapter 07) -/

/-- R222, R224, R212: a Krylov solve that is on a Parser starts with its right-hand side read and, with no preconditioner, goes on; a matrix that
breaks R210 ends it with MATRIX; a dense solve runs to its end, OK (or POISONED) exactly where every block could be factored, else BREAKDOWN, and
frees its Parser. R222, R223, R226, R227: an outer boundary with no inner solve in progress is checked, and with one that has converged its
correction is applied first; an inner iteration counts itself and keeps its method's state where it meets no range, breakdown or limit; and the match
of DEADLINE is noted. Where the rules leave a point open it rests on the model's reading or choice in assumption log 36 and 38. -/
def Obligations.SolvesStartAndIterate : Prop :=
  ((∀ s id method i v p sl, (method, i) ∈ [(0, Instr.solveCg id), (1, .solveBicgstab id), (2, .solveGmres id)] → solveOf s id = some v →
    svMethod v.desc = method → v.started = false → progOf s id = some p → p.unit = some sl →
    let s₁ := setSolve s id { v with started := true }
    ((matPat s₁ p.cid sl v.desc).2.1 = true → svPre v.desc = 0 → ∃ t w, exec i s = .next t ∧ solveOf t id = some w ∧ w.started = true ∧
      progOf t id = some p ∧ w.inner = v.inner ∧ w.outer = v.outer ∧ w.bnorm = norm2 w.rhs) ∧
    ((matPat s₁ p.cid sl v.desc).2.1 = false → ∃ t q, exec i s = .next t ∧ progOf t id = some q ∧ q.ended = some ⟨stMATRIX, 0, 0⟩ ∧
      mapFind t.parsers sl = none)) ∧
  (∀ s id method i v p sl, (method, i) ∈ [(3, Instr.solveLu id), (4, .solveCholesky id), (5, .solveQr id)] → solveOf s id = some v →
    svMethod v.desc = method → v.started = false → progOf s id = some p → p.unit = some sl →
    ∃ t w q e, exec i s = .next t ∧ solveOf t id = some w ∧ w.started = true ∧ progOf t id = some q ∧ q.ended = some e ∧
      mapFind t.parsers sl = none ∧ (w.blockFail = 0 → e.status = stOK ∨ e.status = stPOISONED) ∧ (w.blockFail ≠ 0 → e.status = stBREAKDOWN))) ∧
  ((∀ s id e, solveEnv s id = some e → e.v.kry = none →
    exec (.outerIteration id) s = .next { outerCheck s e e.v with pending := s.pending }) ∧
  (∀ s id e k, solveEnv s id = some e → e.v.kry = some k → k.done = true →
    exec (.outerIteration id) s = .next { outerCheck (outerApply s e e.v k).1 e (outerApply s e e.v k).2 with pending := s.pending } ∧
    (outerApply s e e.v k).2.outer = e.v.outer + 1) ∧
  (∀ s id e k, solveEnv s id = some e → e.v.kry = some k → k.done = false →
    let m := solveInM e e.v
    let mat := readMat s e.p.cid e.sl e.flush e.v.desc 0
    let s₁ := prsSet s e.sl ((if mat.flushed then 1 else 0) + (if mat.poison then 8 else 0))
    let a := (innerVals s₁ e.p.cid e.sl e.v.desc m { obs := e.v.obs } mat.vals).1
    let vals := (innerVals s₁ e.p.cid e.sl e.v.desc m { obs := e.v.obs } mat.vals).2
    let r := match svMethod e.v.desc with
      | 0 => cgStep e.v m a mat.pat vals k
      | 1 => bicgStep e.v m a mat.pat vals k
      | _ => gmresStep e.v m a mat.pat vals k
    r.a.bad = none → r.brk = none → (r.k.done = true ∨ e.v.inner + 1 < svBudget e.v.desc ∧ e.v.late = false) →
    ∃ t w, exec (.innerIteration id false) s = .next t ∧ solveOf t id = some w ∧ w.inner = e.v.inner + 1 ∧ w.kry = some r.k ∧ t.spm = s.spm ∧
      progOf t id = progOf s id) ∧
  (∀ s id now v, solveOf s id = some v → svDeadV v.desc = true → sv64 v.desc 0xA8 ≤ (atTime s now).tense.toNat →
    ∃ t, exec (.solveDeadlineMatch id now) s = .next t ∧ solveOf t id = some { v with late := true }))

/-- R240 to R246: an assembly that is on a Lexer and has not started runs by its mode; a colour of an ELEMENTS assembly whose contributions can be
staged and added completes, and the last one ends it. R246: an assembly ends with its result record, OK turning into POISONED where it met poison,
and frees its Lexer. Where the rules leave a point open it rests on the model's reading or choice in assumption log 38. -/
def Obligations.AssembliesRunAndEnd : Prop :=
  ((∀ s id p v sl, progOf s id = some p → asmOf s id = some v → p.unit = some sl → p.kind = .assembly → p.ended = none → v.started = false →
    ctxRunning s p.cid = true →
    let e : LEnv := { id := id, p := p, v := v, sl := sl, flush := bit (ctxOf s p.cid).emode 2 }
    (lxMode v.desc = 0 → exec (.assembleStencil id) s = .next { stencilRun s e with pending := s.pending }) ∧
    (lxMode v.desc = 1 → exec (.assembleElements id) s = .next { elementsRun s e with pending := s.pending }) ∧
    (lxMode v.desc = 2 → exec (.assembleMeasure id) s = .next { measureRun s e with pending := s.pending }) ∧
    (lxMode v.desc = 3 → exec (.assembleAdj id) s = .next { adjRun s e with pending := s.pending })) ∧
  (∀ s id e l s₁ v₁, asmEnv s id 1 false = some e →
    let cs := (arNats s e.p.cid e.sl (lx64 e.v.desc 0x60) 4 (lxNcol e.v.desc + 1)).1
    stageColour s e (e.v.contribs.filter fun c => decide (cs.getD e.v.done 0 ≤ c.elem) && decide (c.elem < cs.getD (e.v.done + 1) 0)) = .ok l →
    scatterColour s e e.v (e.v.done == 0 && !lxAccum e.v.desc) l = .ok (s₁, v₁) →
    (v₁.done + 1 < lxNcol e.v.desc → ∃ t, exec (.colourBoundary id) s = .next t ∧ asmOf t id = some { v₁ with done := v₁.done + 1 }) ∧
    (lxNcol e.v.desc ≤ v₁.done + 1 →
      exec (.colourBoundary id) s = .next { asmEnd s₁ e { v₁ with done := v₁.done + 1 } stOK with pending := s.pending }))) ∧
  (∀ s e v status p, progOf s e.id = some p →
    ∃ q, progOf (asmEnd s e v status) e.id = some q ∧ q.ended = some ⟨if status = stOK ∧ v.poison then stPOISONED else status, 0, 0⟩ ∧
      mapFind (asmEnd s e v status).lexers e.sl = none ∧ asmOf (asmEnd s e v status) e.id = some { v with contribs := [] })

/-! ### Contexts in time (chapter 09) -/

/-- R297, R298 (sequences 1 and 2): the end of a quantum with another context of no lower priority runnable, and an idle running context with any
other runnable, decide a switch away at T0; 20 µs later the context's records are no longer accepted. R298 to R301: a context whose units stand at
their boundaries is saved, and then has no physical page; the next context is restored and runs, its records accepted, unless its SAVE_CORE image
does not read back as written, which ends it. Where the rules leave a point open it rests on the model's reading or choice in assumption log 41 to
43. -/
def Obligations.ContextsSwitchSaveAndRestore : Prop :=
  ((∀ s k now c z, k < 12 → z = atTime s now → runningOf z k = some c → (runOf z c).out = false → (runOf z c).st = .running →
    ((runOf z c).runFrom + 100000 * (ctxOf z c).quantum ≤ z.tense.toNat →
      (∃ d, d ∈ runnable z k ∧ d ≠ c ∧ (ctxOf z c).priority ≤ (ctxOf z d).priority) →
      ∃ t, exec (.quantumExpiry k now) s = .next t ∧ (runOf t c).out = true ∧ (runOf t c).t0 = z.tense.toNat ∧ (runOf t c).st = .running ∧
        t.spm = s.spm ∧ t.hbm = s.hbm ∧ t.conj = s.conj) ∧
    ((∀ p, p ∈ ctxParticles z c → prtIdle z p = true) → noWork z c = true → (∃ d, d ∈ runnable z k ∧ d ≠ c) →
      ∃ t, exec (.contextIdleSwitch k now) s = .next t ∧ (runOf t c).out = true ∧ (runOf t c).t0 = z.tense.toNat ∧
        (runOf t c).st = .running ∧ t.spm = s.spm ∧ t.hbm = s.hbm ∧ t.conj = s.conj)) ∧
  (∀ s k now c z, k < 12 → z = atTime s now → runningOf z k = some c → (runOf z c).out = true → (runOf z c).st = .running →
    (runOf z c).t0 + 20000 ≤ z.tense.toNat →
    ∃ t, exec (.acceptanceStop k now) s = .next t ∧ (runOf t c).accepting = false ∧ (runOf t c).st = .stopping ∧ t.ctxs = s.ctxs ∧ t.spm = s.spm)) ∧
  ((∀ s k now c z, k < 12 → z = atTime s now → runningOf z k = some c → (runOf z c).st = .stopping → atBoundary z c = true →
    ∃ t, exec (.contextSave k now) s = .next t ∧ (runOf t c).st = .ready ∧ (runOf t c).out = false ∧
      (runOf t c).switches = satAdd 32 (runOf z c).switches 1 ∧ ∀ pg, (pageOf t c pg).phys = none) ∧
  (∀ s k now c z, k < 12 → z = atTime s now → runningOf z k = none → partActive z k = true → pwrState z = 0 → nextCtx z k = some c →
    (coreIntact z c = true → ∃ t, exec (.contextRestore k now) s = .next t ∧ (runOf t c).st = .running ∧ (runOf t c).accepting = true ∧
      (runOf t c).begun = true) ∧
    (coreIntact z c = false → ∃ t, exec (.contextRestore k now) s = .next t ∧ (ctxOf t c).live = false)))

/-- R288, R296: the switch of a page's map entry puts the page at its new place bit for bit, poison included, and changes no other byte of
scratchpad; an epoch's end starts moves and moves no byte. Where the rules leave a point open it rests on the model's reading or choice in assumption
log 44. -/
def Obligations.PageMovesBitForBit : Prop :=
  (∀ s cid page m sl q, (s.pmoves.find? fun m => m.cid == cid && m.page == page) = some m → (pageOf s cid page).phys = some (sl, q) →
    ∃ t, exec (.mapSwitch cid page) s = .next t ∧ (pageOf t cid page).phys = some (m.sl, m.q) ∧
      (∀ o, o < pageBytes → memByte t.spm (spmIx m.sl m.q o) = memByte s.spm (spmIx sl q o) ∧
        memPoison t.spm (spmIx m.sl m.q o) 1 = memPoison s.spm (spmIx sl q o) 1) ∧
      (∀ a, a < spmIx m.sl m.q 0 ∨ spmIx m.sl m.q 0 + pageBytes ≤ a → memByte t.spm a = memByte s.spm a) ∧ t.hbm = s.hbm) ∧
  (∀ s k now reads z, k < 12 → z = atTime s now → mapGet 0 z.epochs k < z.tense.toNat / 100000 →
    ∃ t, exec (.placementEpochEnd k now reads) s = .next t ∧ mapGet 0 t.epochs k = z.tense.toNat / 100000 ∧ t.spm = s.spm ∧ t.ctxs = s.ctxs)

/-! ### Conjunctions and Tense (chapter 10) -/

/-- R309, R311 to R313, R315, R532: what the CONJ_SIGNAL descriptor's operations do to the Conjunction `j` that they name, and how they end; no other
Conjunction changes. A Conjunction that no context of the partition holds ends any of them with CONJ_RANGE. R312, R331: an arm matches on a clock on
which Tense has reached its value, and not before; the match's signal advances the Conjunction by the arm's increment, leaves ERROR, and frees the
comparator. Where the rules leave a point open it rests on the model's reading or choice in assumption log 5. -/
def Obligations.ConjunctionOperations : Prop :=
  ((∀ s d op i x, (op, i) ∈ [(0, Instr.conjSignal d), (1, .conjReset d), (2, .conjArm d), (3, .conjDisarm d), (4, .conjRead d)] →
    descReady s d dtCONJ op = some x → ctxByConj s x.part (dNat x 0x10 2 % 2 ^ 14) = none →
    ∃ t, exec i s = .next t ∧ endsAs t d stCONJ_RANGE 0 0 ∧ t.conj = s.conj) ∧
  (∀ s d x j, descReady s d dtCONJ 0 = some x → j = dNat x 0x10 2 % 2 ^ 14 → (ctxByConj s x.part j).isSome = true → (conjOf s j).key ≠ 0#16 →
    (bit (dNat x 0x12 1) 1 = false → ∃ t, exec (.conjSignal d) s = .next t ∧ endsAs t d stOK 0 0 ∧
      conjOf t j = { conjOf s j with count := (conjOf s j).count + BitVec.ofNat 32 (dNat x 0x14 2),
                                     error := (conjOf s j).error || bit (dNat x 0x12 1) 0 } ∧
      (∀ l, l ≠ j → conjOf t l = conjOf s l)) ∧
    (bit (dNat x 0x12 1) 1 = true → ∃ t, exec (.conjSignal d) s = .next t ∧ t.conj = s.conj ∧
      (routeOk s x.part (dNat x 0x16 2) = true → endsAs t d stOK 0 0 ∧
        t.outSigs = s.outSigs ++ [⟨x.part, dNat x 0x16 2, j, dNat x 0x14 2, bit (dNat x 0x12 1) 0, (conjOf s j).key⟩]) ∧
      (routeOk s x.part (dNat x 0x16 2) = false → endsAs t d stCONJ_KEY 0 0 ∧ t.outSigs = s.outSigs))) ∧
  (∀ s d x j, descReady s d dtCONJ 1 = some x → j = dNat x 0x10 2 % 2 ^ 14 → (ctxByConj s x.part j).isSome = true →
    ∃ t, exec (.conjReset d) s = .next t ∧ endsAs t d stOK 0 0 ∧
      conjOf t j = { conjOf s j with count := BitVec.ofNat 32 (dNat x 0x18 4), error := false } ∧ ∀ l, l ≠ j → conjOf t l = conjOf s l) ∧
  (∀ s d x j, descReady s d dtCONJ 2 = some x → j = dNat x 0x10 2 % 2 ^ 14 → (ctxByConj s x.part j).isSome = true →
    ((conjOf s j).arm.isSome = true → ∃ t, exec (.conjArm d) s = .next t ∧ endsAs t d stARM_BUSY 0 0 ∧ t.conj = s.conj) ∧
    ((conjOf s j).arm = none → freeArm s (j / 1024) = none → ∃ t, exec (.conjArm d) s = .next t ∧ endsAs t d stARM_FULL 0 0 ∧ t.conj = s.conj) ∧
    (∀ lc, (conjOf s j).arm = none → freeArm s (j / 1024) = some lc → ∃ t, exec (.conjArm d) s = .next t ∧ endsAs t d stOK 0 0 ∧ lc < 56 ∧
      conjOf t j = { conjOf s j with arm := some { lc := lc, time := dNat x 0x20 8, inc := dNat x 0x14 2 } } ∧
      ∀ l, l ≠ j → conjOf t l = conjOf s l)) ∧
  (∀ s d x j, descReady s d dtCONJ 3 = some x → j = dNat x 0x10 2 % 2 ^ 14 → (ctxByConj s x.part j).isSome = true →
    ((conjOf s j).arm = none → ∃ t, exec (.conjDisarm d) s = .next t ∧ endsAs t d stOK 0 0 ∧ t.conj = s.conj) ∧
    (∀ a, (conjOf s j).arm = some a → a.fired = true → ∃ t, exec (.conjDisarm d) s = .next t ∧ endsAs t d stOK 2 0 ∧ t.conj = s.conj) ∧
    (∀ a, (conjOf s j).arm = some a → a.fired = false → ∃ t, exec (.conjDisarm d) s = .next t ∧ endsAs t d stOK 1 0 ∧
      conjOf t j = { conjOf s j with arm := none })) ∧
  (∀ s d x j, descReady s d dtCONJ 4 = some x → j = dNat x 0x10 2 % 2 ^ 14 → (ctxByConj s x.part j).isSome = true →
    ∃ t, exec (.conjRead d) s = .next t ∧ endsAs t d stOK 0 (creadWord (conjOf s j)) ∧ t.conj = s.conj)) ∧
  ((∀ s j now a z, z = atTime s now → (conjOf z j).arm = some a → a.time ≤ z.tense.toNat →
    (∃ t, exec (.comparatorMatch j now false) s = .next t ∧ conjOf t j = { conjOf s j with arm := some { a with fired := true } }) ∧
    (∃ t, exec (.comparatorMatch j now true) s = .next t ∧
      conjOf t j = { conjOf s j with count := (conjOf s j).count + BitVec.ofNat 32 a.inc, arm := none } ∧
      ∀ l, l ≠ j → conjOf t l = conjOf s l)) ∧
  (∀ s j now apply a z, z = atTime s now → (conjOf z j).arm = some a → a.fired = false → z.tense.toNat < a.time →
    ∃ t, exec (.comparatorMatch j now apply) s = .next t ∧ t.conj = s.conj))

/-- R324, R328, R329, R659: an edge of the selected direction less than 0.999 s after the last one stamped is ignored; any other is stamped in
TNS_PPS_STAMP, with PPS_PRESENT set; one within 1.001 s is measured against the nearest second under SOURCE 01b. A missing measurement is counted,
and the eighth in a row ends LOCKED and begins HOLDOVER. 1.001 s without an edge clears PPS_PRESENT. R395, R396: with SOURCE 10b or 11b a request
leaves through the port toward the parent at most every 125 µs; a request that arrives is answered with this device's master, HOPS and state; and the
response to the outstanding request is measured as ((T2 − T1) − (T4 − T3)) / 2. Where the rules leave a point open it rests on the model's reading or
choice in assumption log 47 and 48. -/
def Obligations.TenseIsDisciplined : Prop :=
  ((∀ s fall now sub z, z = atTime s now → devReady s = true → fall = (fld s aTNS_CTL 2 2 == 1) →
    (z.servo.edge = true → z.tense.toNat - regGet z aTNS_PPS_STAMP < 999000000 →
      exec (.ppsEdge fall now sub) s = .next { z with pending := s.pending }) ∧
    (z.servo.edge = false ∨ 999000000 ≤ z.tense.toNat - regGet z aTNS_PPS_STAMP →
      ∃ t, exec (.ppsEdge fall now sub) s = .next t ∧ regGet t aTNS_PPS_STAMP = z.tense.toNat ∧ fld t aTNS_STATUS 1 1 = 1 ∧
        t.servo.edge = true ∧
        (tnsSource z = 1 → z.servo.edge = true → z.tense.toNat - regGet z aTNS_PPS_STAMP ≤ 1001000000 →
          let x : Int := 8 * z.tense.toNat + sub % 8
          fld t aTNS_OFFSET 31 0 = offField ((x + 4000000000) / 8000000000 * 8000000000 - x) ∧ t.servo.miss = 0))) ∧
  (∀ s now z, z = atTime s now → tnsSource z ≠ 0 → z.servo.due < z.tense.toNat →
    ∃ t, exec (.missingMeasurement now) s = .next t ∧ t.servo.miss = min 8 (s.servo.miss + 1) ∧ t.servo.good = 0 ∧ t.servo.t1 = none ∧
      (7 ≤ s.servo.miss → fld t aTNS_STATUS 0 0 = 0 ∧ fld t aTNS_STATUS 2 2 = 1)) ∧
  (∀ s now z, z = atTime s now → fld z aTNS_STATUS 1 1 = 1 → regGet z aTNS_PPS_STAMP + 1001000000 < z.tense.toNat →
    ∃ t, exec (.ppsAbsence now) s = .next t ∧ fld t aTNS_STATUS 1 1 = 0 ∧ (tnsSource z = 1 → fld t aTNS_STATUS 6 6 = 1))) ∧
  ((∀ s now sub z p, z = atTime s now → parentPort z = some p → 2 ≤ tnsSource z → portUp z p = true →
    (∀ t, z.servo.sent = some t → t + 125000 ≤ z.tense.toNat) →
    ∃ t, exec (.tsyncRequestSend now sub) s = .next t ∧ t.servo.sent = some z.tense.toNat ∧
      t.servo.t1 = some ((8 * z.tense.toNat + sub % 8) % 2 ^ 64) ∧
      t.wire = s.wire ++ [(p, .beats (tsyncBeat 0 z.servo.master 0 0 ((8 * z.tense.toNat + sub % 8) % 2 ^ 64) 0 0))]) ∧
  (∀ s p bytes t2 t3, p < 14 → beatGood s p ptTSYNC bytes → leNat ((bytes.drop 1).take 1) = 0 →
    ∃ t, exec (.tsyncRequest p false bytes t2 t3) s = .next t ∧ t.wire = s.wire ++ [(p, .beats (tsyncBeat 1
      (if fld s aTNS_CTL 3 3 = 1 then ownDev s else s.servo.master) (tnsHops s)
      ((if tnsLocked s then 1 else 0) + if tnsHoldover s then 2 else 0) (leNat ((bytes.drop 8).take 8)) (t2 % 2 ^ 64) (t3 % 2 ^ 64)))]) ∧
  (∀ s p bytes t4 now z, p < 14 → z = atTime s now → beatGood z p ptTSYNC bytes → leNat ((bytes.drop 1).take 1) = 1 → 2 ≤ tnsSource z →
    parentPort z = some p → z.servo.t1 = some (leNat ((bytes.drop 8).take 8)) →
    let at_ (o n : Nat) : Nat := leNat ((bytes.drop o).take n)
    ∃ t, exec (.tsyncResponse p false bytes t4 now) s = .next t ∧ t.servo.t1 = none ∧ t.servo.master = at_ 2 2 ∧
      fld t aTNS_OFFSET 47 32 = (if tnsSource z = 2 then at_ 4 1 + 1 else 0) ∧
      fld t aTNS_OFFSET 31 0 = offField ((((at_ 16 8 : Int) - at_ 8 8) - (((t4 % 2 ^ 64 : Nat) : Int) - at_ 24 8)) / 2)))

/-! ### Launch, wait and fence (chapters 09 and 17) -/

/-- R283 to R285, R355, R526: a CREATE whose descriptor has been read and passes R284's checks makes a context of it, with its Conjunctions in their
reset state under its key; a check that fails, an inactive partition or an offline stack refuses it. PROGRAM becomes work of its context; END ends
the context. Where the rules leave a point open it rests on the model's reading or choice in assumption log 46. -/
def Obligations.LaunchDescriptors : Prop :=
  (∀ s d now z x b s₁, z = atTime s now → descLive z d dtLAUNCH 0 = some x → partActive z x.part = true →
    ((partSlices z x.part).any fun sl => !stackOnline z sl) = false → arSpad (dNat x 0x10 8) = false → dNat x 0x10 8 % 64 = 0 →
    auxBytes x = b → b.length = 128 → bNat b 0x34 2 = 0 → s₁ = updDesc z d (fun y => { y with st := .running }) →
    (∀ st, cdCheck s₁ x.part b [] = some st → ∃ t, exec (.launchCreate d now) s = .next t ∧ endsAs t d st 0 0 ∧ t.ctxs = s.ctxs ∧ t.conj = s.conj) ∧
    (cdCheck s₁ x.part b [] = none → ∃ t c, exec (.launchCreate d now) s = .next t ∧ endsAs t d stOK 0 (bNat b 4 2) ∧ c / 8 = x.part ∧
      (ctxOf s c).live = false ∧ ctxOf t c = ctxFrom b [] ∧ (ctxOf t c).live = true ∧
      ∀ j, (ctxFrom b []).conjBase ≤ j → j < (ctxFrom b []).conjBase + (ctxFrom b []).conjCount → conjOf t j = { key := (ctxFrom b []).ckey })) ∧
  (∀ s d now z x, z = atTime s now → descLive z d dtLAUNCH 0 = some x →
    (partActive z x.part = false → ∃ t, exec (.launchCreate d now) s = .next t ∧ endsAs t d stCONTEXT_INVALID 0 0 ∧ t.ctxs = s.ctxs) ∧
    (partActive z x.part = true → ((partSlices z x.part).any fun sl => !stackOnline z sl) = true →
      ∃ t, exec (.launchCreate d now) s = .next t ∧ endsAs t d stSTACK_OFFLINE 0 0 ∧ t.ctxs = s.ctxs)) ∧
  (∀ s d x c, descReady s d dtLAUNCH 1 = some x → dCtx s x = some c → (runOf s c).accepting = true →
    ∃ t p, exec (.launchProgram d) s = .next t ∧ t.nextProg = s.nextProg + 1 ∧ progOf t s.nextProg = some p ∧ p.cid = c ∧ p.owner = 6144 ∧
      p.desc = some d ∧ p.kind = (if dNat x 0x18 1 = 0 then .tile else .element) ∧ p.issue = launchIssue x) ∧
  (∀ s d now z x c, z = atTime s now → descReady z d dtLAUNCH 2 = some x → dCtx z x = some c →
    ∃ t, exec (.launchEnd d now) s = .next t ∧ (ctxOf t c).live = false ∧ endsAs t d stOK 0 0)

/-- R532: a WAIT holds its ring until its Conjunction reaches the target (OK) or has ERROR (CONJ_ERROR), or its time is over (WAIT_TIMEOUT), and
gives the Conjunction's word as RESULT; with STOP_ON_FAIL a failed one stops its ring; a FENCE holds its ring until every earlier descriptor of the
ring is complete. -/
def Obligations.WaitsAndFencesHoldTheirRing : Prop :=
  (∀ s d now z x, z = atTime s now → descReady z d dtWAIT 0 = some x →
    (ctxByConj z x.part (dNat x 0x10 2 % 2 ^ 14) = none → ∃ t, exec (.wait d now) s = .next t ∧ endsAs t d stCONJ_RANGE 0 0 ∧
      (sqOf t x.part x.sq).hold ≠ some d) ∧
    ((ctxByConj z x.part (dNat x 0x10 2 % 2 ^ 14)).isSome = true → ∃ t y, exec (.wait d now) s = .next t ∧ mapFind t.descs d = some y ∧
      y.st = .running ∧ y.since = z.tense.toNat ∧ t.conj = s.conj)) ∧
  (∀ s d x st, descRunning s d dtWAIT 0 = some x →
    (st = stCONJ_ERROR ∧ (conjOf s (dNat x 0x10 2 % 2 ^ 14)).error = true ∨
      st = stOK ∧ (conjOf s (dNat x 0x10 2 % 2 ^ 14)).error = false ∧
        reached (conjOf s (dNat x 0x10 2 % 2 ^ 14)).count (BitVec.ofNat 32 (dNat x 0x14 4)) = true) →
    ∃ t, exec (.waitComplete d) s = .next t ∧ endsAs t d st 0 (creadWord (conjOf s (dNat x 0x10 2 % 2 ^ 14))) ∧
      (sqOf t x.part x.sq).hold ≠ some d ∧ t.conj = s.conj ∧
      (bit (dNat x 0x12 1) 0 = true → st ≠ stOK → x.part < 12 → x.sq < 16 → sqStopped t x.part x.sq = true)) ∧
  (∀ s d now z x, z = atTime s now → descRunning z d dtWAIT 0 = some x → dNat x 0x18 4 ≠ 0 → x.since + 1000 * dNat x 0x18 4 ≤ z.tense.toNat →
    ∃ t, exec (.waitTimeout d now) s = .next t ∧ endsAs t d stWAIT_TIMEOUT 0 (creadWord (conjOf z (dNat x 0x10 2 % 2 ^ 14))) ∧
      (sqOf t x.part x.sq).hold ≠ some d) ∧
  (∀ s d x, descReady s d dtFENCE 0 = some x → ∃ t y, exec (.fence d) s = .next t ∧ mapFind t.descs d = some y ∧ y.st = .running) ∧
  (∀ s d x, descRunning s d dtFENCE 0 = some x →
    (s.descs.any fun y => y.2.part == x.part && y.2.sq == x.sq && decide (y.1 < d)) = false →
    ∃ t, exec (.fenceRelease d) s = .next t ∧ endsAs t d stOK 0 0 ∧ (sqOf t x.part x.sq).hold ≠ some d)

/-! ### Stacked memory (chapter 11) -/

/-- R343, R345, R350, R346, R353: a decision of a pseudo-channel ends a locked sequence first, then drains writes, then grants class 0, then the
classes 1 to 3 by their shares; a remap moves the oldest candidate into the table and changes no byte; the patrol goes on to the next granule,
poisoning only beats that it finds uncorrectable; a refresh is counted. Where the rules leave a point open it rests on the model's reading or choice
in assumption log 49 and 50. -/
def Obligations.StackControllerDecisions : Prop :=
  (∀ s k pc now arrivals pass out z q, k < 12 → pc < 64 → z = atTime s now → stackLive z k = true → (stkOf z k).cands = [] →
    q = hbmArrive (mapGet {} (stkOf z k).queues pc) z.tense.toNat
      (arrivals.map fun x => { l := x.1 % 2 ^ 22, beat := x.2.1 % 8, cls := x.2.2.1 % 4, write := x.2.2.2.1, part := x.2.2.2.2 }) →
    (∀ l b, q.lock = some (l, b) → ∃ t, exec (.pseudoChannelGrant k pc now arrivals pass false out) s = .next t ∧
      mapGet {} (stkOf t k).queues pc = { q with lock := none, heldFor := 0, openRow := mapIns q.openRow (bits l 7 2) (bits l 21 8) }) ∧
    (∀ w ws, q.lock = none → q.writes = w :: ws → (32 ≤ q.writes.length ∨ q.reads = [] ∨ q.drain = true ∧ 8 < q.writes.length) →
      ∃ t, exec (.pseudoChannelGrant k pc now arrivals pass false 0) s = .next t ∧
        mapGet {} (stkOf t k).queues pc = { q with writes := ws, drain := true, openRow := mapIns q.openRow (bits w.l 7 2) (bits w.l 21 8),
                                                   lock := if w.part then some (w.l, w.beat) else none }) ∧
    (∀ r c sh, q.lock = none → q.drain = false → q.writes.length < 32 → q.reads ≠ [] →
      (pickRead q 0 pass = some r ∧ sh = q.share ∨
        pickRead q 0 pass = none ∧ pickClass q.share q.reads = some (c, sh) ∧ pickRead q c pass = some r) →
      ∃ t, exec (.pseudoChannelGrant k pc now arrivals pass false 0) s = .next t ∧
        mapGet {} (stkOf t k).queues pc = { q with reads := q.reads.erase r, share := sh,
                                                   openRow := mapIns q.openRow (bits r.l 7 2) (bits r.l 21 8) })) ∧
  (∀ s k r rest, k < 12 → (stkOf s k).cands = r :: rest →
    ∃ t, exec (.rowRemap k) s = .next t ∧ (stkOf t k).cands = rest ∧ t.hbm = s.hbm ∧
      ∀ n, freeSpare (stkOf s k) r = some n → guarded s k r.pc = true → (stkOf t k).remap = (stkOf s k).remap ++ [⟨r, n⟩]) ∧
  (∀ s k now outs z, k < 12 → z = atTime s now → stackLive z k = true → fld z (aHBM_CTL k) 0 0 = 1 →
    ∃ t, exec (.patrolScrub k now outs) s = .next t ∧ (stkOf t k).patrol = ((stkOf z k).patrol + 1) % (64 * 4192256) ∧
      t.hbm.cells = s.hbm.cells ∧ t.spm = s.spm ∧
      (∀ b, b < 8 → outs.getD b 0 = 3 → memPoison t.hbm (hbmIx k ((stkOf z k).patrol % 64) ((stkOf z k).patrol / 64) (32 * b)) 1 = true) ∧
      ((∀ b, b < 8 → outs.getD b 0 ≠ 3) → t.hbm = s.hbm)) ∧
  (∀ s k, k < 12 → stackLive s k = true →
    ∃ t, exec (.refresh k) s = .next t ∧ (stkOf t k).refreshes = (stkOf s k).refreshes + 1 ∧ t.hbm = s.hbm ∧ t.regs = s.regs)

/-- R352 to R354: a reading shows in TEMP and raises the level to the one that it enters, level 3 taking the stack offline into self-refresh; the
sixteenth reading in a row more than 3 °C below the level's threshold lowers it by one; an offline stack that qualifies comes online with every byte
zero. R356, R357, R361: START begins a run on a live stack, a destructive one only under the slice's STACK_TEST activity; STOP marks it; its end sets
DONE with the failures counted, and leaves the stack zero exactly where the run was destructive. Where the rules leave a point open it rests on the
model's reading or choice in assumption log 50. -/
def Obligations.StackTemperatureAndTraffic : Prop :=
  ((∀ s k temp now z lv, k < 12 → z = atTime s now → clocksRun s = true → lv = fld z (aHBM_STATUS k) 9 8 → lv < levelOf temp → levelOf temp < 3 →
    ∃ t, exec (.stackTemperatureReading k temp now) s = .next t ∧ fld t (aHBM_STATUS k) 9 8 = levelOf temp ∧
      fld t (aHBM_STATUS k) 7 0 = toTwos 8 temp ∧ (stkOf t k).cool = 0 ∧ stackOnline t k = stackOnline s k ∧ t.hbm = s.hbm) ∧
  (∀ s k temp now z lv, k < 12 → z = atTime s now → clocksRun s = true → lv = fld z (aHBM_STATUS k) 9 8 → lv ≠ 0 → lv ≠ 3 →
    temp < levelAt lv - 3 → (stkOf z k).cool = 15 →
    ∃ t, exec (.stackTemperatureReading k temp now) s = .next t ∧ fld t (aHBM_STATUS k) 9 8 = lv - 1 ∧ fld t (aHBM_STATUS k) 7 0 = toTwos 8 temp ∧
      (stkOf t k).cool = 0 ∧ t.hbm = s.hbm) ∧
  (∀ s k temp now z, k < 12 → z = atTime s now → clocksRun s = true → fld z (aHBM_STATUS k) 9 8 < 3 → 105 ≤ temp → stackOnline z k = true →
    (∀ p, sliceOwner z k = some p → liveCtxs z p = []) →
    ∃ t, exec (.stackTemperatureReading k temp now) s = .next t ∧ fld t (aHBM_STATUS k) 9 8 = 3 ∧ stackOnline t k = false ∧
      fld t (aHBM_STATUS k) 11 11 = 1 ∧ (stkOf t k).queues = [] ∧ (stkOf t k).run = none) ∧
  (∀ s k now unrep z a, k < 12 → z = atTime s now → stackOnline z k = false → (∀ p, sliceOwner z k = some p → liveCtxs z p = []) →
    (stkOf z k).coolSince = some a → a + 1000000000 ≤ z.tense.toNat → devReady z = true → pwrState z = 0 → stackOn z k = true →
    ∃ t, exec (.stackOnline k now unrep) s = .next t ∧ stackOnline t k = true ∧ fld t (aHBM_STATUS k) 11 11 = 0 ∧
      fld t (aHBM_STATUS k) 9 8 = levelOf (sext 8 (fld z (aHBM_STATUS k) 7 0)) ∧
      (∀ b, b < 2 ^ 36 → memByte t.hbm (hbmIx k 0 0 0 + b) = 0 ∧ memPoison t.hbm (hbmIx k 0 0 0 + b) 1 = false) ∧
      (∀ b, b < hbmIx k 0 0 0 ∨ hbmIx k 0 0 0 + 2 ^ 36 ≤ b → memByte t.hbm b = memByte s.hbm b))) ∧
  ((∀ s k v, k < 12 → strobeOf s (aHBM_TG_CTL k) 0 = some v → (stkOf s k).run = none → stackLive s k = true →
    (bit (regGet s (aHBM_TG_CTL k)) 2 = false ∨ actOn s 4 k = true → ∃ t, exec (.hbmTgStart k) s = .next t ∧
      (stkOf t k).run = some { destr := bit (regGet s (aHBM_TG_CTL k)) 2 } ∧ fld t (aHBM_TG_RESULT k) 0 0 = 1 ∧ strobeOf t (aHBM_TG_CTL k) 0 = none) ∧
    (bit (regGet s (aHBM_TG_CTL k)) 2 = true → actOn s 4 k = false → ∃ t, exec (.hbmTgStart k) s = .next t ∧ (stkOf t k).run = none ∧
      fld t (aHBM_TG_RESULT k) 2 2 = 1)) ∧
  (∀ s k v r, k < 12 → strobeOf s (aHBM_TG_CTL k) 1 = some v → (stkOf s k).run = some r →
    ∃ t, exec (.hbmTgStop k) s = .next t ∧ (stkOf t k).run = some { r with stop := true } ∧ strobeOf t (aHBM_TG_CTL k) 1 = none) ∧
  (∀ s k now fails r, k < 12 → (stkOf s k).run = some r → fld s (aHBM_TG_CTL k) 10 9 = 0 →
    ∃ t, exec (.trafficGeneratorRunEnd k now fails) s = .next t ∧ (stkOf t k).run = none ∧ fld t (aHBM_TG_RESULT k) 0 0 = 0 ∧
      fld t (aHBM_TG_RESULT k) 1 1 = 1 ∧ fld t (aHBM_TG_RESULT k) 31 16 = min 65535 fails.length ∧ (r.destr = false → t.hbm = s.hbm) ∧
      (r.destr = true → ∀ b, b < 2 ^ 36 → memByte t.hbm (hbmIx k 0 0 0 + b) = 0)))

/-! ### Yilvo links (chapter 12) -/

/-- R372: at an UP port, a beat that the FEC gave up or whose header fails its CRC or TYPE is answered with a NAK, counted, and the port discards
what follows until a REPLAY_START; R367, R371, R375, R376: what the good link-local beats do, when LINKCTL is sent, and the replay that 20 µs without
an acknowledgement begins. Where the rules leave a point open it rests on the model's reading or choice in assumption log 57 and 61. -/
def Obligations.LinkLocalBeats : Prop :=
  (∀ s p bytes now t2 t3 i, p < 14 → portUp s p = true → (portOf s p).deaf = false →
    i ∈ [Instr.idleBeat p true bytes, .linkctl p true bytes now, .replayStart p true bytes, .tsyncRequest p true bytes t2 t3] →
    ∃ t w, exec i s = .next t ∧ (portOf t p).deaf = true ∧ (portOf t p).nakSent = true ∧ t.wire = s.wire ++ [(p, w)] ∧ t.conj = s.conj ∧
      t.spm = s.spm) ∧
  (∀ s p bytes, p < 14 → beatGood s p 0 bytes → exec (.idleBeat p false bytes) s = .next s) ∧
  (∀ s p bytes now z, p < 14 → z = atTime s now → beatGood z p ptLINKCTL bytes →
    let at_ (o n : Nat) : Nat := leNat ((bytes.drop o).take n)
    let q := portOf z p
    let n := (at_ 2 2 % 4096 + 4096 - q.oldest) % 4096
    bit (at_ 2 2) 15 = true → bit (at_ 4 1) 0 = false →
    (n ≠ 0 → n ≤ (q.next + 4096 - q.oldest) % 4096 → ∃ t, exec (.linkctl p false bytes now) s = .next t ∧
      (portOf t p).replay = q.replay.drop n ∧ (portOf t p).oldest = at_ 2 2 % 4096 ∧ (portOf t p).heard = z.tense.toNat ∧
      (portOf t p).cred = (List.range 4).map fun i => q.cred.getD i 0 + at_ (8 + 2 * i) 2) ∧
    ((q.next + 4096 - q.oldest) % 4096 < n → ∃ t, exec (.linkctl p false bytes now) s = .next t ∧ portState t p = 3 ∧
      (portOf t p).replay = q.replay ∧ (portOf t p).cred = q.cred)) ∧
  (∀ s p now z, p < 14 → z = atTime s now → portUp z p = true →
    ((∃ x, x ∈ (portOf z p).give ∧ x ≠ 0) ∨ 64 ≤ (portOf z p).unacked ∨ (portOf z p).ctlAt + 1000 ≤ z.tense.toNat) →
    ∃ t w, exec (.linkctlSend p now) s = .next t ∧ t.wire = s.wire ++ [(p, w)] ∧ (portOf t p).give = [0, 0, 0, 0] ∧ (portOf t p).unacked = 0 ∧
      (portOf t p).ctlAt = z.tense.toNat ∧ (portOf t p).replay = (portOf s p).replay) ∧
  (∀ s p bytes, p < 14 → portUp s p = true → headOk bytes = true → leNat (bytes.take 1) = ptREPLAY →
    ∃ t, exec (.replayStart p false bytes) s = .next t ∧ portOf t p = { portOf s p with deaf := false, nakSent := false }) ∧
  (∀ s p now z, p < 14 → z = atTime s now → portUp z p = true → (portOf z p).replay ≠ [] → (portOf z p).waitFrom + 20000 ≤ z.tense.toNat →
    ((portOf z p).fruitless ≠ 4 → ∃ t w, exec (.replayTimeout p now) s = .next t ∧ (portOf t p).replay = (portOf s p).replay ∧
      (portOf t p).fruitless = (portOf s p).fruitless + 1 ∧
      t.wire = s.wire ++ (p, w) :: (((portOf z p).replay.filter fun r =>
        decide ((r.1 + 4096 - (portOf z p).oldest) % 4096 < 2048)).map fun r => (p, .beats (pkWire r.2 r.1 (portOf z p).exp)))) ∧
    ((portOf z p).fruitless = 4 → ∃ t, exec (.replayTimeout p now) s = .next t ∧ portState t p = 3))

/-- R363, R365, R377, R401: how a port's STATE moves: lost or told to retrain, up after a training, DOWN after the third failure in a row, MISCABLED
where the peer is not the one that the torus asks for; and a millisecond after DOWN nothing stays buffered. R389, R390, R393, R368, R373: the arbiter
of a port sends the request that it picks, which leaves the queue and enters the replay buffer under the next number; a request cancelled before its
commit never does. Where the rules leave a point open it rests on the model's reading or choice in assumption log 58 and 61. -/
def Obligations.PortsMoveAndSend : Prop :=
  ((∀ s p, p < 14 → portUp s p = true → ∃ t, exec (.linkLost p) s = .next t ∧ portState t p = 3 ∧ (portOf t p).replay = (portOf s p).replay) ∧
  (∀ s p v, p < 14 → strobeOf s (aYLV_PORT_CTL p) 4 = some v → portState s p = 2 ∨ portState s p = 4 ∨ portState s p = 5 →
    ∃ t, exec (.portRetrain p) s = .next t ∧ portState t p = 3 ∧ strobeOf t (aYLV_PORT_CTL p) 4 = none) ∧
  (∀ s p failed now z, p < 14 → z = atTime s now → portState z p = 1 ∨ portState z p = 3 →
    (failed % 256 = 0 → (portOf z p).peerE = none → ∃ t, exec (.linkTrainingComplete p failed now) s = .next t ∧ portState t p = 2 ∧
      fld t (aYLV_PORT_STATUS p) 3 3 = 0 ∧ (portOf t p).fails = 0 ∧ (portState z p = 1 → (portOf t p).replay = [] ∧ (portOf t p).exp = 0 ∧
        (portOf t p).next = 0 ∧ (portOf t p).cred = [1536, 1536, 256, 256])) ∧
    (failed % 16 ≠ 0 → failed / 16 % 16 ≠ 0 → 2 ≤ (portOf z p).fails →
      ∃ t, exec (.linkTrainingComplete p failed now) s = .next t ∧ portState t p = 4 ∧ (portOf t p).downAt = some z.tense.toNat) ∧
    (failed % 16 ≠ 0 → failed / 16 % 16 ≠ 0 → (portOf z p).fails < 2 →
      ∃ t, exec (.linkTrainingComplete p failed now) s = .next t ∧ portState t p = portState z p ∧ (portOf t p).fails = (portOf z p).fails + 1)) ∧
  (∀ s p devid port e now z w, p < 14 → z = atTime s now → portState z p = 1 ∨ portState z p = 2 ∨ portState z p = 3 → peerWanted z p = some w →
    w ≠ (devid % 65536, port % 16) → ∃ t, exec (.linkState p devid port e none now) s = .next t ∧ portState t p = 5 ∧
      fld t (aYLV_PORT_STATUS p) 31 16 = devid % 65536 ∧ fld t (aYLV_PORT_STATUS p) 35 32 = port % 16) ∧
  (∀ s p devid port e now z, p < 14 → z = atTime s now → portState z p = 1 ∨ portState z p = 3 →
    (∀ w, peerWanted z p = some w → w = (devid % 65536, port % 16)) → ∃ t, exec (.linkState p devid port e none now) s = .next t ∧
      portState t p = portState z p ∧ (portOf t p).peerE = some e) ∧
  (∀ s p now z a, p < 14 → z = atTime s now → (portOf z p).downAt = some a → a + 1000000 ≤ z.tense.toNat →
    ∃ t, exec (.linkLossWaitExpiry p now) s = .next t ∧ (portOf t p).downAt = none ∧ (portOf t p).replay = [] ∧
      (portOf t p).oldest = (portOf z p).next)) ∧
  ((∀ s e now z r, e < 14 → z = atTime s now → z.outSigs = [] → z.mirror = [] → egressPick z e = some r →
    ∃ t, exec (.egressCommit e now) s = .next t ∧ (portOf t e).wait = (portOf z e).wait.filter (fun x => x.id != r.id) ∧
      (portOf t e).replay = (portOf z e).replay ++ [((portOf z e).next, r.pkt)] ∧ (portOf t e).next = ((portOf z e).next + 1) % 4096 ∧
      t.wire = s.wire ++ [(e, .beats (pkWire r.pkt (portOf z e).next (portOf z e).exp))] ∧ ∀ p, p ≠ e → portOf t p = portOf s p) ∧
  (∀ s e id, e < 14 → ((portOf s e).wait.any fun r => r.id == id) = true →
    ∃ t, exec (.requestCancel e id) s = .next t ∧ (portOf t e).wait = (portOf s e).wait.filter (fun r => r.id != id) ∧
      t.cancelled = s.cancelled ++ [id] ∧ t.wire = s.wire) ∧
  (∀ s e id, e < 14 → ((portOf s e).wait.any fun r => r.id == id) = false → exec (.requestCancel e id) s = .next s))

/-- R308, R316, R386, R387: what a packet that is delivered here does: a SIGNAL advances its Conjunction under the key, and under a key that the
Conjunction does not carry changes none; a WRITE is stored whole and acknowledged where ACKREQ asks for it, a READ_RESP is stored; a WRITE_ACK and an
UNDELIVERABLE of a WRITE are counted against their tag; and under a key of no context nothing is done. Where the rules leave a point open it rests on
the model's reading or choice in assumption log 57 to 59. -/
def Obligations.PacketsDelivered : Prop :=
  (∀ s p bytes pk s₁ full ty i, arrives s p bytes pk s₁ → (ty, i) ∈ [(ptSIGNAL, Instr.signalPacket p false bytes), (ptWACK, .writeAck p false bytes),
      (ptREAD, .readPacket p false bytes full), (ptUNDEL, .undeliverablePacket p false bytes), (ptABORT, .abortPacket p false bytes)] →
    pkType pk = ty → devCtx s (pkKey pk) = none → exec i s = .next { keyDrop s₁ p pk with pending := s.pending }) ∧
  (∀ s p bytes pk s₁ c, arrives s p bytes pk s₁ → devCtx s (pkKey pk) = some c →
    (pkType pk = ptSIGNAL → let j := pkNat pk 16 2
      (conjKeyOk s j (BitVec.ofNat 16 (pkKey pk)) = true → ∃ t, exec (.signalPacket p false bytes) s = .next t ∧
        conjOf t j = { conjOf s j with count := (conjOf s j).count + BitVec.ofNat 32 (pkNat pk 18 2),
                                       error := (conjOf s j).error || bit (pkNat pk 20 1) 0 } ∧
        ∀ l, l ≠ j → conjOf t l = conjOf s l) ∧
      (conjKeyOk s j (BitVec.ofNat 16 (pkKey pk)) = false → ∃ t, exec (.signalPacket p false bytes) s = .next t ∧ t.conj = s.conj)) ∧
    (∀ n w, pkType pk = ptWACK → mapFind s.ackWait (pkNat pk 16 2) = some (n, w) → ∃ t, exec (.writeAck p false bytes) s = .next t ∧
      t.ackWait = mapIns s.ackWait (pkNat pk 16 2) (n - 1, max w (pkNat pk 18 1)) ∧ t.spm = s.spm ∧ t.hbm = s.hbm) ∧
    (∀ n w, pkType pk = ptUNDEL → bit (pkNat pk 20 1) 0 = false → pkNat pk 19 1 = ptDATA → mapFind s.ackWait (pkNat pk 16 2) = some (n, w) →
      ∃ t, exec (.undeliverablePacket p false bytes) s = .next t ∧ t.ackWait = mapIns s.ackWait (pkNat pk 16 2) (n - 1, max w 0x60) ∧
        t.conj = s.conj) ∧
    (∀ full, pkType pk = ptREAD → pwrState s ≠ 1 → pwrState s ≠ 2 → exec (.readPacket p false bytes full) s =
      .next { (if full then sendUndel s₁ pk 4 else serveRead s₁ pk c) with pending := s.pending }) ∧
    (pkType pk = ptDATA → pwrState s ≠ 1 → pwrState s ≠ 2 → peerReach s₁ c (pkNat pk 24 8) pk.payload.length (pkKey pk) true = (s₁, stOK) →
      pk.poison = 0 → let r := areaStore s₁ c 48 (pkNat pk 24 8) pk.payload false
      (pkNat pk 18 1 = 0 → pairMsg p pk = false → exec (.dataWrite p false bytes) s = .next { (if bit (pkNat pk 1 1) 2 then
        inject r 14 (mkPkt r ptWACK 0 (pkKey pk) (pkNat pk 10 2) 0 (pkNat pk 14 2) (natLe 2 (pkNat pk 14 2) ++ natLe 1 stOK) [] 0) false
        else r) with pending := s.pending }) ∧
      (pkNat pk 18 1 = 1 → exec (.dataReadResp p false bytes) s = .next { r with pending := s.pending })))

/-! ### Collectives (chapter 13) -/

/-- R408, R417, R423, R427: the COLLECTIVE descriptor's operations: a group that is not set up refuses them; SETUP makes a group of a legal record;
LAUNCH, BIND, UNBIND, ABORT and RELEASE act on it where its state allows; ROUTE writes the handle table. Where the rules leave a point open it rests
on the model's reading or choice in assumption log 63. -/
def Obligations.CollectiveOperations : Prop :=
  (∀ s d now fm i x c, (fm, i) ∈ [(1, Instr.collectiveLaunch d now), (2, .collectiveBind d), (3, .collectiveUnbind d), (4, .collectiveAbort d),
      (5, .collectiveRelease d)] → descReady (atTime s now) d dtCOLLECTIVE fm = some x → dCtx (atTime s now) x = some c → s = atTime s now →
    groupOf s (65536 * c + dNat x 0x18 2) = none → ∃ t, exec i s = .next t ∧ endsAs t d stGROUP_INVALID 0 0 ∧ t.groups = s.groups) ∧
  (∀ s d x c b p po hd g, descReady s d dtCOLLECTIVE 0 = some x → dCtx s x = some c → auxBytes x = b → b ≠ [] → arRsv (leNat ((b.drop 0x28).take 8)) = false →
    areaGather s c 48 (leNat ((b.drop 0x28).take 8)) 144 (dKey x) (.desc d) = (s, .done p po hd) →
    g = { cid := c, group := leNat (b.take 2), rec_ := b, peers := (List.range 18).map fun i => leNat ((p.drop (8 * i)).take 8) } →
    (dNat x 0x10 8 % 64 ≠ 0 ∨ gRecordOk g = false ∨ (groupOf s (gKey g)).isSome = true →
      ∃ t, exec (.collectiveSetup d) s = .next t ∧ endsAs t d stGROUP_INVALID 0 0 ∧ t.groups = s.groups) ∧
    (dNat x 0x10 8 % 64 = 0 → gRecordOk g = true → groupOf s (gKey g) = none →
      (s.groups.map fun y => gWin y.2 * gFoot y.2).sum + gWin g * gFoot g ≤ 16777216 →
      ∃ t, exec (.collectiveSetup d) s = .next t ∧ endsAs t d stOK 0 0 ∧ groupOf t (gKey g) = some g)) ∧
  (∀ s d now z x c gk g, z = atTime s now → descReady z d dtCOLLECTIVE 1 = some x → dCtx z x = some c → gk = 65536 * c + dNat x 0x18 2 → groupOf z gk = some g →
    (g.run.isSome = true ∨ g.bound.isSome = true → ∃ t, exec (.collectiveLaunch d now) s = .next t ∧ endsAs t d stGROUP_BUSY 0 0 ∧ t.groups = s.groups) ∧
    (g.run = none → g.bound = none → exec (.collectiveLaunch d now) s = .next { descEnd (collLaunch z gk) d stOK 0 0 with pending := s.pending })) ∧
  (∀ s d x c gk g h, descReady s d dtCOLLECTIVE 2 = some x → dCtx s x = some c → gk = 65536 * c + dNat x 0x18 2 → groupOf s gk = some g → h = dNat x 0x1A 2 →
    g.bound = none → mapGet .none s.handles (1024 * x.part + h) = .none → ∃ t, exec (.collectiveBind d) s = .next t ∧ endsAs t d stOK 0 0 ∧
      groupOf t gk = some { g with bound := some h, counts := [] } ∧ mapGet .none t.handles (1024 * x.part + h) = .cont gk) ∧
  (∀ s d x c gk g, descReady s d dtCOLLECTIVE 3 = some x → dCtx s x = some c → gk = 65536 * c + dNat x 0x18 2 → groupOf s gk = some g → g.run = none →
    (g.bound = some (dNat x 0x1A 2) → ∃ t, exec (.collectiveUnbind d) s = .next t ∧ endsAs t d stOK 0 0 ∧
      groupOf t gk = some { g with bound := none, counts := [] } ∧ mapGet .none t.handles (1024 * (g.cid / 8) + dNat x 0x1A 2) = .none) ∧
    (g.bound ≠ some (dNat x 0x1A 2) → ∃ t, exec (.collectiveUnbind d) s = .next t ∧ endsAs t d stGROUP_INVALID 0 0 ∧ t.groups = s.groups)) ∧
  (∀ s d x c gk g, descReady s d dtCOLLECTIVE 4 = some x → dCtx s x = some c → gk = 65536 * c + dNat x 0x18 2 → groupOf s gk = some g →
    ∃ t, exec (.collectiveAbort d) s = .next t ∧ endsAs t d stOK 0 0 ∧
      (g.run = none → groupOf t gk = some g) ∧ (g.run.isSome = true → groupOf t gk = some { g with run := none, aborted := some g.gen, counts := [] })) ∧
  (∀ s d x c gk g, descReady s d dtCOLLECTIVE 5 = some x → dCtx s x = some c → gk = 65536 * c + dNat x 0x18 2 → groupOf s gk = some g →
    (g.run = none → ∃ t, exec (.collectiveRelease d) s = .next t ∧ endsAs t d stOK 0 0 ∧ groupOf t gk = none) ∧
    (g.run.isSome = true → ∃ t, exec (.collectiveRelease d) s = .next t ∧ endsAs t d stGROUP_BUSY 0 0 ∧ t.groups = s.groups)) ∧
  (∀ s d x c, descReady s d dtCOLLECTIVE 6 = some x → dCtx s x = some c → ∃ t, exec (.collectiveRoute d) s = .next t ∧ endsAs t d stOK 0 0 ∧
    t.groups = s.groups ∧ mapGet .none t.handles (1024 * x.part + dNat x 0x1A 2) = if bit (dNat x 0x1F 1) 1 then .none else
      .route (dNat x 0x1C 2) (dNat x 0x1E 1) (bit (dNat x 0x1F 1) 0) (dNat x 0x20 2 % 2 ^ 14))

/-- R409, R410, R416, R418, R420, R423: a packet of a running generation acts on it, a FREE by counting itself toward its segment; one of the next
generation is held and one of another is dropped; a segment is not sent while the window is closed; and the limit ends the generation with an abort
and marks the context INDET. Where the rules leave a point open it rests on the model's reading or choice in assumption log 62. -/
def Obligations.CollectiveTraffic : Prop :=
  (∀ s p bytes now z pk s₁ c i, z = atTime s now → arrives z p bytes pk s₁ → devCtx z (pkKey pk) = some c →
    (pkType pk = ptDATA ∧ pkNat pk 18 1 = 2 ∧ i = Instr.dataReduce p false bytes now ∨
      pkType pk = ptCOLL ∧ pkNat pk 16 1 = 2 ∧ i = .collectiveDone p false bytes now ∨
      pkType pk = ptCOLL ∧ pkNat pk 16 1 = 3 ∧ i = .collectiveClose p false bytes now ∨
      s = z ∧ pkType pk = ptABORT ∧ i = .abortPacket p false bytes ∨
      s = z ∧ pkType pk = ptCOLL ∧ pkNat pk 16 1 = 1 ∧ i = .collectiveFree p false bytes) →
    let gk := 65536 * c + (collIds pk).1
    (∀ g, groupOf z gk = some g → genMeets g (collIds pk).2 = 0 →
      exec i s = .next { collAct (wakeBy s₁ 5) pk gk with pending := s.pending }) ∧
    (∀ g, groupOf z gk = some g → genMeets g (collIds pk).2 = 1 → ∃ t, exec i s = .next t ∧
      groupOf t gk = some { g with held := g.held ++ [{ port := 0, pkt := pk }] } ∧ t.spm = s.spm ∧ t.hbm = s.hbm) ∧
    (∀ g, groupOf z gk = some g → 2 ≤ genMeets g (collIds pk).2 → ∃ t, exec i s = .next t ∧ t.groups = s.groups ∧ t.spm = s.spm ∧ t.hbm = s.hbm)) ∧
  (∀ s p bytes pk s₁ c g r k, arrives s p bytes pk s₁ → devCtx s (pkKey pk) = some c → pkType pk = ptCOLL → pkNat pk 16 1 = 1 →
    groupOf s (65536 * c + (collIds pk).1) = some g → g.run = some r → genMeets g (collIds pk).2 = 0 → k = rk (pkNat pk 46 2) (pkNat pk 20 4) →
    ∃ t, exec (.collectiveFree p false bytes) s = .next t ∧ groupOf t (65536 * c + (collIds pk).1) =
      some { g with run := some { r with freed := mapIns r.freed k (mapGet 0 r.freed k + 1) } }) ∧
  (∀ s cid group st seg now z g r k, z = atTime s now → groupOf z (65536 * cid + group) = some g → g.run = some r →
    gPlace g st seg = some k → gWin g ≤ k → mapGet 0 r.freed (rk st (gKth g st (k - gWin g))) < (if gSched g = 2 then gG g - 1 else 1) →
    exec (.segmentSend cid group st seg now) s = .next { collProgress z (65536 * cid + group) with pending := s.pending }) ∧
  (∀ s cid group st seg now z gk g r k z₁ cs r₁, z = atTime s now → gk = 65536 * cid + group → groupOf z gk = some g → g.run = some r → pwrState z = 0 →
    (gSteps g).contains st = true → mapFind r.sent (rk st seg) = none → gPlace g st seg = some k →
    (k = 0 ∨ (mapFind r.sent (rk st (gKth g st (k - 1)))).isSome = true) →
    (k < gWin g ∨ (if gSched g = 2 then gG g - 1 else 1) ≤ mapGet 0 r.freed (rk st (gKth g st (k - gWin g)))) →
    sendUnits z gk g r st seg = (z₁, some cs) → (groupOf z₁ gk).bind (·.run) = some r₁ →
    let z₂ := updRunOf (sendPackets z₁ g r₁ st seg cs) gk fun r => { r with sent := mapIns r.sent (rk st seg) true }
    exec (.segmentSend cid group st seg now) s =
      .next { collProgress (if gAll g then z₂ else releaseSegs z₂ gk g (needSteps g st) seg) gk with pending := s.pending }) ∧
  (∀ s cid group now z g r, z = atTime s now → groupOf z (65536 * cid + group) = some g → g.run = some r → gNat g 0x3C 4 ≠ 0 →
    r.launched + 1000 * gNat g 0x3C 4 ≤ z.tense.toNat →
    ∃ t, exec (.collectiveTimeout cid group now) s = .next t ∧
      groupOf t (65536 * cid + group) = some { g with run := none, aborted := some g.gen, counts := [] } ∧ (ctxOf t g.cid).indet = true)

/-! ### Inputs, the Gloss and snapshots (chapter 14) -/

/-- R440, R441, R445, R527: a PLAIN copy that moves its last bytes stores them and ends; a hash lane gives a chunk's SHA-256; an input whose bytes
and digests have all come is held for its step under its digest, or refused. Where the rules leave a point open it rests on the model's reading or
choice in assumption log 64. -/
def Obligations.InputsAreCopiedAndHashed : Prop :=
  (∀ s d now z x c s₁ bs po rs, z = atTime s now → descLive z d dtCOPY 0 = some x → dCtx z x = some c → cpInput x = false →
    (x.st = .accepted → areaInside z c (dNat x 0x10 8) (dNat x 0x20 8) = true ∧ areaInside z c (dNat x 0x18 8) (dNat x 0x20 8) = true) →
    s₁ = (if x.st = .accepted then updDesc z d (fun y => { y with st := .running }) else z) →
    x.pos < dNat x 0x20 8 → dNat x 0x20 8 - x.pos ≤ chunkBytes →
    rs = areaRuns s₁ c (dNat x 0x10 8 + x.pos) (dNat x 0x20 8 - x.pos) (.desc d) →
    areaGather s₁ c 48 (dNat x 0x10 8 + x.pos) (dNat x 0x20 8 - x.pos) (dKey x) (.desc d) = (s₁, .done bs po false) → po = false →
    (areaCheck s₁ c 48 (dNat x 0x18 8 + x.pos) (dNat x 0x20 8 - x.pos) (dKey x) true).isNone = true →
    ∃ t, exec (.copyPlain d now) s = .next t ∧ endsAs t d x.note 0 0 ∧
      t.spm = (storeRuns s₁ c (dNat x 0x18 8 + x.pos) rs).spm ∧ t.hbm = (storeRuns s₁ c (dNat x 0x18 8 + x.pos) rs).hbm) ∧
  (∀ s d now z x c, z = atTime s now → descReady z d dtCOPY 0 = some x → dCtx z x = some c →
    areaInside z c (dNat x 0x10 8) (dNat x 0x20 8) = false → ∃ t, exec (.copyPlain d now) s = .next t ∧ endsAs t d stADDRESS 0 0 ∧
      t.spm = s.spm ∧ t.hbm = s.hbm) ∧
  (∀ s d k x y, mapFind s.descs d = some x → (x.chunks.find? fun y => y.1 == k) = some y →
    ∃ t, exec (.hashLaneChunk d k) s = .next t ∧
      mapFind t.descs d = some { x with chunks := x.chunks.filter (fun z => z.1 != k), digs := x.digs ++ [(k, sha256 y.2)] }) ∧
  (∀ s d now z x c, z = atTime s now → descRunning z d dtCOPY 0 = some x → dCtx z x = some c → cpInput x = true → x.pos = dNat x 0x20 8 →
    x.chunks = [] →
    (∀ st, inputErr z c x false = some st → ∃ t, exec (.inputAccepted d now) s = .next t ∧ endsAs t d st 0 0 ∧ t.ctxs = s.ctxs) ∧
    (inputErr z c x false = none → (ctxOf z c).gloss = none → ∃ t, exec (.inputAccepted d now) s = .next t ∧ endsAs t d x.note 0 0 ∧
      (ctxOf t c).inputs = (ctxOf z c).inputs ++ [{ isid := dNat x 0x2C 4, iseq := dNat x 0x30 4, step := dNat x 0x38 6,
                                                    digest := cdOuter tagINPUT (dNat x 0x20 8) (digList x), len := dNat x 0x20 8 }]))

/-- R443, R444, R450, R451, R485: OPEN refuses a second Gloss, a record that breaks its rules and a bad weight list; it forms the Gloss from the
inputs, the weights, the seed and the step once enough inputs are there and every chunk has its digest; a DIGEST folds WD into it and a FINAL gives
the digest of its list; an EXPORT ends once all of it has gone. Where the rules leave a point open it rests on the model's reading or choice in
assumption log 65. -/
def Obligations.GlossFormsAndFolds : Prop :=
  (∀ s d x c, descReady s d dtSTEP 2 = some x → dCtx s x = some c → (ctxOf s c).gloss.isSome = true →
    ∃ t, exec (.stepCommitOpen d) s = .next t ∧ endsAs t d stGLOSS_STATE 0 0 ∧ t.ctxs = s.ctxs) ∧
  (∀ s d x c b, descReady s d dtSTEP 2 = some x → dCtx s x = some c → (ctxOf s c).gloss = none → auxBytes x = b →
    b.length = 64 + 32 * (glossOf b).wcount →
    (glossSetupOk (b.take 64) (dNat x 0x10 8) = false → ∃ t, exec (.stepCommitOpen d) s = .next t ∧ endsAs t d stRESERVED 0 0) ∧
    (glossSetupOk (b.take 64) (dNat x 0x10 8) = true → wOk (b.drop 64) = false → ∃ t, exec (.stepCommitOpen d) s = .next t ∧ endsAs t d stFORMAT 0 0) ∧
    (glossSetupOk (b.take 64) (dNat x 0x10 8) = true → wOk (b.drop 64) = true → ∃ t y, exec (.stepCommitOpen d) s = .next t ∧
      (ctxOf t c).gloss = some (glossOf b) ∧ (ctxOf t c).glossOpen = (ctxOf s c).glossOpen ∧ mapFind t.descs d = some y ∧ y.st = .running)) ∧
  (∀ s d x c g, descRunning s d dtSTEP 2 = some x → dCtx s x = some c → (ctxOf s c).gloss = some g →
    ((preInputs s c g.pre).length < g.pre → exec (.glossOpen d) s = .next s) ∧
    (g.pre ≤ (preInputs s c g.pre).length → (∀ ch, ch ∈ wChunks (wEnts ((auxBytes x).drop 64)) → (x.digs.any fun y => y.1 == ch.1) = true) →
      ∃ t g', exec (.glossOpen d) s = .next t ∧ endsAs t d x.note 0 0 ∧ (ctxOf t c).glossOpen = true ∧ (ctxOf t c).gloss = some g' ∧
        g'.p = sha256 (tagPROG1 ++ natLe 8 (preInputs s c g.pre).length ++ (preInputs s c g.pre).flatMap inputE) ∧ g'.w0 = wdOf x.digs ∧
        g'.gloss = sha256 (tagGLOS0 ++ g'.p ++ g'.w0 ++ natLe 8 (ctxOf s c).seed ++ natLe 8 (runOf s c).step))) ∧
  (∀ s d x c, descReady s d dtSNAPSHOT 0 = some x → dCtx s x = some c → (ctxOf s c).glossOpen = false →
    ∃ t, exec (.snapshotDigest d) s = .next t ∧ endsAs t d stGLOSS_STATE 0 0) ∧
  (∀ s d x c g, descRunning s d dtSNAPSHOT 0 = some x → dCtx s x = some c → (ctxOf s c).glossOpen = true → (ctxOf s c).gloss = some g →
    (auxBytes x).length = 32 * g.wcount → wOk (auxBytes x) = true →
    (∀ ch, ch ∈ wChunks (wEnts (auxBytes x)) → (x.digs.any fun y => y.1 == ch.1) = true) →
    (areaCheck s c 48 (dNat x 0x18 8) (32 * (x.digs.foldl (fun a d => max a (d.1 + 1)) 0)) (dKey x) true).isNone = true →
    ∃ t, exec (.snapshotDigest d) s = .next t ∧ endsAs t d x.note 0 0 ∧
      (ctxOf t c).gloss = some { g with gloss := sha256 (tagSNAP1 ++ g.gloss ++ natLe 8 (runOf s c).step ++ wdOf x.digs), lastWd := wdOf x.digs,
                                        lastWstep := (runOf s c).step, step := (runOf s c).step, poison := g.poison || x.note == stPOISONED }) ∧
  (∀ s d x c, descRunning s d dtSNAPSHOT 1 = some x → dCtx s x = some c → (auxBytes x).length = 32 * dNat x 0x2C 4 →
    (areaCheck s c 48 (dNat x 0x30 8) 32 (dKey x) true).isNone = true →
    exec (.snapshotFinal d) s = .next { descEnd (areaStore s c 48 (dNat x 0x30 8)
      (sha256 (tagWEIGH ++ natLe 8 (dNat x 0x20 8) ++ auxBytes x)) false) d stOK 0 0 with pending := s.pending }) ∧
  (∀ s d now z x c, z = atTime s now → descReady z d dtSNAPSHOT 2 = some x → dCtx z x = some c → exPeer x = true → routeOk z x.part (dNat x 0x2A 2) = false →
    ∃ t, exec (.snapshotExport d now) s = .next t ∧ endsAs t d stCONJ_KEY 0 0) ∧
  (∀ s d now z x c g, z = atTime s now → descRunning z d dtSNAPSHOT 2 = some x → dCtx z x = some c → exPeer x = false → (ctxOf z c).glossOpen = true →
    (ctxOf z c).gloss = some g → (auxBytes x).length = 32 * g.wcount → wOk (auxBytes x) = true →
    (∀ ch, ch ∈ wChunks (wEnts (auxBytes x)) → (x.digs.any fun y => y.1 == ch.1) = true) → x.pos = (wChunks (wEnts (auxBytes x))).length + 1 →
    ∃ t, exec (.snapshotExport d now) s = .next t ∧ endsAs t d x.note 0 0 ∧ t.spm = s.spm ∧ t.hbm = s.hbm)

/-! ### The step gate and the copies of training (chapter 15) -/

/-- R455 to R470, R480 to R482: a step table whose rules hold is declared with its views and its step; a COMMIT is accepted against the step counter;
its decision skips it where ERROR stands on its cover Conjunction, and otherwise lets it exchange the banks, which advances the step by one; a
retention entry whose target is reached takes its next target; a deferrable descriptor starts in a bubble. Where the rules leave a point open it
rests on the model's reading or choice in assumption log 65. -/
def Obligations.StepGateCommits : Prop :=
  (∀ s d x c b, descReady s d dtSTEP 0 = some x → dCtx s x = some c → auxBytes x = b → b.length = (tableLens b).2 + 64 →
    ((ctxOf s c).table.isSome = true ∨ tableOk b = false → ∃ t, exec (.stepCommitSetup d) s = .next t ∧ endsAs t d stSTEP_TABLE 0 0 ∧
      t.ctxs = s.ctxs) ∧
    ((ctxOf s c).table = none → tableOk b = true → ((List.range (bNat b 0 2)).all (regionOk s c b)) = true →
      viewsApart ((List.range (bNat b 0 2)).map (viewOf b)) = true →
      ((List.range (bNat b 6 2)).all fun i => retOk s c ((b.drop ((tableLens b).1 + 32 * i)).take 32)) = true →
      ∃ t q, exec (.stepCommitSetup d) s = .next t ∧ endsAs t d stOK 0 0 ∧ (ctxOf t c).views = (List.range (bNat b 0 2)).map (viewOf b) ∧
        (ctxOf t c).table = some q ∧ q.commits = 0 ∧ q.skips = 0 ∧ q.gateMask = bNat b 4 2 ∧ (runOf t c).step = bNat b 8 6)) ∧
  (∀ s d now z x c, z = atTime s now → descReady z d dtSTEP 1 = some x → dCtx z x = some c → commitBefore z d c = false →
    ((ctxOf z c).table = none → ∃ t n, exec (.stepCommitCommit d now) s = .next t ∧ endsAs t d stSTEP_TABLE n (cmStep x)) ∧
    ((ctxOf z c).table.isSome = true → cmStep x ≠ (runOf z c).step →
      ∃ t n, exec (.stepCommitCommit d now) s = .next t ∧ endsAs t d stSTEP_ORDER n (cmStep x) ∧ (runOf t c).step = (runOf z c).step) ∧
    ((ctxOf z c).table.isSome = true → cmStep x = (runOf z c).step → ∃ t y, exec (.stepCommitCommit d now) s = .next t ∧
      mapFind t.descs d = some y ∧ y.st = .running ∧ y.pos = 1)) ∧
  (∀ s d now z x c q cov, z = atTime s now → descRunning z d dtSTEP 1 = some x → dCtx z x = some c → (ctxOf z c).table = some q →
    (ctxOf z c).gloss = none → cov = conjOf z (dNat x 0x20 2 % 2 ^ 14) → q.gates = [] → x.pos = 1 →
    ((ctxOf z c).inputs.filter fun i => i.step == cmStep x).length = dNat x 0x18 4 →
    (waitOver cov (BitVec.ofNat 32 (dNat x 0x1C 4)) = false → exec (.stepDecision d now) s = .next { z with pending := s.pending }) ∧
    (cov.error = true → ∃ t n, exec (.stepDecision d now) s = .next t ∧ endsAs t d stSTEP_SKIPPED n (cmStep x) ∧
      ((ctxOf t c).table.map (·.skips)) = some (q.skips + 1) ∧ ((ctxOf t c).table.map (·.commits)) = some q.commits ∧
      (runOf t c).step = (runOf z c).step) ∧
    (cov.error = false → reached cov.count (BitVec.ofNat 32 (dNat x 0x1C 4)) = true → bit (dNat x 0x22 1) 0 = false →
      (ctxOf z c).sflags &&& q.gateMask = 0 → ∃ t y, exec (.stepDecision d now) s = .next t ∧ mapFind t.descs d = some y ∧ y.st = .running ∧
        y.pos = 2 ∧ (ctxOf t c).inputs = (ctxOf z c).inputs.filter (fun i => i.step != cmStep x) ∧ (runOf t c).step = (runOf z c).step)) ∧
  (∀ s d now z x c q n b po hd, z = atTime s now → descRunning z d dtSTEP 1 = some x → dCtx z x = some c → (ctxOf z c).table = some q → 2 ≤ x.pos →
    exportReads z c = false → pairHold z c (cmStep x) = false → mirrorOn z c = false → x.aux[2]? = some n →
    areaGather z c 48 (q.rec_ + 0x60) 64 (dKey x) (.desc d) = (z, .done b po hd) →
    ∃ t, exec (.viewExchange d now) s = .next t ∧ endsAs t d stOK 1 (cmStep x) ∧ (runOf t c).step = (runOf z c).step + 1 ∧
      (ctxOf t c).views = (ctxOf z c).views.map (fun v => if v.spad then v else { v with swapped := !v.swapped }) ∧
      ((ctxOf t c).table.map (·.commits)) = some (q.commits + 1)) ∧
  (∀ s cid j q r, (ctxOf s cid).live = true → (ctxOf s cid).table = some q → q.rets[j]? = some r →
    reached (conjOf s r.conj).count (BitVec.ofNat 32 r.target) = true → ∃ t, exec (.retentionRelease cid j) s = .next t ∧
      (ctxOf t cid).table = some { q with rets := q.rets.set j { r with target := (r.target + r.adv) % 2 ^ 32 } } ∧
      (r.policy = 2 ∨ r.policy = 1 ∧ r.retained = false → ∀ pg, arAddr r.area / pageBytes ≤ pg →
        pg < arAddr r.area / pageBytes + r.bytes / pageBytes → (pageOf t cid pg).phys = none)) ∧
  (∀ s d x c, mapFind s.descs d = some x → dCtx s x = some c → x.st = .accepted → dDefer x = true → x.deferGo = false → dType x = dtCOPY → dForm x ≠ 3 →
    (s.descs.any fun y => decide (y.1 < d) && dDefer y.2 && !y.2.deferGo && y.2.st == .accepted && dCtx s y.2 == some c) = false →
    ∃ t, exec (.deferrableStart d) s = .next t ∧ mapFind t.descs d = some { x with deferGo := true })

/-- R473 to R475, R478, R479: an OFFLOAD that moves its last megabyte writes its record with the digest of what it moved; a PREFETCH whose bytes have
come back ends as its digest decides; a compression writes each block and stages its residuals, and an expansion writes the dense sum. Where the
rules leave a point open it rests on the model's reading or choice in assumption log 66. -/
def Obligations.TrainingCopies : Prop :=
  (∀ s d now z x c s₁ s₂ rs, z = atTime s now → descReady z d dtCOPY 1 = some x → dCtx z x = some c → x.pos = 0 → x.digs = [] → x.note = stOK →
    dNat x 0x20 8 ≤ chunkBytes → areaInside z c (dNat x 0x10 8) (dNat x 0x20 8) = true → areaInside z c (dNat x 0x18 8) (dNat x 0x20 8) = true →
    areaAll z c (dNat x 0x10 8) (dNat x 0x20 8) false false = true → areaAll z c (dNat x 0x18 8) (dNat x 0x20 8) true true = true →
    s₁ = updDesc z d (fun y => { y with st := .running }) → arReach s₁ c 48 (dNat x 0x10 8) (dNat x 0x20 8) false = .ok →
    (areaCheck s₁ c 48 (dNat x 0x18 8) (dNat x 0x20 8) (dKey x) true).isNone = true →
    rs = hereRuns s₁ c (dNat x 0x10 8) (dNat x 0x20 8) → rs.any (·.2) = false →
    s₂ = updDesc (storeRuns s₁ c (dNat x 0x18 8) rs) d (fun y => { y with
      pos := y.pos + dNat x 0x20 8, digs := y.digs ++ [(0, sha256 (rs.flatMap (·.1)))] }) →
    (areaCheck s₂ c 48 (dNat x 0x30 8) 64 (dKey x) true).isNone = true →
    ∃ t r, exec (.copyOffload d now) s = .next t ∧ endsAs t d stOK 0 0 ∧
      r = areaStore s₂ c 48 (dNat x 0x30 8) (offRecord (dNat x 0x18 8) (dNat x 0x20 8) (runOf z c).step 1
        (cdOuter tagOFFLD (dNat x 0x20 8) [sha256 (rs.flatMap (·.1))])) false ∧ t.spm = r.spm ∧ t.hbm = r.hbm ∧ t.hostOut = r.hostOut) ∧
  (∀ s d now z x c b n s₁ y hd good, z = atTime s now → descRunning z d dtCOPY 2 = some x → dCtx z x = some c → auxBytes x = b → b.length = 64 →
    0 < x.pos → x.pos < bNat b 8 8 → n = bNat b 8 8 - x.pos → n ≤ chunkBytes → s₁ = updDesc z d (fun y => { y with st := .running }) →
    areaGather s₁ c 48 (bNat b 0 8 + x.pos) n (dKey x) (.desc d) = (s₁, .done y false hd) →
    (areaCheck s₁ c 48 (dNat x 0x18 8 + x.pos) n (dKey x) true).isNone = true →
    good = (cdOuter tagOFFLD (bNat b 8 8) (digList { x with digs := x.digs ++ [(x.pos / chunkBytes, sha256 y)] }) == (b.drop 0x20).take 32) →
    ∃ t, exec (.copyPrefetch d now) s = .next t ∧ (good = true → endsAs t d x.note 0 0) ∧
      (good = false → endsAs t d stOFFLOAD_CHECK 0 0 ∧ (ctxOf t c).sflags &&& 136 = 136 ∧ (ctxOf t c).unrec = ((ctxOf z c).unrec || (ctxOf z c).glossOpen))) ∧
  (∀ s d sign i x c y, (sign, i) ∈ [(false, Instr.copyTopk d), (true, .copySign d)] → descReady s d dtCOPY 3 = some x → dCtx s x = some c →
    dNat x 0x30 1 = (if sign then 1 else 0) → y = xfOf x →
    (xfOk s c x y = false → ∃ t, exec i s = .next t ∧ endsAs t d stFORMAT 0 0 ∧ t.spm = s.spm ∧ t.hbm = s.hbm) ∧
    (∀ v gb rb, xfOk s c x y = true → xfRegion s c y = some v →
      areaGather s c 48 y.grad (y.n * fw y.gf) (dKey x) (.desc d) = (s, .done gb false false) →
      areaGather s c 48 (viewRef v v.vc) v.bytes (dKey x) (.desc d) = (s, .done rb false false) →
      (areaCheck s c 48 y.out (xfBlocks y * xfBlockBytes y sign) (dKey x) true).isNone = true →
      let es := ((elems y.gf gb).zip (elems y.rf rb)).map fun p => rndEl 0 (numAdd false p.1 p.2)
      let r := (List.range (xfBlocks y)).foldl (fun s k =>
        let o := if sign then signBlock y ((es.drop (y.cb * k)).take y.cb) else topkBlock y ((es.drop (y.cb * k)).take y.cb)
        areaStore (areaStore s c 48 (y.out + k * xfBlockBytes y sign) o.1 false) c 48 (viewRef v (v.vs + k * y.cb * fw y.rf)) o.2 false) s
      ∃ t, exec i s = .next t ∧ endsAs t d x.note 0 0 ∧ t.spm = r.spm ∧ t.hbm = r.hbm ∧ t.hostOut = r.hostOut)) ∧
  (∀ s d sign i x c y b, (sign, i) ∈ [(false, Instr.copyExpandTopk d), (true, .copyExpandSign d)] → descReady s d dtCOPY 3 = some x → dCtx s x = some c →
    dNat x 0x30 1 = (if sign then 3 else 2) → y = xfOf x → xfOk s c x y = true →
    areaGather s c 48 y.grad (y.g * (xfBlocks y * xfBlockBytes y sign)) (dKey x) (.desc d) = (s, .done b false false) →
    (areaCheck s c 48 y.out (y.n * fw y.of_) (dKey x) true).isNone = true →
    let sums := (List.range y.n).map fun k => numSum ((List.range y.g).map fun m =>
      decEl y sign ((b.drop (m * (xfBlocks y * xfBlockBytes y sign))).take (xfBlocks y * xfBlockBytes y sign)) k)
    let r := areaStore s c 48 y.out (sums.flatMap (encEl y.of_)) false
    ∃ t, exec i s = .next t ∧ endsAs t d x.note 0 0 ∧ t.spm = r.spm ∧ t.hbm = r.hbm ∧ t.hostOut = r.hostOut)

/-! ### Command rings (chapter 17) -/

/-- R516, R518 to R520, R537, R540: a doorbell within its bounds moves the tail or the released count and one beyond them does not; a fetch asks the
host for the slots from the head count on; a committed slot joins the fetch buffer and advances the head count, an uncommitted one is read again a
microsecond later, and a failed fetch stops the ring; a flush empties the buffer; enabling a ring starts its counts at zero. Where the rules leave a
point open it rests on the model's reading or choice in assumption log 70. -/
def Obligations.RingsAreFetched : Prop :=
  (∀ s f k i data z v d, k < 12 → i < 16 → barOpen s = true → f = 0 ∨ (f = k + 1 ∧ (fnOf s f).enabled = true ∧ (fnOf s f).flr = 0) →
    data.length = 4 ∨ data.length = 8 → z = wakeBy s 0 → v = leNat (data.take 4) → sqOn z k i = true → d = (v + 2 ^ 32 - sqHC z k i) % 2 ^ 32 →
    ∃ t, exec (.sqDoorbell f k i data false) s = .next t ∧ (sqOf t k i).stall = none ∧ (sqOf t k i).buf = (sqOf z k i).buf ∧
      (0 < d → d ≤ sqN z k i → d < 2 ^ 31 → (sqOf z k i).tc = sqHC z k i → (sqOf t k i).tc = v) ∧
      (d = 0 ∨ 2 ^ 31 ≤ d ∨ sqN z k i < d → (sqOf t k i).tc = (sqOf z k i).tc)) ∧
  (∀ s f k m i data z v, k < 12 → m < 5 → i = (if m < 4 then Instr.cqDoorbell f k m data false else .eqDoorbell f k data false) →
    barOpen s = true → f = 0 ∨ (f = k + 1 ∧ (fnOf s f).enabled = true ∧ (fnOf s f).flr = 0) → data.length = 4 ∨ data.length = 8 →
    z = wakeBy s 0 → v = leNat (data.take 4) → cqOn z k m = true → partState z k ≠ 3 →
    ∃ t, exec i s = .next t ∧
      ((v + 2 ^ 32 - rcOf z k m) % 2 ^ 32 ≤ (fld z (aPART_CQ_STATE k m) 31 0 + 2 ^ 32 - rcOf z k m) % 2 ^ 32 → rcOf t k m = v) ∧
      ((fld z (aPART_CQ_STATE k m) 31 0 + 2 ^ 32 - rcOf z k m) % 2 ^ 32 < (v + 2 ^ 32 - rcOf z k m) % 2 ^ 32 → rcOf t k m = rcOf z k m)) ∧
  (∀ s f k i data, k < 12 → i < 16 → barOpen s = true → f = 0 → (data.length = 4 ∨ data.length = 8) →
    exec (.sqDoorbell f k i data true) s = .next (aerPoisoned (badAccess s) f)) ∧
  (∀ s k i want addr n, k < 12 → i < 16 → sqOn s k i = true → pwrState s = 0 → sqStopped s k i = false → (sqOf s k i).stall = none →
    fetchOut s (16 * k + i) = false → addr = fld s (aPART_SQ_BASE k i) 63 12 * 4096 + sqHC s k i % sqN s k i * 64 →
    want = min (min (64 - (sqOf s k i).buf.length) (((sqOf s k i).tc + 2 ^ 32 - sqHC s k i) % 2 ^ 32))
      (min (sqN s k i - sqHC s k i % sqN s k i) ((4096 - addr % 4096) / 64)) → 0 < want →
    fnSends s (vfOf k) = true → freeTracker s (vfOf k) = some n → ∃ t, exec (.ringFetch k i) s = .next t ∧
      t.hostOut = s.hostOut ++ [.read (vfOf k) (n + 1024 * (fnOf s (vfOf k)).gen) addr (64 * want) false false] ∧
      (mapFind t.trackers n).map (·.work) = some (.fetch (16 * k + i) (sqHC s k i) want)) ∧
  (∀ s k i now z rest a b, k < 12 → i < 16 → z = atTime s now → z.answers = a :: rest → a.work = .fetch (16 * k + i) (sqHC z k i) 1 →
    a.dropped = false → sqOn z k i = true → sqStopped z k i = false → b = (ansBytes a).take 64 →
    (a.failed = true → ∃ t, exec (.fetchCompletion k i now) s = .next t ∧ (sqOf t k i).buf = (sqOf z k i).buf ∧ sqStopped t k i = true ∧ t.answers = rest) ∧
    (a.failed = false → ansPoison a = false →
      ∃ t, exec (.fetchCompletion k i now) s = .next t ∧ t.answers = rest ∧
        (leNat (b.drop 63) / 128 = phaseOf (sqN z k i) (sqHC z k i) → (sqOf t k i).buf = (sqOf z k i).buf ++ [(sqHC z k i, b)] ∧
          sqHC t k i = (sqHC z k i + 1) % 2 ^ 32) ∧
        (leNat (b.drop 63) / 128 ≠ phaseOf (sqN z k i) (sqHC z k i) → (sqOf t k i).stall = some z.tense.toNat ∧
          (sqOf t k i).buf = (sqOf z k i).buf ∧ sqHC t k i = sqHC z k i))) ∧
  (∀ s k i now z, k < 12 → i < 16 → z = atTime s now →
    (∀ w, (sqOf z k i).stall = some w → z.tense.toNat < w + 1000 → exec (.slotReread k i now) s = .next { z with pending := s.pending }) ∧
    (∀ w, (sqOf z k i).stall = some w → w + 1000 ≤ z.tense.toNat → ∃ t, exec (.slotReread k i now) s = .next t ∧ (sqOf t k i).stall = none)) ∧
  (∀ s k i v, k < 12 → i < 16 → strobeOf s (aPART_SQ_CTL k i) 6 = some v → ∃ t, exec (.sqFlush k i) s = .next t ∧ (sqOf t k i).buf = [] ∧
    (sqOf t k i).hold = none ∧ (sqOf t k i).stall = none ∧ sqHC t k i = (sqHC s k i / sqN s k i + 1) * sqN s k i % 2 ^ 32 ∧
    (sqOf t k i).tc = sqHC t k i ∧ sqStopped t k i = false ∧ strobeOf t (aPART_SQ_CTL k i) 6 = none) ∧
  (∀ s k i, k < 12 → i < 16 → strobeOf s (aPART_SQ_CTL k i) 0 = some 2 → ∃ t, exec (.ringEnable k i) s = .next t ∧ sqHC t k i = 0 ∧
    (sqOf t k i).tc = 0 ∧ strobeOf t (aPART_SQ_CTL k i) 0 = none) ∧
  (∀ s k m, k < 12 → m < 5 → strobeOf s (aPART_CQ_CTL k m) 0 = some 2 → ∃ t, exec (.ringEnable k (16 + m)) s = .next t ∧
    fld t (aPART_CQ_STATE k m) 31 0 = 0 ∧ fld t (aPART_CQ_STATE k m) 32 32 = 1 ∧ rcOf t k m = 0)

/-- R521 to R525, R534, R536: a descriptor at the front of a fetch buffer is accepted with a reserved entry, refused where a check fails, or dropped
with a signal of ERROR where its completion ring is disabled; an ended descriptor signals, writes its entry and advances the write count. Where the
rules leave a point open it rests on the model's reading or choice in assumption log 45 and 56. -/
def Obligations.DescriptorsAreAcceptedAndCompleted : Prop :=
  (∀ s k i now z b n d m rest, k < 12 → i < 16 → z = atTime s now → (sqOf z k i).buf = (n, b) :: rest → sqOn z k i = true → sqStopped z k i = false →
    (sqOf z k i).hold = none → partActive z k = true → pwrState z = 0 →
    d = { part := k, sq := i, count := n, bytes := b, since := z.tense.toNat } → m = dCq d →
    (dNocq d = false → cqOn z k m = true → ringRoom z k m = false →
      exec (.descriptorAccept k i now) s = .next { z with pending := s.pending }) ∧
    (dNocq d = false → cqOn z k m = false → ∃ t, exec (.descriptorAccept k i now) s = .next t ∧ t.nextDesc = z.nextDesc ∧ t.descs = z.descs) ∧
    (dNocq d = true ∨ (cqOn z k m = true ∧ ringRoom z k m = true) →
      (∀ st, dCheck z { d with signals := dSignals z d, cq := (if dNocq d then none else some m), resv := !dNocq d } = some st →
        ∃ t, exec (.descriptorAccept k i now) s = .next t ∧ endsAs t z.nextDesc st 0 0 ∧ t.nextDesc = z.nextDesc + 1 ∧ (sqOf t k i).buf = rest ∧
          resOf t k m = resOf z k m + (if dNocq d then 0 else 1)) ∧
      (dCheck z { d with signals := dSignals z d, cq := (if dNocq d then none else some m), resv := !dNocq d } = none →
        (dType d ≠ dtSOLVE ∧ dType d ≠ dtASSEMBLE ∨ dDefer d = true) →
        ∃ t, exec (.descriptorAccept k i now) s = .next t ∧ t.nextDesc = z.nextDesc + 1 ∧ (sqOf t k i).buf = rest ∧
          mapFind t.descs z.nextDesc = some { d with signals := dSignals z d, cq := (if dNocq d then none else some m), resv := !dNocq d } ∧
          (sqOf t k i).hold = (if dType d = dtWAIT ∨ dType d = dtFENCE then some z.nextDesc else none) ∧
          resOf t k m = resOf z k m + (if dNocq d then 0 else 1)))) ∧
  (∀ s d x st de re s₁, mapFind s.descs d = some x → x.st = .ended st de re → s₁ = descSignal s d x st →
    (x.cq = none → ∃ t, exec (.descriptorCompletion d) s = .next t ∧ mapFind t.descs d = none) ∧
    (∀ m, x.cq = some m → cqOn s₁ x.part m = false → exec (.descriptorCompletion d) s = .next { s₁ with pending := s.pending }) ∧
    (∀ m wc n, x.cq = some m → cqOn s₁ x.part m = true → x.resv = true ∨ ringRoom s₁ x.part m = true → wc = fld s₁ (aPART_CQ_STATE x.part m) 31 0 →
      n = 2 ^ fld s₁ (aPART_CQ_CTL x.part m) 5 1 → fnSends s₁ (vfOf x.part) = true → fld s₁ (aPART_CQ_CTL x.part m) 6 6 = 0 →
      ∃ t, exec (.descriptorCompletion d) s = .next t ∧ mapFind t.descs d = none ∧
        fld t (aPART_CQ_STATE x.part m) 31 0 = (wc + 1) % 2 ^ 32 ∧
        t.hostOut = s₁.hostOut ++ [.write (vfOf x.part) (regGet s₁ (aPART_CQ_BASE x.part m) / 4096 * 4096 + wc % n * 32)
          ((cqBody s₁ x st de re).take 31 ++ [BitVec.ofNat 8 (128 * phaseOf n wc)]) false false false] ∧
        resOf t x.part m = resOf s₁ x.part m - (if x.resv then 1 else 0)))

/-! ### The host link (chapter 16) -/

/-- R488, R491, R492: a memory window read is answered with the partition memory's bytes, with Unsupported Request where it is not aligned or lies
outside, with Completer Abort where a stack is offline; a window write stores its bytes, and one that is poisoned or not aligned is discarded and
counted; an AtomicOp completes with Unsupported Request. Where the rules leave a point open it rests on the model's reading or choice in assumption
log 20 and 72. -/
def Obligations.HostWindowsReachMemory : Prop :=
  (∀ s f off n k a, hostUp s = true → devReady s = true → inEllipsis s = false → winAddr s f off = some (k, a) →
    (barAligned off n = false ∨ pmSize s k < a + n →
      exec (.memoryWindowRead f off n) s = .next { s with hostOut := s.hostOut ++ [.cpl f 1 [] false] }) ∧
    (barAligned off n = true → a + n ≤ pmSize s k → pmOffline s k a n = true →
      exec (.memoryWindowRead f off n) s = .next { s with hostOut := s.hostOut ++ [.cpl f 4 [] false] }) ∧
    (barAligned off n = true → a + n ≤ pmSize s k → pmOffline s k a n = false →
      exec (.memoryWindowRead f off n) s = .next { s with hostOut := s.hostOut ++ [.cpl f 0 (pmRead s k a n).1 (pmRead s k a n).2] })) ∧
  (∀ s f off data k a, barOpen s = true → inEllipsis s = false → winAddr s f off = some (k, a) →
    (barAligned off data.length = true → barAligned a data.length = true → a + data.length ≤ pmSize s k → pmOffline s k a data.length = false →
      ∃ t, exec (.memoryWindowWrite f off data false) s = .next t ∧ t.regs = s.regs ∧ t.hostOut = s.hostOut ∧
        ∀ i, i < data.length → memByte t.hbm (pmIx s k (a + i)) = data.getD i 0#8) ∧
    (barAligned off data.length = false → ∃ t, exec (.memoryWindowWrite f off data false) s = .next t ∧ t.hbm = s.hbm ∧
      fld t aPCI_HOST_STATUS 31 16 = satAdd 16 (fld s aPCI_HOST_STATUS 31 16) 1) ∧
    (∃ t, exec (.memoryWindowWrite f off data true) s = .next t ∧ t.hbm = s.hbm ∧ bit (fnOf t f).aer 12 = true ∧
      fld t aPCI_HOST_STATUS 31 16 = satAdd 16 (fld s aPCI_HOST_STATUS 31 16) 1)) ∧
  (∀ s f, hostUp s = true → exec (.atomicopReceived f) s = .next { s with hostOut := s.hostOut ++ [.cpl f 1 [] false] })

/-- R488, R489, R495, R497 to R501: clearing Bus Master Enable and D3hot stop a function's requests, setting it sends what was held; the virtual
functions that the host enables exist; a completion answers the read of its tracker and frees it, one that matches none is counted, a read without an
answer times out; a function-level reset stops a function, and when it is done its state is as after reset but for its generation. Where the rules
leave a point open it rests on the model's reading or choice in assumption log 20 and 71. -/
def Obligations.HostFunctionsSendAndReset : Prop :=
  (∀ s f, f ≤ 12 → hostUp s = true → devReady s = true → (fnOf s f).flr = 0 →
    (∃ t, exec (.busMasterEnableClear f) s = .next t ∧ fnSends t f = false ∧ (fnOf t f).held = (fnOf s f).held) ∧
    ((fnOf s f).d3hot = false → ∃ t, exec (.busMasterEnableSet f) s = .next t ∧ (fnOf t f).bme = true ∧
      (fnSends t f = true → (fnOf t f).held = [] ∧ (fnOf t f).msixPend = 0 ∧
        ∃ ms, t.hostOut = s.hostOut ++ (fnOf s f).held ++ ms)) ∧
    (∃ t, exec (.d3hotEntry f) s = .next t ∧ (fnOf t f).d3hot = true ∧ (fnOf t f).bme = false) ∧
    (∃ t, exec (.functionLevelReset f false) s = .next t ∧ (fnOf t f).flr = 4 ∧ fnSends t f = false)) ∧
  (∀ s num on, hostUp s = true → devReady s = true → (fnOf s 0).flr = 0 → ∃ t, exec (.vfEnable num on) s = .next t ∧
    ∀ i, i < 12 → (fnOf t (i + 1)).enabled = (on && decide (i + 1 ≤ num))) ∧
  (∀ s f tag status off data ep last,
    (cplTracker s f tag = none → ∃ t, exec (.hostCompletion f tag status off data ep last) s = .next t ∧ t.answers = s.answers ∧
      t.trackers = s.trackers ∧ fld t aPCI_HOST_STATUS 15 0 = satAdd 16 (fld s aPCI_HOST_STATUS 15 0) 1) ∧
    (∀ x, cplTracker s f tag = some x → x.dropped = false → status ≠ 0 →
      ∃ t, exec (.hostCompletion f tag status off data ep last) s = .next t ∧ mapFind t.trackers (tag % 1024) = none ∧
        t.answers = s.answers ++ [{ work := x.work, addr := x.addr, len := x.len, got := x.got, failed := true }]) ∧
    (∀ x, cplTracker s f tag = some x → x.dropped = false →
      (∃ t, exec (.hostCompletion f tag 0 off data ep true) s = .next t ∧ mapFind t.trackers (tag % 1024) = none ∧
        t.answers = s.answers ++ [{ work := x.work, addr := x.addr, len := x.len, got := x.got ++ [(off, data, ep)] }]) ∧
      (∃ t, exec (.hostCompletion f tag 0 off data ep false) s = .next t ∧ t.answers = s.answers ∧
        mapFind t.trackers (tag % 1024) = some { x with got := x.got ++ [(off, data, ep)] }))) ∧
  (∀ s i x, mapFind s.trackers i = some x → x.dropped = false → ∃ t, exec (.completionTimeout i) s = .next t ∧ mapFind t.trackers i = none ∧
    bit (fnOf t x.fn).aer 14 = true ∧ t.answers = s.answers ++ [{ work := x.work, addr := x.addr, len := x.len, got := x.got, failed := true }]) ∧
  (∀ s f, f ≤ 12 → hostUp s = true → devReady s = true → (fnOf s f).flr ≠ 0 →
    (0 < f → ∃ t, exec (.functionLevelReset f true) s = .next t ∧ (fnOf t f).flr = 0 ∧ (fnOf t f).bme = false ∧ (fnOf t f).d3hot = false ∧
      (fnOf t f).held = [] ∧ (fnOf t f).msixPend = 0 ∧ regGet t (aPART_XLAT (f - 1)) = 0 ∧ regGet t (aPART_MEMWIN (f - 1)) = 0) ∧
    (f = 0 → ∃ t, exec (.functionLevelReset f true) s = .next t ∧ ∀ i, (fnOf t i).enabled = false))

/-- R505 to R509: a walk that succeeds puts its page in the cache of its ring stop, one that fails records its cause and level, and an access that
the cache holds walks nothing; an invalidation is busy until the range is out of the partition's caches. Where the rules leave a point open it rests
on the model's reading or choice in assumption log 20. -/
def Obligations.TranslationsAreCached : Prop :=
  (∀ s k sl dva w ev a, k < 12 → a = dva % 2 ^ 48 →
    ((mapFind s.xcache (xStop s k sl * 2 ^ 32 + a / 65536)).isSome = true → exec (.translationWalk k sl dva w ev) s = .next s) ∧
    (mapFind s.xcache (xStop s k sl * 2 ^ 32 + a / 65536) = none → s.xseen = [] →
      (fld s (aPART_XLAT k) 0 0 = 0 → ∃ t, exec (.translationWalk k sl dva w ev) s = .next t ∧
        regGet t (aPART_XLAT_FAULT k) = xFaultImage a xNOT_VALID 0 w ∧ t.xcache = s.xcache) ∧
      (∀ lvl tb, fld s (aPART_XLAT k) 0 0 = 1 → xDeep s k a (fld s (aPART_XLAT k) 51 12 * 4096) = (lvl, tb) →
        (∀ c l, xWalk s k a (4 - lvl) tb lvl = .error (c, l) → ∃ t, exec (.translationWalk k sl dva w ev) s = .next t ∧
          regGet t (aPART_XLAT_FAULT k) = xFaultImage a c l w % 2 ^ 64 ∧ t.xcache = s.xcache) ∧
        (∀ e, xWalk s k a (4 - lvl) tb lvl = .ok e → ∃ t, exec (.translationWalk k sl dva w ev) s = .next t ∧
          mapFind t.xcache (xStop s k sl * 2 ^ 32 + a / 65536) = some { e with oa := e.oa - a % 65536 })))) ∧
  (∀ s k v, k < 12 → strobeOf s (aPART_XLAT_INV k) 61 = some v → ∃ t, exec (.xlatInvalidate k) s = .next t ∧
    fld t (aPART_XLAT_INV k) 62 62 = 1 ∧ t.xcache = s.xcache) ∧
  (∀ s k, k < 12 → fld s (aPART_XLAT_INV k) 62 62 = 1 → ∃ t, exec (.xlatInvalidateDone k) s = .next t ∧
    fld t (aPART_XLAT_INV k) 62 62 = 0 ∧ fld t (aPART_XLAT_INV k) 63 63 = 1 ∧ (∀ x, x ∈ t.xcache → x ∈ s.xcache) ∧
    (∀ x, x ∈ s.xcache → x.1 / 2 ^ 32 ∉ partSlices s k → x ∈ t.xcache) ∧
    (∀ x, x ∈ t.xcache → x.1 / 2 ^ 32 ∈ partSlices s k → fld s (aPART_XLAT_INV k) 60 60 = 0 ∧
      (x.1 % 2 ^ 32 < fld s (aPART_XLAT_INV k) 47 16 ∨
        fld s (aPART_XLAT_INV k) 47 16 + fld s (aPART_XLAT_INV2 k) 31 0 ≤ x.1 % 2 ^ 32)))

/-! ### Partitions and custody (chapter 18) -/

/-- R544, R549, R551: a FORM that no rule refuses makes the partition FORMING, one that a rule refuses leaves its ERR; 400 µs later the partition is
ACTIVE; a TEARDOWN closes its handles; a wipe clears its keys, its slices' memories and its translations, and leaves it free. Where the rules leave a
point open it rests on the model's reading or choice in assumption log 75 to 77. -/
def Obligations.PartitionsFormAndEnd : Prop :=
  (∀ s k now z v e, k < 12 → z = atTime s now → strobeOf z (aPART_CFG k) 14 = some v → v < 1024 → pwrState z = 0 →
    e = formErr (strobeClr z (aPART_CFG k) 14) k (fld z (aPART_CFG k) 11 0) (bit v 8) false →
    (e = 0 → ∃ t, exec (.partForm k now) s = .next t ∧ partState t k = 1 ∧ fld t (aPART_CFG k) 11 0 = fld z (aPART_CFG k) 11 0 ∧
      mapGet 0 t.cust.formAt k = z.tense.toNat) ∧
    (0 < e → e < 16 → ∃ t, exec (.partForm k now) s = .next t ∧ fld t (aPART_CFG k) 19 16 = e ∧ partState t k = partState z k) ∧
    (e = 16 → ∃ t, exec (.partForm k now) s = .next t ∧ t.free = z.free + 1 ∧ partState t k = partState z k)) ∧
  (∀ s k now z bst bdm, k < 12 → z = atTime s now → partState z k = 1 →
    (z.tense.toNat < mapGet 0 z.cust.formAt k + 400000 → exec (.partitionActive k now bst bdm) s = .next { z with pending := s.pending }) ∧
    (mapGet 0 z.cust.formAt k + 400000 ≤ z.tense.toNat → ∃ t, exec (.partitionActive k now bst bdm) s = .next t ∧ partState t k = 2)) ∧
  (∀ s k now z v, k < 12 → z = atTime s now → strobeOf z (aPART_CFG k) 15 = some v → pwrState z = 0 → partState z k = 1 ∨ partState z k = 2 →
    ∃ t, exec (.partTeardown k now) s = .next t ∧ ∀ h, h ∈ t.handles → h.1 / 1024 ≠ k) ∧
  (∀ s k now z, k < 12 → z = atTime s now → partState z k = 3 →
    (z.trackers.any (fun x => x.2.fn == vfOf k) = true → exec (.wipe k now) s = .next { z with pending := s.pending }) ∧
    (z.trackers.any (fun x => x.2.fn == vfOf k) = false → ∃ t, exec (.wipe k now) s = .next t ∧ partState t k = 0 ∧
      (∀ j, j < 8 → regGet t (aPART_KEY k j) = 0) ∧ (∀ x, x ∈ t.xtab → x.1 / 2 ^ 48 ≠ k) ∧
      ∀ sl b, sl ∈ partSlices z k → b < 50331648 → memByte t.spm (spmIx sl 0 0 + b) = 0#8))

/-- R554 to R557, R640, R641: a lifecycle request is taken as a whole, decided once, and burns the fuses and resets the device only where no rule
refuses it; a staged image is written to the other bank only where every check passes; COMMIT raises the minimum SVN. Where the rules leave a point
open it rests on the model's reading or choice in assumption log 73 and 74. -/
def Obligations.CustodyIsDecided : Prop :=
  (∀ s v, strobeOf s aSYN_LC_CMD 0 = some v → fld s aSYN_LC_CMD 1 1 = 0 → ∃ t, exec .lifecycleSubmit s = .next t ∧
    fld t aSYN_LC_CMD 1 1 = 1 ∧ t.lcWork = (List.range 272).map (fun i => mapGet 0#8 s.lcReq i) ∧ t.nvm = s.nvm) ∧
  (∀ s now z e, z = atTime s now → fld z aSYN_LC_CMD 1 1 = 1 → pwrState z = 0 → e = lcDecide z z.lcWork →
    (e ≠ 0 → ∃ t, exec (.lifecycleDecision now) s = .next t ∧ fld t aSYN_LC_CMD 15 8 = e ∧ fld t aSYN_LC_CMD 1 1 = 0 ∧
      fld t aSYN_LC_CMD 2 2 = 1 ∧ t.nvm = z.nvm) ∧
    (e = 0 → ∃ t, exec (.lifecycleDecision now) s = .next t ∧ t.nvm = lcFuses z.nvm z.lcWork ∧ t.pins.reset = true)) ∧
  (∀ s v, strobeOf s aSYN_FW_STAGE 0 = some v →
    (fld s aSYN_FW_STATUS 2 0 = 1 → ∃ t, exec .firmwareStageGo s = .next t ∧ t.audit = s.audit ∧ t.cust = s.cust) ∧
    (fld s aSYN_FW_STATUS 2 0 ≠ 1 → ∃ t, exec .firmwareStageGo s = .next t ∧ fld t aSYN_FW_STATUS 2 0 = 1 ∧ t.cust.fwData = [])) ∧
  (∀ s now z n b, z = atTime s now → fld z aSYN_FW_STATUS 2 0 = 1 → n = fld z aSYN_FW_LEN 31 0 → 512 ≤ n → n ≤ 8388608 + 512 →
    bit (regGet z aSYN_FW_LEN) 32 = true → b = (List.range n).map (fun i => mapGet 0#8 z.fwBuf i) →
    (fwCheck z b = true → ∃ t, exec (.firmwareStagingDone now) s = .next t ∧ fld t aSYN_FW_STATUS 2 0 = 2 ∧
      t.nvm = { z.nvm with banks := z.nvm.banks.set (1 - fwBank z) b, newer := 1 - fwBank z }) ∧
    (fwCheck z b = false → ∃ t, exec (.firmwareStagingDone now) s = .next t ∧ fld t aSYN_FW_STATUS 2 0 = 3 ∧ t.nvm = z.nvm)) ∧
  (∀ s v, strobeOf s aSYN_FW_STATUS 3 = some v → ∃ t, exec .commitSvn s = .next t ∧
    t.nvm = { s.nvm with minSvn := max s.nvm.minSvn (fld s aSYN_FW_STATUS 63 32) })

/-! ### Power, temperature and Ellipsis (chapter 19) -/

/-- R568, R570, R572 to R575, R579, R589, R592, R657: the set points of the powered domains follow their demands, ceilings and floors; the estimate
is the mean of its latest; the hottest good sensor rules a slice, holds it at 105 °C and trips the device at 115 °C; a rail below its warning level
opens a dip, whose end raises its domains for ten seconds; a provisional record is renewed or made stale. Where the rules leave a point open it rests
on the model's reading or choice in assumption log 78 to 80, 83, 84 and 88. -/
def Obligations.PowerFollowsReadings : Prop :=
  (∀ s now z z' steps over_, z = atTime s now → periodic z 0 100000 = some z' → ∃ t, exec (.setPointUpdate now steps over_) s = .next t ∧
    (∀ d, d < 41 → domOn t d = true → fld t (aPWR_DOM d) 7 0 = spOf t d) ∧ (over_ = false → fld t aPWR_STATUS 3 3 = 0)) ∧
  (∀ s now z steps over_, z = atTime s now → periodic z 0 100000 = none →
    exec (.setPointUpdate now steps over_) s = .next { z with pending := s.pending }) ∧
  (∀ s now z z' doms h b, z = atTime s now → periodic z 1 10000 = some z' → ∃ t, exec (.powerEstimate now doms h b) s = .next t ∧
    t.pwr.est = ((((doms.take 42).sum + (h + b) : Nat) + z.pwr.corr).toNat, doms) :: z.pwr.est.take 9 ∧
    fld t aPWR_STATUS 31 16 = min 65535 ((t.pwr.est.map (·.1)).sum / t.pwr.est.length / 10)) ∧
  (∀ s now z z' rs, z = atTime s now → periodic z 2 1000000 = some z' →
    ∃ t, exec (.pmbusCorrection now rs) s = .next t ∧ t.pwr.corr = (rs.map fun r => r.getD 0).sum) ∧
  (∀ s words, s.pins.reset = false → ∃ t, exec (.pmbusAlert words) s = .next t ∧ t.pins.alert = true) ∧
  (∀ s now z z' temps i good, z = atTime s now → periodic z 3 10000 = some z' → i < 14 →
    good = ((sensorCheck ((sensorSet i).map fun n => temps.getD n 0)).filter fun x => !x.2).map (·.1) → good ≠ [] →
    ∃ t, exec (.junctionSensorRead now temps) s = .next t ∧ mapGet 0 t.pwr.tj i = toTwos 8 (good.tail.foldl max (good.headD 0)) ∧
      (105 ≤ good.tail.foldl max (good.headD 0) → i ∈ t.pwr.therm) ∧ (good.tail.foldl max (good.headD 0) < 100 → i ∉ t.pwr.therm) ∧
      (115 ≤ good.tail.foldl max (good.headD 0) → t.pins.trip = true)) ∧
  (∀ s d a b tele now z z', d < 41 → z = atTime s now → domOn z d = true → periodic z (100 + d) 20 = some z' →
    ((monitorPick a b tele).2 = true → ∃ t, exec (.railMonitorSample d a b tele now) s = .next t ∧ d ∈ t.pwr.mism) ∧
    ((monitorPick a b tele).2 = false → d ∈ z.pwr.seen → z.pwr.dip = none →
      ∃ t, exec (.railMonitorSample d a b tele now) s = .next t ∧ fld t (aPWR_DOM d) 15 8 = min 255 (min a b / 5) ∧
        t.pwr.dip = (if min a b < warnLevel z d then
          some { start := z.tense.toNat, doms := [(d, none)], minV := min a b, minDom := d } else none))) ∧
  (∀ s now z e, z = atTime s now → z.pwr.dip = some e → (e.doms.all fun d => match d.2 with
      | some t => decide (t + 1000 ≤ z.tense.toNat) | none => false) = true →
    ∃ t, exec (.dipEventEnd now) s = .next t ∧ t.pwr.dip = none ∧ fld t aPWR_DIP 47 0 = e.start % 2 ^ 48 ∧
      fld t aPWR_STATUS 47 32 = satAdd 16 (fld z aPWR_STATUS 47 32) 1 ∧
      ∀ d, d ∈ e.doms.map (·.1) → mapFind t.pwr.raise d = some (z.tense.toNat + 10000000000)) ∧
  (∀ s d now z u, d < 41 → z = atTime s now → mapFind z.pwr.raise d = some u →
    (z.tense.toNat < u → exec (.dipRaiseExpiry d now) s = .next { z with pending := s.pending }) ∧
    (u ≤ z.tense.toNat → ∃ t, exec (.dipRaiseExpiry d now) s = .next t ∧ mapFind t.pwr.raise d = none ∧ fld t (aPWR_DOM d) 17 17 = 0)) ∧
  (∀ s sl kind ok data now z r, sl < 12 → kind < 3 → z = atTime s now → calRec z sl kind = some r → r.st = 1 → r.cls < loadClass z sl →
    mapGet 0 z.pwr.clsAt sl + 5000000000 ≤ z.tense.toNat → z.pwr.dip = none → ∃ t, exec (.recordRevalidation sl kind ok data now) s = .next t ∧
      (ok = true → calRec t sl kind = some { r with st := 0, cls := loadClass z sl, tense := z.tense.toNat, data := data }) ∧
      (ok = false → calRec t sl kind = some { r with st := 2 } ∧ sl ∈ t.pwr.calDue))

/-- R581 to R584: a request to sleep is refused or begins the entry; once nothing runs the domains of the slices are off; a wake ramps them and is
complete after 400 µs. Where the rules leave a point open it rests on the model's reading or choice in assumption log 82, 85 and 86. -/
def Obligations.EllipsisEntersAndWakes : Prop :=
  (∀ s now z i v, z = atTime s now → (strobeOf z aPWR_CTL 0 = some v ∧ i = Instr.pwrSleep now ∨ fld z aPWR_CTL 2 2 = 1 ∧ devReady z = true ∧ pwrState z = 0 ∧
      workRuns z = false ∧ z.pwr.workAt + 1000000 * fld z aPWR_CTL 31 16 ≤ z.tense.toNat ∧ i = .idleSleep now) →
    (sleepRefused z = true → ∃ t, exec i s = .next t ∧ fld t aPWR_STATUS 6 6 = 1 ∧ pwrState t = pwrState z) ∧
    (sleepRefused z = false → ∃ t, exec i s = .next t ∧ pwrState t = 1)) ∧
  (∀ s now z, z = atTime s now → pwrState z = 1 → (∀ k, k < 12 → runningOf z k = none) → (∀ d, d ∈ z.descs → descSettled d.2 = true) →
    ∃ t, exec (.ellipsisEntered now) s = .next t ∧ pwrState t = 2 ∧ ∀ d, d < 36 → domOn t d = false) ∧
  (∀ s now z src, z = atTime s now → pwrState z = 2 → z.wakeWant = some src →
    ∃ t, exec (.pwrWake now) s = .next t ∧ pwrState t = 3 ∧ t.wakeWant = none ∧ t.pwr.t0 = z.tense.toNat ∧
      fld t aPWR_STATUS 63 48 = satAdd 16 (fld z aPWR_STATUS 63 48) 1) ∧
  (∀ s now z bst bdm, z = atTime s now → pwrState z = 3 →
    (z.tense.toNat < z.pwr.t0 + 400000 → exec (.wakeComplete now bst bdm) s = .next { z with pending := s.pending }) ∧
    (z.pwr.t0 + 400000 ≤ z.tense.toNat → ∃ t, exec (.wakeComplete now bst bdm) s = .next t ∧ pwrState t = 0))

/-! ### Maintenance, tests and reports (chapter 20) -/

/-- R533, R600 to R606: a MAINT START takes its share of the slice's token or is refused; an activity goes on once its slice is out of service; it
ends by itself, or ABORTED; a unit that fails its quick test is RETIRED; no STRESS lengthens a trim by more than three codes, or raises an offset
beyond 40 mV. Where the rules leave a point open it rests on the model's reading or choice in assumption log 89. -/
def Obligations.MaintenanceRuns : Prop :=
  (∀ s d sl now z kind i x b s₁, z = atTime s now → s₁ = updDesc z d (fun y => { y with st := .running }) →
    (kind, i) ∈ [(maSTRESS, Instr.maintStartStress d sl now), (maCALIBRATE, .maintStartCalibrate d sl now), (maSTACK_TEST, .maintStartStackTest d sl now),
      (maSCRUB, .maintStartScrub d now), (maUNIT_TEST, .maintStartUnitTest d now)] →
    (z.acts.find? fun a => a.kind == kind && a.slice == sl && !a.out) = none → maintDesc z d 0 kind = some x →
    (dNat x 0x11 1 ∉ partSlices z x.part → ∃ t, exec i s = .next t ∧ endsAs t d stMAINT_SCOPE 0 0) ∧
    (dNat x 0x11 1 ∈ partSlices z x.part → arSpad (dNat x 0x18 8) = false → arSpad (dNat x 0x20 8) = false → auxBytes x = b → b.length = 16 →
      areaCheck s₁ (8 * x.part) 48 (dNat x 0x20 8) 64 0 true = none → (kind = maUNIT_TEST → bNat b 2 1 < 18) →
      let unit := if kind = maUNIT_TEST then bNat b 2 1 else 0xFF
      (tokenOk z kind (dNat x 0x11 1) unit = false → ∃ t, exec i s = .next t ∧ endsAs t d stMAINT_BUSY 0 0 ∧ t.acts = z.acts) ∧
      (tokenOk z kind (dNat x 0x11 1) unit = true → ∃ t a, exec i s = .next t ∧ endsAs t d stOK 0 0 ∧ t.acts = z.acts ++ [a] ∧ a.kind = kind ∧
        a.slice = dNat x 0x11 1 ∧ a.unit = unit ∧ a.part = x.part ∧ a.since = z.tense.toNat ∧ a.out = false))) ∧
  (∀ s d sl now z kind i a, z = atTime s now → (kind, i) ∈ [(maSTRESS, Instr.maintStartStress d sl now), (maCALIBRATE, .maintStartCalibrate d sl now),
      (maSTACK_TEST, .maintStartStackTest d sl now)] → (z.acts.find? fun a => a.kind == kind && a.slice == sl && !a.out) = some a →
    (evacuate z a.slice = .waits → exec i s = .next { z with pending := s.pending }) ∧
    (∀ y, evacuate z a.slice = .done y → a ∈ y.acts → ∃ t, exec i s = .next t ∧ { a with out := true } ∈ t.acts)) ∧
  (∀ s d now z x, z = atTime s now → mapFind z.descs d = some x → x.st = .accepted → dType x = dtMAINT → dForm x = 1 →
    (dNat x 0x11 1 ∉ partSlices z x.part → ∃ t, exec (.maintEnd d now) s = .next t ∧ endsAs t d stMAINT_SCOPE 0 0) ∧
    (dNat x 0x11 1 ∈ partSlices z x.part → (z.acts.find? fun a => a.kind == dNat x 0x10 1 && a.slice == dNat x 0x11 1) = none →
      ∃ t, exec (.maintEnd d now) s = .next t ∧ endsAs t d stOK 0 0) ∧
    (∀ a, dNat x 0x11 1 ∈ partSlices z x.part → (z.acts.find? fun a => a.kind == dNat x 0x10 1 && a.slice == dNat x 0x11 1) = some a → a.kind ≠ 4 →
      exec (.maintEnd d now) s = .next { descEnd (actEnd z a { status := mrABORTED }) d stOK mrABORTED 0 with pending := s.pending })) ∧
  (∀ s kind sl now tests reps data errs z, z = atTime s now →
    ((z.acts.find? fun a => a.kind == kind && a.slice == sl && (a.out || a.kind == 3)) = none →
      exec (.activityEnd kind sl now tests reps data errs) s = .next { z with pending := s.pending }) ∧
    (∀ a, (z.acts.find? fun a => a.kind == kind && a.slice == sl && (a.out || a.kind == 3)) = some a → kind = 3 → errs = [] →
      exec (.activityEnd kind sl now tests reps data errs) s = .next { actEnd z a { status := mrOK } with pending := s.pending }) ∧
    (∀ a, (z.acts.find? fun a => a.kind == kind && a.slice == sl && (a.out || a.kind == 3)) = some a → kind = 1 → (∃ r, r ∈ reps ∧ 4 ≤ r) →
      exec (.activityEnd kind sl now tests reps data errs) s =
        .next { actEnd z a { status := mrDIP_ABANDON, repeats := min 65535 reps.sum } with pending := s.pending })) ∧
  (∀ s sl u now pass z, sl < 12 → u < 18 → z = atTime s now → 32 * sl + u ∈ z.quickQ → tokenOk z maUNIT_TEST sl u = true → unitBusy z sl u = false →
    computeOn z sl = true → ∃ t, exec (.quickTest sl u now pass) s = .next t ∧
      (pass = false → fld t (aRAS_UNIT sl u) 1 0 = 2) ∧ (pass = true → ∀ v, v < 18 → fld t (aRAS_UNIT sl v) 8 8 = 1)) ∧
  (∀ s sl now z, sl < 12 → z = atTime s now → devReady z = true → pwrState z = 0 → stressDue z sl = true → tokenOk z maSTRESS sl 0xFF = true →
    ∃ t a, exec (.scheduledStress sl now) s = .next t ∧ t.acts = z.acts ++ [a] ∧ a.kind = maSTRESS ∧ a.slice = sl) ∧
  (∀ (fuse : Nat) (r : Remedy) (tests : List Nat), r.trim ≤ min 15 (fuse + 3) → r.off ≤ 2 →
    (tests.foldl (stressTest fuse) r).trim ≤ min 15 (fuse + 3) ∧ (tests.foldl (stressTest fuse) r).off ≤ 2)

/-- R591, R594, R595, R597, R598: the scrub of a minute marks what the codes only detected; work whose units are all gone ends; pending records are
sent again every 10 ms; corrected errors are counted in one record a second; a lockstep mismatch resets the device. Where the rules leave a point
open it rests on the model's reading or choice in assumption log 56 and 90. -/
def Obligations.ReportsAndLatentFaults : Prop :=
  (∀ s now ces ues acc z, z = atTime s now →
    (devReady z = false ∨ z.tense.toNat < z.field.scrubAt + 60000000000 → exec (.latentScrub now ces ues acc) s = .next { z with pending := s.pending }) ∧
    (devReady z = true → z.field.scrubAt + 60000000000 ≤ z.tense.toNat → ∃ t, exec (.latentScrub now ces ues acc) s = .next t ∧
      t.field.scrubAt = z.tense.toNat ∧ t.spm.cells = z.spm.cells ∧ ∀ u, u ∈ ues → u.1 < 12 → scratchOn z u.1 = true →
        mapGet false t.spm.poison ((u.1 * 50331648 + u.2 % 50331648 / 32 * 32) / 32) = true)) ∧
  (∀ s prog now z p, z = atTime s now → progOf z prog = some p → p.ended = none → p.comp = none → p.unit = none → p.issue.mtarget = none →
    (kindGone z (p.cid / 8) p.kind = true → ∃ t, exec (.noUnit prog now) s = .next t ∧ progOf t prog = none) ∧
    (kindGone z (p.cid / 8) p.kind = false → exec (.noUnit prog now) s = .next { z with pending := s.pending })) ∧
  (∀ s now z, z = atTime s now →
    (z.tense.toNat < z.field.resentAt + 10000000 → exec (.reportResend now) s = .next { z with pending := s.pending }) ∧
    (z.field.resentAt + 10000000 ≤ z.tense.toNat → ∃ t, exec (.reportResend now) s = .next t ∧ t.field.resentAt = z.tense.toNat ∧ t.reports = z.reports ∧
      (fld z aRAS_CTL 0 0 = 0 → t.mgmtOut = z.mgmtOut) ∧ (fld z aRAS_CTL 0 0 = 1 → ∃ l, t.mgmtOut = z.mgmtOut ++ l ∧ l.flatten = z.reports ∧
        ∀ m, m ∈ l → m.length ≤ 16))) ∧
  (∀ s key now z n, z = atTime s now → mapFind z.corrected key = some n → n ≠ 0 →
    (∀ u, mapFind z.corrAt key = some u → z.tense.toNat < u + 1000000000 → exec (.correctedReport key now) s = .next { z with pending := s.pending }) ∧
    (mapFind z.corrAt key = none ∨ (∃ u, mapFind z.corrAt key = some u ∧ u + 1000000000 ≤ z.tense.toNat) → z.reports.length < 960 →
      ∃ t r, exec (.correctedReport key now) s = .next t ∧ mapFind t.corrected key = none ∧ mapFind t.corrAt key = some z.tense.toNat ∧
        t.reports = z.reports ++ [r] ∧ r.cls = clCORRECTED ∧ r.cause = key / 65536 ∧ r.count = n)) ∧
  (∀ s, s.pins.reset = false → ∃ t, exec .lockstepMismatch s = .next t ∧ t.pins.reset = true ∧ fld t aSYN_RST_CAUSE 3 3 = 1)

/-! ### Device pairs (chapter 20) -/

/-- R607 to R613: pairing begins in SYNCING and ends in OFF; layouts that differ give PAIR_ERR; the views are copied once and the device is PAIRED;
the partner of a MIRROR pair takes a committed step and answers it, and the primary's commit goes on at the answer; a compare word joins those
received; a FAILOVER, a lost partner with automatic promotion, or management's own promotion starts the standby; an END ends the pair. Where the
rules leave a point open it rests on the model's reading or choice in assumption log 67 to 69. -/
def Obligations.PairsFollowTheirMessages : Prop :=
  (∀ s z v, strobeOf s aRAS_PAIR 0 = some v → z = strobeClr s aRAS_PAIR 0 →
    (v = 2 → pairMode z ≠ 0 → z.pair.seen = none → ∃ t, exec .pairingEnable s = .next t ∧ pairState t = 1) ∧
    (v = 2 → pairMode z = 0 → exec .pairingEnable s = .next { z with pending := s.pending }) ∧
    (v = 1 → ∃ t, exec .pairingEnable s = .next t ∧ pairState t = 0 ∧ t.pair = {} ∧ t.mirror = [])) ∧
  (∀ s p bytes pk s₁ l, p = 12 ∨ p = 13 → arrives s p bytes pk s₁ → isPairMsg p 1 pk = true → ∃ t, exec (.pairLayout p false bytes l) s = .next t ∧
    t.pair.seen = some l ∧ (pairState s₁ = 1 → layoutOk s₁ l = false → pairState t = 6) ∧
    (pairState s₁ = 1 → layoutOk s₁ l = true → pairState t = (if pairMode s₁ = 2 then 2 else 1)) ∧ (pairState s₁ ≠ 1 → pairState t = pairState s₁)) ∧
  (∀ s c l, pairCtx s = some c → s.pair.seen = some l → fld s aRAS_PAIR 0 0 = 1 → pairMode s = 1 → pairState s = 1 →
    (layoutOk s l = true → ∃ t, exec .initialViewCopy s = .next t ∧ pairState t = 2) ∧
    (layoutOk s l = false → exec .initialViewCopy s = .next s)) ∧
  (∀ s p bytes pk s₁ c, p = 12 ∨ p = 13 → arrives s p bytes pk s₁ → isPairMsg p 2 pk = true → pairHere s₁ p pk = true → mirrorPartner s₁ = true →
    pairCtx s₁ = some c → (ctxOf s₁ c).table.isSome = true → ∃ t, exec (.pairCommit p false bytes) s = .next t ∧
      (runOf t c).step = pmStep pk + 1 ∧ fld t aRAS_PAIR_STATUS 63 16 = pmStep pk % 2 ^ 48) ∧
  (∀ s p bytes pk s₁ d x, p = 12 ∨ p = 13 → arrives s p bytes pk s₁ → isPairMsg p 3 pk = true → pairHere s₁ p pk = true → pairMode s₁ = 1 →
    pairPrimary s₁ = true → pairState s₁ = 2 → mapFind s₁.descs d = some x → s₁.descs = [(d, x)] → dType x = dtSTEP → dForm x = 1 → x.st = .running →
    x.pos = 3 → cmStep x = pmStep pk → dCtx s₁ x = pairCtx s₁ → ∃ t, exec (.pairCommitAck p false bytes) s = .next t ∧
      mapFind t.descs d = some { x with pos := 4 } ∧ fld t aRAS_PAIR_CNT 63 32 = satAdd 32 (fld s₁ aRAS_PAIR_CNT 63 32) 1) ∧
  (∀ s p bytes pk s₁, p = 12 ∨ p = 13 → arrives s p bytes pk s₁ → isPairMsg p 4 pk = true → pairHere s₁ p pk = true → pairMode s₁ = 2 → pairState s₁ = 2 →
    s₁.pair.got = [] →
    (s₁.pair.own = [] → ∃ t, exec (.pairCmpword p false bytes) s = .next t ∧ t.pair.got = [(pmStep pk, (pk.payload.drop 16).take 32)]) ∧
    (∀ rest, s₁.pair.own = (pmStep pk, (pk.payload.drop 16).take 32) :: rest → ∃ t, exec (.pairCmpword p false bytes) s = .next t ∧
      t.pair.own = rest ∧ pairState t = 2 ∧ fld t aRAS_PAIR_CNT 31 0 = satAdd 32 (fld s₁ aRAS_PAIR_CNT 31 0) 1) ∧
    (∀ w rest, s₁.pair.own = w :: rest → w ≠ (pmStep pk, (pk.payload.drop 16).take 32) → ∃ t, exec (.pairCmpword p false bytes) s = .next t ∧
      pairState t = 5)) ∧
  (∀ s p bytes pk s₁, p = 12 ∨ p = 13 → arrives s p bytes pk s₁ → pairHere s₁ p pk = true →
    (isPairMsg p 5 pk = true → mayPromote s₁ = true → ∃ t, exec (.pairFailover p false bytes) s = .next t ∧ pairState t = 4) ∧
    (isPairMsg p 6 pk = true → pairState s₁ ≠ 4 → ∃ t, exec (.pairEnd p false bytes) s = .next t ∧ pairState t = 0 ∧ t.pair = {})) ∧
  (∀ s now z, z = atTime s now → fld z aRAS_PAIR 0 0 = 1 → pairState z = 1 ∨ pairState z = 2 → pairPorts z ≠ [] →
    (∀ p, p ∈ pairPorts z → (portOf z p).heard + 1000000 ≤ z.tense.toNat) → ∃ t, exec (.partnerLost now) s = .next t ∧
      pairState t = (if fld z aRAS_PAIR 6 6 = 1 ∧ pairMode z = 1 ∧ pairPrimary z = false then 4 else 3) ∧ (pairState t = 3 → t.mirror = [])) ∧
  (∀ s v, strobeOf s aRAS_PAIR 7 = some v → mayPromote s = true → ∃ t, exec .promote s = .next t ∧ pairState t = 4)

/-! ### Resets and the boot (chapter 21) -/

/-- R615 to R618, R627, R628, R656: a power-on reset leaves the fuses and flash; every cold reset holds the device in reset with its cause recorded,
keeps the stacked memory, the fuses and the flash, and drops descriptors, contexts and the scratchpad; PERST_N takes the functions down. Where the
rules leave a point open it rests on the model's reading or choice in assumption log 71, 87 and 92. -/
def Obligations.ResetsClearTheDevice : Prop :=
  (∀ s, ∃ t, exec .powerOnReset s = .next t ∧ t.nvm = s.nvm ∧ t.pins = ({} : Pins) ∧ t.descs = [] ∧ t.ctxs = [] ∧ t.hbm = {} ∧ t.spm = {} ∧
    bootState t = 0) ∧
  (∀ s i cause, (s.pins.coldLow = false ∧ i = Instr.coldRstNAssert ∧ cause = 1) ∨
      (∃ v, strobeOf s aSYN_RESET 8 = some v ∧ i = .synResetCold ∧ cause = (if v = 1 + orgMG then 6 else 5)) ∨
      (∃ d, d < 41 ∧ 100 ≤ mapGet 0 s.pwr.low d ∧ i = .railReset d ∧ cause = 2) →
    ∃ t, exec i s = .next t ∧ fld t aSYN_RST_CAUSE cause cause = 1 ∧ t.pins.reset = true ∧ t.pins.ready = false ∧ t.nvm = s.nvm ∧ t.hbm = s.hbm ∧
      t.spm = {} ∧ t.descs = [] ∧ t.ctxs = [] ∧ t.conj = [] ∧ t.tense = 0 ∧ bootState t = 0) ∧
  (∀ s d, d < 41 → mapGet 0 s.pwr.low d < 100 → exec (.railReset d) s = .next s) ∧
  (∀ s, s.pins.coldLow = true → (∃ t, exec .railEnFall s = .next t ∧ t.pins.railEn = false ∧ t.pwr.rails = []) ∧ exec .coldRstNAssert s = .next s) ∧
  (∀ s, s.pins.perst = false → ∃ t, exec .perstNAssert s = .next t ∧ t.pins.perst = true ∧
    (s.pins.reset = false → ∀ f, (fnOf t f).bme = false ∧ (fnOf t f).enabled = false)) ∧
  (∀ s, ∃ t, exec .perstNRelease s = .next t ∧ t.pins = { s.pins with perst := false })

/-- R619, R620, R623, R625: the boot goes row by row: each row at its state advances it by one and at any other leaves the device as it is; fuses
without a majority and images that all fail stop it; the slices are wiped before READY. Where the rules leave a point open it rests on the model's
reading or choice in assumption log 91. -/
def Obligations.BootGoesRowByRow : Prop :=
  (∀ s strap, s.pins.reset = true → (∃ t, exec (.bootRelease strap true) s = .next t ∧ bootState t = 1 ∧ t.pins.reset = false ∧
      fld t aSYN_LC 1 0 = s.nvm.lc % 4 ∧ t.i3c.strap = strap % 4) ∧
    (∃ t, exec (.bootRelease strap false) s = .next t ∧ bootState t = 15 ∧ t.pins.reset = false)) ∧
  (∀ s now z st i fb fl bd bs ur, (z, st, i) ∈ [(s, 1, Instr.bootClocks), (atTime s now, 2, .bootRom now), (atTime s now, 3, .bootFwInit now),
      (atTime s now, 4, .bootFabricTest fb now), (atTime s now, 5, .bootSlices fl bd now), (atTime s now, 6, .bootStacks bs ur now),
      (atTime s now, 7, .bootReady now)] → z.pins.reset = false →
    (bootState z ≠ st → exec i s = .next { z with pending := s.pending }) ∧
    (bootState z = st → (st = 2 → fwCheck z (z.nvm.banks.getD z.nvm.newer []) = true ∨ fwCheck z (z.nvm.banks.getD (1 - z.nvm.newer) []) = true) →
      (st = 7 → z.cust.wiping = []) → ∃ t, exec i s = .next t ∧ bootState t = st + 1 ∧ (st = 1 → t.tense = 0) ∧
        (st = 2 → fwBank t = (if fwCheck z (z.nvm.banks.getD z.nvm.newer []) then z.nvm.newer else 1 - z.nvm.newer) % 2) ∧
        (st = 4 → t.pins.railEn = true) ∧ (st = 7 → t.pins.ready = true))) ∧
  (∀ s now z, z = atTime s now → z.pins.reset = false → bootState z = 2 → fwCheck z (z.nvm.banks.getD z.nvm.newer []) = false →
    fwCheck z (z.nvm.banks.getD (1 - z.nvm.newer) []) = false → ∃ t, exec (.bootRom now) s = .next t ∧ bootState t = 14) ∧
  (∀ s now z, z = atTime s now → z.pins.reset = false → bootState z = 7 → z.cust.wiping ≠ [] → ∃ t, exec (.bootWipe now) s = .next t ∧
    bootState t = 7 ∧ t.cust.wiping = [] ∧ ∀ sl b, sl ∈ z.cust.wiping → b < 50331648 → memByte t.spm (spmIx sl 0 0 + b) = 0#8)

/-! ### The setup space and its paths (chapters 22 and 23) -/

/-- R630 to R637, R661, R662: an I3C or JTAG access has the status and the data of the setup space, OFF before READY and BAD_ACCESS where it is not
aligned; a private read gives them out; the target takes its dynamic address; the scans of the other JTAG instructions. Where the rules leave a point
open it rests on the model's reading or choice in assumption log 54 and 55. -/
def Obligations.PathsReachTheSetupSpace : Prop :=
  (∀ s off v n i o z, (n, i) ∈ [(4, Instr.i3cWrite4 off v), (8, .i3cWrite8 off v)] → o = off % 2 ^ 24 → z = wakeBy s 5 →
    (devReady z = false → ∃ t, exec i s = .next t ∧ t.i3c = { s.i3c with status := suOFF, data := [] } ∧ t.regs = s.regs) ∧
    (devReady z = true → o % n = 0 → ∃ t, exec i s = .next t ∧
      t.regs = (setupWrite z orgMG o n (v % 2 ^ (8 * n))).1.regs ∧ t.i3c.status = (setupWrite z orgMG o n (v % 2 ^ (8 * n))).2) ∧
    (devReady z = true → o % n ≠ 0 → ∃ t, exec i s = .next t ∧ t.i3c.status = suBAD)) ∧
  (∀ s off n i o z, (n, i) ∈ [(4, Instr.i3cRead4 off), (8, .i3cRead8 off)] → o = off % 2 ^ 24 → z = wakeBy s 5 →
    (devReady z = false → o / 8 * 8 ≠ aSYN_BOOT → o / 8 * 8 ≠ aSYN_RST_CAUSE → ∃ t, exec i s = .next t ∧ t.i3c.status = suOFF) ∧
    (devReady z = true ∨ o / 8 * 8 = aSYN_BOOT ∨ o / 8 * 8 = aSYN_RST_CAUSE →
      (o % n ≠ 0 → ∃ t, exec i s = .next t ∧ t.i3c.status = suBAD ∧ t.i3c.data = natLe n 0) ∧
      (o % n = 0 → ∃ t, exec i s = .next t ∧ t.i3c.status = (setupRead z o n).2 ∧ t.i3c.data = natLe n (setupRead z o n).1 ∧ t.regs = s.regs))) ∧
  (∀ s, exec .i3cPrivateRead s = .next { s with i3c := { s.i3c with out := s.i3c.out ++ [natLe 1 s.i3c.status ++ s.i3c.data] } }) ∧
  (∀ s a d, (∃ t, exec (.setdasa a d) s = .next t ∧ t.i3c.dyn = (if a = i3cStatic s then some (d % 128) else s.i3c.dyn)) ∧
    (∃ t, exec (.entdaa d) s = .next t ∧ t.i3c.dyn = some (s.i3c.dyn.getD (d % 128)))) ∧
  (∀ s pins load, (∃ t, exec .idcode s = .next t ∧ t.jtag.ir = 1 ∧ t.jtag.tdo = 0x11E00ABD) ∧ (∃ t, exec .testReset s = .next t ∧ t.jtag.ir = 1) ∧
    (∃ t, exec .bypass s = .next t ∧ t.jtag.ir = 0xFF ∧ t.jtag.tdo = 0) ∧
    (∃ t, exec (.extest pins load) s = .next t ∧ t.jtag.tdo = pins ∧ t.jtag.bnd = load ∧ t.jtag.ir = 0) ∧
    (∃ t, exec (.samplePreload pins load) s = .next t ∧ t.jtag.tdo = pins ∧ t.jtag.bnd = load ∧ t.jtag.ir = 2)) ∧
  (∀ s dr off n z, off = bits dr 87 64 → n = (if bit dr 89 then 8 else 4) → z = jtagScan s 0x40 (s.jtag.data % 2 ^ 64 + s.jtag.status % 8 * 2 ^ 90) →
    (lcState s = 1 ∨ lcState s = 2 → ∃ t, exec (.setupacc dr) s = .next t ∧ t.jtag = { s.jtag with ir := 0x40, tdo := 0 } ∧ t.regs = s.regs) ∧
    (lcState s = 0 ∨ lcState s = 3 → devReady s = false → ∃ t, exec (.setupacc dr) s = .next t ∧ t.jtag.status = suOFF ∧ t.regs = s.regs) ∧
    (lcState s = 0 ∨ lcState s = 3 → devReady s = true → off % n = 0 →
      (bit dr 88 = false → ∃ t, exec (.setupacc dr) s = .next t ∧ t.jtag.data = (setupRead z off n).1 ∧ t.jtag.status = (setupRead z off n).2) ∧
      (bit dr 88 = true → ∃ t, exec (.setupacc dr) s = .next t ∧ t.regs = (setupWrite z orgJT off n (dr % 2 ^ (8 * n))).1.regs ∧
        t.jtag.status = (setupWrite z orgJT off n (dr % 2 ^ (8 * n))).2)))

/-- R384, R491, R546, R561, R597, R632 to R637: a write by an origin acts on the register as the setup space decides: where HOLD refuses it nothing
changes; an offset without a register is BAD_ACCESS; an origin that may not write is REFUSED; the keys, the circuits and the acknowledgements follow
their rules. Where the rules leave a point open it rests on the model's reading or choice in assumption log 51 to 53. -/
def Obligations.SetupWritesFollowTheirRules : Prop :=
  (∀ s org port cid k j v off n w i z, port < 14 → cid < 256 → k < 12 → j < 8 →
    (off, n, w, i) ∈ [(aCKT port cid, 8, v, Instr.circuitEntryWrite org port cid v), (aPART_CKT_ENTRY k, 8, v, .partCktEntryWrite org k v),
      (aPART_KEY k j, 4, v % 2 ^ 32, .partKeyWrite org k j v), (aAUD_ACK, 4, v % 2 ^ 32, .audAckWrite org v),
      (aRAS_RPT_ACK, 4, v % 2 ^ 32, .rasRptAckWrite org v)] →
    (org = orgMG → z = wakeBy s 5 → devReady z = true → ∃ t, exec i s = .next t ∧ t.regs = (setupWrite z org off n w).1.regs ∧
      t.reports = (setupWrite z org off n w).1.reports ∧ t.i3c.status = (setupWrite z org off n w).2) ∧
    (org = orgPF → fnOpen s 0 = true → exec i s = .next { (setupWrite s org off n w).1 with pending := s.pending }) ∧
    (∀ f, 1 ≤ f → f ≤ 12 → org = orgVF f → fnOpen s f = true → exec i s = .next { (setupWrite s org off n w).1 with pending := s.pending })) ∧
  (∀ s f off data o, f ≤ 12 → fnOffset f off = some o → fnOpen s f = true →
    (exec (.setupRegisterWrite f off data true) s = .next (aerPoisoned (badAccess s) f)) ∧
    (barAligned off data.length = true → ∃ t, exec (.setupRegisterWrite f off data false) s = .next t ∧
      t = { (setupWrite s (if f = 0 then orgPF else orgVF f) o data.length (leNat (data.take 8))).1 with pending := s.pending })) ∧
  (∀ s org off n v, holdRefuses s off v = true → setupWrite s org off n v = (audRefused s, suREFUSED)) ∧
  (∀ s org off n v, holdRefuses s off v = false → ¬(0x400 ≤ off ∧ off < 0x600) → ¬(0x1000 ≤ off ∧ off < 0x2000) →
    (regFind (off / 8 * 8) = none → (setupWrite s org off n v).2 = suBAD ∧ ∀ a, a ≠ aAUD_STATUS → a ≠ aRAS_RPT_STATUS →
      regGet (setupWrite s org off n v).1 a = regGet s a) ∧
    (∀ d i j, regFind (off / 8 * 8) = some (d, i, j) → ¬(d.width = 4 ∧ off % 8 = 4) → ¬(d.width = 8 ∧ n = 4) →
      d.writers.any (writerIs s org) = false → (setupWrite s org off n v).2 = suREFUSED)) ∧
  (∀ s org off port cid v part, cktOk s port (v % 2 ^ 32) = true → (∀ k, part = some k → cktMine s k (regGet s (aCKT port cid)) (v % 2 ^ 32) = true) →
    (cktWrite s org off port cid v part).2 = 0 ∧ (port < 14 → cid < 256 → regGet (cktWrite s org off port cid v part).1 (aCKT port cid) = v % 2 ^ 32)) ∧
  (∀ s org off port cid v part, cktOk s port (v % 2 ^ 32) = false → port < 14 → (cktWrite s org off port cid v part).2 = suREFUSED ∧
    fld (cktWrite s org off port cid v part).1 (aYLV_PORT_STATUS port) 4 4 = 1) ∧
  (∀ s seq, (audNext s + 2 ^ 32 - 1 - seq) % 2 ^ 32 < audPending s → audPending (audAck s seq) = (audNext s + 2 ^ 32 - 1 - seq) % 2 ^ 32) ∧
  (∀ s seq r, r ∈ (rptAck s seq).reports ↔ r ∈ s.reports ∧ 2 ^ 31 ≤ (seq + 2 ^ 32 - r.seq) % 2 ^ 32)

/-! ### Counters and counts (R11, R306) -/

/-- R11: an event or statistics counter, a field of a register, takes its sum or its maximum value and does not wrap; and no read of a register, over
I3C or JTAG, changes one. -/
def Obligations.CountersSaturate : Prop :=
  (∀ s off hi lo n, lo ≤ hi → hi < 64 → fld (satFld s off hi lo n) hi lo = min (fld s off hi lo + n) (2 ^ (hi + 1 - lo) - 1)) ∧
  (∀ s off i, i ∈ [Instr.i3cRead4 off, .i3cRead8 off] → ∃ t, exec i s = .next t ∧ ∀ a, regGet t a = regGet s a) ∧
  (∀ s dr, bit dr 88 = false → ∃ t, exec (.setupacc dr) s = .next t ∧ ∀ a, regGet t a = regGet s a)

/-- R306: a signal whose key is the Conjunction's adds its increment to COUNT modulo 2^32 and reaches no other Conjunction; a count has reached a
target where their difference modulo 2^32 is below 2^31, and with ERROR that is what ends a wait: a WAIT descriptor ends exactly then. -/
def Obligations.SignalsAddAndWaitsReach : Prop :=
  (∀ s j n err key, conjKeyOk s j key = true →
    (conjOf (conjSignal s j n err key) j).count.toNat = ((conjOf s j).count.toNat + n) % 2 ^ 32 ∧
    (conjOf (conjSignal s j n err key) j).error = ((conjOf s j).error || err) ∧ ∀ l, l ≠ j → conjOf (conjSignal s j n err key) l = conjOf s l) ∧
  (∀ (c : Conj) (u : W32), waitOver c u = true ↔ c.error = true ∨ (c.count.toNat + 2 ^ 32 - u.toNat) % 2 ^ 32 < 2 ^ 31) ∧
  (∀ s d x, descRunning s d dtWAIT 0 = some x →
    (waitOver (conjOf s (dNat x 0x10 2 % 2 ^ 14)) (BitVec.ofNat 32 (dNat x 0x14 4)) = false → exec (.waitComplete d) s = .next s) ∧
    (waitOver (conjOf s (dNat x 0x10 2 % 2 ^ 14)) (BitVec.ofNat 32 (dNat x 0x14 4)) = true →
      ∃ t st r, exec (.waitComplete d) s = .next t ∧ endsAs t d st 0 r))
end

