-- ==== Sys2Proof/Laws/Frame.lean ====
section
/-! SUPPORT. What the shared operations leave alone, said once: `xRest s` is `s` with the fields that a group of operations may
change blanked, and one lemma per operation says that it keeps `xRest`. -/

namespace Sys2Proof.Machine

/-- A fold keeps what each of its steps keeps. -/
theorem foldl_keep {σ α β : Type} (g : σ → β) (f : σ → α → σ) (h : ∀ s a, g (f s a) = g s) (l : List α) (s : σ) :
    g (l.foldl f s) = g s := by
  induction l generalizing s with
  | nil => rfl
  | cons a r ih => rw [List.foldl_cons, ih, h]

/-- The same of a fold over a pair whose first part is the state. -/
theorem foldl_keep_fst {σ α β τ : Type} (g : σ → β) (f : σ × τ → α → σ × τ) (h : ∀ z a, g (f z a).1 = g z.1) (l : List α) (z : σ × τ) :
    g (l.foldl f z).1 = g z.1 :=
  foldl_keep (fun z : σ × τ => g z.1) f h l z

/-! ### Writes of memory (R279, R282, R338, R458) -/

/-- The state without what a write of memory may change. -/
def memRest (s : State) : State := { s with spm := {}, hbm := {}, ctxs := [], particles := [], mirror := [] }

theorem pmWrite_rest (s : State) (k a : Nat) (bs : List Byte) (po : Bool) : memRest (pmWrite s k a bs po) = memRest s := by
  unfold pmWrite
  exact foldl_keep memRest _ (fun s p => by split <;> rfl) _ _

theorem dvaPut_rest (s : State) (k sl a : Nat) (bs : List Byte) (po : Bool) : memRest (dvaPut s k sl a bs po) = memRest s := by
  unfold dvaPut
  exact foldl_keep memRest _ (fun s p => by
    split
    · exact pmWrite_rest _ _ _ _ _
    · rfl) _ _

theorem dvaZero_rest (s : State) (k a n : Nat) : memRest (dvaZero s k a n) = memRest s := by
  unfold dvaZero
  exact foldl_keep memRest _ (fun s p => dvaPut_rest _ _ _ _ _ _) _ _

theorem updCtx_rest (s : State) (c : Nat) (f : Ctx → Ctx) : memRest (updCtx s c f) = memRest s := rfl

theorem spAlloc_rest (s : State) (c w a n : Nat) : memRest (spAlloc s c w a n) = memRest s := by
  unfold spAlloc
  split
  · rfl
  · refine foldl_keep memRest _ (fun s pg => ?_) _ _
    dsimp only
    split
    · split
      · rfl
      · split <;> rfl
    · rfl

theorem breakResv_rest (s : State) (c a n : Nat) : memRest (breakResv s c a n) = memRest s := by
  unfold breakResv; split <;> rfl

theorem spPut_rest (s : State) (c w a : Nat) (bs : List Byte) (po : Bool) : memRest (spPut s c w a bs po) = memRest s := by
  unfold spPut
  refine (foldl_keep memRest _ (fun s p => ?_) _ _).trans ((breakResv_rest _ _ _ _).trans (spAlloc_rest _ _ _ _ _))
  dsimp only
  split
  · rfl
  · split
    · refine (dvaPut_rest _ _ _ _ _ _).trans ?_
      split
      · rfl
      · exact (updCtx_rest _ _ _).trans (dvaZero_rest _ _ _ _)
    · rfl

theorem areaPut_rest (s : State) (c w r : Nat) (bs : List Byte) : memRest (areaPut s c w r bs) = memRest s := by
  unfold areaPut; split
  · exact spPut_rest _ _ _ _ _ _
  · exact dvaPut_rest _ _ _ _ _ _

theorem carryMark_rest (s : State) (c w : Nat) (v : View) (a : Nat) : memRest (carryMark s c w v a) = memRest s := by
  unfold carryMark; split
  · exact areaPut_rest _ _ _ _ _
  · rfl

theorem mirrorNote_rest (s : State) (c a : Nat) (bs : List Byte) (po : Bool) : memRest (mirrorNote s c a bs po) = memRest s := by
  unfold mirrorNote; split <;> rfl

theorem viewWrite_rest (vs : List (Nat × View)) (sp : Bool) (w : Nat) (put : State → Nat → List Byte → State) (po : Bool) (s : State)
    (ps : List (Nat × List Byte)) (h : ∀ s a bs, memRest (put s a bs) = memRest s) : memRest (viewWrite vs sp w put po s ps) = memRest s := by
  unfold viewWrite
  refine foldl_keep memRest _ (fun s p => ?_) _ _
  split
  · rfl
  · exact (mirrorNote_rest _ _ _ _ _).trans ((carryMark_rest _ _ _ _ _).trans (h _ _ _))
  · exact h _ _ _

/-- A write to a scratchpad changes memory, pages, reservations and what a pair mirrors, and nothing else. -/
theorem spWrite_rest (s : State) (c w a : Nat) (bs : List Byte) (po : Bool) : memRest (spWrite s c w a bs po) = memRest s := by
  unfold spWrite; split
  · exact viewWrite_rest _ _ _ _ _ _ _ (fun _ _ _ => spPut_rest _ _ _ _ _ _)
  · exact spPut_rest _ _ _ _ _ _

/-- So does a write to device virtual space. -/
theorem dvaWrite_rest (s : State) (k sl a : Nat) (bs : List Byte) (po : Bool) : memRest (dvaWrite s k sl a bs po) = memRest s := by
  unfold dvaWrite; split
  · exact viewWrite_rest _ _ _ _ _ _ _ (fun _ _ _ => dvaPut_rest _ _ _ _ _ _)
  · exact dvaPut_rest _ _ _ _ _ _

theorem histAdd_rest (s : State) (c w r : Nat) (ixs : List Nat) : memRest (histAdd s c w r ixs) = memRest s := by
  unfold histAdd
  exact foldl_keep memRest _ (fun s i => spWrite_rest _ _ _ _ _ _) _ _

/-- What one field of `memRest` says. -/
theorem keep_field {α β : Type} (g : State → α) (f : α → β) {s t : State} (h : g t = g s) : f (g t) = f (g s) := congrArg f h

/-! ### Setup registers and reports (R596 to R600) -/

/-- The state without what a report may change. -/
def rptRest (s : State) : State :=
  { s with regs := [], nvm := {}, reports := [], rseq := 0, rptLost := 0, rptBuf := [], mgmtOut := [], quickQ := [], oos := [] }

theorem regSet_rest (s : State) (off v : Nat) : rptRest (regSet s off v) = rptRest s := rfl
theorem satFld_rest (s : State) (off hi lo n : Nat) : rptRest (satFld s off hi lo n) = rptRest s := rfl

theorem mgmtSend_rest (s : State) (rs : List Rpt) : rptRest (mgmtSend s rs) = rptRest s := by unfold mgmtSend; split <;> rfl

theorem sendRpt_rest (s : State) (r : Rpt) : rptRest (sendRpt s r).1 = rptRest s := by
  have h (s : State) (r : List Rpt) := mgmtSend_rest s r
  unfold mgmtSend at h
  unfold sendRpt mgmtSend
  dsimp only
  split <;> split <;> (try split) <;> rfl

theorem postRpt_rest (s : State) (r : Rpt) : rptRest (postRpt s r) = rptRest s := by
  have h (s : State) (r : Rpt) : rptRest { (sendRpt s r).1 with reports := (sendRpt s r).1.reports ++ [(sendRpt s r).2] } = rptRest s :=
    (rfl : _ = rptRest (sendRpt s r).1).trans (sendRpt_rest s r)
  unfold postRpt
  dsimp only
  generalize (if r.cls = clFATAL then 1024 else 960) = limit
  split
  · exact h _ _
  · split
    · exact (h _ _).trans rfl
    · rfl

/-- A report changes registers, the record of health and the report stream, and nothing else. -/
theorem report_rest (s : State) (cls cause part slice unit : Nat) (d : List Nat) :
    rptRest (report s cls cause part slice unit d) = rptRest s := by
  unfold report
  dsimp only
  refine (postRpt_rest _ _).trans ?_
  split <;> rfl

theorem wantQuick_rest (s : State) (sl u : Nat) : rptRest (wantQuick s sl u) = rptRest s := by unfold wantQuick; split <;> rfl

end Sys2Proof.Machine
end

