-- ==== Sys2Proof/Laws/Map.lean ====
section
/-! SUPPORT. Laws of sparse maps: what a read gives after a write, and that every operation keeps the canonical form. -/

namespace Sys2Proof.Machine

variable {α : Type}

/-! ### Reads after writes -/

theorem mapGet_mapIns_same (d : α) (m : Map α) (k : Nat) (v : α) : mapGet d (mapIns m k v) k = v := by
  induction m with
  | nil => simp [mapIns, mapGet]
  | cons p r ih =>
    obtain ⟨k', v'⟩ := p
    simp only [mapIns]
    split
    · simp [mapGet]
    · split
      · simp [mapGet]
      · rename_i h; simp [mapGet, h, ih]

theorem mapGet_mapIns_other (d : α) (m : Map α) (k j : Nat) (v : α) (h : j ≠ k) : mapGet d (mapIns m k v) j = mapGet d m j := by
  induction m with
  | nil => simp [mapIns, mapGet, h]
  | cons p r ih =>
    obtain ⟨k', v'⟩ := p
    simp only [mapIns]
    split
    · simp [mapGet, h]
    · split
      · rename_i h2; subst h2; simp [mapGet, h]
      · simp [mapGet, ih]

theorem mapFind_mapIns_same (m : Map α) (k : Nat) (v : α) : mapFind (mapIns m k v) k = some v := by
  induction m with
  | nil => simp [mapIns, mapFind]
  | cons p r ih =>
    obtain ⟨k', v'⟩ := p
    simp only [mapIns]
    split
    · simp [mapFind]
    · split
      · simp [mapFind]
      · rename_i h; simp [mapFind, h, ih]

theorem mapFind_mapIns_other (m : Map α) (k j : Nat) (v : α) (h : j ≠ k) : mapFind (mapIns m k v) j = mapFind m j := by
  induction m with
  | nil => simp [mapIns, mapFind, h]
  | cons p r ih =>
    obtain ⟨k', v'⟩ := p
    simp only [mapIns]
    split
    · simp [mapFind, h]
    · split
      · rename_i h2; subst h2; simp [mapFind, h]
      · simp [mapFind, ih]

theorem mapGet_mapDel_same (d : α) (m : Map α) (k : Nat) : mapGet d (mapDel m k) k = d := by
  induction m with
  | nil => simp [mapDel, mapGet]
  | cons p r ih =>
    obtain ⟨k', v'⟩ := p
    simp only [mapDel]
    split
    · exact ih
    · rename_i h; simp [mapGet, h, ih]

theorem mapGet_mapDel_other (d : α) (m : Map α) (k j : Nat) (h : j ≠ k) : mapGet d (mapDel m k) j = mapGet d m j := by
  induction m with
  | nil => simp [mapDel]
  | cons p r ih =>
    obtain ⟨k', v'⟩ := p
    simp only [mapDel]
    split
    · rename_i h2; subst h2; simp [mapGet, h, ih]
    · simp [mapGet, ih]

theorem mapFind_mapDel_same (m : Map α) (k : Nat) : mapFind (mapDel m k) k = none := by
  induction m with
  | nil => simp [mapDel, mapFind]
  | cons p r ih =>
    obtain ⟨k', v'⟩ := p
    simp only [mapDel]
    split
    · exact ih
    · rename_i h; simp [mapFind, h, ih]

theorem mapFind_mapDel_other (m : Map α) (k j : Nat) (h : j ≠ k) : mapFind (mapDel m k) j = mapFind m j := by
  induction m with
  | nil => simp [mapDel]
  | cons p r ih =>
    obtain ⟨k', v'⟩ := p
    simp only [mapDel]
    split
    · rename_i h2; subst h2; simp [mapFind, h, ih]
    · simp [mapFind, ih]

theorem mapGet_mapSet_same [DecidableEq α] (d : α) (m : Map α) (k : Nat) (v : α) : mapGet d (mapSet d m k v) k = v := by
  unfold mapSet
  split
  · rename_i h; rw [mapGet_mapDel_same, h]
  · exact mapGet_mapIns_same d m k v

theorem mapGet_mapSet_other [DecidableEq α] (d e : α) (m : Map α) (k j : Nat) (v : α) (h : j ≠ k) :
    mapGet e (mapSet d m k v) j = mapGet e m j := by
  unfold mapSet
  split
  · exact mapGet_mapDel_other e m k j h
  · exact mapGet_mapIns_other e m k j v h

theorem mapGet_mapUpd_same (d : α) (m : Map α) (k : Nat) (f : α → α) : mapGet d (mapUpd d m k f) k = f (mapGet d m k) :=
  mapGet_mapIns_same _ _ _ _

theorem mapGet_mapUpd_other (d : α) (m : Map α) (k j : Nat) (f : α → α) (h : j ≠ k) :
    mapGet d (mapUpd d m k f) j = mapGet d m j :=
  mapGet_mapIns_other _ _ _ _ _ h

/-! ### The canonical form -/

theorem keysRise_mono (l l' : Nat) (m : Map α) (h : l' ≤ l) (w : keysRise (some l) m = true) : keysRise (some l') m = true := by
  cases m with
  | nil => rfl
  | cons p r =>
    obtain ⟨k, v⟩ := p
    simp only [keysRise, Bool.and_eq_true, decide_eq_true_eq] at w ⊢
    exact ⟨by omega, w.2⟩

theorem keysRise_mapIns (m : Map α) (l k : Nat) (v : α) (hl : l < k) (w : keysRise (some l) m = true) :
    keysRise (some l) (mapIns m k v) = true := by
  induction m generalizing l with
  | nil => simp [mapIns, keysRise, hl]
  | cons p r ih =>
    obtain ⟨k', v'⟩ := p
    simp only [keysRise, Bool.and_eq_true, decide_eq_true_eq] at w
    simp only [mapIns]
    split
    · simp [keysRise, *]
    · split
      · rename_i h; subst h; simp [keysRise, hl, w.2]
      · simp only [keysRise, Bool.and_eq_true, decide_eq_true_eq]
        exact ⟨w.1, ih k' (by omega) w.2⟩

theorem keysRise_mapIns_none (m : Map α) (k : Nat) (v : α) (w : keysRise none m = true) : keysRise none (mapIns m k v) = true := by
  cases m with
  | nil => rfl
  | cons p r =>
    obtain ⟨k', v'⟩ := p
    simp only [keysRise] at w
    simp only [mapIns]
    split
    · simp [keysRise, *]
    · split
      · rename_i h; subst h; simpa [keysRise] using w
      · simp only [keysRise]
        exact keysRise_mapIns r k' k v (by omega) w

theorem keysRise_filter (m : Map α) (l : Nat) (f : Nat × α → Bool) (w : keysRise (some l) m = true) :
    keysRise (some l) (m.filter f) = true := by
  induction m generalizing l with
  | nil => rfl
  | cons p r ih =>
    obtain ⟨k, v⟩ := p
    simp only [keysRise, Bool.and_eq_true, decide_eq_true_eq] at w
    simp only [List.filter_cons]
    split
    · simp only [keysRise, Bool.and_eq_true, decide_eq_true_eq]
      exact ⟨w.1, ih k w.2⟩
    · exact ih l (keysRise_mono k l r (by omega) w.2)

theorem keysRise_filter_none (m : Map α) (f : Nat × α → Bool) (w : keysRise none m = true) : keysRise none (m.filter f) = true := by
  induction m with
  | nil => rfl
  | cons p r ih =>
    obtain ⟨k, v⟩ := p
    simp only [keysRise] at w
    simp only [List.filter_cons]
    split
    · simp only [keysRise]; exact keysRise_filter r k f w
    · apply ih
      cases r with
      | nil => rfl
      | cons q r =>
        obtain ⟨k2, v2⟩ := q
        simp only [keysRise, Bool.and_eq_true] at w ⊢
        exact w.2

theorem mapDel_eq_filter (m : Map α) (k : Nat) : mapDel m k = m.filter fun p => decide (k ≠ p.1) := by
  induction m with
  | nil => rfl
  | cons p r ih =>
    obtain ⟨k', v'⟩ := p
    simp only [mapDel, List.filter_cons]
    split
    · rename_i h; subst h; simpa using ih
    · rename_i h; simpa [h] using ih

theorem mem_mapIns (m : Map α) (k : Nat) (v : α) (p : Nat × α) (h : p ∈ mapIns m k v) : p = (k, v) ∨ p ∈ m := by
  induction m with
  | nil => simp only [mapIns, List.mem_singleton] at h; exact .inl h
  | cons q r ih =>
    obtain ⟨k', v'⟩ := q
    simp only [mapIns] at h
    split at h
    · simp only [List.mem_cons] at h ⊢; tauto
    · split at h
      · simp only [List.mem_cons] at h ⊢; tauto
      · simp only [List.mem_cons] at h ⊢
        rcases h with h | h
        · exact .inr (.inl h)
        · rcases ih h with h | h
          · exact .inl h
          · exact .inr (.inr h)

/-- Filtering keeps the canonical form. -/
theorem mapWf_filter [DecidableEq α] (d : α) (m : Map α) (f : Nat × α → Bool) (w : mapWf d m = true) : mapWf d (m.filter f) = true := by
  simp only [mapWf, Bool.and_eq_true, List.all_eq_true, decide_eq_true_eq] at w ⊢
  exact ⟨keysRise_filter_none m f w.1, fun p hp => w.2 p (List.mem_of_mem_filter hp)⟩

/-- So does taking a key out. -/
theorem mapWf_mapDel [DecidableEq α] (d : α) (m : Map α) (k : Nat) (w : mapWf d m = true) : mapWf d (mapDel m k) = true := by
  rw [mapDel_eq_filter]; exact mapWf_filter d m _ w

/-- So does putting in a value that is not the default. -/
theorem mapWf_mapIns [DecidableEq α] (d : α) (m : Map α) (k : Nat) (v : α) (h : v ≠ d) (w : mapWf d m = true) :
    mapWf d (mapIns m k v) = true := by
  simp only [mapWf, Bool.and_eq_true, List.all_eq_true, decide_eq_true_eq] at w ⊢
  refine ⟨keysRise_mapIns_none m k v w.1, fun p hp => ?_⟩
  rcases mem_mapIns m k v p hp with rfl | hp
  · exact h
  · exact w.2 p hp

/-- So does a write in the canonical form. -/
theorem mapWf_mapSet [DecidableEq α] (d : α) (m : Map α) (k : Nat) (v : α) (w : mapWf d m = true) : mapWf d (mapSet d m k v) = true := by
  unfold mapSet
  split
  · exact mapWf_mapDel d m k w
  · rename_i h; exact mapWf_mapIns d m k v h w

end Sys2Proof.Machine
end

