-- ==== Sys2Proof/Laws/Memory.lean ====
section
/-! SUPPORT. Laws of the byte memories: every operation keeps the canonical form, a read after a write, and what a write leaves alone. -/

namespace Sys2Proof.Machine

/-! ### The canonical form -/

theorem Mem_wf_iff (m : Mem) : m.wf = true ↔ mapWf 0#8 m.cells = true ∧ mapWf false m.poison = true := by
  simp [Mem.wf, Bool.and_eq_true]

theorem memSetByte_wf (m : Mem) (a : Nat) (b : Byte) (w : m.wf = true) : (memSetByte m a b).wf = true := by
  rw [Mem_wf_iff] at w ⊢
  exact ⟨mapWf_mapSet _ _ _ _ w.1, w.2⟩

theorem memPut_wf (m : Mem) (a : Nat) (bs : List Byte) (w : m.wf = true) : (memPut m a bs).wf = true := by
  induction bs generalizing m a with
  | nil => exact w
  | cons b r ih => exact ih _ _ (memSetByte_wf m a b w)

theorem memMark_wf (m : Mem) (a n : Nat) (poison : Bool) (w : m.wf = true) : (memMark m a n poison).wf = true := by
  unfold memMark
  split
  · exact w
  · rw [Mem_wf_iff] at w ⊢
    refine ⟨w.1, ?_⟩
    dsimp only
    generalize List.map (a / 32 + ·) (List.range ((a + n - 1) / 32 + 1 - a / 32)) = us
    have h := w.2
    generalize m.poison = pm at h ⊢
    induction us generalizing pm with
    | nil => exact h
    | cons u r ih =>
      refine ih _ ?_
      by_cases hp : poison = true
      · simp only [hp, if_true]; exact mapWf_mapIns _ _ _ _ (by decide) h
      · simp only [hp]
        by_cases hq : (decide (a ≤ u * 32) && decide (u * 32 + 32 ≤ a + n)) = true
        · simp only [hq, if_true]; exact mapWf_mapDel _ _ _ h
        · simp only [hq]; exact h

/-- A write keeps the canonical form. -/
theorem memWrite_wf (m : Mem) (a : Nat) (bs : List Byte) (poison : Bool) (w : m.wf = true) : (memWrite m a bs poison).wf = true :=
  memMark_wf _ _ _ _ (memPut_wf m a bs w)

/-- A wipe keeps it. -/
theorem memZero_wf (m : Mem) (a n : Nat) (w : m.wf = true) : (memZero m a n).wf = true := by
  rw [Mem_wf_iff] at w ⊢
  exact ⟨mapWf_filter _ _ _ w.1, mapWf_filter _ _ _ w.2⟩

/-- The memories have it at reset. -/
theorem reset_memory_wf : State.reset.spm.wf = true ∧ State.reset.hbm.wf = true := by decide

/-! ### Reads and writes -/

@[simp] theorem memMark_cells (m : Mem) (a n : Nat) (poison : Bool) : (memMark m a n poison).cells = m.cells := by
  unfold memMark; split <;> rfl

@[simp] theorem memByte_memMark (m : Mem) (a n i : Nat) (poison : Bool) : memByte (memMark m a n poison) i = memByte m i := by
  simp [memByte]

theorem memByte_memSetByte (m : Mem) (a i : Nat) (b : Byte) : memByte (memSetByte m a b) i = if i = a then b else memByte m i := by
  split
  · rename_i h; subst h; exact mapGet_mapSet_same _ _ _ _
  · rename_i h; exact mapGet_mapSet_other _ _ _ _ _ _ h

/-- What a byte reads as after a write of bytes: the byte written there, else what it was. -/
theorem memByte_memPut (m : Mem) (a i : Nat) (bs : List Byte) :
    memByte (memPut m a bs) i = if a ≤ i then bs.getD (i - a) (memByte m i) else memByte m i := by
  induction bs generalizing m a with
  | nil => simp [memPut]
  | cons b r ih =>
    simp only [memPut]
    rw [ih, memByte_memSetByte]
    by_cases h : i = a
    · subst h; simp
    · by_cases h2 : a ≤ i
      · have h3 : a + 1 ≤ i := by omega
        have h4 : i - a = (i - (a + 1)) + 1 := by omega
        simp [h, h2, h3, h4]
      · have h3 : ¬ a + 1 ≤ i := by omega
        simp [h, h2, h3]

/-- The same of a write with its poison. -/
theorem memByte_memWrite (m : Mem) (a i : Nat) (bs : List Byte) (poison : Bool) :
    memByte (memWrite m a bs poison) i = if a ≤ i then bs.getD (i - a) (memByte m i) else memByte m i := by
  simp [memWrite, memByte_memPut]

/-- A write leaves every byte outside it alone. -/
theorem memByte_memWrite_outside (m : Mem) (a i : Nat) (bs : List Byte) (poison : Bool) (h : i < a ∨ a + bs.length ≤ i) :
    memByte (memWrite m a bs poison) i = memByte m i := by
  rw [memByte_memWrite]
  split
  · rw [List.getD_eq_getElem?_getD, List.getElem?_eq_none (by omega)]; rfl
  · rfl

/-- A read of what a write wrote gives it back. -/
theorem memBytes_memWrite (m : Mem) (a : Nat) (bs : List Byte) (poison : Bool) : memBytes (memWrite m a bs poison) a bs.length = bs := by
  apply List.ext_getElem
  · simp [memBytes]
  · intro i h1 h2
    simp [memBytes, memByte_memWrite, List.getD_eq_getElem?_getD, h2]

/-- A wiped byte is zero. -/
theorem memByte_memZero_inside (m : Mem) (a n i : Nat) (h1 : a ≤ i) (h2 : i < a + n) : memByte (memZero m a n) i = 0#8 := by
  unfold memByte memZero
  dsimp only
  induction m.cells with
  | nil => rfl
  | cons p r ih =>
    obtain ⟨k, v⟩ := p
    simp only [List.filter_cons]
    split
    · rename_i h
      simp only [Bool.or_eq_true, decide_eq_true_eq] at h
      have : i ≠ k := by omega
      simp [mapGet, this, ih]
    · exact ih

/-- A wipe leaves every byte outside it alone. -/
theorem memByte_memZero_outside (m : Mem) (a n i : Nat) (h : i < a ∨ a + n ≤ i) : memByte (memZero m a n) i = memByte m i := by
  unfold memByte memZero
  dsimp only
  induction m.cells with
  | nil => rfl
  | cons p r ih =>
    obtain ⟨k, v⟩ := p
    simp only [List.filter_cons]
    by_cases hk : i = k
    · subst hk
      have : (decide (i < a) || decide (a + n ≤ i)) = true := by simpa using h
      simp [mapGet, this]
    · split
      · simp [mapGet, hk, ih]
      · simp [mapGet, hk, ih]

end Sys2Proof.Machine
end

