-- ==== Sys2Proof/Laws/State.lean ====
section
/-! SUPPORT. What each update of State leaves as it was, field by field: one conjunction per update, which the simplifier takes apart into one rule
per field. -/

namespace Sys2Proof.Machine

@[simp] theorem regSet_keeps (s : State) (off v : Nat) :
    (regSet s off v).pending = s.pending ∧ (regSet s off v).free = s.free ∧ (regSet s off v).tense = s.tense ∧ (regSet s off v).spm = s.spm ∧
    (regSet s off v).hbm = s.hbm ∧ (regSet s off v).lcReq = s.lcReq ∧ (regSet s off v).lcWork = s.lcWork ∧ (regSet s off v).fwBuf = s.fwBuf ∧
    (regSet s off v).hstk = s.hstk ∧ (regSet s off v).escaped = s.escaped ∧ (regSet s off v).corrected = s.corrected ∧
    (regSet s off v).corrAt = s.corrAt ∧ (regSet s off v).conj = s.conj ∧ (regSet s off v).ctxs = s.ctxs ∧ (regSet s off v).runs = s.runs ∧
    (regSet s off v).queues = s.queues ∧ (regSet s off v).progs = s.progs ∧ (regSet s off v).nextProg = s.nextProg ∧
    (regSet s off v).verbs = s.verbs ∧ (regSet s off v).reports = s.reports ∧ (regSet s off v).rseq = s.rseq ∧
    (regSet s off v).rptLost = s.rptLost ∧ (regSet s off v).rptBuf = s.rptBuf ∧ (regSet s off v).mgmtOut = s.mgmtOut ∧
    (regSet s off v).audit = s.audit ∧ (regSet s off v).audLost = s.audLost ∧ (regSet s off v).audFirst = s.audFirst ∧
    (regSet s off v).ports = s.ports ∧ (regSet s off v).nextReq = s.nextReq ∧ (regSet s off v).wire = s.wire ∧ (regSet s off v).loop = s.loop ∧
    (regSet s off v).cancelled = s.cancelled ∧ (regSet s off v).ackWait = s.ackWait ∧ (regSet s off v).wakeWant = s.wakeWant ∧
    (regSet s off v).groups = s.groups ∧ (regSet s off v).mirror = s.mirror ∧ (regSet s off v).pair = s.pair ∧ (regSet s off v).servo = s.servo ∧
    (regSet s off v).quickQ = s.quickQ ∧ (regSet s off v).oos = s.oos ∧ (regSet s off v).infRuns = s.infRuns ∧
    (regSet s off v).infUnits = s.infUnits ∧ (regSet s off v).solves = s.solves ∧ (regSet s off v).asms = s.asms ∧
    (regSet s off v).parsers = s.parsers ∧ (regSet s off v).lexers = s.lexers ∧ (regSet s off v).contQ = s.contQ ∧
    (regSet s off v).handles = s.handles ∧ (regSet s off v).outSigs = s.outSigs ∧ (regSet s off v).particles = s.particles ∧
    (regSet s off v).saved = s.saved ∧ (regSet s off v).pmoves = s.pmoves ∧ (regSet s off v).epochs = s.epochs ∧
    (regSet s off v).strobes = s.strobes ∧ (regSet s off v).xcache = s.xcache ∧ (regSet s off v).xtab = s.xtab ∧
    (regSet s off v).xseen = s.xseen ∧ (regSet s off v).fns = s.fns ∧ (regSet s off v).trackers = s.trackers ∧
    (regSet s off v).answers = s.answers ∧ (regSet s off v).hostOut = s.hostOut ∧ (regSet s off v).sqs = s.sqs ∧ (regSet s off v).rcs = s.rcs ∧
    (regSet s off v).cqRes = s.cqRes ∧ (regSet s off v).eqLost = s.eqLost ∧ (regSet s off v).descs = s.descs ∧
    (regSet s off v).nextDesc = s.nextDesc ∧ (regSet s off v).acts = s.acts ∧ (regSet s off v).i3c = s.i3c ∧ (regSet s off v).jtag = s.jtag ∧
    (regSet s off v).pins = s.pins ∧ (regSet s off v).nvm = s.nvm ∧ (regSet s off v).pwr = s.pwr ∧ (regSet s off v).cust = s.cust ∧
    (regSet s off v).field = s.field :=
  by repeat (first | exact rfl | refine ⟨rfl, ?_⟩)

@[simp] theorem setFld_keeps (s : State) (off hi lo v : Nat) :
    (setFld s off hi lo v).pending = s.pending ∧ (setFld s off hi lo v).free = s.free ∧ (setFld s off hi lo v).tense = s.tense ∧
    (setFld s off hi lo v).spm = s.spm ∧ (setFld s off hi lo v).hbm = s.hbm ∧ (setFld s off hi lo v).lcReq = s.lcReq ∧
    (setFld s off hi lo v).lcWork = s.lcWork ∧ (setFld s off hi lo v).fwBuf = s.fwBuf ∧ (setFld s off hi lo v).hstk = s.hstk ∧
    (setFld s off hi lo v).escaped = s.escaped ∧ (setFld s off hi lo v).corrected = s.corrected ∧ (setFld s off hi lo v).corrAt = s.corrAt ∧
    (setFld s off hi lo v).conj = s.conj ∧ (setFld s off hi lo v).ctxs = s.ctxs ∧ (setFld s off hi lo v).runs = s.runs ∧
    (setFld s off hi lo v).queues = s.queues ∧ (setFld s off hi lo v).progs = s.progs ∧ (setFld s off hi lo v).nextProg = s.nextProg ∧
    (setFld s off hi lo v).verbs = s.verbs ∧ (setFld s off hi lo v).reports = s.reports ∧ (setFld s off hi lo v).rseq = s.rseq ∧
    (setFld s off hi lo v).rptLost = s.rptLost ∧ (setFld s off hi lo v).rptBuf = s.rptBuf ∧ (setFld s off hi lo v).mgmtOut = s.mgmtOut ∧
    (setFld s off hi lo v).audit = s.audit ∧ (setFld s off hi lo v).audLost = s.audLost ∧ (setFld s off hi lo v).audFirst = s.audFirst ∧
    (setFld s off hi lo v).ports = s.ports ∧ (setFld s off hi lo v).nextReq = s.nextReq ∧ (setFld s off hi lo v).wire = s.wire ∧
    (setFld s off hi lo v).loop = s.loop ∧ (setFld s off hi lo v).cancelled = s.cancelled ∧ (setFld s off hi lo v).ackWait = s.ackWait ∧
    (setFld s off hi lo v).wakeWant = s.wakeWant ∧ (setFld s off hi lo v).groups = s.groups ∧ (setFld s off hi lo v).mirror = s.mirror ∧
    (setFld s off hi lo v).pair = s.pair ∧ (setFld s off hi lo v).servo = s.servo ∧ (setFld s off hi lo v).quickQ = s.quickQ ∧
    (setFld s off hi lo v).oos = s.oos ∧ (setFld s off hi lo v).infRuns = s.infRuns ∧ (setFld s off hi lo v).infUnits = s.infUnits ∧
    (setFld s off hi lo v).solves = s.solves ∧ (setFld s off hi lo v).asms = s.asms ∧ (setFld s off hi lo v).parsers = s.parsers ∧
    (setFld s off hi lo v).lexers = s.lexers ∧ (setFld s off hi lo v).contQ = s.contQ ∧ (setFld s off hi lo v).handles = s.handles ∧
    (setFld s off hi lo v).outSigs = s.outSigs ∧ (setFld s off hi lo v).particles = s.particles ∧ (setFld s off hi lo v).saved = s.saved ∧
    (setFld s off hi lo v).pmoves = s.pmoves ∧ (setFld s off hi lo v).epochs = s.epochs ∧ (setFld s off hi lo v).strobes = s.strobes ∧
    (setFld s off hi lo v).xcache = s.xcache ∧ (setFld s off hi lo v).xtab = s.xtab ∧ (setFld s off hi lo v).xseen = s.xseen ∧
    (setFld s off hi lo v).fns = s.fns ∧ (setFld s off hi lo v).trackers = s.trackers ∧ (setFld s off hi lo v).answers = s.answers ∧
    (setFld s off hi lo v).hostOut = s.hostOut ∧ (setFld s off hi lo v).sqs = s.sqs ∧ (setFld s off hi lo v).rcs = s.rcs ∧
    (setFld s off hi lo v).cqRes = s.cqRes ∧ (setFld s off hi lo v).eqLost = s.eqLost ∧ (setFld s off hi lo v).descs = s.descs ∧
    (setFld s off hi lo v).nextDesc = s.nextDesc ∧ (setFld s off hi lo v).acts = s.acts ∧ (setFld s off hi lo v).i3c = s.i3c ∧
    (setFld s off hi lo v).jtag = s.jtag ∧ (setFld s off hi lo v).pins = s.pins ∧ (setFld s off hi lo v).nvm = s.nvm ∧
    (setFld s off hi lo v).pwr = s.pwr ∧ (setFld s off hi lo v).cust = s.cust ∧ (setFld s off hi lo v).field = s.field :=
  by repeat (first | exact rfl | refine ⟨rfl, ?_⟩)

@[simp] theorem setBitOf_keeps (s : State) (off i : Nat) :
    (setBitOf s off i).pending = s.pending ∧ (setBitOf s off i).free = s.free ∧ (setBitOf s off i).tense = s.tense ∧
    (setBitOf s off i).spm = s.spm ∧ (setBitOf s off i).hbm = s.hbm ∧ (setBitOf s off i).lcReq = s.lcReq ∧ (setBitOf s off i).lcWork = s.lcWork ∧
    (setBitOf s off i).fwBuf = s.fwBuf ∧ (setBitOf s off i).hstk = s.hstk ∧ (setBitOf s off i).escaped = s.escaped ∧
    (setBitOf s off i).corrected = s.corrected ∧ (setBitOf s off i).corrAt = s.corrAt ∧ (setBitOf s off i).conj = s.conj ∧
    (setBitOf s off i).ctxs = s.ctxs ∧ (setBitOf s off i).runs = s.runs ∧ (setBitOf s off i).queues = s.queues ∧
    (setBitOf s off i).progs = s.progs ∧ (setBitOf s off i).nextProg = s.nextProg ∧ (setBitOf s off i).verbs = s.verbs ∧
    (setBitOf s off i).reports = s.reports ∧ (setBitOf s off i).rseq = s.rseq ∧ (setBitOf s off i).rptLost = s.rptLost ∧
    (setBitOf s off i).rptBuf = s.rptBuf ∧ (setBitOf s off i).mgmtOut = s.mgmtOut ∧ (setBitOf s off i).audit = s.audit ∧
    (setBitOf s off i).audLost = s.audLost ∧ (setBitOf s off i).audFirst = s.audFirst ∧ (setBitOf s off i).ports = s.ports ∧
    (setBitOf s off i).nextReq = s.nextReq ∧ (setBitOf s off i).wire = s.wire ∧ (setBitOf s off i).loop = s.loop ∧
    (setBitOf s off i).cancelled = s.cancelled ∧ (setBitOf s off i).ackWait = s.ackWait ∧ (setBitOf s off i).wakeWant = s.wakeWant ∧
    (setBitOf s off i).groups = s.groups ∧ (setBitOf s off i).mirror = s.mirror ∧ (setBitOf s off i).pair = s.pair ∧
    (setBitOf s off i).servo = s.servo ∧ (setBitOf s off i).quickQ = s.quickQ ∧ (setBitOf s off i).oos = s.oos ∧
    (setBitOf s off i).infRuns = s.infRuns ∧ (setBitOf s off i).infUnits = s.infUnits ∧ (setBitOf s off i).solves = s.solves ∧
    (setBitOf s off i).asms = s.asms ∧ (setBitOf s off i).parsers = s.parsers ∧ (setBitOf s off i).lexers = s.lexers ∧
    (setBitOf s off i).contQ = s.contQ ∧ (setBitOf s off i).handles = s.handles ∧ (setBitOf s off i).outSigs = s.outSigs ∧
    (setBitOf s off i).particles = s.particles ∧ (setBitOf s off i).saved = s.saved ∧ (setBitOf s off i).pmoves = s.pmoves ∧
    (setBitOf s off i).epochs = s.epochs ∧ (setBitOf s off i).strobes = s.strobes ∧ (setBitOf s off i).xcache = s.xcache ∧
    (setBitOf s off i).xtab = s.xtab ∧ (setBitOf s off i).xseen = s.xseen ∧ (setBitOf s off i).fns = s.fns ∧
    (setBitOf s off i).trackers = s.trackers ∧ (setBitOf s off i).answers = s.answers ∧ (setBitOf s off i).hostOut = s.hostOut ∧
    (setBitOf s off i).sqs = s.sqs ∧ (setBitOf s off i).rcs = s.rcs ∧ (setBitOf s off i).cqRes = s.cqRes ∧ (setBitOf s off i).eqLost = s.eqLost ∧
    (setBitOf s off i).descs = s.descs ∧ (setBitOf s off i).nextDesc = s.nextDesc ∧ (setBitOf s off i).acts = s.acts ∧
    (setBitOf s off i).i3c = s.i3c ∧ (setBitOf s off i).jtag = s.jtag ∧ (setBitOf s off i).pins = s.pins ∧ (setBitOf s off i).nvm = s.nvm ∧
    (setBitOf s off i).pwr = s.pwr ∧ (setBitOf s off i).cust = s.cust ∧ (setBitOf s off i).field = s.field :=
  by repeat (first | exact rfl | refine ⟨rfl, ?_⟩)

@[simp] theorem clrBitOf_keeps (s : State) (off i : Nat) :
    (clrBitOf s off i).pending = s.pending ∧ (clrBitOf s off i).free = s.free ∧ (clrBitOf s off i).tense = s.tense ∧
    (clrBitOf s off i).spm = s.spm ∧ (clrBitOf s off i).hbm = s.hbm ∧ (clrBitOf s off i).lcReq = s.lcReq ∧ (clrBitOf s off i).lcWork = s.lcWork ∧
    (clrBitOf s off i).fwBuf = s.fwBuf ∧ (clrBitOf s off i).hstk = s.hstk ∧ (clrBitOf s off i).escaped = s.escaped ∧
    (clrBitOf s off i).corrected = s.corrected ∧ (clrBitOf s off i).corrAt = s.corrAt ∧ (clrBitOf s off i).conj = s.conj ∧
    (clrBitOf s off i).ctxs = s.ctxs ∧ (clrBitOf s off i).runs = s.runs ∧ (clrBitOf s off i).queues = s.queues ∧
    (clrBitOf s off i).progs = s.progs ∧ (clrBitOf s off i).nextProg = s.nextProg ∧ (clrBitOf s off i).verbs = s.verbs ∧
    (clrBitOf s off i).reports = s.reports ∧ (clrBitOf s off i).rseq = s.rseq ∧ (clrBitOf s off i).rptLost = s.rptLost ∧
    (clrBitOf s off i).rptBuf = s.rptBuf ∧ (clrBitOf s off i).mgmtOut = s.mgmtOut ∧ (clrBitOf s off i).audit = s.audit ∧
    (clrBitOf s off i).audLost = s.audLost ∧ (clrBitOf s off i).audFirst = s.audFirst ∧ (clrBitOf s off i).ports = s.ports ∧
    (clrBitOf s off i).nextReq = s.nextReq ∧ (clrBitOf s off i).wire = s.wire ∧ (clrBitOf s off i).loop = s.loop ∧
    (clrBitOf s off i).cancelled = s.cancelled ∧ (clrBitOf s off i).ackWait = s.ackWait ∧ (clrBitOf s off i).wakeWant = s.wakeWant ∧
    (clrBitOf s off i).groups = s.groups ∧ (clrBitOf s off i).mirror = s.mirror ∧ (clrBitOf s off i).pair = s.pair ∧
    (clrBitOf s off i).servo = s.servo ∧ (clrBitOf s off i).quickQ = s.quickQ ∧ (clrBitOf s off i).oos = s.oos ∧
    (clrBitOf s off i).infRuns = s.infRuns ∧ (clrBitOf s off i).infUnits = s.infUnits ∧ (clrBitOf s off i).solves = s.solves ∧
    (clrBitOf s off i).asms = s.asms ∧ (clrBitOf s off i).parsers = s.parsers ∧ (clrBitOf s off i).lexers = s.lexers ∧
    (clrBitOf s off i).contQ = s.contQ ∧ (clrBitOf s off i).handles = s.handles ∧ (clrBitOf s off i).outSigs = s.outSigs ∧
    (clrBitOf s off i).particles = s.particles ∧ (clrBitOf s off i).saved = s.saved ∧ (clrBitOf s off i).pmoves = s.pmoves ∧
    (clrBitOf s off i).epochs = s.epochs ∧ (clrBitOf s off i).strobes = s.strobes ∧ (clrBitOf s off i).xcache = s.xcache ∧
    (clrBitOf s off i).xtab = s.xtab ∧ (clrBitOf s off i).xseen = s.xseen ∧ (clrBitOf s off i).fns = s.fns ∧
    (clrBitOf s off i).trackers = s.trackers ∧ (clrBitOf s off i).answers = s.answers ∧ (clrBitOf s off i).hostOut = s.hostOut ∧
    (clrBitOf s off i).sqs = s.sqs ∧ (clrBitOf s off i).rcs = s.rcs ∧ (clrBitOf s off i).cqRes = s.cqRes ∧ (clrBitOf s off i).eqLost = s.eqLost ∧
    (clrBitOf s off i).descs = s.descs ∧ (clrBitOf s off i).nextDesc = s.nextDesc ∧ (clrBitOf s off i).acts = s.acts ∧
    (clrBitOf s off i).i3c = s.i3c ∧ (clrBitOf s off i).jtag = s.jtag ∧ (clrBitOf s off i).pins = s.pins ∧ (clrBitOf s off i).nvm = s.nvm ∧
    (clrBitOf s off i).pwr = s.pwr ∧ (clrBitOf s off i).cust = s.cust ∧ (clrBitOf s off i).field = s.field :=
  by repeat (first | exact rfl | refine ⟨rfl, ?_⟩)

@[simp] theorem satFld_keeps (s : State) (off hi lo n : Nat) :
    (satFld s off hi lo n).pending = s.pending ∧ (satFld s off hi lo n).free = s.free ∧ (satFld s off hi lo n).tense = s.tense ∧
    (satFld s off hi lo n).spm = s.spm ∧ (satFld s off hi lo n).hbm = s.hbm ∧ (satFld s off hi lo n).lcReq = s.lcReq ∧
    (satFld s off hi lo n).lcWork = s.lcWork ∧ (satFld s off hi lo n).fwBuf = s.fwBuf ∧ (satFld s off hi lo n).hstk = s.hstk ∧
    (satFld s off hi lo n).escaped = s.escaped ∧ (satFld s off hi lo n).corrected = s.corrected ∧ (satFld s off hi lo n).corrAt = s.corrAt ∧
    (satFld s off hi lo n).conj = s.conj ∧ (satFld s off hi lo n).ctxs = s.ctxs ∧ (satFld s off hi lo n).runs = s.runs ∧
    (satFld s off hi lo n).queues = s.queues ∧ (satFld s off hi lo n).progs = s.progs ∧ (satFld s off hi lo n).nextProg = s.nextProg ∧
    (satFld s off hi lo n).verbs = s.verbs ∧ (satFld s off hi lo n).reports = s.reports ∧ (satFld s off hi lo n).rseq = s.rseq ∧
    (satFld s off hi lo n).rptLost = s.rptLost ∧ (satFld s off hi lo n).rptBuf = s.rptBuf ∧ (satFld s off hi lo n).mgmtOut = s.mgmtOut ∧
    (satFld s off hi lo n).audit = s.audit ∧ (satFld s off hi lo n).audLost = s.audLost ∧ (satFld s off hi lo n).audFirst = s.audFirst ∧
    (satFld s off hi lo n).ports = s.ports ∧ (satFld s off hi lo n).nextReq = s.nextReq ∧ (satFld s off hi lo n).wire = s.wire ∧
    (satFld s off hi lo n).loop = s.loop ∧ (satFld s off hi lo n).cancelled = s.cancelled ∧ (satFld s off hi lo n).ackWait = s.ackWait ∧
    (satFld s off hi lo n).wakeWant = s.wakeWant ∧ (satFld s off hi lo n).groups = s.groups ∧ (satFld s off hi lo n).mirror = s.mirror ∧
    (satFld s off hi lo n).pair = s.pair ∧ (satFld s off hi lo n).servo = s.servo ∧ (satFld s off hi lo n).quickQ = s.quickQ ∧
    (satFld s off hi lo n).oos = s.oos ∧ (satFld s off hi lo n).infRuns = s.infRuns ∧ (satFld s off hi lo n).infUnits = s.infUnits ∧
    (satFld s off hi lo n).solves = s.solves ∧ (satFld s off hi lo n).asms = s.asms ∧ (satFld s off hi lo n).parsers = s.parsers ∧
    (satFld s off hi lo n).lexers = s.lexers ∧ (satFld s off hi lo n).contQ = s.contQ ∧ (satFld s off hi lo n).handles = s.handles ∧
    (satFld s off hi lo n).outSigs = s.outSigs ∧ (satFld s off hi lo n).particles = s.particles ∧ (satFld s off hi lo n).saved = s.saved ∧
    (satFld s off hi lo n).pmoves = s.pmoves ∧ (satFld s off hi lo n).epochs = s.epochs ∧ (satFld s off hi lo n).strobes = s.strobes ∧
    (satFld s off hi lo n).xcache = s.xcache ∧ (satFld s off hi lo n).xtab = s.xtab ∧ (satFld s off hi lo n).xseen = s.xseen ∧
    (satFld s off hi lo n).fns = s.fns ∧ (satFld s off hi lo n).trackers = s.trackers ∧ (satFld s off hi lo n).answers = s.answers ∧
    (satFld s off hi lo n).hostOut = s.hostOut ∧ (satFld s off hi lo n).sqs = s.sqs ∧ (satFld s off hi lo n).rcs = s.rcs ∧
    (satFld s off hi lo n).cqRes = s.cqRes ∧ (satFld s off hi lo n).eqLost = s.eqLost ∧ (satFld s off hi lo n).descs = s.descs ∧
    (satFld s off hi lo n).nextDesc = s.nextDesc ∧ (satFld s off hi lo n).acts = s.acts ∧ (satFld s off hi lo n).i3c = s.i3c ∧
    (satFld s off hi lo n).jtag = s.jtag ∧ (satFld s off hi lo n).pins = s.pins ∧ (satFld s off hi lo n).nvm = s.nvm ∧
    (satFld s off hi lo n).pwr = s.pwr ∧ (satFld s off hi lo n).cust = s.cust ∧ (satFld s off hi lo n).field = s.field :=
  by repeat (first | exact rfl | refine ⟨rfl, ?_⟩)

@[simp] theorem strobeSet_keeps (s : State) (off b v : Nat) :
    (strobeSet s off b v).pending = s.pending ∧ (strobeSet s off b v).free = s.free ∧ (strobeSet s off b v).tense = s.tense ∧
    (strobeSet s off b v).regs = s.regs ∧ (strobeSet s off b v).spm = s.spm ∧ (strobeSet s off b v).hbm = s.hbm ∧
    (strobeSet s off b v).lcReq = s.lcReq ∧ (strobeSet s off b v).lcWork = s.lcWork ∧ (strobeSet s off b v).fwBuf = s.fwBuf ∧
    (strobeSet s off b v).hstk = s.hstk ∧ (strobeSet s off b v).escaped = s.escaped ∧ (strobeSet s off b v).corrected = s.corrected ∧
    (strobeSet s off b v).corrAt = s.corrAt ∧ (strobeSet s off b v).conj = s.conj ∧ (strobeSet s off b v).ctxs = s.ctxs ∧
    (strobeSet s off b v).runs = s.runs ∧ (strobeSet s off b v).queues = s.queues ∧ (strobeSet s off b v).progs = s.progs ∧
    (strobeSet s off b v).nextProg = s.nextProg ∧ (strobeSet s off b v).verbs = s.verbs ∧ (strobeSet s off b v).reports = s.reports ∧
    (strobeSet s off b v).rseq = s.rseq ∧ (strobeSet s off b v).rptLost = s.rptLost ∧ (strobeSet s off b v).rptBuf = s.rptBuf ∧
    (strobeSet s off b v).mgmtOut = s.mgmtOut ∧ (strobeSet s off b v).audit = s.audit ∧ (strobeSet s off b v).audLost = s.audLost ∧
    (strobeSet s off b v).audFirst = s.audFirst ∧ (strobeSet s off b v).ports = s.ports ∧ (strobeSet s off b v).nextReq = s.nextReq ∧
    (strobeSet s off b v).wire = s.wire ∧ (strobeSet s off b v).loop = s.loop ∧ (strobeSet s off b v).cancelled = s.cancelled ∧
    (strobeSet s off b v).ackWait = s.ackWait ∧ (strobeSet s off b v).wakeWant = s.wakeWant ∧ (strobeSet s off b v).groups = s.groups ∧
    (strobeSet s off b v).mirror = s.mirror ∧ (strobeSet s off b v).pair = s.pair ∧ (strobeSet s off b v).servo = s.servo ∧
    (strobeSet s off b v).quickQ = s.quickQ ∧ (strobeSet s off b v).oos = s.oos ∧ (strobeSet s off b v).infRuns = s.infRuns ∧
    (strobeSet s off b v).infUnits = s.infUnits ∧ (strobeSet s off b v).solves = s.solves ∧ (strobeSet s off b v).asms = s.asms ∧
    (strobeSet s off b v).parsers = s.parsers ∧ (strobeSet s off b v).lexers = s.lexers ∧ (strobeSet s off b v).contQ = s.contQ ∧
    (strobeSet s off b v).handles = s.handles ∧ (strobeSet s off b v).outSigs = s.outSigs ∧ (strobeSet s off b v).particles = s.particles ∧
    (strobeSet s off b v).saved = s.saved ∧ (strobeSet s off b v).pmoves = s.pmoves ∧ (strobeSet s off b v).epochs = s.epochs ∧
    (strobeSet s off b v).xcache = s.xcache ∧ (strobeSet s off b v).xtab = s.xtab ∧ (strobeSet s off b v).xseen = s.xseen ∧
    (strobeSet s off b v).fns = s.fns ∧ (strobeSet s off b v).trackers = s.trackers ∧ (strobeSet s off b v).answers = s.answers ∧
    (strobeSet s off b v).hostOut = s.hostOut ∧ (strobeSet s off b v).sqs = s.sqs ∧ (strobeSet s off b v).rcs = s.rcs ∧
    (strobeSet s off b v).cqRes = s.cqRes ∧ (strobeSet s off b v).eqLost = s.eqLost ∧ (strobeSet s off b v).descs = s.descs ∧
    (strobeSet s off b v).nextDesc = s.nextDesc ∧ (strobeSet s off b v).acts = s.acts ∧ (strobeSet s off b v).i3c = s.i3c ∧
    (strobeSet s off b v).jtag = s.jtag ∧ (strobeSet s off b v).pins = s.pins ∧ (strobeSet s off b v).nvm = s.nvm ∧
    (strobeSet s off b v).pwr = s.pwr ∧ (strobeSet s off b v).cust = s.cust ∧ (strobeSet s off b v).field = s.field :=
  by repeat (first | exact rfl | refine ⟨rfl, ?_⟩)

@[simp] theorem strobeClr_keeps (s : State) (off b : Nat) :
    (strobeClr s off b).pending = s.pending ∧ (strobeClr s off b).free = s.free ∧ (strobeClr s off b).tense = s.tense ∧
    (strobeClr s off b).regs = s.regs ∧ (strobeClr s off b).spm = s.spm ∧ (strobeClr s off b).hbm = s.hbm ∧ (strobeClr s off b).lcReq = s.lcReq ∧
    (strobeClr s off b).lcWork = s.lcWork ∧ (strobeClr s off b).fwBuf = s.fwBuf ∧ (strobeClr s off b).hstk = s.hstk ∧
    (strobeClr s off b).escaped = s.escaped ∧ (strobeClr s off b).corrected = s.corrected ∧ (strobeClr s off b).corrAt = s.corrAt ∧
    (strobeClr s off b).conj = s.conj ∧ (strobeClr s off b).ctxs = s.ctxs ∧ (strobeClr s off b).runs = s.runs ∧
    (strobeClr s off b).queues = s.queues ∧ (strobeClr s off b).progs = s.progs ∧ (strobeClr s off b).nextProg = s.nextProg ∧
    (strobeClr s off b).verbs = s.verbs ∧ (strobeClr s off b).reports = s.reports ∧ (strobeClr s off b).rseq = s.rseq ∧
    (strobeClr s off b).rptLost = s.rptLost ∧ (strobeClr s off b).rptBuf = s.rptBuf ∧ (strobeClr s off b).mgmtOut = s.mgmtOut ∧
    (strobeClr s off b).audit = s.audit ∧ (strobeClr s off b).audLost = s.audLost ∧ (strobeClr s off b).audFirst = s.audFirst ∧
    (strobeClr s off b).ports = s.ports ∧ (strobeClr s off b).nextReq = s.nextReq ∧ (strobeClr s off b).wire = s.wire ∧
    (strobeClr s off b).loop = s.loop ∧ (strobeClr s off b).cancelled = s.cancelled ∧ (strobeClr s off b).ackWait = s.ackWait ∧
    (strobeClr s off b).wakeWant = s.wakeWant ∧ (strobeClr s off b).groups = s.groups ∧ (strobeClr s off b).mirror = s.mirror ∧
    (strobeClr s off b).pair = s.pair ∧ (strobeClr s off b).servo = s.servo ∧ (strobeClr s off b).quickQ = s.quickQ ∧
    (strobeClr s off b).oos = s.oos ∧ (strobeClr s off b).infRuns = s.infRuns ∧ (strobeClr s off b).infUnits = s.infUnits ∧
    (strobeClr s off b).solves = s.solves ∧ (strobeClr s off b).asms = s.asms ∧ (strobeClr s off b).parsers = s.parsers ∧
    (strobeClr s off b).lexers = s.lexers ∧ (strobeClr s off b).contQ = s.contQ ∧ (strobeClr s off b).handles = s.handles ∧
    (strobeClr s off b).outSigs = s.outSigs ∧ (strobeClr s off b).particles = s.particles ∧ (strobeClr s off b).saved = s.saved ∧
    (strobeClr s off b).pmoves = s.pmoves ∧ (strobeClr s off b).epochs = s.epochs ∧ (strobeClr s off b).xcache = s.xcache ∧
    (strobeClr s off b).xtab = s.xtab ∧ (strobeClr s off b).xseen = s.xseen ∧ (strobeClr s off b).fns = s.fns ∧
    (strobeClr s off b).trackers = s.trackers ∧ (strobeClr s off b).answers = s.answers ∧ (strobeClr s off b).hostOut = s.hostOut ∧
    (strobeClr s off b).sqs = s.sqs ∧ (strobeClr s off b).rcs = s.rcs ∧ (strobeClr s off b).cqRes = s.cqRes ∧
    (strobeClr s off b).eqLost = s.eqLost ∧ (strobeClr s off b).descs = s.descs ∧ (strobeClr s off b).nextDesc = s.nextDesc ∧
    (strobeClr s off b).acts = s.acts ∧ (strobeClr s off b).i3c = s.i3c ∧ (strobeClr s off b).jtag = s.jtag ∧ (strobeClr s off b).pins = s.pins ∧
    (strobeClr s off b).nvm = s.nvm ∧ (strobeClr s off b).pwr = s.pwr ∧ (strobeClr s off b).cust = s.cust ∧
    (strobeClr s off b).field = s.field :=
  by repeat (first | exact rfl | refine ⟨rfl, ?_⟩)

@[simp] theorem hostSend_keeps (s : State) (o : HostOut) :
    (hostSend s o).pending = s.pending ∧ (hostSend s o).free = s.free ∧ (hostSend s o).tense = s.tense ∧ (hostSend s o).regs = s.regs ∧
    (hostSend s o).spm = s.spm ∧ (hostSend s o).hbm = s.hbm ∧ (hostSend s o).lcReq = s.lcReq ∧ (hostSend s o).lcWork = s.lcWork ∧
    (hostSend s o).fwBuf = s.fwBuf ∧ (hostSend s o).hstk = s.hstk ∧ (hostSend s o).escaped = s.escaped ∧ (hostSend s o).corrected = s.corrected ∧
    (hostSend s o).corrAt = s.corrAt ∧ (hostSend s o).conj = s.conj ∧ (hostSend s o).ctxs = s.ctxs ∧ (hostSend s o).runs = s.runs ∧
    (hostSend s o).queues = s.queues ∧ (hostSend s o).progs = s.progs ∧ (hostSend s o).nextProg = s.nextProg ∧ (hostSend s o).verbs = s.verbs ∧
    (hostSend s o).reports = s.reports ∧ (hostSend s o).rseq = s.rseq ∧ (hostSend s o).rptLost = s.rptLost ∧ (hostSend s o).rptBuf = s.rptBuf ∧
    (hostSend s o).mgmtOut = s.mgmtOut ∧ (hostSend s o).audit = s.audit ∧ (hostSend s o).audLost = s.audLost ∧
    (hostSend s o).audFirst = s.audFirst ∧ (hostSend s o).ports = s.ports ∧ (hostSend s o).nextReq = s.nextReq ∧ (hostSend s o).wire = s.wire ∧
    (hostSend s o).loop = s.loop ∧ (hostSend s o).cancelled = s.cancelled ∧ (hostSend s o).ackWait = s.ackWait ∧
    (hostSend s o).wakeWant = s.wakeWant ∧ (hostSend s o).groups = s.groups ∧ (hostSend s o).mirror = s.mirror ∧ (hostSend s o).pair = s.pair ∧
    (hostSend s o).servo = s.servo ∧ (hostSend s o).quickQ = s.quickQ ∧ (hostSend s o).oos = s.oos ∧ (hostSend s o).infRuns = s.infRuns ∧
    (hostSend s o).infUnits = s.infUnits ∧ (hostSend s o).solves = s.solves ∧ (hostSend s o).asms = s.asms ∧ (hostSend s o).parsers = s.parsers ∧
    (hostSend s o).lexers = s.lexers ∧ (hostSend s o).contQ = s.contQ ∧ (hostSend s o).handles = s.handles ∧ (hostSend s o).outSigs = s.outSigs ∧
    (hostSend s o).particles = s.particles ∧ (hostSend s o).saved = s.saved ∧ (hostSend s o).pmoves = s.pmoves ∧
    (hostSend s o).epochs = s.epochs ∧ (hostSend s o).strobes = s.strobes ∧ (hostSend s o).xcache = s.xcache ∧ (hostSend s o).xtab = s.xtab ∧
    (hostSend s o).xseen = s.xseen ∧ (hostSend s o).fns = s.fns ∧ (hostSend s o).trackers = s.trackers ∧ (hostSend s o).answers = s.answers ∧
    (hostSend s o).sqs = s.sqs ∧ (hostSend s o).rcs = s.rcs ∧ (hostSend s o).cqRes = s.cqRes ∧ (hostSend s o).eqLost = s.eqLost ∧
    (hostSend s o).descs = s.descs ∧ (hostSend s o).nextDesc = s.nextDesc ∧ (hostSend s o).acts = s.acts ∧ (hostSend s o).i3c = s.i3c ∧
    (hostSend s o).jtag = s.jtag ∧ (hostSend s o).pins = s.pins ∧ (hostSend s o).nvm = s.nvm ∧ (hostSend s o).pwr = s.pwr ∧
    (hostSend s o).cust = s.cust ∧ (hostSend s o).field = s.field :=
  by repeat (first | exact rfl | refine ⟨rfl, ?_⟩)

@[simp] theorem updFn_keeps (s : State) (f : Nat) (g : Fn → Fn) :
    (updFn s f g).pending = s.pending ∧ (updFn s f g).free = s.free ∧ (updFn s f g).tense = s.tense ∧ (updFn s f g).regs = s.regs ∧
    (updFn s f g).spm = s.spm ∧ (updFn s f g).hbm = s.hbm ∧ (updFn s f g).lcReq = s.lcReq ∧ (updFn s f g).lcWork = s.lcWork ∧
    (updFn s f g).fwBuf = s.fwBuf ∧ (updFn s f g).hstk = s.hstk ∧ (updFn s f g).escaped = s.escaped ∧ (updFn s f g).corrected = s.corrected ∧
    (updFn s f g).corrAt = s.corrAt ∧ (updFn s f g).conj = s.conj ∧ (updFn s f g).ctxs = s.ctxs ∧ (updFn s f g).runs = s.runs ∧
    (updFn s f g).queues = s.queues ∧ (updFn s f g).progs = s.progs ∧ (updFn s f g).nextProg = s.nextProg ∧ (updFn s f g).verbs = s.verbs ∧
    (updFn s f g).reports = s.reports ∧ (updFn s f g).rseq = s.rseq ∧ (updFn s f g).rptLost = s.rptLost ∧ (updFn s f g).rptBuf = s.rptBuf ∧
    (updFn s f g).mgmtOut = s.mgmtOut ∧ (updFn s f g).audit = s.audit ∧ (updFn s f g).audLost = s.audLost ∧ (updFn s f g).audFirst = s.audFirst ∧
    (updFn s f g).ports = s.ports ∧ (updFn s f g).nextReq = s.nextReq ∧ (updFn s f g).wire = s.wire ∧ (updFn s f g).loop = s.loop ∧
    (updFn s f g).cancelled = s.cancelled ∧ (updFn s f g).ackWait = s.ackWait ∧ (updFn s f g).wakeWant = s.wakeWant ∧
    (updFn s f g).groups = s.groups ∧ (updFn s f g).mirror = s.mirror ∧ (updFn s f g).pair = s.pair ∧ (updFn s f g).servo = s.servo ∧
    (updFn s f g).quickQ = s.quickQ ∧ (updFn s f g).oos = s.oos ∧ (updFn s f g).infRuns = s.infRuns ∧ (updFn s f g).infUnits = s.infUnits ∧
    (updFn s f g).solves = s.solves ∧ (updFn s f g).asms = s.asms ∧ (updFn s f g).parsers = s.parsers ∧ (updFn s f g).lexers = s.lexers ∧
    (updFn s f g).contQ = s.contQ ∧ (updFn s f g).handles = s.handles ∧ (updFn s f g).outSigs = s.outSigs ∧
    (updFn s f g).particles = s.particles ∧ (updFn s f g).saved = s.saved ∧ (updFn s f g).pmoves = s.pmoves ∧ (updFn s f g).epochs = s.epochs ∧
    (updFn s f g).strobes = s.strobes ∧ (updFn s f g).xcache = s.xcache ∧ (updFn s f g).xtab = s.xtab ∧ (updFn s f g).xseen = s.xseen ∧
    (updFn s f g).trackers = s.trackers ∧ (updFn s f g).answers = s.answers ∧ (updFn s f g).hostOut = s.hostOut ∧ (updFn s f g).sqs = s.sqs ∧
    (updFn s f g).rcs = s.rcs ∧ (updFn s f g).cqRes = s.cqRes ∧ (updFn s f g).eqLost = s.eqLost ∧ (updFn s f g).descs = s.descs ∧
    (updFn s f g).nextDesc = s.nextDesc ∧ (updFn s f g).acts = s.acts ∧ (updFn s f g).i3c = s.i3c ∧ (updFn s f g).jtag = s.jtag ∧
    (updFn s f g).pins = s.pins ∧ (updFn s f g).nvm = s.nvm ∧ (updFn s f g).pwr = s.pwr ∧ (updFn s f g).cust = s.cust ∧
    (updFn s f g).field = s.field :=
  by repeat (first | exact rfl | refine ⟨rfl, ?_⟩)

@[simp] theorem updSq_keeps (s : State) (k i : Nat) (f : Sq → Sq) :
    (updSq s k i f).pending = s.pending ∧ (updSq s k i f).free = s.free ∧ (updSq s k i f).tense = s.tense ∧ (updSq s k i f).regs = s.regs ∧
    (updSq s k i f).spm = s.spm ∧ (updSq s k i f).hbm = s.hbm ∧ (updSq s k i f).lcReq = s.lcReq ∧ (updSq s k i f).lcWork = s.lcWork ∧
    (updSq s k i f).fwBuf = s.fwBuf ∧ (updSq s k i f).hstk = s.hstk ∧ (updSq s k i f).escaped = s.escaped ∧
    (updSq s k i f).corrected = s.corrected ∧ (updSq s k i f).corrAt = s.corrAt ∧ (updSq s k i f).conj = s.conj ∧ (updSq s k i f).ctxs = s.ctxs ∧
    (updSq s k i f).runs = s.runs ∧ (updSq s k i f).queues = s.queues ∧ (updSq s k i f).progs = s.progs ∧ (updSq s k i f).nextProg = s.nextProg ∧
    (updSq s k i f).verbs = s.verbs ∧ (updSq s k i f).reports = s.reports ∧ (updSq s k i f).rseq = s.rseq ∧ (updSq s k i f).rptLost = s.rptLost ∧
    (updSq s k i f).rptBuf = s.rptBuf ∧ (updSq s k i f).mgmtOut = s.mgmtOut ∧ (updSq s k i f).audit = s.audit ∧
    (updSq s k i f).audLost = s.audLost ∧ (updSq s k i f).audFirst = s.audFirst ∧ (updSq s k i f).ports = s.ports ∧
    (updSq s k i f).nextReq = s.nextReq ∧ (updSq s k i f).wire = s.wire ∧ (updSq s k i f).loop = s.loop ∧
    (updSq s k i f).cancelled = s.cancelled ∧ (updSq s k i f).ackWait = s.ackWait ∧ (updSq s k i f).wakeWant = s.wakeWant ∧
    (updSq s k i f).groups = s.groups ∧ (updSq s k i f).mirror = s.mirror ∧ (updSq s k i f).pair = s.pair ∧ (updSq s k i f).servo = s.servo ∧
    (updSq s k i f).quickQ = s.quickQ ∧ (updSq s k i f).oos = s.oos ∧ (updSq s k i f).infRuns = s.infRuns ∧
    (updSq s k i f).infUnits = s.infUnits ∧ (updSq s k i f).solves = s.solves ∧ (updSq s k i f).asms = s.asms ∧
    (updSq s k i f).parsers = s.parsers ∧ (updSq s k i f).lexers = s.lexers ∧ (updSq s k i f).contQ = s.contQ ∧
    (updSq s k i f).handles = s.handles ∧ (updSq s k i f).outSigs = s.outSigs ∧ (updSq s k i f).particles = s.particles ∧
    (updSq s k i f).saved = s.saved ∧ (updSq s k i f).pmoves = s.pmoves ∧ (updSq s k i f).epochs = s.epochs ∧
    (updSq s k i f).strobes = s.strobes ∧ (updSq s k i f).xcache = s.xcache ∧ (updSq s k i f).xtab = s.xtab ∧ (updSq s k i f).xseen = s.xseen ∧
    (updSq s k i f).fns = s.fns ∧ (updSq s k i f).trackers = s.trackers ∧ (updSq s k i f).answers = s.answers ∧
    (updSq s k i f).hostOut = s.hostOut ∧ (updSq s k i f).rcs = s.rcs ∧ (updSq s k i f).cqRes = s.cqRes ∧ (updSq s k i f).eqLost = s.eqLost ∧
    (updSq s k i f).descs = s.descs ∧ (updSq s k i f).nextDesc = s.nextDesc ∧ (updSq s k i f).acts = s.acts ∧ (updSq s k i f).i3c = s.i3c ∧
    (updSq s k i f).jtag = s.jtag ∧ (updSq s k i f).pins = s.pins ∧ (updSq s k i f).nvm = s.nvm ∧ (updSq s k i f).pwr = s.pwr ∧
    (updSq s k i f).cust = s.cust ∧ (updSq s k i f).field = s.field :=
  by repeat (first | exact rfl | refine ⟨rfl, ?_⟩)

@[simp] theorem updCtx_keeps (s : State) (c : Nat) (f : Ctx → Ctx) :
    (updCtx s c f).pending = s.pending ∧ (updCtx s c f).free = s.free ∧ (updCtx s c f).tense = s.tense ∧ (updCtx s c f).regs = s.regs ∧
    (updCtx s c f).spm = s.spm ∧ (updCtx s c f).hbm = s.hbm ∧ (updCtx s c f).lcReq = s.lcReq ∧ (updCtx s c f).lcWork = s.lcWork ∧
    (updCtx s c f).fwBuf = s.fwBuf ∧ (updCtx s c f).hstk = s.hstk ∧ (updCtx s c f).escaped = s.escaped ∧ (updCtx s c f).corrected = s.corrected ∧
    (updCtx s c f).corrAt = s.corrAt ∧ (updCtx s c f).conj = s.conj ∧ (updCtx s c f).runs = s.runs ∧ (updCtx s c f).queues = s.queues ∧
    (updCtx s c f).progs = s.progs ∧ (updCtx s c f).nextProg = s.nextProg ∧ (updCtx s c f).verbs = s.verbs ∧ (updCtx s c f).reports = s.reports ∧
    (updCtx s c f).rseq = s.rseq ∧ (updCtx s c f).rptLost = s.rptLost ∧ (updCtx s c f).rptBuf = s.rptBuf ∧ (updCtx s c f).mgmtOut = s.mgmtOut ∧
    (updCtx s c f).audit = s.audit ∧ (updCtx s c f).audLost = s.audLost ∧ (updCtx s c f).audFirst = s.audFirst ∧ (updCtx s c f).ports = s.ports ∧
    (updCtx s c f).nextReq = s.nextReq ∧ (updCtx s c f).wire = s.wire ∧ (updCtx s c f).loop = s.loop ∧ (updCtx s c f).cancelled = s.cancelled ∧
    (updCtx s c f).ackWait = s.ackWait ∧ (updCtx s c f).wakeWant = s.wakeWant ∧ (updCtx s c f).groups = s.groups ∧
    (updCtx s c f).mirror = s.mirror ∧ (updCtx s c f).pair = s.pair ∧ (updCtx s c f).servo = s.servo ∧ (updCtx s c f).quickQ = s.quickQ ∧
    (updCtx s c f).oos = s.oos ∧ (updCtx s c f).infRuns = s.infRuns ∧ (updCtx s c f).infUnits = s.infUnits ∧ (updCtx s c f).solves = s.solves ∧
    (updCtx s c f).asms = s.asms ∧ (updCtx s c f).parsers = s.parsers ∧ (updCtx s c f).lexers = s.lexers ∧ (updCtx s c f).contQ = s.contQ ∧
    (updCtx s c f).handles = s.handles ∧ (updCtx s c f).outSigs = s.outSigs ∧ (updCtx s c f).particles = s.particles ∧
    (updCtx s c f).saved = s.saved ∧ (updCtx s c f).pmoves = s.pmoves ∧ (updCtx s c f).epochs = s.epochs ∧ (updCtx s c f).strobes = s.strobes ∧
    (updCtx s c f).xcache = s.xcache ∧ (updCtx s c f).xtab = s.xtab ∧ (updCtx s c f).xseen = s.xseen ∧ (updCtx s c f).fns = s.fns ∧
    (updCtx s c f).trackers = s.trackers ∧ (updCtx s c f).answers = s.answers ∧ (updCtx s c f).hostOut = s.hostOut ∧ (updCtx s c f).sqs = s.sqs ∧
    (updCtx s c f).rcs = s.rcs ∧ (updCtx s c f).cqRes = s.cqRes ∧ (updCtx s c f).eqLost = s.eqLost ∧ (updCtx s c f).descs = s.descs ∧
    (updCtx s c f).nextDesc = s.nextDesc ∧ (updCtx s c f).acts = s.acts ∧ (updCtx s c f).i3c = s.i3c ∧ (updCtx s c f).jtag = s.jtag ∧
    (updCtx s c f).pins = s.pins ∧ (updCtx s c f).nvm = s.nvm ∧ (updCtx s c f).pwr = s.pwr ∧ (updCtx s c f).cust = s.cust ∧
    (updCtx s c f).field = s.field :=
  by repeat (first | exact rfl | refine ⟨rfl, ?_⟩)

@[simp] theorem updRun_keeps (s : State) (c : Nat) (f : CtxRun → CtxRun) :
    (updRun s c f).pending = s.pending ∧ (updRun s c f).free = s.free ∧ (updRun s c f).tense = s.tense ∧ (updRun s c f).regs = s.regs ∧
    (updRun s c f).spm = s.spm ∧ (updRun s c f).hbm = s.hbm ∧ (updRun s c f).lcReq = s.lcReq ∧ (updRun s c f).lcWork = s.lcWork ∧
    (updRun s c f).fwBuf = s.fwBuf ∧ (updRun s c f).hstk = s.hstk ∧ (updRun s c f).escaped = s.escaped ∧ (updRun s c f).corrected = s.corrected ∧
    (updRun s c f).corrAt = s.corrAt ∧ (updRun s c f).conj = s.conj ∧ (updRun s c f).ctxs = s.ctxs ∧ (updRun s c f).queues = s.queues ∧
    (updRun s c f).progs = s.progs ∧ (updRun s c f).nextProg = s.nextProg ∧ (updRun s c f).verbs = s.verbs ∧ (updRun s c f).reports = s.reports ∧
    (updRun s c f).rseq = s.rseq ∧ (updRun s c f).rptLost = s.rptLost ∧ (updRun s c f).rptBuf = s.rptBuf ∧ (updRun s c f).mgmtOut = s.mgmtOut ∧
    (updRun s c f).audit = s.audit ∧ (updRun s c f).audLost = s.audLost ∧ (updRun s c f).audFirst = s.audFirst ∧ (updRun s c f).ports = s.ports ∧
    (updRun s c f).nextReq = s.nextReq ∧ (updRun s c f).wire = s.wire ∧ (updRun s c f).loop = s.loop ∧ (updRun s c f).cancelled = s.cancelled ∧
    (updRun s c f).ackWait = s.ackWait ∧ (updRun s c f).wakeWant = s.wakeWant ∧ (updRun s c f).groups = s.groups ∧
    (updRun s c f).mirror = s.mirror ∧ (updRun s c f).pair = s.pair ∧ (updRun s c f).servo = s.servo ∧ (updRun s c f).quickQ = s.quickQ ∧
    (updRun s c f).oos = s.oos ∧ (updRun s c f).infRuns = s.infRuns ∧ (updRun s c f).infUnits = s.infUnits ∧ (updRun s c f).solves = s.solves ∧
    (updRun s c f).asms = s.asms ∧ (updRun s c f).parsers = s.parsers ∧ (updRun s c f).lexers = s.lexers ∧ (updRun s c f).contQ = s.contQ ∧
    (updRun s c f).handles = s.handles ∧ (updRun s c f).outSigs = s.outSigs ∧ (updRun s c f).particles = s.particles ∧
    (updRun s c f).saved = s.saved ∧ (updRun s c f).pmoves = s.pmoves ∧ (updRun s c f).epochs = s.epochs ∧ (updRun s c f).strobes = s.strobes ∧
    (updRun s c f).xcache = s.xcache ∧ (updRun s c f).xtab = s.xtab ∧ (updRun s c f).xseen = s.xseen ∧ (updRun s c f).fns = s.fns ∧
    (updRun s c f).trackers = s.trackers ∧ (updRun s c f).answers = s.answers ∧ (updRun s c f).hostOut = s.hostOut ∧ (updRun s c f).sqs = s.sqs ∧
    (updRun s c f).rcs = s.rcs ∧ (updRun s c f).cqRes = s.cqRes ∧ (updRun s c f).eqLost = s.eqLost ∧ (updRun s c f).descs = s.descs ∧
    (updRun s c f).nextDesc = s.nextDesc ∧ (updRun s c f).acts = s.acts ∧ (updRun s c f).i3c = s.i3c ∧ (updRun s c f).jtag = s.jtag ∧
    (updRun s c f).pins = s.pins ∧ (updRun s c f).nvm = s.nvm ∧ (updRun s c f).pwr = s.pwr ∧ (updRun s c f).cust = s.cust ∧
    (updRun s c f).field = s.field :=
  by repeat (first | exact rfl | refine ⟨rfl, ?_⟩)

@[simp] theorem updConj_keeps (s : State) (j : Nat) (f : Conj → Conj) :
    (updConj s j f).pending = s.pending ∧ (updConj s j f).free = s.free ∧ (updConj s j f).tense = s.tense ∧ (updConj s j f).regs = s.regs ∧
    (updConj s j f).spm = s.spm ∧ (updConj s j f).hbm = s.hbm ∧ (updConj s j f).lcReq = s.lcReq ∧ (updConj s j f).lcWork = s.lcWork ∧
    (updConj s j f).fwBuf = s.fwBuf ∧ (updConj s j f).hstk = s.hstk ∧ (updConj s j f).escaped = s.escaped ∧
    (updConj s j f).corrected = s.corrected ∧ (updConj s j f).corrAt = s.corrAt ∧ (updConj s j f).ctxs = s.ctxs ∧ (updConj s j f).runs = s.runs ∧
    (updConj s j f).queues = s.queues ∧ (updConj s j f).progs = s.progs ∧ (updConj s j f).nextProg = s.nextProg ∧
    (updConj s j f).verbs = s.verbs ∧ (updConj s j f).reports = s.reports ∧ (updConj s j f).rseq = s.rseq ∧ (updConj s j f).rptLost = s.rptLost ∧
    (updConj s j f).rptBuf = s.rptBuf ∧ (updConj s j f).mgmtOut = s.mgmtOut ∧ (updConj s j f).audit = s.audit ∧
    (updConj s j f).audLost = s.audLost ∧ (updConj s j f).audFirst = s.audFirst ∧ (updConj s j f).ports = s.ports ∧
    (updConj s j f).nextReq = s.nextReq ∧ (updConj s j f).wire = s.wire ∧ (updConj s j f).loop = s.loop ∧
    (updConj s j f).cancelled = s.cancelled ∧ (updConj s j f).ackWait = s.ackWait ∧ (updConj s j f).wakeWant = s.wakeWant ∧
    (updConj s j f).groups = s.groups ∧ (updConj s j f).mirror = s.mirror ∧ (updConj s j f).pair = s.pair ∧ (updConj s j f).servo = s.servo ∧
    (updConj s j f).quickQ = s.quickQ ∧ (updConj s j f).oos = s.oos ∧ (updConj s j f).infRuns = s.infRuns ∧
    (updConj s j f).infUnits = s.infUnits ∧ (updConj s j f).solves = s.solves ∧ (updConj s j f).asms = s.asms ∧
    (updConj s j f).parsers = s.parsers ∧ (updConj s j f).lexers = s.lexers ∧ (updConj s j f).contQ = s.contQ ∧
    (updConj s j f).handles = s.handles ∧ (updConj s j f).outSigs = s.outSigs ∧ (updConj s j f).particles = s.particles ∧
    (updConj s j f).saved = s.saved ∧ (updConj s j f).pmoves = s.pmoves ∧ (updConj s j f).epochs = s.epochs ∧
    (updConj s j f).strobes = s.strobes ∧ (updConj s j f).xcache = s.xcache ∧ (updConj s j f).xtab = s.xtab ∧ (updConj s j f).xseen = s.xseen ∧
    (updConj s j f).fns = s.fns ∧ (updConj s j f).trackers = s.trackers ∧ (updConj s j f).answers = s.answers ∧
    (updConj s j f).hostOut = s.hostOut ∧ (updConj s j f).sqs = s.sqs ∧ (updConj s j f).rcs = s.rcs ∧ (updConj s j f).cqRes = s.cqRes ∧
    (updConj s j f).eqLost = s.eqLost ∧ (updConj s j f).descs = s.descs ∧ (updConj s j f).nextDesc = s.nextDesc ∧ (updConj s j f).acts = s.acts ∧
    (updConj s j f).i3c = s.i3c ∧ (updConj s j f).jtag = s.jtag ∧ (updConj s j f).pins = s.pins ∧ (updConj s j f).nvm = s.nvm ∧
    (updConj s j f).pwr = s.pwr ∧ (updConj s j f).cust = s.cust ∧ (updConj s j f).field = s.field :=
  by repeat (first | exact rfl | refine ⟨rfl, ?_⟩)

@[simp] theorem conjFree_keeps (s : State) (j : Nat) :
    (conjFree s j).pending = s.pending ∧ (conjFree s j).free = s.free ∧ (conjFree s j).tense = s.tense ∧ (conjFree s j).regs = s.regs ∧
    (conjFree s j).spm = s.spm ∧ (conjFree s j).hbm = s.hbm ∧ (conjFree s j).lcReq = s.lcReq ∧ (conjFree s j).lcWork = s.lcWork ∧
    (conjFree s j).fwBuf = s.fwBuf ∧ (conjFree s j).hstk = s.hstk ∧ (conjFree s j).escaped = s.escaped ∧ (conjFree s j).corrected = s.corrected ∧
    (conjFree s j).corrAt = s.corrAt ∧ (conjFree s j).ctxs = s.ctxs ∧ (conjFree s j).runs = s.runs ∧ (conjFree s j).queues = s.queues ∧
    (conjFree s j).progs = s.progs ∧ (conjFree s j).nextProg = s.nextProg ∧ (conjFree s j).verbs = s.verbs ∧ (conjFree s j).reports = s.reports ∧
    (conjFree s j).rseq = s.rseq ∧ (conjFree s j).rptLost = s.rptLost ∧ (conjFree s j).rptBuf = s.rptBuf ∧ (conjFree s j).mgmtOut = s.mgmtOut ∧
    (conjFree s j).audit = s.audit ∧ (conjFree s j).audLost = s.audLost ∧ (conjFree s j).audFirst = s.audFirst ∧ (conjFree s j).ports = s.ports ∧
    (conjFree s j).nextReq = s.nextReq ∧ (conjFree s j).wire = s.wire ∧ (conjFree s j).loop = s.loop ∧ (conjFree s j).cancelled = s.cancelled ∧
    (conjFree s j).ackWait = s.ackWait ∧ (conjFree s j).wakeWant = s.wakeWant ∧ (conjFree s j).groups = s.groups ∧
    (conjFree s j).mirror = s.mirror ∧ (conjFree s j).pair = s.pair ∧ (conjFree s j).servo = s.servo ∧ (conjFree s j).quickQ = s.quickQ ∧
    (conjFree s j).oos = s.oos ∧ (conjFree s j).infRuns = s.infRuns ∧ (conjFree s j).infUnits = s.infUnits ∧ (conjFree s j).solves = s.solves ∧
    (conjFree s j).asms = s.asms ∧ (conjFree s j).parsers = s.parsers ∧ (conjFree s j).lexers = s.lexers ∧ (conjFree s j).contQ = s.contQ ∧
    (conjFree s j).handles = s.handles ∧ (conjFree s j).outSigs = s.outSigs ∧ (conjFree s j).particles = s.particles ∧
    (conjFree s j).saved = s.saved ∧ (conjFree s j).pmoves = s.pmoves ∧ (conjFree s j).epochs = s.epochs ∧ (conjFree s j).strobes = s.strobes ∧
    (conjFree s j).xcache = s.xcache ∧ (conjFree s j).xtab = s.xtab ∧ (conjFree s j).xseen = s.xseen ∧ (conjFree s j).fns = s.fns ∧
    (conjFree s j).trackers = s.trackers ∧ (conjFree s j).answers = s.answers ∧ (conjFree s j).hostOut = s.hostOut ∧ (conjFree s j).sqs = s.sqs ∧
    (conjFree s j).rcs = s.rcs ∧ (conjFree s j).cqRes = s.cqRes ∧ (conjFree s j).eqLost = s.eqLost ∧ (conjFree s j).descs = s.descs ∧
    (conjFree s j).nextDesc = s.nextDesc ∧ (conjFree s j).acts = s.acts ∧ (conjFree s j).i3c = s.i3c ∧ (conjFree s j).jtag = s.jtag ∧
    (conjFree s j).pins = s.pins ∧ (conjFree s j).nvm = s.nvm ∧ (conjFree s j).pwr = s.pwr ∧ (conjFree s j).cust = s.cust ∧
    (conjFree s j).field = s.field :=
  by repeat (first | exact rfl | refine ⟨rfl, ?_⟩)

@[simp] theorem updPart_keeps (s : State) (p : Nat) (f : Particle → Particle) :
    (updPart s p f).pending = s.pending ∧ (updPart s p f).free = s.free ∧ (updPart s p f).tense = s.tense ∧ (updPart s p f).regs = s.regs ∧
    (updPart s p f).spm = s.spm ∧ (updPart s p f).hbm = s.hbm ∧ (updPart s p f).lcReq = s.lcReq ∧ (updPart s p f).lcWork = s.lcWork ∧
    (updPart s p f).fwBuf = s.fwBuf ∧ (updPart s p f).hstk = s.hstk ∧ (updPart s p f).escaped = s.escaped ∧
    (updPart s p f).corrected = s.corrected ∧ (updPart s p f).corrAt = s.corrAt ∧ (updPart s p f).conj = s.conj ∧ (updPart s p f).ctxs = s.ctxs ∧
    (updPart s p f).runs = s.runs ∧ (updPart s p f).queues = s.queues ∧ (updPart s p f).progs = s.progs ∧ (updPart s p f).nextProg = s.nextProg ∧
    (updPart s p f).verbs = s.verbs ∧ (updPart s p f).reports = s.reports ∧ (updPart s p f).rseq = s.rseq ∧ (updPart s p f).rptLost = s.rptLost ∧
    (updPart s p f).rptBuf = s.rptBuf ∧ (updPart s p f).mgmtOut = s.mgmtOut ∧ (updPart s p f).audit = s.audit ∧
    (updPart s p f).audLost = s.audLost ∧ (updPart s p f).audFirst = s.audFirst ∧ (updPart s p f).ports = s.ports ∧
    (updPart s p f).nextReq = s.nextReq ∧ (updPart s p f).wire = s.wire ∧ (updPart s p f).loop = s.loop ∧
    (updPart s p f).cancelled = s.cancelled ∧ (updPart s p f).ackWait = s.ackWait ∧ (updPart s p f).wakeWant = s.wakeWant ∧
    (updPart s p f).groups = s.groups ∧ (updPart s p f).mirror = s.mirror ∧ (updPart s p f).pair = s.pair ∧ (updPart s p f).servo = s.servo ∧
    (updPart s p f).quickQ = s.quickQ ∧ (updPart s p f).oos = s.oos ∧ (updPart s p f).infRuns = s.infRuns ∧
    (updPart s p f).infUnits = s.infUnits ∧ (updPart s p f).solves = s.solves ∧ (updPart s p f).asms = s.asms ∧
    (updPart s p f).parsers = s.parsers ∧ (updPart s p f).lexers = s.lexers ∧ (updPart s p f).contQ = s.contQ ∧
    (updPart s p f).handles = s.handles ∧ (updPart s p f).outSigs = s.outSigs ∧ (updPart s p f).saved = s.saved ∧
    (updPart s p f).pmoves = s.pmoves ∧ (updPart s p f).epochs = s.epochs ∧ (updPart s p f).strobes = s.strobes ∧
    (updPart s p f).xcache = s.xcache ∧ (updPart s p f).xtab = s.xtab ∧ (updPart s p f).xseen = s.xseen ∧ (updPart s p f).fns = s.fns ∧
    (updPart s p f).trackers = s.trackers ∧ (updPart s p f).answers = s.answers ∧ (updPart s p f).hostOut = s.hostOut ∧
    (updPart s p f).sqs = s.sqs ∧ (updPart s p f).rcs = s.rcs ∧ (updPart s p f).cqRes = s.cqRes ∧ (updPart s p f).eqLost = s.eqLost ∧
    (updPart s p f).descs = s.descs ∧ (updPart s p f).nextDesc = s.nextDesc ∧ (updPart s p f).acts = s.acts ∧ (updPart s p f).i3c = s.i3c ∧
    (updPart s p f).jtag = s.jtag ∧ (updPart s p f).pins = s.pins ∧ (updPart s p f).nvm = s.nvm ∧ (updPart s p f).pwr = s.pwr ∧
    (updPart s p f).cust = s.cust ∧ (updPart s p f).field = s.field :=
  by repeat (first | exact rfl | refine ⟨rfl, ?_⟩)

@[simp] theorem updCore_keeps (s : State) (p : Nat) (f : PCore → PCore) :
    (updCore s p f).pending = s.pending ∧ (updCore s p f).free = s.free ∧ (updCore s p f).tense = s.tense ∧ (updCore s p f).regs = s.regs ∧
    (updCore s p f).spm = s.spm ∧ (updCore s p f).hbm = s.hbm ∧ (updCore s p f).lcReq = s.lcReq ∧ (updCore s p f).lcWork = s.lcWork ∧
    (updCore s p f).fwBuf = s.fwBuf ∧ (updCore s p f).hstk = s.hstk ∧ (updCore s p f).escaped = s.escaped ∧
    (updCore s p f).corrected = s.corrected ∧ (updCore s p f).corrAt = s.corrAt ∧ (updCore s p f).conj = s.conj ∧ (updCore s p f).ctxs = s.ctxs ∧
    (updCore s p f).runs = s.runs ∧ (updCore s p f).queues = s.queues ∧ (updCore s p f).progs = s.progs ∧ (updCore s p f).nextProg = s.nextProg ∧
    (updCore s p f).verbs = s.verbs ∧ (updCore s p f).reports = s.reports ∧ (updCore s p f).rseq = s.rseq ∧ (updCore s p f).rptLost = s.rptLost ∧
    (updCore s p f).rptBuf = s.rptBuf ∧ (updCore s p f).mgmtOut = s.mgmtOut ∧ (updCore s p f).audit = s.audit ∧
    (updCore s p f).audLost = s.audLost ∧ (updCore s p f).audFirst = s.audFirst ∧ (updCore s p f).ports = s.ports ∧
    (updCore s p f).nextReq = s.nextReq ∧ (updCore s p f).wire = s.wire ∧ (updCore s p f).loop = s.loop ∧
    (updCore s p f).cancelled = s.cancelled ∧ (updCore s p f).ackWait = s.ackWait ∧ (updCore s p f).wakeWant = s.wakeWant ∧
    (updCore s p f).groups = s.groups ∧ (updCore s p f).mirror = s.mirror ∧ (updCore s p f).pair = s.pair ∧ (updCore s p f).servo = s.servo ∧
    (updCore s p f).quickQ = s.quickQ ∧ (updCore s p f).oos = s.oos ∧ (updCore s p f).infRuns = s.infRuns ∧
    (updCore s p f).infUnits = s.infUnits ∧ (updCore s p f).solves = s.solves ∧ (updCore s p f).asms = s.asms ∧
    (updCore s p f).parsers = s.parsers ∧ (updCore s p f).lexers = s.lexers ∧ (updCore s p f).contQ = s.contQ ∧
    (updCore s p f).handles = s.handles ∧ (updCore s p f).outSigs = s.outSigs ∧ (updCore s p f).saved = s.saved ∧
    (updCore s p f).pmoves = s.pmoves ∧ (updCore s p f).epochs = s.epochs ∧ (updCore s p f).strobes = s.strobes ∧
    (updCore s p f).xcache = s.xcache ∧ (updCore s p f).xtab = s.xtab ∧ (updCore s p f).xseen = s.xseen ∧ (updCore s p f).fns = s.fns ∧
    (updCore s p f).trackers = s.trackers ∧ (updCore s p f).answers = s.answers ∧ (updCore s p f).hostOut = s.hostOut ∧
    (updCore s p f).sqs = s.sqs ∧ (updCore s p f).rcs = s.rcs ∧ (updCore s p f).cqRes = s.cqRes ∧ (updCore s p f).eqLost = s.eqLost ∧
    (updCore s p f).descs = s.descs ∧ (updCore s p f).nextDesc = s.nextDesc ∧ (updCore s p f).acts = s.acts ∧ (updCore s p f).i3c = s.i3c ∧
    (updCore s p f).jtag = s.jtag ∧ (updCore s p f).pins = s.pins ∧ (updCore s p f).nvm = s.nvm ∧ (updCore s p f).pwr = s.pwr ∧
    (updCore s p f).cust = s.cust ∧ (updCore s p f).field = s.field :=
  by repeat (first | exact rfl | refine ⟨rfl, ?_⟩)

@[simp] theorem setProg_keeps (s : State) (id : Nat) (p : Prog) :
    (setProg s id p).pending = s.pending ∧ (setProg s id p).free = s.free ∧ (setProg s id p).tense = s.tense ∧ (setProg s id p).regs = s.regs ∧
    (setProg s id p).spm = s.spm ∧ (setProg s id p).hbm = s.hbm ∧ (setProg s id p).lcReq = s.lcReq ∧ (setProg s id p).lcWork = s.lcWork ∧
    (setProg s id p).fwBuf = s.fwBuf ∧ (setProg s id p).hstk = s.hstk ∧ (setProg s id p).escaped = s.escaped ∧
    (setProg s id p).corrected = s.corrected ∧ (setProg s id p).corrAt = s.corrAt ∧ (setProg s id p).conj = s.conj ∧
    (setProg s id p).ctxs = s.ctxs ∧ (setProg s id p).runs = s.runs ∧ (setProg s id p).queues = s.queues ∧
    (setProg s id p).nextProg = s.nextProg ∧ (setProg s id p).verbs = s.verbs ∧ (setProg s id p).reports = s.reports ∧
    (setProg s id p).rseq = s.rseq ∧ (setProg s id p).rptLost = s.rptLost ∧ (setProg s id p).rptBuf = s.rptBuf ∧
    (setProg s id p).mgmtOut = s.mgmtOut ∧ (setProg s id p).audit = s.audit ∧ (setProg s id p).audLost = s.audLost ∧
    (setProg s id p).audFirst = s.audFirst ∧ (setProg s id p).ports = s.ports ∧ (setProg s id p).nextReq = s.nextReq ∧
    (setProg s id p).wire = s.wire ∧ (setProg s id p).loop = s.loop ∧ (setProg s id p).cancelled = s.cancelled ∧
    (setProg s id p).ackWait = s.ackWait ∧ (setProg s id p).wakeWant = s.wakeWant ∧ (setProg s id p).groups = s.groups ∧
    (setProg s id p).mirror = s.mirror ∧ (setProg s id p).pair = s.pair ∧ (setProg s id p).servo = s.servo ∧ (setProg s id p).quickQ = s.quickQ ∧
    (setProg s id p).oos = s.oos ∧ (setProg s id p).infRuns = s.infRuns ∧ (setProg s id p).infUnits = s.infUnits ∧
    (setProg s id p).solves = s.solves ∧ (setProg s id p).asms = s.asms ∧ (setProg s id p).parsers = s.parsers ∧
    (setProg s id p).lexers = s.lexers ∧ (setProg s id p).contQ = s.contQ ∧ (setProg s id p).handles = s.handles ∧
    (setProg s id p).outSigs = s.outSigs ∧ (setProg s id p).particles = s.particles ∧ (setProg s id p).saved = s.saved ∧
    (setProg s id p).pmoves = s.pmoves ∧ (setProg s id p).epochs = s.epochs ∧ (setProg s id p).strobes = s.strobes ∧
    (setProg s id p).xcache = s.xcache ∧ (setProg s id p).xtab = s.xtab ∧ (setProg s id p).xseen = s.xseen ∧ (setProg s id p).fns = s.fns ∧
    (setProg s id p).trackers = s.trackers ∧ (setProg s id p).answers = s.answers ∧ (setProg s id p).hostOut = s.hostOut ∧
    (setProg s id p).sqs = s.sqs ∧ (setProg s id p).rcs = s.rcs ∧ (setProg s id p).cqRes = s.cqRes ∧ (setProg s id p).eqLost = s.eqLost ∧
    (setProg s id p).descs = s.descs ∧ (setProg s id p).nextDesc = s.nextDesc ∧ (setProg s id p).acts = s.acts ∧ (setProg s id p).i3c = s.i3c ∧
    (setProg s id p).jtag = s.jtag ∧ (setProg s id p).pins = s.pins ∧ (setProg s id p).nvm = s.nvm ∧ (setProg s id p).pwr = s.pwr ∧
    (setProg s id p).cust = s.cust ∧ (setProg s id p).field = s.field :=
  by repeat (first | exact rfl | refine ⟨rfl, ?_⟩)

@[simp] theorem updVerb_keeps (s : State) (v : Nat) (f : Verb → Verb) :
    (updVerb s v f).pending = s.pending ∧ (updVerb s v f).free = s.free ∧ (updVerb s v f).tense = s.tense ∧ (updVerb s v f).regs = s.regs ∧
    (updVerb s v f).spm = s.spm ∧ (updVerb s v f).hbm = s.hbm ∧ (updVerb s v f).lcReq = s.lcReq ∧ (updVerb s v f).lcWork = s.lcWork ∧
    (updVerb s v f).fwBuf = s.fwBuf ∧ (updVerb s v f).hstk = s.hstk ∧ (updVerb s v f).escaped = s.escaped ∧
    (updVerb s v f).corrected = s.corrected ∧ (updVerb s v f).corrAt = s.corrAt ∧ (updVerb s v f).conj = s.conj ∧ (updVerb s v f).ctxs = s.ctxs ∧
    (updVerb s v f).runs = s.runs ∧ (updVerb s v f).queues = s.queues ∧ (updVerb s v f).progs = s.progs ∧ (updVerb s v f).nextProg = s.nextProg ∧
    (updVerb s v f).reports = s.reports ∧ (updVerb s v f).rseq = s.rseq ∧ (updVerb s v f).rptLost = s.rptLost ∧
    (updVerb s v f).rptBuf = s.rptBuf ∧ (updVerb s v f).mgmtOut = s.mgmtOut ∧ (updVerb s v f).audit = s.audit ∧
    (updVerb s v f).audLost = s.audLost ∧ (updVerb s v f).audFirst = s.audFirst ∧ (updVerb s v f).ports = s.ports ∧
    (updVerb s v f).nextReq = s.nextReq ∧ (updVerb s v f).wire = s.wire ∧ (updVerb s v f).loop = s.loop ∧
    (updVerb s v f).cancelled = s.cancelled ∧ (updVerb s v f).ackWait = s.ackWait ∧ (updVerb s v f).wakeWant = s.wakeWant ∧
    (updVerb s v f).groups = s.groups ∧ (updVerb s v f).mirror = s.mirror ∧ (updVerb s v f).pair = s.pair ∧ (updVerb s v f).servo = s.servo ∧
    (updVerb s v f).quickQ = s.quickQ ∧ (updVerb s v f).oos = s.oos ∧ (updVerb s v f).infRuns = s.infRuns ∧
    (updVerb s v f).infUnits = s.infUnits ∧ (updVerb s v f).solves = s.solves ∧ (updVerb s v f).asms = s.asms ∧
    (updVerb s v f).parsers = s.parsers ∧ (updVerb s v f).lexers = s.lexers ∧ (updVerb s v f).contQ = s.contQ ∧
    (updVerb s v f).handles = s.handles ∧ (updVerb s v f).outSigs = s.outSigs ∧ (updVerb s v f).particles = s.particles ∧
    (updVerb s v f).saved = s.saved ∧ (updVerb s v f).pmoves = s.pmoves ∧ (updVerb s v f).epochs = s.epochs ∧
    (updVerb s v f).strobes = s.strobes ∧ (updVerb s v f).xcache = s.xcache ∧ (updVerb s v f).xtab = s.xtab ∧ (updVerb s v f).xseen = s.xseen ∧
    (updVerb s v f).fns = s.fns ∧ (updVerb s v f).trackers = s.trackers ∧ (updVerb s v f).answers = s.answers ∧
    (updVerb s v f).hostOut = s.hostOut ∧ (updVerb s v f).sqs = s.sqs ∧ (updVerb s v f).rcs = s.rcs ∧ (updVerb s v f).cqRes = s.cqRes ∧
    (updVerb s v f).eqLost = s.eqLost ∧ (updVerb s v f).descs = s.descs ∧ (updVerb s v f).nextDesc = s.nextDesc ∧ (updVerb s v f).acts = s.acts ∧
    (updVerb s v f).i3c = s.i3c ∧ (updVerb s v f).jtag = s.jtag ∧ (updVerb s v f).pins = s.pins ∧ (updVerb s v f).nvm = s.nvm ∧
    (updVerb s v f).pwr = s.pwr ∧ (updVerb s v f).cust = s.cust ∧ (updVerb s v f).field = s.field :=
  by repeat (first | exact rfl | refine ⟨rfl, ?_⟩)

@[simp] theorem updStk_keeps (s : State) (k : Nat) (f : Stack → Stack) :
    (updStk s k f).pending = s.pending ∧ (updStk s k f).free = s.free ∧ (updStk s k f).tense = s.tense ∧ (updStk s k f).regs = s.regs ∧
    (updStk s k f).spm = s.spm ∧ (updStk s k f).hbm = s.hbm ∧ (updStk s k f).lcReq = s.lcReq ∧ (updStk s k f).lcWork = s.lcWork ∧
    (updStk s k f).fwBuf = s.fwBuf ∧ (updStk s k f).escaped = s.escaped ∧ (updStk s k f).corrected = s.corrected ∧
    (updStk s k f).corrAt = s.corrAt ∧ (updStk s k f).conj = s.conj ∧ (updStk s k f).ctxs = s.ctxs ∧ (updStk s k f).runs = s.runs ∧
    (updStk s k f).queues = s.queues ∧ (updStk s k f).progs = s.progs ∧ (updStk s k f).nextProg = s.nextProg ∧ (updStk s k f).verbs = s.verbs ∧
    (updStk s k f).reports = s.reports ∧ (updStk s k f).rseq = s.rseq ∧ (updStk s k f).rptLost = s.rptLost ∧ (updStk s k f).rptBuf = s.rptBuf ∧
    (updStk s k f).mgmtOut = s.mgmtOut ∧ (updStk s k f).audit = s.audit ∧ (updStk s k f).audLost = s.audLost ∧
    (updStk s k f).audFirst = s.audFirst ∧ (updStk s k f).ports = s.ports ∧ (updStk s k f).nextReq = s.nextReq ∧ (updStk s k f).wire = s.wire ∧
    (updStk s k f).loop = s.loop ∧ (updStk s k f).cancelled = s.cancelled ∧ (updStk s k f).ackWait = s.ackWait ∧
    (updStk s k f).wakeWant = s.wakeWant ∧ (updStk s k f).groups = s.groups ∧ (updStk s k f).mirror = s.mirror ∧ (updStk s k f).pair = s.pair ∧
    (updStk s k f).servo = s.servo ∧ (updStk s k f).quickQ = s.quickQ ∧ (updStk s k f).oos = s.oos ∧ (updStk s k f).infRuns = s.infRuns ∧
    (updStk s k f).infUnits = s.infUnits ∧ (updStk s k f).solves = s.solves ∧ (updStk s k f).asms = s.asms ∧ (updStk s k f).parsers = s.parsers ∧
    (updStk s k f).lexers = s.lexers ∧ (updStk s k f).contQ = s.contQ ∧ (updStk s k f).handles = s.handles ∧ (updStk s k f).outSigs = s.outSigs ∧
    (updStk s k f).particles = s.particles ∧ (updStk s k f).saved = s.saved ∧ (updStk s k f).pmoves = s.pmoves ∧
    (updStk s k f).epochs = s.epochs ∧ (updStk s k f).strobes = s.strobes ∧ (updStk s k f).xcache = s.xcache ∧ (updStk s k f).xtab = s.xtab ∧
    (updStk s k f).xseen = s.xseen ∧ (updStk s k f).fns = s.fns ∧ (updStk s k f).trackers = s.trackers ∧ (updStk s k f).answers = s.answers ∧
    (updStk s k f).hostOut = s.hostOut ∧ (updStk s k f).sqs = s.sqs ∧ (updStk s k f).rcs = s.rcs ∧ (updStk s k f).cqRes = s.cqRes ∧
    (updStk s k f).eqLost = s.eqLost ∧ (updStk s k f).descs = s.descs ∧ (updStk s k f).nextDesc = s.nextDesc ∧ (updStk s k f).acts = s.acts ∧
    (updStk s k f).i3c = s.i3c ∧ (updStk s k f).jtag = s.jtag ∧ (updStk s k f).pins = s.pins ∧ (updStk s k f).nvm = s.nvm ∧
    (updStk s k f).pwr = s.pwr ∧ (updStk s k f).cust = s.cust ∧ (updStk s k f).field = s.field :=
  by repeat (first | exact rfl | refine ⟨rfl, ?_⟩)

@[simp] theorem updPort_keeps (s : State) (p : Nat) (f : Port → Port) :
    (updPort s p f).pending = s.pending ∧ (updPort s p f).free = s.free ∧ (updPort s p f).tense = s.tense ∧ (updPort s p f).regs = s.regs ∧
    (updPort s p f).spm = s.spm ∧ (updPort s p f).hbm = s.hbm ∧ (updPort s p f).lcReq = s.lcReq ∧ (updPort s p f).lcWork = s.lcWork ∧
    (updPort s p f).fwBuf = s.fwBuf ∧ (updPort s p f).hstk = s.hstk ∧ (updPort s p f).escaped = s.escaped ∧
    (updPort s p f).corrected = s.corrected ∧ (updPort s p f).corrAt = s.corrAt ∧ (updPort s p f).conj = s.conj ∧ (updPort s p f).ctxs = s.ctxs ∧
    (updPort s p f).runs = s.runs ∧ (updPort s p f).queues = s.queues ∧ (updPort s p f).progs = s.progs ∧ (updPort s p f).nextProg = s.nextProg ∧
    (updPort s p f).verbs = s.verbs ∧ (updPort s p f).reports = s.reports ∧ (updPort s p f).rseq = s.rseq ∧ (updPort s p f).rptLost = s.rptLost ∧
    (updPort s p f).rptBuf = s.rptBuf ∧ (updPort s p f).mgmtOut = s.mgmtOut ∧ (updPort s p f).audit = s.audit ∧
    (updPort s p f).audLost = s.audLost ∧ (updPort s p f).audFirst = s.audFirst ∧ (updPort s p f).nextReq = s.nextReq ∧
    (updPort s p f).wire = s.wire ∧ (updPort s p f).loop = s.loop ∧ (updPort s p f).cancelled = s.cancelled ∧
    (updPort s p f).ackWait = s.ackWait ∧ (updPort s p f).wakeWant = s.wakeWant ∧ (updPort s p f).groups = s.groups ∧
    (updPort s p f).mirror = s.mirror ∧ (updPort s p f).pair = s.pair ∧ (updPort s p f).servo = s.servo ∧ (updPort s p f).quickQ = s.quickQ ∧
    (updPort s p f).oos = s.oos ∧ (updPort s p f).infRuns = s.infRuns ∧ (updPort s p f).infUnits = s.infUnits ∧
    (updPort s p f).solves = s.solves ∧ (updPort s p f).asms = s.asms ∧ (updPort s p f).parsers = s.parsers ∧ (updPort s p f).lexers = s.lexers ∧
    (updPort s p f).contQ = s.contQ ∧ (updPort s p f).handles = s.handles ∧ (updPort s p f).outSigs = s.outSigs ∧
    (updPort s p f).particles = s.particles ∧ (updPort s p f).saved = s.saved ∧ (updPort s p f).pmoves = s.pmoves ∧
    (updPort s p f).epochs = s.epochs ∧ (updPort s p f).strobes = s.strobes ∧ (updPort s p f).xcache = s.xcache ∧ (updPort s p f).xtab = s.xtab ∧
    (updPort s p f).xseen = s.xseen ∧ (updPort s p f).fns = s.fns ∧ (updPort s p f).trackers = s.trackers ∧ (updPort s p f).answers = s.answers ∧
    (updPort s p f).hostOut = s.hostOut ∧ (updPort s p f).sqs = s.sqs ∧ (updPort s p f).rcs = s.rcs ∧ (updPort s p f).cqRes = s.cqRes ∧
    (updPort s p f).eqLost = s.eqLost ∧ (updPort s p f).descs = s.descs ∧ (updPort s p f).nextDesc = s.nextDesc ∧ (updPort s p f).acts = s.acts ∧
    (updPort s p f).i3c = s.i3c ∧ (updPort s p f).jtag = s.jtag ∧ (updPort s p f).pins = s.pins ∧ (updPort s p f).nvm = s.nvm ∧
    (updPort s p f).pwr = s.pwr ∧ (updPort s p f).cust = s.cust ∧ (updPort s p f).field = s.field :=
  by repeat (first | exact rfl | refine ⟨rfl, ?_⟩)

@[simp] theorem updServo_keeps (s : State) (f : Servo → Servo) :
    (updServo s f).pending = s.pending ∧ (updServo s f).free = s.free ∧ (updServo s f).tense = s.tense ∧ (updServo s f).regs = s.regs ∧
    (updServo s f).spm = s.spm ∧ (updServo s f).hbm = s.hbm ∧ (updServo s f).lcReq = s.lcReq ∧ (updServo s f).lcWork = s.lcWork ∧
    (updServo s f).fwBuf = s.fwBuf ∧ (updServo s f).hstk = s.hstk ∧ (updServo s f).escaped = s.escaped ∧ (updServo s f).corrected = s.corrected ∧
    (updServo s f).corrAt = s.corrAt ∧ (updServo s f).conj = s.conj ∧ (updServo s f).ctxs = s.ctxs ∧ (updServo s f).runs = s.runs ∧
    (updServo s f).queues = s.queues ∧ (updServo s f).progs = s.progs ∧ (updServo s f).nextProg = s.nextProg ∧ (updServo s f).verbs = s.verbs ∧
    (updServo s f).reports = s.reports ∧ (updServo s f).rseq = s.rseq ∧ (updServo s f).rptLost = s.rptLost ∧ (updServo s f).rptBuf = s.rptBuf ∧
    (updServo s f).mgmtOut = s.mgmtOut ∧ (updServo s f).audit = s.audit ∧ (updServo s f).audLost = s.audLost ∧
    (updServo s f).audFirst = s.audFirst ∧ (updServo s f).ports = s.ports ∧ (updServo s f).nextReq = s.nextReq ∧ (updServo s f).wire = s.wire ∧
    (updServo s f).loop = s.loop ∧ (updServo s f).cancelled = s.cancelled ∧ (updServo s f).ackWait = s.ackWait ∧
    (updServo s f).wakeWant = s.wakeWant ∧ (updServo s f).groups = s.groups ∧ (updServo s f).mirror = s.mirror ∧ (updServo s f).pair = s.pair ∧
    (updServo s f).quickQ = s.quickQ ∧ (updServo s f).oos = s.oos ∧ (updServo s f).infRuns = s.infRuns ∧ (updServo s f).infUnits = s.infUnits ∧
    (updServo s f).solves = s.solves ∧ (updServo s f).asms = s.asms ∧ (updServo s f).parsers = s.parsers ∧ (updServo s f).lexers = s.lexers ∧
    (updServo s f).contQ = s.contQ ∧ (updServo s f).handles = s.handles ∧ (updServo s f).outSigs = s.outSigs ∧
    (updServo s f).particles = s.particles ∧ (updServo s f).saved = s.saved ∧ (updServo s f).pmoves = s.pmoves ∧
    (updServo s f).epochs = s.epochs ∧ (updServo s f).strobes = s.strobes ∧ (updServo s f).xcache = s.xcache ∧ (updServo s f).xtab = s.xtab ∧
    (updServo s f).xseen = s.xseen ∧ (updServo s f).fns = s.fns ∧ (updServo s f).trackers = s.trackers ∧ (updServo s f).answers = s.answers ∧
    (updServo s f).hostOut = s.hostOut ∧ (updServo s f).sqs = s.sqs ∧ (updServo s f).rcs = s.rcs ∧ (updServo s f).cqRes = s.cqRes ∧
    (updServo s f).eqLost = s.eqLost ∧ (updServo s f).descs = s.descs ∧ (updServo s f).nextDesc = s.nextDesc ∧ (updServo s f).acts = s.acts ∧
    (updServo s f).i3c = s.i3c ∧ (updServo s f).jtag = s.jtag ∧ (updServo s f).pins = s.pins ∧ (updServo s f).nvm = s.nvm ∧
    (updServo s f).pwr = s.pwr ∧ (updServo s f).cust = s.cust ∧ (updServo s f).field = s.field :=
  by repeat (first | exact rfl | refine ⟨rfl, ?_⟩)

@[simp] theorem setGroup_keeps (s : State) (gk : Nat) (g : Group) :
    (setGroup s gk g).pending = s.pending ∧ (setGroup s gk g).free = s.free ∧ (setGroup s gk g).tense = s.tense ∧
    (setGroup s gk g).regs = s.regs ∧ (setGroup s gk g).spm = s.spm ∧ (setGroup s gk g).hbm = s.hbm ∧ (setGroup s gk g).lcReq = s.lcReq ∧
    (setGroup s gk g).lcWork = s.lcWork ∧ (setGroup s gk g).fwBuf = s.fwBuf ∧ (setGroup s gk g).hstk = s.hstk ∧
    (setGroup s gk g).escaped = s.escaped ∧ (setGroup s gk g).corrected = s.corrected ∧ (setGroup s gk g).corrAt = s.corrAt ∧
    (setGroup s gk g).conj = s.conj ∧ (setGroup s gk g).ctxs = s.ctxs ∧ (setGroup s gk g).runs = s.runs ∧ (setGroup s gk g).queues = s.queues ∧
    (setGroup s gk g).progs = s.progs ∧ (setGroup s gk g).nextProg = s.nextProg ∧ (setGroup s gk g).verbs = s.verbs ∧
    (setGroup s gk g).reports = s.reports ∧ (setGroup s gk g).rseq = s.rseq ∧ (setGroup s gk g).rptLost = s.rptLost ∧
    (setGroup s gk g).rptBuf = s.rptBuf ∧ (setGroup s gk g).mgmtOut = s.mgmtOut ∧ (setGroup s gk g).audit = s.audit ∧
    (setGroup s gk g).audLost = s.audLost ∧ (setGroup s gk g).audFirst = s.audFirst ∧ (setGroup s gk g).ports = s.ports ∧
    (setGroup s gk g).nextReq = s.nextReq ∧ (setGroup s gk g).wire = s.wire ∧ (setGroup s gk g).loop = s.loop ∧
    (setGroup s gk g).cancelled = s.cancelled ∧ (setGroup s gk g).ackWait = s.ackWait ∧ (setGroup s gk g).wakeWant = s.wakeWant ∧
    (setGroup s gk g).mirror = s.mirror ∧ (setGroup s gk g).pair = s.pair ∧ (setGroup s gk g).servo = s.servo ∧
    (setGroup s gk g).quickQ = s.quickQ ∧ (setGroup s gk g).oos = s.oos ∧ (setGroup s gk g).infRuns = s.infRuns ∧
    (setGroup s gk g).infUnits = s.infUnits ∧ (setGroup s gk g).solves = s.solves ∧ (setGroup s gk g).asms = s.asms ∧
    (setGroup s gk g).parsers = s.parsers ∧ (setGroup s gk g).lexers = s.lexers ∧ (setGroup s gk g).contQ = s.contQ ∧
    (setGroup s gk g).handles = s.handles ∧ (setGroup s gk g).outSigs = s.outSigs ∧ (setGroup s gk g).particles = s.particles ∧
    (setGroup s gk g).saved = s.saved ∧ (setGroup s gk g).pmoves = s.pmoves ∧ (setGroup s gk g).epochs = s.epochs ∧
    (setGroup s gk g).strobes = s.strobes ∧ (setGroup s gk g).xcache = s.xcache ∧ (setGroup s gk g).xtab = s.xtab ∧
    (setGroup s gk g).xseen = s.xseen ∧ (setGroup s gk g).fns = s.fns ∧ (setGroup s gk g).trackers = s.trackers ∧
    (setGroup s gk g).answers = s.answers ∧ (setGroup s gk g).hostOut = s.hostOut ∧ (setGroup s gk g).sqs = s.sqs ∧
    (setGroup s gk g).rcs = s.rcs ∧ (setGroup s gk g).cqRes = s.cqRes ∧ (setGroup s gk g).eqLost = s.eqLost ∧ (setGroup s gk g).descs = s.descs ∧
    (setGroup s gk g).nextDesc = s.nextDesc ∧ (setGroup s gk g).acts = s.acts ∧ (setGroup s gk g).i3c = s.i3c ∧ (setGroup s gk g).jtag = s.jtag ∧
    (setGroup s gk g).pins = s.pins ∧ (setGroup s gk g).nvm = s.nvm ∧ (setGroup s gk g).pwr = s.pwr ∧ (setGroup s gk g).cust = s.cust ∧
    (setGroup s gk g).field = s.field :=
  by repeat (first | exact rfl | refine ⟨rfl, ?_⟩)

@[simp] theorem setSolve_keeps (s : State) (id : Nat) (v : Solve) :
    (setSolve s id v).pending = s.pending ∧ (setSolve s id v).free = s.free ∧ (setSolve s id v).tense = s.tense ∧
    (setSolve s id v).regs = s.regs ∧ (setSolve s id v).spm = s.spm ∧ (setSolve s id v).hbm = s.hbm ∧ (setSolve s id v).lcReq = s.lcReq ∧
    (setSolve s id v).lcWork = s.lcWork ∧ (setSolve s id v).fwBuf = s.fwBuf ∧ (setSolve s id v).hstk = s.hstk ∧
    (setSolve s id v).escaped = s.escaped ∧ (setSolve s id v).corrected = s.corrected ∧ (setSolve s id v).corrAt = s.corrAt ∧
    (setSolve s id v).conj = s.conj ∧ (setSolve s id v).ctxs = s.ctxs ∧ (setSolve s id v).runs = s.runs ∧ (setSolve s id v).queues = s.queues ∧
    (setSolve s id v).progs = s.progs ∧ (setSolve s id v).nextProg = s.nextProg ∧ (setSolve s id v).verbs = s.verbs ∧
    (setSolve s id v).reports = s.reports ∧ (setSolve s id v).rseq = s.rseq ∧ (setSolve s id v).rptLost = s.rptLost ∧
    (setSolve s id v).rptBuf = s.rptBuf ∧ (setSolve s id v).mgmtOut = s.mgmtOut ∧ (setSolve s id v).audit = s.audit ∧
    (setSolve s id v).audLost = s.audLost ∧ (setSolve s id v).audFirst = s.audFirst ∧ (setSolve s id v).ports = s.ports ∧
    (setSolve s id v).nextReq = s.nextReq ∧ (setSolve s id v).wire = s.wire ∧ (setSolve s id v).loop = s.loop ∧
    (setSolve s id v).cancelled = s.cancelled ∧ (setSolve s id v).ackWait = s.ackWait ∧ (setSolve s id v).wakeWant = s.wakeWant ∧
    (setSolve s id v).groups = s.groups ∧ (setSolve s id v).mirror = s.mirror ∧ (setSolve s id v).pair = s.pair ∧
    (setSolve s id v).servo = s.servo ∧ (setSolve s id v).quickQ = s.quickQ ∧ (setSolve s id v).oos = s.oos ∧
    (setSolve s id v).infRuns = s.infRuns ∧ (setSolve s id v).infUnits = s.infUnits ∧ (setSolve s id v).asms = s.asms ∧
    (setSolve s id v).parsers = s.parsers ∧ (setSolve s id v).lexers = s.lexers ∧ (setSolve s id v).contQ = s.contQ ∧
    (setSolve s id v).handles = s.handles ∧ (setSolve s id v).outSigs = s.outSigs ∧ (setSolve s id v).particles = s.particles ∧
    (setSolve s id v).saved = s.saved ∧ (setSolve s id v).pmoves = s.pmoves ∧ (setSolve s id v).epochs = s.epochs ∧
    (setSolve s id v).strobes = s.strobes ∧ (setSolve s id v).xcache = s.xcache ∧ (setSolve s id v).xtab = s.xtab ∧
    (setSolve s id v).xseen = s.xseen ∧ (setSolve s id v).fns = s.fns ∧ (setSolve s id v).trackers = s.trackers ∧
    (setSolve s id v).answers = s.answers ∧ (setSolve s id v).hostOut = s.hostOut ∧ (setSolve s id v).sqs = s.sqs ∧
    (setSolve s id v).rcs = s.rcs ∧ (setSolve s id v).cqRes = s.cqRes ∧ (setSolve s id v).eqLost = s.eqLost ∧ (setSolve s id v).descs = s.descs ∧
    (setSolve s id v).nextDesc = s.nextDesc ∧ (setSolve s id v).acts = s.acts ∧ (setSolve s id v).i3c = s.i3c ∧ (setSolve s id v).jtag = s.jtag ∧
    (setSolve s id v).pins = s.pins ∧ (setSolve s id v).nvm = s.nvm ∧ (setSolve s id v).pwr = s.pwr ∧ (setSolve s id v).cust = s.cust ∧
    (setSolve s id v).field = s.field :=
  by repeat (first | exact rfl | refine ⟨rfl, ?_⟩)

@[simp] theorem setAsm_keeps (s : State) (id : Nat) (v : Asm) :
    (setAsm s id v).pending = s.pending ∧ (setAsm s id v).free = s.free ∧ (setAsm s id v).tense = s.tense ∧ (setAsm s id v).regs = s.regs ∧
    (setAsm s id v).spm = s.spm ∧ (setAsm s id v).hbm = s.hbm ∧ (setAsm s id v).lcReq = s.lcReq ∧ (setAsm s id v).lcWork = s.lcWork ∧
    (setAsm s id v).fwBuf = s.fwBuf ∧ (setAsm s id v).hstk = s.hstk ∧ (setAsm s id v).escaped = s.escaped ∧
    (setAsm s id v).corrected = s.corrected ∧ (setAsm s id v).corrAt = s.corrAt ∧ (setAsm s id v).conj = s.conj ∧ (setAsm s id v).ctxs = s.ctxs ∧
    (setAsm s id v).runs = s.runs ∧ (setAsm s id v).queues = s.queues ∧ (setAsm s id v).progs = s.progs ∧ (setAsm s id v).nextProg = s.nextProg ∧
    (setAsm s id v).verbs = s.verbs ∧ (setAsm s id v).reports = s.reports ∧ (setAsm s id v).rseq = s.rseq ∧ (setAsm s id v).rptLost = s.rptLost ∧
    (setAsm s id v).rptBuf = s.rptBuf ∧ (setAsm s id v).mgmtOut = s.mgmtOut ∧ (setAsm s id v).audit = s.audit ∧
    (setAsm s id v).audLost = s.audLost ∧ (setAsm s id v).audFirst = s.audFirst ∧ (setAsm s id v).ports = s.ports ∧
    (setAsm s id v).nextReq = s.nextReq ∧ (setAsm s id v).wire = s.wire ∧ (setAsm s id v).loop = s.loop ∧
    (setAsm s id v).cancelled = s.cancelled ∧ (setAsm s id v).ackWait = s.ackWait ∧ (setAsm s id v).wakeWant = s.wakeWant ∧
    (setAsm s id v).groups = s.groups ∧ (setAsm s id v).mirror = s.mirror ∧ (setAsm s id v).pair = s.pair ∧ (setAsm s id v).servo = s.servo ∧
    (setAsm s id v).quickQ = s.quickQ ∧ (setAsm s id v).oos = s.oos ∧ (setAsm s id v).infRuns = s.infRuns ∧
    (setAsm s id v).infUnits = s.infUnits ∧ (setAsm s id v).solves = s.solves ∧ (setAsm s id v).parsers = s.parsers ∧
    (setAsm s id v).lexers = s.lexers ∧ (setAsm s id v).contQ = s.contQ ∧ (setAsm s id v).handles = s.handles ∧
    (setAsm s id v).outSigs = s.outSigs ∧ (setAsm s id v).particles = s.particles ∧ (setAsm s id v).saved = s.saved ∧
    (setAsm s id v).pmoves = s.pmoves ∧ (setAsm s id v).epochs = s.epochs ∧ (setAsm s id v).strobes = s.strobes ∧
    (setAsm s id v).xcache = s.xcache ∧ (setAsm s id v).xtab = s.xtab ∧ (setAsm s id v).xseen = s.xseen ∧ (setAsm s id v).fns = s.fns ∧
    (setAsm s id v).trackers = s.trackers ∧ (setAsm s id v).answers = s.answers ∧ (setAsm s id v).hostOut = s.hostOut ∧
    (setAsm s id v).sqs = s.sqs ∧ (setAsm s id v).rcs = s.rcs ∧ (setAsm s id v).cqRes = s.cqRes ∧ (setAsm s id v).eqLost = s.eqLost ∧
    (setAsm s id v).descs = s.descs ∧ (setAsm s id v).nextDesc = s.nextDesc ∧ (setAsm s id v).acts = s.acts ∧ (setAsm s id v).i3c = s.i3c ∧
    (setAsm s id v).jtag = s.jtag ∧ (setAsm s id v).pins = s.pins ∧ (setAsm s id v).nvm = s.nvm ∧ (setAsm s id v).pwr = s.pwr ∧
    (setAsm s id v).cust = s.cust ∧ (setAsm s id v).field = s.field :=
  by repeat (first | exact rfl | refine ⟨rfl, ?_⟩)

@[simp] theorem freeTrk_keeps (s : State) (i : Nat) :
    (freeTrk s i).pending = s.pending ∧ (freeTrk s i).free = s.free ∧ (freeTrk s i).tense = s.tense ∧ (freeTrk s i).spm = s.spm ∧
    (freeTrk s i).hbm = s.hbm ∧ (freeTrk s i).lcReq = s.lcReq ∧ (freeTrk s i).lcWork = s.lcWork ∧ (freeTrk s i).fwBuf = s.fwBuf ∧
    (freeTrk s i).hstk = s.hstk ∧ (freeTrk s i).escaped = s.escaped ∧ (freeTrk s i).corrected = s.corrected ∧ (freeTrk s i).corrAt = s.corrAt ∧
    (freeTrk s i).conj = s.conj ∧ (freeTrk s i).ctxs = s.ctxs ∧ (freeTrk s i).runs = s.runs ∧ (freeTrk s i).queues = s.queues ∧
    (freeTrk s i).progs = s.progs ∧ (freeTrk s i).nextProg = s.nextProg ∧ (freeTrk s i).verbs = s.verbs ∧ (freeTrk s i).reports = s.reports ∧
    (freeTrk s i).rseq = s.rseq ∧ (freeTrk s i).rptLost = s.rptLost ∧ (freeTrk s i).rptBuf = s.rptBuf ∧ (freeTrk s i).mgmtOut = s.mgmtOut ∧
    (freeTrk s i).audit = s.audit ∧ (freeTrk s i).audLost = s.audLost ∧ (freeTrk s i).audFirst = s.audFirst ∧ (freeTrk s i).ports = s.ports ∧
    (freeTrk s i).nextReq = s.nextReq ∧ (freeTrk s i).wire = s.wire ∧ (freeTrk s i).loop = s.loop ∧ (freeTrk s i).cancelled = s.cancelled ∧
    (freeTrk s i).ackWait = s.ackWait ∧ (freeTrk s i).wakeWant = s.wakeWant ∧ (freeTrk s i).groups = s.groups ∧ (freeTrk s i).mirror = s.mirror ∧
    (freeTrk s i).pair = s.pair ∧ (freeTrk s i).servo = s.servo ∧ (freeTrk s i).quickQ = s.quickQ ∧ (freeTrk s i).oos = s.oos ∧
    (freeTrk s i).infRuns = s.infRuns ∧ (freeTrk s i).infUnits = s.infUnits ∧ (freeTrk s i).solves = s.solves ∧ (freeTrk s i).asms = s.asms ∧
    (freeTrk s i).parsers = s.parsers ∧ (freeTrk s i).lexers = s.lexers ∧ (freeTrk s i).contQ = s.contQ ∧ (freeTrk s i).handles = s.handles ∧
    (freeTrk s i).outSigs = s.outSigs ∧ (freeTrk s i).particles = s.particles ∧ (freeTrk s i).saved = s.saved ∧ (freeTrk s i).pmoves = s.pmoves ∧
    (freeTrk s i).epochs = s.epochs ∧ (freeTrk s i).strobes = s.strobes ∧ (freeTrk s i).xcache = s.xcache ∧ (freeTrk s i).xtab = s.xtab ∧
    (freeTrk s i).xseen = s.xseen ∧ (freeTrk s i).fns = s.fns ∧ (freeTrk s i).answers = s.answers ∧ (freeTrk s i).hostOut = s.hostOut ∧
    (freeTrk s i).sqs = s.sqs ∧ (freeTrk s i).rcs = s.rcs ∧ (freeTrk s i).cqRes = s.cqRes ∧ (freeTrk s i).eqLost = s.eqLost ∧
    (freeTrk s i).descs = s.descs ∧ (freeTrk s i).nextDesc = s.nextDesc ∧ (freeTrk s i).acts = s.acts ∧ (freeTrk s i).i3c = s.i3c ∧
    (freeTrk s i).jtag = s.jtag ∧ (freeTrk s i).pins = s.pins ∧ (freeTrk s i).nvm = s.nvm ∧ (freeTrk s i).pwr = s.pwr ∧
    (freeTrk s i).cust = s.cust ∧ (freeTrk s i).field = s.field :=
  by repeat (first | exact rfl | refine ⟨rfl, ?_⟩)

@[simp] theorem updProg_keeps (s : State) (id : Nat) (f : Prog → Prog) :
    (updProg s id f).pending = s.pending ∧ (updProg s id f).free = s.free ∧ (updProg s id f).tense = s.tense ∧ (updProg s id f).regs = s.regs ∧
    (updProg s id f).spm = s.spm ∧ (updProg s id f).hbm = s.hbm ∧ (updProg s id f).lcReq = s.lcReq ∧ (updProg s id f).lcWork = s.lcWork ∧
    (updProg s id f).fwBuf = s.fwBuf ∧ (updProg s id f).hstk = s.hstk ∧ (updProg s id f).escaped = s.escaped ∧
    (updProg s id f).corrected = s.corrected ∧ (updProg s id f).corrAt = s.corrAt ∧ (updProg s id f).conj = s.conj ∧
    (updProg s id f).ctxs = s.ctxs ∧ (updProg s id f).runs = s.runs ∧ (updProg s id f).queues = s.queues ∧
    (updProg s id f).nextProg = s.nextProg ∧ (updProg s id f).verbs = s.verbs ∧ (updProg s id f).reports = s.reports ∧
    (updProg s id f).rseq = s.rseq ∧ (updProg s id f).rptLost = s.rptLost ∧ (updProg s id f).rptBuf = s.rptBuf ∧
    (updProg s id f).mgmtOut = s.mgmtOut ∧ (updProg s id f).audit = s.audit ∧ (updProg s id f).audLost = s.audLost ∧
    (updProg s id f).audFirst = s.audFirst ∧ (updProg s id f).ports = s.ports ∧ (updProg s id f).nextReq = s.nextReq ∧
    (updProg s id f).wire = s.wire ∧ (updProg s id f).loop = s.loop ∧ (updProg s id f).cancelled = s.cancelled ∧
    (updProg s id f).ackWait = s.ackWait ∧ (updProg s id f).wakeWant = s.wakeWant ∧ (updProg s id f).groups = s.groups ∧
    (updProg s id f).mirror = s.mirror ∧ (updProg s id f).pair = s.pair ∧ (updProg s id f).servo = s.servo ∧ (updProg s id f).quickQ = s.quickQ ∧
    (updProg s id f).oos = s.oos ∧ (updProg s id f).infRuns = s.infRuns ∧ (updProg s id f).infUnits = s.infUnits ∧
    (updProg s id f).solves = s.solves ∧ (updProg s id f).asms = s.asms ∧ (updProg s id f).parsers = s.parsers ∧
    (updProg s id f).lexers = s.lexers ∧ (updProg s id f).contQ = s.contQ ∧ (updProg s id f).handles = s.handles ∧
    (updProg s id f).outSigs = s.outSigs ∧ (updProg s id f).particles = s.particles ∧ (updProg s id f).saved = s.saved ∧
    (updProg s id f).pmoves = s.pmoves ∧ (updProg s id f).epochs = s.epochs ∧ (updProg s id f).strobes = s.strobes ∧
    (updProg s id f).xcache = s.xcache ∧ (updProg s id f).xtab = s.xtab ∧ (updProg s id f).xseen = s.xseen ∧ (updProg s id f).fns = s.fns ∧
    (updProg s id f).trackers = s.trackers ∧ (updProg s id f).answers = s.answers ∧ (updProg s id f).hostOut = s.hostOut ∧
    (updProg s id f).sqs = s.sqs ∧ (updProg s id f).rcs = s.rcs ∧ (updProg s id f).cqRes = s.cqRes ∧ (updProg s id f).eqLost = s.eqLost ∧
    (updProg s id f).descs = s.descs ∧ (updProg s id f).nextDesc = s.nextDesc ∧ (updProg s id f).acts = s.acts ∧ (updProg s id f).i3c = s.i3c ∧
    (updProg s id f).jtag = s.jtag ∧ (updProg s id f).pins = s.pins ∧ (updProg s id f).nvm = s.nvm ∧ (updProg s id f).pwr = s.pwr ∧
    (updProg s id f).cust = s.cust ∧ (updProg s id f).field = s.field :=
  by unfold updProg; split <;> repeat (first | exact rfl | refine ⟨rfl, ?_⟩)

@[simp] theorem updDesc_keeps (s : State) (id : Nat) (f : Desc → Desc) :
    (updDesc s id f).pending = s.pending ∧ (updDesc s id f).free = s.free ∧ (updDesc s id f).tense = s.tense ∧ (updDesc s id f).regs = s.regs ∧
    (updDesc s id f).spm = s.spm ∧ (updDesc s id f).hbm = s.hbm ∧ (updDesc s id f).lcReq = s.lcReq ∧ (updDesc s id f).lcWork = s.lcWork ∧
    (updDesc s id f).fwBuf = s.fwBuf ∧ (updDesc s id f).hstk = s.hstk ∧ (updDesc s id f).escaped = s.escaped ∧
    (updDesc s id f).corrected = s.corrected ∧ (updDesc s id f).corrAt = s.corrAt ∧ (updDesc s id f).conj = s.conj ∧
    (updDesc s id f).ctxs = s.ctxs ∧ (updDesc s id f).runs = s.runs ∧ (updDesc s id f).queues = s.queues ∧ (updDesc s id f).progs = s.progs ∧
    (updDesc s id f).nextProg = s.nextProg ∧ (updDesc s id f).verbs = s.verbs ∧ (updDesc s id f).reports = s.reports ∧
    (updDesc s id f).rseq = s.rseq ∧ (updDesc s id f).rptLost = s.rptLost ∧ (updDesc s id f).rptBuf = s.rptBuf ∧
    (updDesc s id f).mgmtOut = s.mgmtOut ∧ (updDesc s id f).audit = s.audit ∧ (updDesc s id f).audLost = s.audLost ∧
    (updDesc s id f).audFirst = s.audFirst ∧ (updDesc s id f).ports = s.ports ∧ (updDesc s id f).nextReq = s.nextReq ∧
    (updDesc s id f).wire = s.wire ∧ (updDesc s id f).loop = s.loop ∧ (updDesc s id f).cancelled = s.cancelled ∧
    (updDesc s id f).ackWait = s.ackWait ∧ (updDesc s id f).wakeWant = s.wakeWant ∧ (updDesc s id f).groups = s.groups ∧
    (updDesc s id f).mirror = s.mirror ∧ (updDesc s id f).pair = s.pair ∧ (updDesc s id f).servo = s.servo ∧ (updDesc s id f).quickQ = s.quickQ ∧
    (updDesc s id f).oos = s.oos ∧ (updDesc s id f).infRuns = s.infRuns ∧ (updDesc s id f).infUnits = s.infUnits ∧
    (updDesc s id f).solves = s.solves ∧ (updDesc s id f).asms = s.asms ∧ (updDesc s id f).parsers = s.parsers ∧
    (updDesc s id f).lexers = s.lexers ∧ (updDesc s id f).contQ = s.contQ ∧ (updDesc s id f).handles = s.handles ∧
    (updDesc s id f).outSigs = s.outSigs ∧ (updDesc s id f).particles = s.particles ∧ (updDesc s id f).saved = s.saved ∧
    (updDesc s id f).pmoves = s.pmoves ∧ (updDesc s id f).epochs = s.epochs ∧ (updDesc s id f).strobes = s.strobes ∧
    (updDesc s id f).xcache = s.xcache ∧ (updDesc s id f).xtab = s.xtab ∧ (updDesc s id f).xseen = s.xseen ∧ (updDesc s id f).fns = s.fns ∧
    (updDesc s id f).trackers = s.trackers ∧ (updDesc s id f).answers = s.answers ∧ (updDesc s id f).hostOut = s.hostOut ∧
    (updDesc s id f).sqs = s.sqs ∧ (updDesc s id f).rcs = s.rcs ∧ (updDesc s id f).cqRes = s.cqRes ∧ (updDesc s id f).eqLost = s.eqLost ∧
    (updDesc s id f).nextDesc = s.nextDesc ∧ (updDesc s id f).acts = s.acts ∧ (updDesc s id f).i3c = s.i3c ∧ (updDesc s id f).jtag = s.jtag ∧
    (updDesc s id f).pins = s.pins ∧ (updDesc s id f).nvm = s.nvm ∧ (updDesc s id f).pwr = s.pwr ∧ (updDesc s id f).cust = s.cust ∧
    (updDesc s id f).field = s.field :=
  by unfold updDesc; split <;> repeat (first | exact rfl | refine ⟨rfl, ?_⟩)

end Sys2Proof.Machine
end

