-- ==== Sys2Proof/Laws/Regs.lean ====
section
/-! SUPPORT. What a read of a setup register gives after a write of one. -/

namespace Sys2Proof.Machine

/-- A register reads as written, modulo its 64 bits. -/
theorem regGet_regSet_same (s : State) (off v : Nat) : regGet (regSet s off v) off = v % 2 ^ 64 := by
  simp only [regGet, regSet, mapGet_mapSet_same, BitVec.toNat_ofNat]

/-- A write reaches no other register. -/
theorem regGet_regSet_other (s : State) (off a v : Nat) (h : a ≠ off) : regGet (regSet s off v) a = regGet s a := by
  simp only [regGet, regSet, mapGet_mapSet_other _ _ _ _ _ _ h]

/-- A write of a field reaches no other register. -/
theorem regGet_setFld_other (s : State) (off a hi lo v : Nat) (h : a ≠ off) : regGet (setFld s off hi lo v) a = regGet s a :=
  regGet_regSet_other s off a _ h

/-- A write of a field reaches no field of another register. -/
theorem fld_setFld_other (s : State) (off a hi lo v i j : Nat) (h : a ≠ off) : fld (setFld s off hi lo v) a i j = fld s a i j := by
  unfold fld; rw [regGet_setFld_other s off a hi lo v h]

/-- A register holds 64 bits. -/
theorem regGet_lt (s : State) (off : Nat) : regGet s off < 2 ^ 64 := (mapGet (regReset off) s.regs off).isLt

end Sys2Proof.Machine
end

