-- ==== Sys2Proof/Laws/Tile.lean ====
section
/-! SUPPORT. What the links of a tile program leave alone: the program's place (its instruction pointer, counts and compound) is
moved only by its completion. -/

namespace Sys2Proof.Machine

/-- A program without its accumulator space, the statuses of its slots, SEEN, an armed failure, and what a link notes in its compound. -/
def progRest (p : Prog) : Prog :=
  { p with acc := [], tsw := [], written := [], seen := 0, inject := none
           comp := p.comp.map fun c => { c with dflag := none, hand := none, rows := [] } }

/-- The place of a program. -/
def progPlace (id : Nat) (s : State) : Option Prog := (progOf s id).map progRest

theorem progOf_setProg (s : State) (id : Nat) (p : Prog) : progOf (setProg s id p) id = some p := mapFind_mapIns_same _ _ _

theorem progOf_setProg_other (s : State) (id j : Nat) (p : Prog) (h : j ≠ id) : progOf (setProg s id p) j = progOf s j :=
  mapFind_mapIns_other _ _ _ _ h

theorem progPlace_of_mem {s t : State} (id : Nat) (h : memRest t = memRest s) : progPlace id t = progPlace id s := by
  have e : t.progs = s.progs := (congrArg State.progs h : (memRest t).progs = (memRest s).progs)
  simp only [progPlace, progOf, e]

theorem progPlace_of_rpt {s t : State} (id : Nat) (h : rptRest t = rptRest s) : progPlace id t = progPlace id s := by
  have e : t.progs = s.progs := (congrArg State.progs h : (rptRest t).progs = (rptRest s).progs)
  simp only [progPlace, progOf, e]

theorem progPlace_setProg (s : State) (id : Nat) (p q : Prog) (h : progOf s id = some q) (e : progRest p = progRest q) :
    progPlace id (setProg s id p) = progPlace id s := by
  simp only [progPlace, progOf_setProg, h, Option.map_some, e]

theorem progPlace_updProg (s : State) (id : Nat) (f : Prog → Prog) (e : ∀ q, progRest (f q) = progRest q) :
    progPlace id (updProg s id f) = progPlace id s := by
  unfold updProg
  split
  · rename_i p h; exact progPlace_setProg s id _ p h (e p)
  · rfl

theorem tswPut_rest (p : Prog) (g : SlotGeom) (v : Nat) : progRest (tswPut p g v) = progRest p := rfl

theorem tswOr_rest (p : Prog) (g : SlotGeom) (v : Nat) : progRest (tswOr p g v) = progRest p := by
  unfold tswOr; split <;> rfl

theorem accPut_rest (p : Prog) (g : SlotGeom) (f : Fmt) (r c x : Nat) : progRest (accPut p g f r c x) = progRest p := rfl

theorem putTile_rest (p : Prog) (g : SlotGeom) (f : Fmt) (m : List (List Nat)) : progRest (putTile p g f m) = progRest p := by
  unfold putTile
  exact foldl_keep progRest _ (fun p r => foldl_keep progRest _ (fun p c => accPut_rest p _ _ _ _ _) _ _) _ _

theorem applyTs_place (s : State) (id v : Nat) (g : SlotGeom) (ts : Nat) : progPlace id (applyTs s id v g ts) = progPlace id s :=
  progPlace_updProg s id _ fun q => tswOr_rest q g ts

theorem noteD_place (s : State) (id : Nat) (e : TEnv) : progPlace id (noteD s id e) = progPlace id s := by
  unfold noteD
  split
  · refine progPlace_updProg s id _ fun q => ?_
    cases h : q.comp <;> simp [progRest, h]
  · rfl

theorem loadSlot_place (s : State) (id v : Nat) (g : SlotGeom) (f : Fmt) (m : List (List Nat)) (ts : Nat) :
    progPlace id (loadSlot s id v g f m ts) = progPlace id s :=
  (applyTs_place _ _ _ _ _).trans (progPlace_updProg s id _ fun q => (tswPut_rest _ _ _).trans (putTile_rest q g f m))

theorem applyChk_place (s : State) (id v slot kb : Nat) (g : SlotGeom) (o : ChkOut) :
    progPlace id (applyChk s id v slot kb g o) = progPlace id s := by
  unfold applyChk
  dsimp only
  have h : progPlace id (if o.fired then updProg (vrbPerf (satFld s (aVRB_CHK_SKIP (v / 8) (v % 8)) 31 0 o.skips) v 6 o.made) id
      fun p => { p with inject := none } else vrbPerf (satFld s (aVRB_CHK_SKIP (v / 8) (v % 8)) 31 0 o.skips) v 6 o.made) = progPlace id s := by
    split
    · exact progPlace_updProg _ id _ fun _ => rfl
    · rfl
  split
  · exact h
  · exact (progPlace_of_rpt id (wantQuick_rest _ _ _)).trans
      ((progPlace_of_rpt id (report_rest _ _ _ _ _ _ _)).trans ((applyTs_place _ _ _ _ _).trans h))

theorem chkFold_place (s : State) (id v slot kb : Nat) (g : SlotGeom) (f : Fmt) (d : Nat) (a b o : List (List Num)) :
    progPlace id (chkFold s id v slot kb g f d a b o) = progPlace id s := by
  unfold chkFold
  split
  · rfl
  · exact applyChk_place _ _ _ _ _ _ _

theorem noteFlush_place (s : State) (e : TEnv) (fl : Bool) : progPlace e.id (noteFlush s e fl) = progPlace e.id s := by
  unfold noteFlush
  split
  · exact progPlace_updProg s e.id _ fun _ => rfl
  · rfl

theorem noteCont_place (s : State) (e : TEnv) (d : TDesc) (r : List (Nat × Nat)) (po : Bool) (id : Nat) :
    progPlace id (noteCont s e d r po) = progPlace id s := by
  unfold noteCont; split <;> rfl

theorem spWrite_place (s : State) (c w a : Nat) (bs : List Byte) (po : Bool) (id : Nat) :
    progPlace id (spWrite s c w a bs po) = progPlace id s := progPlace_of_mem id (spWrite_rest s c w a bs po)

theorem histAdd_place (s : State) (c w r : Nat) (ixs : List Nat) (id : Nat) : progPlace id (histAdd s c w r ixs) = progPlace id s :=
  progPlace_of_mem id (histAdd_rest s c w r ixs)

theorem writeRun_place (s : State) (c w ba wd : Nat) (m : List Nat) (po : Bool) (id : Nat) :
    progPlace id (writeRun s c w ba wd m po) = progPlace id s := by
  unfold writeRun
  dsimp only
  repeat' split
  all_goals first | rfl | exact spWrite_place _ _ _ _ _ _ _

theorem writeTile_place (s : State) (e : TEnv) (f : Fmt) (d : TDesc) (t : Nat) (m : List (List Nat)) (po : Bool) (id : Nat) :
    progPlace id (writeTile s e f d t m po) = progPlace id s := by
  unfold writeTile
  exact foldl_keep (progPlace id) _ (fun s l => writeRun_place _ _ _ _ _ _ _ _) _ _

/-- R140, R146: the completion of an instruction moves its program to the next one and counts it. -/
theorem tileDone_place (s : State) (id : Nat) (e : TEnv) (st : Nat) (p : Prog) (h : progOf s id = some p)
    (hs : p.comp.bind (·.sweepIp) = none) :
    ∃ q, progOf (tileDone s id e st) id = some q ∧ q.ip = p.ip + 1 ∧ q.completed = p.completed + 1 := by
  have hm : sweepMore s p = false := by
    unfold sweepMore
    cases hc : p.comp with
    | none => rfl
    | some c => simp [hc] at hs; simp [hs]
  have hn : (if sweepMore s p = true then 0 else 1) = 1 := by rw [hm]; rfl
  have hk : (markProg p st (inTAG e.i)).ip = p.ip ∧ (markProg p st (inTAG e.i)).completed = p.completed := by
    unfold markProg; repeat' split
    all_goals exact ⟨rfl, rfl⟩
  have hl (q : Prog) : (endIfLast q).ip = q.ip ∧ (endIfLast q).completed = q.completed := by
    unfold endIfLast; split <;> exact ⟨rfl, rfl⟩
  have he (z : State) (q : Prog) (hq : progOf z id = some q) :
      ∃ q', progOf (endCompound z id) id = some q' ∧ q'.ip = q.ip ∧ q'.completed = q.completed := by
    unfold endCompound
    rw [hq]
    dsimp only
    split
    · exact ⟨q, hq, rfl, rfl⟩
    · exact ⟨_, progOf_setProg _ _ _, rfl, rfl⟩
  unfold tileDone
  rw [h]
  dsimp only
  rw [hn]
  split
  · refine ⟨_, progOf_setProg _ _ _, ?_⟩
    rw [(hl _).1, (hl _).2]
    exact ⟨congrArg (· + 1) hk.1, congrArg (· + 1) hk.2⟩
  · obtain ⟨q, a, b, c⟩ := he _ _ (progOf_setProg _ _ _)
    refine ⟨q, a, ?_⟩
    rw [b, c, (hl _).1, (hl _).2]
    exact ⟨congrArg (· + 1) hk.1, congrArg (· + 1) hk.2⟩

end Sys2Proof.Machine
end

