-- ==== Sys2Proof/Tests/Slice0.lean ====
section
/-! SUPPORT. The model's own tests: ill-formed commands that the check refuses, single steps whose results were worked out by hand from the spec,
and for each statement a state and operands that meet its hypotheses. -/

namespace Sys2Proof.Tests

set_option Elab.async false

open Sys2Proof Sys2Proof.Machine Sys2Proof.Claims

/-! ### Ill-formed commands (R17) -/

theorem test_wf_verb : wellFormed (.verbStep 96 none false) = false ∧ wellFormed (.verbStep 95 none false) = true := by decide
theorem test_wf_particle : wellFormed (.prtPush 48 true) = false ∧ wellFormed (.prtPush 47 true) = true := by decide
theorem test_wf_inflector : wellFormed (.infNop 24) = false ∧ wellFormed (.infNop 23) = true := by decide
theorem test_wf_queue : wellFormed (.dispatcherAccept 0 4) = false ∧ wellFormed (.dispatcherAccept 6144 0) = false ∧
  wellFormed (.dispatcherAccept 6143 3) = true := by decide
theorem test_wf_partition : wellFormed (.partForm 12 0) = false ∧ wellFormed (.partForm 11 0) = true := by decide
theorem test_wf_ring : wellFormed (.ringFetch 0 16) = false ∧ wellFormed (.ringEnable 0 21) = false ∧ wellFormed (.ringEnable 11 20) = true ∧
  wellFormed (.cqDoorbell 0 0 4 [] false) = false := by decide
theorem test_wf_port : wellFormed (.pairEnd 14 false []) = false ∧ wellFormed (.pairEnd 13 false []) = true := by decide
theorem test_wf_ingress : wellFormed (.signalPacket 15 false []) = false ∧ wellFormed (.signalPacket 14 false []) = true := by decide
theorem test_wf_function : wellFormed (.functionLevelReset 13 true) = false ∧ wellFormed (.functionLevelReset 12 true) = true := by decide
theorem test_wf_domain : wellFormed (.dipRaiseExpiry 41 0) = false ∧ wellFormed (.dipRaiseExpiry 40 0) = true := by decide
theorem test_wf_origin : wellFormed (.audAckWrite 0 0) = false ∧ wellFormed (.audAckWrite 2 0) = false ∧ wellFormed (.audAckWrite 210 0) = false ∧
  wellFormed (.audAckWrite 194 0) = true ∧ wellFormed (.audAckWrite 3 0) = true := by decide
theorem test_wf_unit : wellFormed (.quickTest 0 18 0 true) = false ∧ wellFormed (.quickTest 12 0 0 true) = false ∧
  wellFormed (.recordRevalidation 0 3 true [] 0) = false := by decide
theorem test_wf_circuit : wellFormed (.circuitEntryWrite 1 14 0 0) = false ∧ wellFormed (.circuitEntryWrite 1 0 256 0) = false ∧
  wellFormed (.partKeyWrite 1 0 8 0) = false := by decide
theorem test_wf_rail : wellFormed (.railReset 41) = false ∧ wellFormed (.railReset 0x42) = true ∧ wellFormed (.railReset 0xFF) = true := by decide
/-- An ill-formed command stops by name. -/
theorem test_no_such_unit : exec (.partForm 12 0) State.reset = .fault .noSuchUnit := rfl

/-! ### States of the tests -/

/-- A ready device with every domain on: partition 0 ACTIVE on slices 0 and 1 with key 7, its stacks online, its context 0 running with page 0 at the
first page of slice 0, and Conjunction 5. -/
def dev : State := { State.reset with
  pins := { reset := false, coldLow := false, perst := false, ready := true }
  regs := [(aSYN_BOOT, 8), (aPART_CFG 0, 0x2003), (aPART_KEY 0 0, 0x80000007), (aHBM_STATUS 0, 0x400), (aHBM_STATUS 1, 0x400)] ++
    (List.range 41).map fun d => (aPWR_DOM d, 0x10000)
  tense := 1000000
  fns := [(0, { bme := true }), (1, { enabled := true, bme := true })]
  ctxs := [(0, { live := true, ckey := 7, pages := [(0, { phys := some (0, 0) })], conjBase := 5, conjCount := 4 })]
  runs := [(0, { st := .running })]
  conj := [(5, { key := 7 })] }

theorem dev_ready : devReady dev = true ∧ partState dev 0 = 2 ∧ partSlices dev 0 = [0, 1] ∧ ctxRunning dev 0 = true ∧ hostUp dev = true ∧
  fnSends dev 1 = true := by decide

/-! ### The block and tile programs -/

/-- A tile program of two instructions at address 0 of the scratchpad, on Verb 0. -/
def tp : Prog := { kind := .tile, cid := 0, owner := 0, seq := 0, issue := parseIssue [], len := 2, comp := some { verb := 0, first := 0 } }
/-- It, about to issue the instruction whose bytes stand at 32. -/
def tileDev (bs : List (Nat × BitVec 8)) : State := { dev with progs := [(0, tp)], verbs := [(0, { prog := some 0 })], spm := { cells := bs } }

theorem wit_EmptyQueueCountsClock : dev.pending = [] ∧ clocksRun dev = true ∧ dev.servo.left = 0 ∧ State.reset.pending = [] ∧
  clocksRun State.reset = false := by decide
theorem wit_QueueRunsInOrder : queueOk { dev with pending := [.wipe 11 0, .idcode] } = true := by decide
theorem wit_CommandAnswersIffUnitsExist : wellFormed (.wipe 11 0) = true ∧ wellFormed (.wipe 12 0) = false := by decide
theorem wit_TileLinksComplete : ∃ e, tileEnv (tileDev []) 0 = some e ∧ tileRefusal (tileDev []) e = none ∧ e.c.sweepIp = none ∧
  (opNOP, Instr.tileNop 0) ∈ tileLinks 0 0 none ∧ inOp e.i = opNOP :=
  ⟨⟨0, tp, { verb := 0, first := 0 }, ⟨0, 0, 0, 0⟩⟩, by decide⟩
theorem wit_csig : ∃ e, tileEnv (tileDev [(32, 0x90), (40, 5), (42, 1)]) 0 = some e ∧ tileRefusal (tileDev [(32, 0x90), (40, 5), (42, 1)]) e = none ∧
  inOp e.i = opCSIG ∧ bit e.i.w1 32 = false :=
  ⟨⟨0, tp, { verb := 0, first := 0 }, ⟨0x90, 0x10005, 0, 0⟩⟩, by decide⟩
theorem wit_TileRefusalEndsProgram : ∃ e, tileEnv (tileDev [(32, 0x90), (40, 6)]) 0 = some e ∧
  (tileRefusal (tileDev [(32, 0x90), (40, 6)]) e).isSome = true ∧ inOp e.i = opCSIG :=
  ⟨⟨0, tp, { verb := 0, first := 0 }, ⟨0x90, 6, 0, 0⟩⟩, by decide⟩
theorem wit_CwaitHoldsAndEnds : ∃ e, tileEnv (tileDev [(32, 0x91), (40, 5), (44, 1)]) 0 = some e ∧
  tileRefusal (tileDev [(32, 0x91), (40, 5), (44, 1)]) e = none ∧ inOp e.i = opCWAIT :=
  ⟨⟨0, tp, { verb := 0, first := 0 }, ⟨0x91, 0x100000005, 0, 0⟩⟩, by decide⟩
/-- A program held in a CWAIT with a limit that has passed. -/
def cwDev (c : Conj) : State := { dev with progs := [(0, { tp with comp := none, wait := some ⟨5, 1, some 1000000⟩ })], conj := [(5, c)] }
theorem wit_cwait_met : reached (conjOf (cwDev { count := 1, key := 7 }) 5).count 1#32 = true ∧ (conjOf (cwDev { count := 1, key := 7 }) 5).error = false ∧
  (conjOf (cwDev { error := true }) 5).error = true ∧ waitOver (conjOf (cwDev { key := 7 }) 5) 1#32 = false ∧
  1000000 ≤ (atTime (cwDev { key := 7 }) 0).tense.toNat := by decide
theorem wit_verb_fault : (verbOf (tileDev []) 0).prog = some 0 ∧ progOf (tileDev []) 0 = some tp := by decide
theorem wit_WorkIsTakenAndPlaced : (queueOf { dev with queues := [(0, { recs := [⟨0, List.replicate 32 0, false⟩], next := 1 })] } 0 0).recs ≠ [] ∧
  ctxRunning dev 0 = true ∧ (runOf dev 0).accepting = true := by decide
/-- A program at a compound boundary that holds its accumulator space. -/
def tb : Prog := { tp with comp := none, space := .verb 0 }
theorem wit_compound : wantsVerb { dev with progs := [(0, tb)] } tb = true ∧ spaceReady { dev with progs := [(0, tb)] } tb = true ∧
  tb.issue.mtarget = none ∧ (goesBefore { dev with progs := [(0, tb)] } 0 tb).length < (freeVerbs { dev with progs := [(0, tb)] } 0).length := by
  decide
theorem wit_WorkCompletesAndAborts : ({ tp with comp := none, ended := some ⟨0, 2, 0⟩ } : Prog).ended.isSome = true ∧
  mapGet .none { dev with handles := [(3, .cont 2)] }.handles 3 = .cont 2 := by decide

/-! ### Particles -/

/-- Particle 0 runs logical Particle 0 with this core, about to run the instruction word `w` at address 0 of its local memory. -/
def prtDev (c : PCore) (w : Nat) : State := { dev with
  particles := [(0, { lp := some 0, running := true, core := { c with lmem :=
    { cells := (((List.range 4).map fun i => (i, BitVec.ofNat 8 (w / 256 ^ i))).filter fun x => x.2 != 0) ++ c.lmem.cells } } })] }

/-- The premises of `prtRuns` that a run can compute. -/
def runsB (s : State) (cls : RvCls) (w : Nat) : Bool :=
  let s₁ := fillCache s 0 w 4
  (partOf s 0).running && (partOf s 0).lp.isSome && computeOn s 0 && decide ((coreOf s 0).hold = .none) && (irqTake (coreOf s 0)).isNone &&
    (match fetchInsn s 0 false with | .ok x => decide (x = (w, w, 4)) | .error _ => false) && decide (rvCls (coreOf s 0) w = cls) &&
    (poisonUse (coreOf s₁ 0) (rvSources w).1 (rvSources w).2).isNone

theorem runs_of {s : State} {cls : RvCls} {w : Nat} (h : runsB s cls w = true) : prtRuns s 0 false cls w w 4 (fillCache s 0 w 4) := by
  simp only [runsB, Bool.and_eq_true, decide_eq_true_eq, Option.isNone_iff_eq_none] at h
  obtain ⟨⟨⟨⟨⟨⟨⟨h1, h2⟩, h3⟩, h4⟩, h5⟩, h6⟩, h7⟩, h8⟩ := h
  refine ⟨by decide, h1, h2, h3, h4, h5, ?_, h7, rfl, h8⟩
  split at h6
  · next x hx => rw [hx, of_decide_eq_true h6]
  · cases h6

/-- The state after the instruction cache takes the word. -/
abbrev ran0 (c : PCore) (w : Nat) : State := fillCache (prtDev c w) 0 w 4

theorem wit_lui : prtRuns (prtDev {} 0x123451B7) 0 false .base 0x123451B7 0x123451B7 4 (ran0 {} 0x123451B7) ∧
  rvDecode 0x123451B7 = .lui 3 0x12345000 := ⟨runs_of (by decide), by decide⟩
theorem wit_auipc : prtRuns (prtDev {} 0x1197) 0 false .base 0x1197 0x1197 4 (ran0 {} 0x1197) ∧
  rvDecode 0x1197 = .auipc 3 0x1000 := ⟨runs_of (by decide), by decide⟩
theorem wit_jal : prtRuns (prtDev {} 0x8000EF) 0 false .base 0x8000EF 0x8000EF 4 (ran0 {} 0x8000EF) ∧
  rvDecode 0x8000EF = .jal 1 8 := ⟨runs_of (by decide), by decide⟩
theorem wit_jalr : prtRuns (prtDev {} 0xFFC100E7) 0 false .base 0xFFC100E7 0xFFC100E7 4 (ran0 {} 0xFFC100E7) ∧
  rvDecode 0xFFC100E7 = .jalr 1 2 (2 ^ 64 - 4) := ⟨runs_of (by decide), by decide⟩
theorem wit_branch : prtRuns (prtDev {} 0xFE311CE3) 0 false .base 0xFE311CE3 0xFE311CE3 4 (ran0 {} 0xFE311CE3) ∧
  rvDecode 0xFE311CE3 = .branch 1 2 3 (2 ^ 64 - 8) := ⟨runs_of (by decide), by decide⟩
theorem wit_opImm : prtRuns (prtDev {} 0xFFF30293) 0 false .base 0xFFF30293 0xFFF30293 4 (ran0 {} 0xFFF30293) ∧
  rvDecode 0xFFF30293 = .opImm 0 5 6 (2 ^ 64 - 1) := ⟨runs_of (by decide), by decide⟩
theorem wit_opImm32 : prtRuns (prtDev {} 0x4033529B) 0 false .base 0x4033529B 0x4033529B 4 (ran0 {} 0x4033529B) ∧
  rvDecode 0x4033529B = .opImm32 5 5 6 0x403 := ⟨runs_of (by decide), by decide⟩
theorem wit_op : prtRuns (prtDev {} 0x40735033) 0 false .base 0x40735033 0x40735033 4 (ran0 {} 0x40735033) ∧
  rvDecode 0x40735033 = .op 0x20 5 0 6 7 := ⟨runs_of (by decide), by decide⟩
theorem wit_op32 : prtRuns (prtDev {} 0x2734FBB) 0 false .base 0x2734FBB 0x2734FBB 4 (ran0 {} 0x2734FBB) ∧
  rvDecode 0x2734FBB = .op32 1 4 31 6 7 := ⟨runs_of (by decide), by decide⟩
/-- A core with the float unit on. -/
def fc : PCore := { csr := { mstatus := 0x6000 } }
theorem wit_fadd : prtRuns (prtDev fc 0x23100D3) 0 false .base 0x23100D3 0x23100D3 4 (ran0 fc 0x23100D3) ∧
  rvDecode 0x23100D3 = .fop 0 true 0 1 2 3 ∧ mst (coreOf (ran0 fc 0x23100D3) 0) 14 13 ≠ 0 ∧ rvRm (coreOf (ran0 fc 0x23100D3) 0) 0 = some .rne := ⟨runs_of (by decide), by decide⟩
theorem wit_fsub : prtRuns (prtDev fc 0xA3100D3) 0 false .base 0xA3100D3 0xA3100D3 4 (ran0 fc 0xA3100D3) ∧
  rvDecode 0xA3100D3 = .fop 1 true 0 1 2 3 ∧ mst (coreOf (ran0 fc 0xA3100D3) 0) 14 13 ≠ 0 ∧ rvRm (coreOf (ran0 fc 0xA3100D3) 0) 0 = some .rne := ⟨runs_of (by decide), by decide⟩
theorem wit_fmul : prtRuns (prtDev fc 0x123100D3) 0 false .base 0x123100D3 0x123100D3 4 (ran0 fc 0x123100D3) ∧
  rvDecode 0x123100D3 = .fop 2 true 0 1 2 3 ∧ mst (coreOf (ran0 fc 0x123100D3) 0) 14 13 ≠ 0 ∧ rvRm (coreOf (ran0 fc 0x123100D3) 0) 0 = some .rne := ⟨runs_of (by decide), by decide⟩
theorem wit_fdiv : prtRuns (prtDev fc 0x1A3100D3) 0 false .base 0x1A3100D3 0x1A3100D3 4 (ran0 fc 0x1A3100D3) ∧
  rvDecode 0x1A3100D3 = .fop 3 true 0 1 2 3 ∧ mst (coreOf (ran0 fc 0x1A3100D3) 0) 14 13 ≠ 0 ∧ rvRm (coreOf (ran0 fc 0x1A3100D3) 0) 0 = some .rne := ⟨runs_of (by decide), by decide⟩
theorem wit_fsqrt : prtRuns (prtDev fc 0x580170D3) 0 false .base 0x580170D3 0x580170D3 4 (ran0 fc 0x580170D3) ∧
  rvDecode 0x580170D3 = .fop 0x0B false 7 1 2 0 ∧ mst (coreOf (ran0 fc 0x580170D3) 0) 14 13 ≠ 0 ∧ rvRm (coreOf (ran0 fc 0x580170D3) 0) 7 = some .rne := ⟨runs_of (by decide), by decide⟩
theorem wit_fma : prtRuns (prtDev fc 0x223100C3) 0 false .base 0x223100C3 0x223100C3 4 (ran0 fc 0x223100C3) ∧
  rvDecode 0x223100C3 = .fma 0 true 0 1 2 3 4 ∧ mst (coreOf (ran0 fc 0x223100C3) 0) 14 13 ≠ 0 ∧ rvRm (coreOf (ran0 fc 0x223100C3) 0) 0 = some .rne := ⟨runs_of (by decide), by decide⟩
/-- A core whose x2 holds 256 and x3 holds 7. -/
def mc : PCore := { x := [(2, 256), (3, 7)], lmem := { cells := [(256, 0x80)] } }
theorem wit_load : prtRuns (prtDev mc 0x10283) 0 false .base 0x10283 0x10283 4 (ran0 mc 0x10283) ∧
  rvDecode 0x10283 = .load 0 5 2 0 ∧ eaOf (coreOf (ran0 mc 0x10283) 0) 2 0 = 256 := ⟨runs_of (by decide), by decide⟩
theorem wit_load_value : (match loadAt (ran0 mc 0x10283) 0 256 (rvWidth 0) with | .val _ v po => decide (v = 0x80 ∧ po = false) | _ => false) = true := by
  decide
theorem wit_store : prtRuns (prtDev mc 0x313423) 0 false .base 0x313423 0x313423 4 (ran0 mc 0x313423) ∧
  rvDecode 0x313423 = .store 3 2 3 8 ∧ eaOf (coreOf (ran0 mc 0x313423) 0) 2 8 = 264 := ⟨runs_of (by decide), by decide⟩
theorem wit_store_done : (match storeAt (ran0 mc 0x313423) 0 264 (natLe 8 7) with | .done _ => true | _ => false) = true := by decide
theorem wit_load_trap : prtRuns (prtDev mc 0x113283) 0 false .base 0x113283 0x113283 4 (ran0 mc 0x113283) ∧
  rvDecode 0x113283 = .load 3 5 2 1 ∧ accessTrap (ran0 mc 0x113283) 0 (eaOf (coreOf (ran0 mc 0x113283) 0) 2 1) (rvWidth 3) .load = some ⟨4, 257, none⟩ := ⟨runs_of (by decide), by decide⟩
theorem wit_lr : prtRuns (prtDev mc 0x100132AF) 0 false .atomic 0x100132AF 0x100132AF 4 (ran0 mc 0x100132AF) ∧
  rvDecode 0x100132AF = .amo 2 true 5 2 0 ∧ xGet (coreOf (ran0 mc 0x100132AF) 0) 2 = 256 ∧ pmpOk (coreOf (ran0 mc 0x100132AF) 0) (dataMach (coreOf (ran0 mc 0x100132AF) 0)) 256 .load = true ∧ mapErr (ran0 mc 0x100132AF) 0 256 8 .atomic = none ∧ memLoad (ran0 mc 0x100132AF) 0 256 8 = .val 0x80 false := ⟨runs_of (by decide), by decide⟩
theorem wit_sc_held : prtRuns (prtDev { mc with resv := some (256, 8) } 0x183122AF) 0 false .atomic 0x183122AF 0x183122AF 4 (ran0 { mc with resv := some (256, 8) } 0x183122AF) ∧
  rvDecode 0x183122AF = .amo 3 false 5 2 3 ∧ xGet (coreOf (ran0 { mc with resv := some (256, 8) } 0x183122AF) 0) 2 = 256 ∧ pmpOk (coreOf (ran0 { mc with resv := some (256, 8) } 0x183122AF) 0) (dataMach (coreOf (ran0 { mc with resv := some (256, 8) } 0x183122AF) 0)) 256 .store = true ∧ mapErr (ran0 { mc with resv := some (256, 8) } 0x183122AF) 0 256 4 .atomic = none ∧ memLoad (ran0 { mc with resv := some (256, 8) } 0x183122AF) 0 256 4 = .val 0x80 false ∧ (coreOf (ran0 { mc with resv := some (256, 8) } 0x183122AF) 0).resv = some (256, 8) ∧ (memStore (ran0 { mc with resv := some (256, 8) } 0x183122AF) 0 256 (natLe 4 7)).isSome = true := ⟨runs_of (by decide), by decide⟩
theorem wit_sc_lost : prtRuns (prtDev mc 0x183122AF) 0 false .atomic 0x183122AF 0x183122AF 4 (ran0 mc 0x183122AF) ∧
  rvDecode 0x183122AF = .amo 3 false 5 2 3 ∧ xGet (coreOf (ran0 mc 0x183122AF) 0) 2 = 256 ∧ pmpOk (coreOf (ran0 mc 0x183122AF) 0) (dataMach (coreOf (ran0 mc 0x183122AF) 0)) 256 .store = true ∧ mapErr (ran0 mc 0x183122AF) 0 256 4 .atomic = none ∧ memLoad (ran0 mc 0x183122AF) 0 256 4 = .val 0x80 false ∧ (coreOf (ran0 mc 0x183122AF) 0).resv = none := ⟨runs_of (by decide), by decide⟩
theorem wit_amo : prtRuns (prtDev mc 0x3132AF) 0 false .atomic 0x3132AF 0x3132AF 4 (ran0 mc 0x3132AF) ∧
  rvDecode 0x3132AF = .amo 0 true 5 2 3 ∧ xGet (coreOf (ran0 mc 0x3132AF) 0) 2 = 256 ∧ pmpOk (coreOf (ran0 mc 0x3132AF) 0) (dataMach (coreOf (ran0 mc 0x3132AF) 0)) 256 .atomic = true ∧ mapErr (ran0 mc 0x3132AF) 0 256 8 .atomic = none ∧ memLoad (ran0 mc 0x3132AF) 0 256 8 = .val 0x80 false ∧ (memStore (ran0 mc 0x3132AF) 0 256 (natLe 8 (rvAmo 0 64 0x80 7))).isSome = true := ⟨runs_of (by decide), by decide⟩
theorem wit_ecall : prtRuns (prtDev {} 0x73) 0 false .base 0x73 0x73 4 (ran0 {} 0x73) ∧
  rvDecode 0x73 = .ecall ∧ (coreOf (ran0 {} 0x73) 0).mach = true := ⟨runs_of (by decide), by decide⟩
theorem wit_ecall_user : prtRuns (prtDev { mach := false, csr := { pmpcfg := [(0, 0x1F)], pmpaddr := [(0, 0x3FFFFFFFFFFFF)] } } 0x73) 0 false .base 0x73 0x73 4 (ran0 { mach := false, csr := { pmpcfg := [(0, 0x1F)], pmpaddr := [(0, 0x3FFFFFFFFFFFF)] } } 0x73) ∧
  rvDecode 0x73 = .ecall ∧ (coreOf (ran0 { mach := false, csr := { pmpcfg := [(0, 0x1F)], pmpaddr := [(0, 0x3FFFFFFFFFFFF)] } } 0x73) 0).mach = false := ⟨runs_of (by decide), by decide⟩
theorem wit_ebreak : prtRuns (prtDev {} 0x100073) 0 false .base 0x100073 0x100073 4 (ran0 {} 0x100073) ∧
  rvDecode 0x100073 = .ebreak := ⟨runs_of (by decide), by decide⟩
theorem wit_illegal : prtRuns (prtDev {} 0xFFFFFFFF) 0 false .base 0xFFFFFFFF 0xFFFFFFFF 4 (ran0 {} 0xFFFFFFFF) ∧
  rvDecode 0xFFFFFFFF = .illegal := ⟨runs_of (by decide), by decide⟩
theorem wit_mret : prtRuns (prtDev {} 0x30200073) 0 false .base 0x30200073 0x30200073 4 (ran0 {} 0x30200073) ∧
  rvDecode 0x30200073 = .mret ∧ (coreOf (prtDev {} 0x30200073) 0).mach = true := ⟨runs_of (by decide), by decide⟩
theorem wit_counter : ∃ v, prtRuns (reachStages (atTime (prtDev {} 0xC01022F3) 0) 0 0) 0 false .counter 0xC01022F3 0xC01022F3 4
    (fillCache (reachStages (atTime (prtDev {} 0xC01022F3) 0) 0 0) 0 0xC01022F3 4) ∧
  rvDecode 0xC01022F3 = .csr 2 5 0 0xC01 ∧ csrRead (ran0 {} 0xC01022F3) 0 0xC01 = some v :=
  ⟨1000000, runs_of (by decide), by decide⟩
theorem wit_pvxcfg : prtRuns (prtDev { x := [(2, 6)] } 0x800112F3) 0 false .pvxcfg 0x800112F3 0x800112F3 4 (ran0 { x := [(2, 6)] } 0x800112F3) ∧
  rvDecode 0x800112F3 = .csr 1 5 2 0x800 ∧ pvxcfgOk (xGet (coreOf (ran0 { x := [(2, 6)] } 0x800112F3) 0) 2) = true := ⟨runs_of (by decide), by decide⟩
theorem wit_overlay : (0 : Nat) < 48 ∧ (partOf dev 0).running = false ∧ (coreOf dev 0).overlay = false := by decide
theorem wit_mismatch : (partOf (prtDev {} 0x13) 0).lp = some 0 ∧ (partOf (prtDev {} 0x13) 0).running = true ∧ (partOf (prtDev {} 0x13) 0).retry = false := by
  decide
/-- A core with PVX on: SEW 32, LMUL 1, vl 4, x2 = 256, and mask register 1 = 0101b. -/
def vc : PCore := { x := [(2, 256), (3, 3)], csr := { pvxctl := 1, pvxcfg := 2 }, vl := 4, m := [(1, 5)], lmem := { cells := [(256, 1), (260, 2), (264, 3), (268, 4)] } }
theorem wit_setvl : prtRuns (prtDev vc 0x21F2AB) 0 false (.pvx 136) 0x21F2AB 0x21F2AB 4 (ran0 vc 0x21F2AB) ∧
  pvxOn (coreOf (ran0 vc 0x21F2AB) 0) = true ∧ bit 0x21F2AB 24 = false ∧ bits 0x21F2AB 28 26 < 4 ∧ bits 0x21F2AB 31 29 = 0 ∧ vUse (ran0 vc 0x21F2AB) 0 [] [bits 0x21F2AB 19 15] [] = none := ⟨runs_of (by decide), by decide⟩
theorem wit_push : prtRuns (prtDev { x := [(2, 0x100000), (3, 1)] } 0x2313023) 0 false .push 0x2313023 0x2313023 4 (ran0 { x := [(2, 0x100000), (3, 1)] } 0x2313023) ∧
  ctlAccess (coreOf (ran0 { x := [(2, 0x100000), (3, 1)] } 0x2313023) 0) 0x2313023 = (0x100020, 1, 0) ∧ accessTrap (ran0 { x := [(2, 0x100000), (3, 1)] } 0x2313023) 0 0x100020 8 .store = none ∧ (queueOf (ran0 { x := [(2, 0x100000), (3, 1)] } 0x2313023) 0 1).recs.length < queueSize 1 := ⟨runs_of (by decide), by decide⟩
theorem wit_push_full : runsB { prtDev { x := [(2, 0x100000), (3, 1)] } 0x2313023 with queues := [(1, { recs := List.replicate 64 ⟨0, [], false⟩, next := 64 })] } .push 0x2313023 = true ∧
  queueSize 1 ≤ (queueOf { prtDev {} 0 with queues := [(1, { recs := List.replicate 64 ⟨0, [], false⟩, next := 64 })] } 0 1).recs.length := by decide
theorem wit_held_push : (coreOf (prtDev { hold := .push 1 4 } 0x13) 0).hold = .push 1 4 ∧
  (queueOf (prtDev { hold := .push 1 4 } 0x13) 0 1).recs.length < queueSize 1 := by decide
theorem wit_qctl : prtRuns (prtDev { x := [(2, 0x100000), (3, 256)] } 0x2313823) 0 false .qctl 0x2313823 0x2313823 4 (ran0 { x := [(2, 0x100000), (3, 256)] } 0x2313823) ∧
  ctlAccess (coreOf (ran0 { x := [(2, 0x100000), (3, 256)] } 0x2313823) 0) 0x2313823 = (0x100030, 256, 0) ∧ accessTrap (ran0 { x := [(2, 0x100000), (3, 256)] } 0x2313823) 0 0x100030 8 .store = none ∧ bit 256 8 = true := ⟨runs_of (by decide), by decide⟩
theorem wit_abort : prtRuns (prtDev { x := [(2, 0x100000), (3, 0x300000005)] } 0x2313C23) 0 false .abort 0x2313C23 0x2313C23 4 (ran0 { x := [(2, 0x100000), (3, 0x300000005)] } 0x2313C23) ∧
  ctlAccess (coreOf (ran0 { x := [(2, 0x100000), (3, 0x300000005)] } 0x2313C23) 0) 0x2313C23 = (0x100038, 0x300000005, 0) ∧ accessTrap (ran0 { x := [(2, 0x100000), (3, 0x300000005)] } 0x2313C23) 0 0x100038 8 .store = none := ⟨runs_of (by decide), by decide⟩
theorem wit_wait : prtRuns (atTime (prtDev { x := [(2, 0x100000)], ctl := { waitset := 5 } } 0x5813283) 0) 0 false .wait 0x5813283 0x5813283 4
    (fillCache (atTime (prtDev { x := [(2, 0x100000)], ctl := { waitset := 5 } } 0x5813283) 0) 0 0x5813283 4) ∧
  ctlAccess (coreOf (ran0 { x := [(2, 0x100000)] } 0x5813283) 0) 0x5813283 = (0x100058, 0, 5) ∧
  accessTrap (ran0 { x := [(2, 0x100000)] } 0x5813283) 0 0x100058 8 .load = none ∧ conjKeyOk (ran0 {} 0x13) 5 (ctxOf (ran0 {} 0x13) 0).ckey = true :=
  ⟨runs_of (by decide), by decide⟩
/-- A Particle held in a wait on Conjunction 5 for count 3. -/
def waitDev (c : Conj) (waitto : W64) : State :=
  { prtDev { hold := .wait 5 1000 4, ctl := { waitset := 0x300000005, waitto := waitto } } 0x13 with conj := [(5, c)] }
theorem wit_wait_met : (coreOf (waitDev { count := 3, key := 7 } 0) 0).hold = .wait 5 1000 4 ∧ (coreOf (waitDev { count := 3, key := 7 } 0) 0).ctl.waitto = 0 ∧
  (conjOf (waitDev { count := 3, key := 7 } 0) 5).error = false ∧
  reached (conjOf (waitDev { count := 3, key := 7 } 0) 5).count ((coreOf (waitDev {} 0) 0).ctl.waitset.extractLsb' 32 32) = true := by decide
theorem wit_wait_timeout : (coreOf (waitDev { key := 7 } 10) 0).hold = .wait 5 1000 4 ∧ (coreOf (waitDev { key := 7 } 10) 0).ctl.waitto ≠ 0 ∧
  1000 + (coreOf (waitDev { key := 7 } 10) 0).ctl.waitto.toNat ≤ (atTime (waitDev { key := 7 } 10) 0).tense.toNat := by decide
theorem wit_timecmp : (coreOf (prtDev { ctl := { timecmp := 1000000, armed := true } } 0x13) 0).ctl.armed = true ∧
  (coreOf (prtDev { ctl := { timecmp := 1000000, armed := true } } 0x13) 0).ctl.timecmp.toNat ≤ (atTime (prtDev {} 0x13) 1000000).tense.toNat := by decide
theorem wit_csignal : prtRuns (prtDev { x := [(2, 0x1000050), (3, 2)] } 0x313423) 0 false .csignal 0x313423 0x313423 4 (ran0 { x := [(2, 0x1000050), (3, 2)] } 0x313423) ∧
  ctlAccess (coreOf (ran0 { x := [(2, 0x1000050), (3, 2)] } 0x313423) 0) 0x313423 = (0x1000058, 2, 0) ∧ accessTrap (ran0 { x := [(2, 0x1000050), (3, 2)] } 0x313423) 0 0x1000058 8 .store = none ∧ bits 2 15 0 ≠ 0 ∧ bit 2 17 = false := ⟨runs_of (by decide), by decide⟩

/-- A PVX word by its fields (R260). -/
def vw (major func vd pred r1 r2 : Nat) : Nat :=
  func / 8 * 2 ^ 29 + func / 4 % 2 * 2 ^ 28 + func % 4 * 2 ^ 26 + r2 * 2 ^ 20 + r1 * 2 ^ 15 + pred * 2 ^ 12 + vd * 2 ^ 7 + major

/-- Every element-wise row runs on the core `vc`, under the predicate of mask register 1, in a legal form with nothing poisoned. -/
theorem wit_PvxElementwise : ∀ x ∈ (pvxElems 0 false).map fun x => (x.1, x.2.2.1), runsB (prtDev vc (vw 0x0B x.1 4 1 0 8)) (.pvx x.1) (vw 0x0B x.1 4 1 0 8) = true ∧
    elemLegal x.2 (vEnv (ran0 vc (vw 0x0B x.1 4 1 0 8)) 0 (vw 0x0B x.1 4 1 0 8) 4) := by
  unfold elemLegal; decide
theorem wit_pvx_clean : pvxOn (coreOf (ran0 vc (vw 0x0B 0 4 1 0 8)) 0) = true ∧ vActs vc (vEnv (ran0 vc (vw 0x0B 0 4 1 0 8)) 0 (vw 0x0B 0 4 1 0 8) 4) = [0, 2] ∧
    ∀ e1 ∈ [1, 2], ∀ e2 ∈ [1, 2], vUse (ran0 vc (vw 0x0B 0 4 1 0 8)) 0 (vEls 8 (e1 * 32) [0, 2] ++ vEls 0 32 [0, 2] ++ vEls 4 (e2 * 32) [0, 2]) [] [] = none := by
  decide +kernel
theorem wit_vWrite : (0 : Nat) < 32 ∧ 32 ∣ vlenOf vc := by decide
theorem wit_PvxCompares : ∀ f ∈ (pvxCompares 0 false).map (·.1) ++ (pvxReductions 0 false).map (·.1),
    runsB (prtDev vc (vw 0x0B f 4 1 0 8)) (.pvx f) (vw 0x0B f 4 1 0 8) = true ∧ runsB (prtDev vc (vw 0x5B f 4 0 2 8)) (.pvx f) (vw 0x5B f 4 0 2 8) = true ∧
    (vEnv (ran0 vc (vw 0x0B f 4 1 0 8)) 0 (vw 0x0B f 4 1 0 8) 4).vd < 8 ∧
    vUse (ran0 vc (vw 0x0B f 4 1 0 8)) 0 (vEls 8 32 [0, 2] ++ vEls 0 32 [0, 2]) [2] [2] = none := by decide
theorem wit_reduction_of_none : runsB (prtDev { vc with vl := 0 } (vw 0x0B 0x38 4 1 0 8)) (.pvx 0x38) (vw 0x0B 0x38 4 1 0 8) = true ∧
  (vEnv (ran0 { vc with vl := 0 } (vw 0x0B 0x38 4 1 0 8)) 0 (vw 0x0B 0x38 4 1 0 8) 4).n = 0 := by decide
theorem wit_PvxMasks : ∀ f ∈ (pvxMasks 0 false).map (·.1) ++ [0x45, 0x48, 0x49],
    runsB (prtDev vc (vw 0x2B (f - 64) 7 3 1 2)) (.pvx f) (vw 0x2B (f - 64) 7 3 1 2) = true ∧ bit (vw 0x2B (f - 64) 7 3 1 2) 25 = false := by decide
theorem wit_PvxMoves : ∀ f ∈ (pvxMoves 0 false).map (·.1) ++ [0x50, 0x51],
    runsB (prtDev vc (vw 0x2B (f - 64) 4 3 3 8)) (.pvx f) (vw 0x2B (f - 64) 4 3 3 8) = true ∧ bit (vw 0x2B (f - 64) 4 3 3 8) 25 = false ∧
    vUse (ran0 vc (vw 0x2B (f - 64) 4 3 3 8)) 0 (vEls 8 32 (List.range 16)) [3] [3] = none := by decide
theorem wit_merge : runsB (prtDev vc (vw 0x0B 0xF 4 1 0 8)) (.pvx 0xF) (vw 0x0B 0xF 4 1 0 8) = true ∧
  (vEnv (ran0 vc (vw 0x0B 0xF 4 1 0 8)) 0 (vw 0x0B 0xF 4 1 0 8) 4).pred ≠ 0 := by decide

/-- A PVX memory word by its fields, with elements of 32 bits and indices of 32 bits (R265). -/
def vm (mop vd r1 r2 pred : Nat) : Nat := 2 * 2 ^ 26 + pred * 2 ^ 28 + r2 * 2 ^ 20 + r1 * 2 ^ 15 + mop * 2 ^ 12 + vd * 2 ^ 7 + 0x2B
theorem wit_PvxLoads : ∀ k ∈ [0, 1, 2], runsB (prtDev vc (vm k 4 2 (if k = 0 then 0 else 9) 1)) (.pvx (128 + k)) (vm k 4 2 (if k = 0 then 0 else 9) 1) = true ∧
    let w := vm k 4 2 (if k = 0 then 0 else 9) 1
    let s := ran0 vc w
    let c := coreOf s 0
    let v := vmEnv s 0 w 4
    vmBad v k false = false ∧ vUse s 0 (vmUses c v k false) (if k = 1 then [v.r1, v.r2] else [v.r1]) [] = none ∧ vActs c v = [0, 2] ∧
    ∀ e ∈ vActs c v, vmTrap s v (vmAddr c v k e) .load = none ∧ regionOf (vmAddr c v k e) = .local_ ∧ memPoison c.lmem (vmAddr c v k e) (v.sew / 8) = false := by
  decide +kernel
theorem wit_PvxStores : ∀ k ∈ [0, 1, 2], runsB (prtDev vc (vm (k + 4) 4 2 (if k = 0 then 0 else 9) 1)) (.pvx (132 + k)) (vm (k + 4) 4 2 (if k = 0 then 0 else 9) 1) = true ∧
    let w := vm (k + 4) 4 2 (if k = 0 then 0 else 9) 1
    let s := ran0 vc w
    let c := coreOf s 0
    let v := vmEnv s 0 w 4
    vmBad v k true = false ∧ vUse s 0 (vmUses c v k true) (if k = 1 then [v.r1, v.r2] else [v.r1]) [] = none ∧
    ∀ e ∈ vActs c v, vmTrap s v (vmAddr c v k e) .store = none ∧ (memStore s 0 (vmAddr c v k e) (natLe 4 (vEl c v.vd v.sew e))).isSome = true := by
  decide +kernel
theorem wit_store_fault : runsB (prtDev { vc with x := [(2, 0x100000)] } (vm 4 4 2 0 0)) (.pvx 132) (vm 4 4 2 0 0) = true ∧
    let s := ran0 { vc with x := [(2, 0x100000)] } (vm 4 4 2 0 0)
    let c := coreOf s 0
    let v := vmEnv s 0 (vm 4 4 2 0 0) 4
    vmBad v 0 true = false ∧ vActs c v = [0, 1, 2, 3] ∧ (vmTrap s v (vmAddr c v 0 0) .store).isSome = true ∧ regionOf (vmAddr c v 0 0) = .control := by decide


/-! ### The Inflector -/

/-- A program of 40 elements on Inflector 0, with the first lane group in the lanes, about to run `w`; every register holds 3, but register 4, which
holds 60. -/
def iRun (w : Nat) : InfRun := { ucount := 2, length := 40, ucode := [w, 0], upos := some 0
                                 lanes := List.replicate 32 ((List.range 16).map fun r => { v := if r = 4 then 60 else 3 }) }
/-- That program, running in the context of `dev`. -/
def iProg : Prog := { kind := .element, cid := 0, owner := 0, seq := 0, issue := parseIssue [], unit := some 0 }
/-- A device whose Inflector 0 runs it. -/
def iDev (r : InfRun) : State := { dev with progs := [(0, iProg)], infRuns := [(0, r)], infUnits := [(0, 0)] }

theorem wit_InflectorLanes : ∀ op ∈ (infOps 0).map (·.1),
    (infEnv (iDev (iRun (op + 0x40))) 0 op).map (fun e => (e.pos, decide (e.run = iRun (op + 0x40)))) = some (0, true) := by decide
theorem wit_InflectorLaneRegs : (iRun 0).lanes.length = 32 ∧ ∀ l ∈ (iRun 0).lanes, l.length = 16 := by decide
theorem wit_InflectorFields : ∀ op ∈ (infFields 0).map (·.1), ∃ e, infEnv (iDev (iRun (op + 0x40 + 16 * 2 ^ 26))) 0 op = some e ∧
    e.pos + 1 < e.run.ucount ∧ ∀ l, l < 32 → laneOn e l = true → (rB e l).v % 64 + uAUX e.word ≤ 64 :=
  fun op _ => by
    refine ⟨⟨0, 0, 0, false, 0, 0, iRun (op + 0x40 + 16 * 2 ^ 26), 0, op + 0x40 + 16 * 2 ^ 26⟩, ?_⟩
    revert op; decide
theorem wit_InflectorFieldOutside : ∀ op ∈ (infFields 0).map (·.1), ∃ e, infEnv (iDev (iRun (op + 4 * 2 ^ 14 + 5 * 2 ^ 26))) 0 op = some e ∧
    laneOn e 0 = true ∧ 64 < (rB e 0).v % 64 + uAUX e.word :=
  fun op _ => by
    refine ⟨⟨0, 0, 0, false, 0, 0, iRun (op + 4 * 2 ^ 14 + 5 * 2 ^ 26), 0, op + 4 * 2 ^ 14 + 5 * 2 ^ 26⟩, ?_⟩
    revert op; decide

/-- An unscaled stream of 64 binary64 elements at 4096. -/
def iStream : IStream := { d := { base := 4096, scale := 0, esc := 0, hist := 0, rows := 1, cols := 64, pitch := 512, tid := 0, flags := 0, tstride := 0, rsv := false }
                           fmt := 0, raw := false, map := 0, gs := 0, layer := 0, tap := 0, expv := 0, rsv := false }
/-- A channel that sums. -/
def iChan : IChan := { op := 0, inF := 0, outF := 0, tanred := false, imp := false, exp := false, seglen := 40, out := 4096, xrec := 0, index0 := 0, rsv := false }
theorem wit_InflectorOthers : ∀ op ∈ [0x00, 0x39, 0x3A, 0x3B, 0x3C],
    (infEnv (iDev (iRun op)) 0 op).map (fun e => decide (e.pos + 1 < e.run.ucount)) = some true := by decide
theorem wit_InflectorRed : (infEnv (iDev { iRun 0x38 with chans := [iChan] }) 0 0x38).map (fun e => e.run.chans[uAUX e.word % 2]?) = some (some iChan) := by
  decide
theorem wit_InflectorStores : ∀ op ∈ [0x03, 0x04], (infEnv (iDev { iRun op with outs := [iStream] }) 0 op).map
    (fun e => (e.run.kernel, e.run.outs[uAUX e.word % 2]?, (List.range 32).all fun l => expOk (streamExp (iDev { iRun op with outs := [iStream] }) e.cid iStream (mapPos iStream (laneIx e l))))) =
    some (false, some iStream, true) := by decide
/-- The program before its first group, and the last micro-operation of a program of one group. -/
theorem wit_InflectorGroup : progOf (iDev { iRun 0 with upos := none, ins := [iStream] }) 0 = some iProg ∧ iProg.unit = some 0 ∧ iProg.ended = none ∧
    ctxRunning (iDev { iRun 0 with upos := none }) 0 = true ∧ iProg.abort = false ∧ (runOf (iDev { iRun 0 with upos := none }) 0).st = .running ∧
    ∀ l, l < 32 → expOk (streamExp (iDev { iRun 0 with upos := none, ins := [iStream] }) 0 iStream (mapPos iStream l)) = true := by decide
theorem wit_InflectorEnd : ∃ e, infEnv (iDev { iRun 0 with ucount := 1, length := 32 }) 0 0x00 = some e ∧ e.run.ucount ≤ e.pos + 1 ∧
    e.run.length ≤ 32 * (e.run.group + 1) ∧ progOf (iDev { iRun 0 with ucount := 1, length := 32 }) e.id = some iProg :=
  ⟨⟨0, 0, 0, false, 0, 0, { iRun 0 with ucount := 1, length := 32 }, 0, 0⟩, by decide⟩

/-! ### Solves and assemblies -/

/-- A solve descriptor by METHOD, STORAGE and NNZ: one row, matrix at 4096, right-hand side at 8192, solution at 12288, in scratchpad (R213). -/
def svDesc (m stor nnz : Nat) : List Byte := natLe 256 (m + stor * 2 ^ 16 + 0xE0 * 2 ^ 24 + 256 ^ 8 + 256 ^ 0xC + nnz * 256 ^ 0x10 +
  (2 ^ 63 + 4096) * 256 ^ 0x18 + (2 ^ 63 + 8192) * 256 ^ 0x38 + (2 ^ 63 + 12288) * 256 ^ 0x40 + (2 ^ 63 + 16384) * 256 ^ 0x60 +
  (2 ^ 63 + 20480) * 256 ^ 0x68 + (2 ^ 63 + 24576) * 256 ^ 0x70 + 100 * 256 ^ 0xA0 + 10 * 256 ^ 0xA4 + 1000001 * 256 ^ 0xA8 +
  0x00080008000800080008000800080008 * 256 ^ 0xB0 + 256 ^ 0xC0 + 256 ^ 0xC4 + 256 ^ 0xC8 + 2 ^ 13 * 256 ^ 0xCC)
/-- Its program, on Parser 0. -/
def svProg : Prog := { iProg with kind := .solve }
/-- A device that runs the solve: matrix 4, right-hand side 2. -/
def svDev (v : Solve) : State := { dev with progs := [(0, svProg)], parsers := [(0, 0)], solves := [(0, v)]
                                            spm := { cells := [(4102, 0x10), (4103, 0x40), (8199, 0x40)] } }
theorem wit_SolveStarts : ∀ m ∈ [0, 1, 2], solveOf (svDev { desc := svDesc m 3 0 }) 0 = some { desc := svDesc m 3 0 } ∧ svMethod (svDesc m 3 0) = m ∧
    progOf (svDev { desc := svDesc m 3 0 }) 0 = some svProg ∧ svProg.unit = some 0 ∧ svPre (svDesc m 3 0) = 0 ∧
    (matPat (setSolve (svDev { desc := svDesc m 3 0 }) 0 { desc := svDesc m 3 0, started := true }) 0 0 (svDesc m 3 0)).2.1 = true ∧
    (matPat (setSolve (svDev { desc := svDesc m 0 1 }) 0 { desc := svDesc m 0 1, started := true }) 0 0 (svDesc m 0 1)).2.1 = false := by decide +kernel
theorem wit_SolveDense : ∀ m ∈ [3, 4, 5], solveOf (svDev { desc := svDesc m 4 0 }) 0 = some { desc := svDesc m 4 0 } ∧ svMethod (svDesc m 4 0) = m ∧
    progOf (svDev { desc := svDesc m 4 0 }) 0 = some svProg := by decide +kernel
/-- The solve's state after some commands. -/
def after (s : State) (is : List Instr) : State := is.foldl (fun s i => match exec i s with | .next t => t | _ => s) s
theorem wit_OuterIteration : (solveEnv (svDev { desc := svDesc 0 3 0, started := true }) 0).map (fun e => e.v.kry) = some none ∧
    (solveEnv (svDev { desc := svDesc 0 3 0, started := true, kry := some ⟨[], numZero, [], [], [], [], [], numZero, numZero, numZero, [], [], [], [], true⟩ }) 0).map
      (fun e => e.v.kry.map (·.done)) = some (some true) := by decide +kernel
/-- The system 4 x = 2 with its first inner solve begun. -/
def svInnerDev : State := after (svDev { desc := svDesc 0 3 0 }) [.solveCg 0, .outerIteration 0]
theorem wit_InnerIteration : (solveEnv svInnerDev 0).map (fun e =>
    let k := e.v.kry.getD ⟨[], numZero, [], [], [], [], [], numZero, numZero, numZero, [], [], [], [], true⟩
    let m := solveInM e e.v
    let mat := readMat svInnerDev e.p.cid e.sl e.flush e.v.desc 0
    let s₁ := prsSet svInnerDev e.sl ((if mat.flushed then 1 else 0) + (if mat.poison then 8 else 0))
    let a := innerVals s₁ e.p.cid e.sl e.v.desc m { obs := e.v.obs } mat.vals
    let r := cgStep e.v m a.1 mat.pat a.2 k
    (svMethod e.v.desc, k.done, r.a.bad.isNone, r.brk.isNone, r.k.done)) = some (0, false, true, true, true) := by decide +kernel
/-- 4 x = 2 has the solution 0.5 = 2^52 / 2^53; the solve ends OK, after one inner and one outer iteration. -/
theorem test_solve : let t := after svInnerDev [.innerIteration 0 false, .outerIteration 0]
    t.solves.map (fun v => (v.2.x, v.2.inner, v.2.outer)) = [([.fin false (2 ^ 52) (-53)], 1, 1)] ∧
    t.progs.map (·.2.ended.map (·.status)) = [some stOK] ∧ t.parsers = [] := by decide +kernel
theorem wit_SolveDeadline : solveOf (svDev { desc := natLe 256 (leNat (svDesc 0 3 0) + 8 * 2 ^ 32) }) 0 = some { desc := natLe 256 (leNat (svDesc 0 3 0) + 8 * 2 ^ 32) } ∧
    svDeadV (natLe 256 (leNat (svDesc 0 3 0) + 8 * 2 ^ 32)) = true ∧ sv64 (natLe 256 (leNat (svDesc 0 3 0) + 8 * 2 ^ 32)) 0xA8 ≤ 1000001 := by decide +kernel

/-- An assembly descriptor of a mode, with two colours (R238). -/
def asmDesc (m : Nat) : List Byte := natLe 256 (m + 2 * 256 ^ 4)
/-- Its program, on Lexer 0. -/
def asmProg : Prog := { iProg with kind := .assembly }
/-- A device that runs the assembly. -/
def asmDev (v : Asm) : State := { dev with progs := [(0, asmProg)], lexers := [(0, 0)], asms := [(0, v)] }
theorem wit_AssemblyStarts : ∀ m ∈ [0, 1, 2, 3], progOf (asmDev { desc := asmDesc m }) 0 = some asmProg ∧
    asmOf (asmDev { desc := asmDesc m }) 0 = some { desc := asmDesc m } ∧ asmProg.unit = some 0 ∧ asmProg.kind = .assembly ∧ asmProg.ended = none ∧
    ctxRunning (asmDev { desc := asmDesc m }) 0 = true ∧ lxMode (asmDesc m) = m := by decide +kernel
theorem wit_Colours : ∀ n ∈ [0, 1], (asmEnv (asmDev { desc := asmDesc 1, started := true, done := n }) 0 1 false).map (fun e =>
    let s := asmDev { desc := asmDesc 1, started := true, done := n }
    (decide (e.v.done + 1 < lxNcol e.v.desc), match stageColour s e [] with
      | .ok l => (match scatterColour s e e.v false l with | .ok _ => true | .error _ => false)
      | .error _ => false)) = some (n == 0, true) := by decide +kernel
theorem wit_AssemblyEnds : progOf (asmDev { desc := asmDesc 1 }) 0 = some asmProg := by decide

/-! ### Contexts in time -/

/-- Two contexts of partition 0: 0 runs as `r` says, 1 waits; the first is of quantum 1. -/
def ctxDev (r : CtxRun) : State := { dev with
  ctxs := [(0, { live := true, ckey := 7, quantum := 1, pages := [(0, { phys := some (0, 0) })], conjBase := 5, conjCount := 4 }), (1, { live := true, ckey := 8 })]
  runs := [(0, r), (1, {})] }
theorem wit_Quantum : runningOf (ctxDev { st := .running }) 0 = some 0 ∧ (runOf (ctxDev { st := .running }) 0).out = false ∧
    (runOf (ctxDev { st := .running }) 0).runFrom + 100000 * (ctxOf (ctxDev { st := .running }) 0).quantum ≤ 1000000 ∧
    1 ∈ runnable (ctxDev { st := .running }) 0 ∧ (ctxOf (ctxDev { st := .running }) 0).priority ≤ (ctxOf (ctxDev { st := .running }) 1).priority ∧
    ctxParticles (ctxDev { st := .running }) 0 = [] ∧ noWork (ctxDev { st := .running }) 0 = true := by decide
theorem wit_AcceptanceStop : runningOf (ctxDev { st := .running, out := true, t0 := 980000 }) 0 = some 0 ∧
    (runOf (ctxDev { st := .running, out := true, t0 := 980000 }) 0).t0 + 20000 ≤ (ctxDev {}).tense.toNat := by decide
theorem wit_ContextSave : runningOf (ctxDev { st := .stopping, out := true }) 0 = some 0 ∧ (runOf (ctxDev { st := .stopping, out := true }) 0).st = .stopping ∧
    atBoundary (ctxDev { st := .stopping, out := true }) 0 = true := by decide
theorem wit_ContextRestore : runningOf (ctxDev {}) 0 = none ∧ partActive (ctxDev {}) 0 = true ∧ pwrState (ctxDev {}) = 0 ∧ nextCtx (ctxDev {}) 0 = some 0 ∧
    coreIntact (ctxDev {}) 0 = true ∧ coreIntact (ctxDev { coreDigest := some 1 }) 0 = false ∧ nextCtx (ctxDev { coreDigest := some 1 }) 0 = some 0 := by
  decide +kernel
/-- A page move from slice 0, page 0, to slice 1, page 2. -/
def moveDev : State := { dev with pmoves := [⟨0, 0, 1, 2⟩] }
theorem wit_PageMove : (moveDev.pmoves.find? fun m => m.cid == 0 && m.page == 0) = some ⟨0, 0, 1, 2⟩ ∧ (pageOf moveDev 0 0).phys = some (0, 0) ∧
    mapGet 0 moveDev.epochs 0 < moveDev.tense.toNat / 100000 := by decide

/-! ### Descriptors of Conjunctions, LAUNCH, WAIT and FENCE -/

/-- Descriptor 9 of ring 2 of partition 0, by TYPE, FORM and the rest of its bytes, for the context of key 7 where the TYPE takes a key (R522). -/
def de (ty fm body : Nat) : Desc := { part := 0, sq := 2, count := 0, bytes := natLe 64 (ty + fm * 2 ^ 24 +
  (if ty < 8 ∧ (ty, fm) ≠ (1, 0) then 7 * 256 ^ 0xC else 0) + body) }
/-- A device that has accepted it. -/
def deDev (d : Desc) : State := { dev with descs := [(9, d)] }
/-- A CONJ_SIGNAL descriptor of Conjunction 5. -/
def cj (op body : Nat) : Desc := de 8 op (5 * 256 ^ 0x10 + body)
theorem wit_ConjDescriptors : ∀ op ∈ [0, 1, 2, 3, 4], descReady (deDev (cj op 0)) 9 dtCONJ op = some (cj op 0) ∧
    (ctxByConj (deDev (cj op 0)) 0 (dNat (cj op 0) 0x10 2 % 2 ^ 14)).isSome = true ∧
    ctxByConj (deDev (de 8 op (6 * 256 ^ 0x10))) 0 (dNat (de 8 op (6 * 256 ^ 0x10)) 0x10 2 % 2 ^ 14) = none := by decide +kernel
theorem wit_ConjSignalForms : (conjOf (deDev (cj 0 0)) 5).key ≠ 0#16 ∧ bit (dNat (cj 0 0) 0x12 1) 1 = false ∧ bit (dNat (cj 0 (2 * 256 ^ 0x12)) 0x12 1) 1 = true ∧
    routeOk (deDev (cj 0 0)) 0 (dNat (cj 0 0) 0x16 2) = false ∧ routeOk { deDev (cj 0 0) with handles := [(0, .route 1 2 false 5)] } 0 (dNat (cj 0 0) 0x16 2) = true := by
  decide +kernel
/-- An arm on comparator 0. -/
def arm (fired : Bool) : Arm := { lc := 0, time := 1000000, inc := 2, fired := fired }
theorem wit_ConjArms : (conjOf (deDev (cj 2 0)) 5).arm = none ∧ freeArm (deDev (cj 2 0)) 0 = some 0 ∧
    freeArm { deDev (cj 2 0) with conj := (List.range 56).map fun n => (n, { arm := some { arm false with lc := n } }) } 0 = none ∧
    (conjOf { deDev (cj 3 0) with conj := [(5, { key := 7, arm := some (arm true) })] } 5).arm = some (arm true) ∧
    (conjOf { deDev (cj 3 0) with conj := [(5, { key := 7, arm := some (arm false) })] } 5).arm = some (arm false) ∧
    (arm false).time ≤ (atTime dev 0).tense.toNat ∧ (atTime { dev with tense := 999999 } 0).tense.toNat < (arm false).time := by decide +kernel

/-- A context descriptor: key 9, one spill slot, Conjunctions 100 to 103, areas at 16 MiB intervals (R283). -/
def cdesc : List Byte := natLe 128 (9 * 256 ^ 4 + 1 * 256 ^ 6 + 4 * 256 ^ 0x2E + 100 * 256 ^ 0x30 + 1 * 256 ^ 0x32 +
  2 ^ 24 * 256 ^ 0x40 + 2 ^ 28 * 256 ^ 0x48 + 2 ^ 29 * 256 ^ 0x50 + 2 ^ 25 * 256 ^ 0x58)
/-- A partition of slice 0 that may use key 9, whose tables map the first GiB of device virtual space to partition memory. -/
def mapped : State := pmWrite { State.reset with regs := [(aPART_CFG 0, 0x2001), (aPART_KEY 0 1, 0x80000009), (aPART_XLAT 0, 4097), (aHBM_STATUS 0, 0x400)] }
  0 4096 (natLe 8 8193) false
/-- A LAUNCH CREATE whose context descriptor has been read. -/
def create (b : List Byte) : Desc := { de 1 0 (2 ^ 20 * 256 ^ 0x10) with st := .running, aux := b.map (·.toNat) }
/-- The device that runs it. -/
def createDev (b : List Byte) : State := { pmWrite mapped 0 8192 (natLe 8 7) false with descs := [(9, create b)] }
theorem wit_CreateReady : descLive (createDev cdesc) 9 dtLAUNCH 0 = some (create cdesc) ∧ partActive (createDev cdesc) 0 = true ∧
    ((partSlices (createDev cdesc) 0).any fun sl => !stackOnline (createDev cdesc) sl) = false ∧ arSpad (dNat (create cdesc) 0x10 8) = false ∧
    dNat (create cdesc) 0x10 8 % 64 = 0 ∧ auxBytes (create cdesc) = cdesc ∧ cdesc.length = 128 ∧ bNat cdesc 0x34 2 = 0 := by decide +kernel
theorem pieces_lt (fuel a n : Nat) : ∀ x ∈ dvaPieces fuel a n, x.1 < a + n := by
  induction fuel generalizing a n with
  | zero => simp [dvaPieces]
  | succ k ih =>
    intro x hx
    simp only [dvaPieces] at hx
    split at hx
    · cases hx
    · rcases List.mem_cons.1 hx with rfl | h
      · simp only; omega
      · have := ih _ _ x h; omega
theorem created_xlat (a : Nat) (w : Bool) (h : a < 2 ^ 30) : xlat (createDev cdesc) 0 48 a w = .pm a := by
  have e0 : xIndex a 0 = 0 := by simp [xIndex, bits]; omega
  have e1 : xIndex a 1 = 0 := by simp [xIndex, bits]; omega
  have v : viewPlace (createDev cdesc) 0 (a % 2 ^ 48) = a := by
    have : partViews (createDev cdesc) 0 = [] := rfl
    simp only [viewPlace, this, List.foldl_nil]; omega
  have r0 : pmRead (createDev cdesc) 0 4096 8 = (natLe 8 8193, false) := by decide +kernel
  have r1 : pmRead (createDev cdesc) 0 8192 8 = (natLe 8 7, false) := by decide +kernel
  have en : fld (createDev cdesc) (aPART_XLAT 0) 0 0 = 1 := by decide +kernel
  have rt : fld (createDev cdesc) (aPART_XLAT 0) 51 12 * 4096 = 4096 := by decide +kernel
  have z : pmSize (createDev cdesc) 0 = 68685922304 := by decide +kernel
  have c : mapFind (createDev cdesc).xcache (xStop (createDev cdesc) 0 48 * 2 ^ 32 + a / 65536) = none := rfl
  have l0 : leNat (natLe 8 8193) = 8193 := by decide
  have l1 : leNat (natLe 8 7) = 7 := by decide
  simp only [xlat, xFind, v, en, c, rt, xWalk, inWindow, e0, e1, z]
  have m : a % 1073741824 = a := Nat.mod_eq_of_lt h
  have b1 : Nat.testBit 8193 1 = false ∧ Nat.testBit 7 1 = true ∧ Nat.testBit 7 3 = false ∧ Nat.testBit 7 2 = true ∧ Nat.testBit 7 4 = false ∧
      Nat.testBit 7 5 = false := by decide
  simp [r0, r1, l0, l1, bit, bits, xPage, xUse, m, b1]
theorem created_area (a n al : Nat) (h : a + n ≤ 2 ^ 30) (d : a % al = 0) : cdArea (createDev cdesc) 0 a n al = true := by
  have f : dvaFault (createDev cdesc) 0 48 a n true = none := by
    rw [dvaFault, List.findSome?_eq_none_iff]
    intro x hx; rw [created_xlat _ _ (lt_of_lt_of_le (pieces_lt _ _ _ x hx) h)]
  have g : dvaHost (createDev cdesc) 0 48 a n true = false := by
    rw [dvaHost, List.any_eq_false]
    intro x hx; rw [created_xlat _ _ (lt_of_lt_of_le (pieces_lt _ _ _ x hx) h)]; simp
  have k : a + n ≤ 2 ^ 48 := by omega
  simp [cdArea, d, f, g]; omega
theorem wit_CreateChecks : cdCheck (createDev cdesc) 0 cdesc [] = none ∧ (cdCheck (createDev cdesc) 0 (natLe 128 0) []).isSome = true := by
  have ar : cdAreasOk (createDev cdesc) 0 cdesc = true := by
    have n : (partSlices (createDev cdesc) 0).length = 1 := by decide +kernel
    have b0 : bNat cdesc 0x40 8 = 2 ^ 24 ∧ bNat cdesc 0x48 8 = 2 ^ 28 ∧ bNat cdesc 6 2 = 1 ∧ bNat cdesc 0x50 8 = 2 ^ 29 ∧ bNat cdesc 0x58 8 = 2 ^ 25 := by
      decide +kernel
    have b1 : (bNat cdesc 0x28 4 % 64 == 0 && inSpace (createDev cdesc) 0 (bNat cdesc 0x28 4) (64 * bNat cdesc 0x2C 2)) = true := by decide +kernel
    simp only [cdAreasOk, n, b0, Bool.and_eq_true] at *
    refine ⟨⟨⟨⟨⟨?_, ?_⟩, ?_⟩, ?_⟩, b1.1⟩, b1.2⟩ <;> exact created_area _ _ _ (by norm_num) (by norm_num)
  constructor
  · rw [cdCheck, ar]; decide +kernel
  · decide +kernel
theorem wit_CreateRefused : descLive (deDev (de 1 0 0)) 9 dtLAUNCH 0 = some (de 1 0 0) ∧
    ((partSlices (regSet dev (aHBM_STATUS 1) 0) 0).any fun sl => !stackOnline (regSet dev (aHBM_STATUS 1) 0) sl) = true ∧
    descLive (regSet (deDev (de 1 0 0)) (aPART_CFG 0) 0x3003) 9 dtLAUNCH 0 = some (de 1 0 0) ∧
    partActive (regSet (deDev (de 1 0 0)) (aPART_CFG 0) 0x3003) 0 = false := by decide +kernel
theorem wit_Launch : descReady (deDev (de 1 1 0)) 9 dtLAUNCH 1 = some (de 1 1 0) ∧ dCtx (deDev (de 1 1 0)) (de 1 1 0) = some 0 ∧
    (runOf (deDev (de 1 1 0)) 0).accepting = true ∧ descReady (deDev (de 1 2 0)) 9 dtLAUNCH 2 = some (de 1 2 0) ∧ dCtx (deDev (de 1 2 0)) (de 1 2 0) = some 0 := by
  decide +kernel
/-- A WAIT on Conjunction 5 for count 1, of limit 1 µs, that stops its ring. -/
def wt (st : DescSt) : Desc := { de 9 0 (5 * 256 ^ 0x10 + 256 ^ 0x12 + 256 ^ 0x14 + 256 ^ 0x18) with st := st, since := 999000 }
theorem wit_Waits : descReady (deDev (wt .accepted)) 9 dtWAIT 0 = some (wt .accepted) ∧
    (ctxByConj (deDev (wt .accepted)) 0 (dNat (wt .accepted) 0x10 2 % 2 ^ 14)).isSome = true ∧
    descRunning (deDev (wt .running)) 9 dtWAIT 0 = some (wt .running) ∧ bit (dNat (wt .running) 0x12 1) 0 = true ∧
    (conjOf { deDev (wt .running) with conj := [(5, { key := 7, count := 1 })] } 5).error = false ∧
    reached (conjOf { deDev (wt .running) with conj := [(5, { key := 7, count := 1 })] } 5).count (BitVec.ofNat 32 (dNat (wt .running) 0x14 4)) = true ∧
    (conjOf { deDev (wt .running) with conj := [(5, { key := 7, error := true })] } 5).error = true ∧
    dNat (wt .running) 0x18 4 ≠ 0 ∧ (wt .running).since + 1000 * dNat (wt .running) 0x18 4 ≤ (deDev (wt .running)).tense.toNat ∧
    ctxByConj { deDev (wt .accepted) with conj := [] } 0 5 = none := by decide +kernel
/-- A FENCE. -/
def fe : Desc := de 0xA 0 0
theorem wit_Fences : descReady (deDev (fe)) 9 dtFENCE 0 = some (fe) ∧
    descRunning (deDev { fe with st := .running }) 9 dtFENCE 0 = some { fe with st := .running } ∧
    ((deDev { fe with st := .running }).descs.any fun y => y.2.part == 0 && y.2.sq == 2 && decide (y.1 < 9)) = false := by decide +kernel

/-! ### Tense -/

/-- SOURCE `n` in a device whose servo is as `v` says. -/
def tnsDev (n : Nat) (v : Servo) : State := regSet { dev with servo := v, tense := 3000000000 } aTNS_CTL n
theorem wit_Pps : devReady (tnsDev 1 {}) = true ∧ fld (tnsDev 1 {}) aTNS_CTL 2 2 = 0 ∧ fld (tnsDev 5 {}) aTNS_CTL 2 2 = 1 ∧
    (regSet (tnsDev 1 { edge := true }) aTNS_PPS_STAMP 2500000000).tense.toNat - 2500000000 < 999000000 ∧
    999000000 ≤ (tnsDev 1 {}).tense.toNat - regGet (regSet (tnsDev 1 {}) aTNS_PPS_STAMP 2000000000) aTNS_PPS_STAMP ∧
    (tnsDev 1 { edge := true }).tense.toNat - regGet (regSet (tnsDev 1 {}) aTNS_PPS_STAMP 2000000000) aTNS_PPS_STAMP ≤ 1001000000 ∧ tnsSource (tnsDev 1 {}) = 1 := by
  decide
theorem wit_MissingMeasurement : tnsSource (tnsDev 1 { miss := 7, due := 5 }) ≠ 0 ∧ (tnsDev 1 { miss := 7, due := 5 }).servo.due < (tnsDev 1 {}).tense.toNat ∧
    fld (regSet (tnsDev 1 {}) aTNS_STATUS 2) aTNS_STATUS 1 1 = 1 ∧ regGet (regSet (tnsDev 1 {}) aTNS_STATUS 2) aTNS_PPS_STAMP + 1001000000 < (tnsDev 1 {}).tense.toNat := by
  decide

/-- A beat or header of 64 bytes whose CRC is right. -/
def hd (n : Nat) : List Byte := natLe 60 n ++ natLe 4 (crc32 (natLe 60 n))
/-- A device whose port `p` is as `q` says, in state `st` (2 is UP). -/
def portDev (p st : Nat) (q : Port) : State := regSet { dev with ports := [(p, q)] } (aYLV_PORT_STATUS p) st
theorem wit_TsyncRequest : parentPort (regSet (portDev 12 2 {}) aTNS_CTL 3) = some 12 ∧ 2 ≤ tnsSource (regSet (portDev 12 2 {}) aTNS_CTL 3) ∧
    portUp (regSet (portDev 12 2 {}) aTNS_CTL 3) 12 = true ∧ (regSet (portDev 12 2 {}) aTNS_CTL 3).servo.sent = none := by decide
theorem wit_TsyncBeats : beatGood (portDev 12 2 {}) 12 ptTSYNC (hd 4) ∧ leNat (((hd 4).drop 1).take 1) = 0 ∧
    beatGood (portDev 12 2 {}) 12 ptTSYNC (hd (4 + 256)) ∧ leNat (((hd (4 + 256)).drop 1).take 1) = 1 ∧
    ({ regSet (portDev 12 2 {}) aTNS_CTL 3 with servo := { t1 := some 0 } } : State).servo.t1 = some (leNat (((hd (4 + 256)).drop 8).take 8)) := by
  unfold beatGood; decide +kernel

/-! ### Stacked memory -/

/-- Stack 0 in a state. -/
def stkDev (x : Stack) : State := { dev with hstk := [(0, x)] }
/-- A read of a granule in a class, and a write. -/
def rq (l c : Nat) (w : Bool) : HReq := { l := l, beat := 0, cls := c, write := w }
theorem wit_Grants : stackLive (stkDev {}) 0 = true ∧ (stkOf (stkDev {}) 0).cands = [] ∧
    hbmArrive {} 5 [rq 1 2 false] = { reads := [{ rq 1 2 false with since := 5 }] } ∧ hbmArrive {} 5 [rq 1 2 true] = { writes := [{ rq 1 2 true with since := 5 }] } ∧
    (hbmArrive { lock := some (3, 1) } 5 []).lock = some (3, 1) ∧
    pickRead { reads := [rq 1 0 false] } 0 false = some (rq 1 0 false) ∧ pickRead { reads := [rq 1 2 false] } 0 false = none ∧
    pickClass [4, 2, 1] [rq 1 2 false] = some (2, [4, 1, 1]) ∧ pickRead { reads := [rq 1 2 false] } 2 false = some (rq 1 2 false) := by decide
theorem wit_RowRemap : (stkOf (stkDev { cands := [⟨0, 1, 2⟩] }) 0).cands = [⟨0, 1, 2⟩] ∧ (freeSpare (stkDev { cands := [⟨0, 1, 2⟩] } |> fun s => stkOf s 0) ⟨0, 1, 2⟩).isSome = true ∧
    guarded (regSet (stkDev { cands := [⟨0, 1, 2⟩] }) (aHBM_GUARD 0) 0x80) 0 0 = true ∧ fld (regSet (stkDev {}) (aHBM_CTL 0) 1) (aHBM_CTL 0) 0 0 = 1 := by decide
theorem wit_Temperature : clocksRun dev = true ∧ fld dev (aHBM_STATUS 0) 9 8 = 0 ∧ 0 < levelOf 85 ∧ levelOf 95 < 3 ∧ levelOf 105 = 3 ∧
    fld (regSet (stkDev { cool := 15 }) (aHBM_STATUS 0) 0x600) (aHBM_STATUS 0) 9 8 = 2 ∧ (91 : Int) < levelAt 2 - 3 ∧ stackOnline dev 0 = true ∧
    sliceOwner { dev with ctxs := [] } 0 = some 0 ∧ liveCtxs { dev with ctxs := [] } 0 = [] := by decide
theorem wit_StackOnline : stackOnline (regSet { stkDev { coolSince := some 0 } with ctxs := [], tense := 1000000000 } (aHBM_STATUS 0) 0xB00) 0 = false ∧
    (stkOf (stkDev { coolSince := some 0 }) 0).coolSince = some 0 ∧ devReady dev = true ∧ pwrState dev = 0 ∧ stackOn dev 0 = true := by decide
theorem wit_TrafficGenerator : strobeOf { dev with strobes := [(64 * aHBM_TG_CTL 0, 1), (64 * aHBM_TG_CTL 0 + 1, 1)] } (aHBM_TG_CTL 0) 0 = some 1 ∧
    strobeOf { dev with strobes := [(64 * aHBM_TG_CTL 0, 1), (64 * aHBM_TG_CTL 0 + 1, 1)] } (aHBM_TG_CTL 0) 1 = some 1 ∧
    bit (regGet dev (aHBM_TG_CTL 0)) 2 = false ∧ bit (regGet (regSet dev (aHBM_TG_CTL 0) 4) (aHBM_TG_CTL 0)) 2 = true ∧ actOn dev 4 0 = false ∧
    actOn { dev with acts := [{ kind := 4, slice := 0 }] } 4 0 = true ∧ (stkOf (stkDev { run := some { destr := true } }) 0).run = some { destr := true } ∧
    fld dev (aHBM_TG_CTL 0) 10 9 = 0 := by decide

/-! ### Yilvo links -/

theorem wit_HeaderFailure : portUp (portDev 0 2 {}) 0 = true ∧ (portOf (portDev 0 2 {}) 0).deaf = false := by decide
theorem wit_IdleBeat : beatGood (portDev 0 2 {}) 0 0 (hd 0) := by unfold beatGood; decide +kernel
/-- A device whose port 0 is UP with packet 7 in its replay buffer. -/
def rpDev (q : Port) : State := portDev 0 2 { q with oldest := 7, next := 8, replay := [(7, { hdr := List.replicate 64 0 })] }
theorem wit_Linkctl : beatGood (rpDev {}) 0 ptLINKCTL (hd (1 + 0x8008 * 256 ^ 2)) ∧ beatGood (rpDev {}) 0 ptLINKCTL (hd (1 + 0x8009 * 256 ^ 2)) ∧
    (let at_ (o n : Nat) : Nat := leNat (((hd (1 + 0x8008 * 256 ^ 2)).drop o).take n)
     bit (at_ 2 2) 15 = true ∧ bit (at_ 4 1) 0 = false ∧ (at_ 2 2 % 4096 + 4096 - (portOf (rpDev {}) 0).oldest) % 4096 = 1) ∧
    ((portOf (rpDev {}) 0).next + 4096 - (portOf (rpDev {}) 0).oldest) % 4096 = 1 := by unfold beatGood; decide +kernel
theorem wit_LinkctlSend : portUp (portDev 0 2 { unacked := 64 }) 0 = true ∧ 64 ≤ (portOf (portDev 0 2 { unacked := 64 }) 0).unacked ∧
    (portOf (portDev 0 2 {}) 0).ctlAt + 1000 ≤ (portDev 0 2 {}).tense.toNat ∧ ∃ x, x ∈ (portOf (portDev 0 2 { give := [0, 1, 0, 0] }) 0).give ∧ x ≠ 0 :=
  ⟨by decide, by decide, by decide, 1, by decide⟩
theorem wit_ReplayStart : portUp (portDev 0 2 {}) 0 = true ∧ headOk (hd 2) = true ∧ leNat ((hd 2).take 1) = ptREPLAY := by decide +kernel
theorem wit_ReplayTimeout : ∀ n ∈ [3, 4], portUp (rpDev { fruitless := n }) 0 = true ∧ (portOf (rpDev { fruitless := n }) 0).replay ≠ [] ∧
    (portOf (rpDev { fruitless := n }) 0).waitFrom + 20000 ≤ (rpDev { fruitless := n }).tense.toNat ∧ (portOf (rpDev { fruitless := n }) 0).fruitless = n := by decide
theorem wit_PortStates : portUp (portDev 0 2 {}) 0 = true ∧
    strobeOf { portDev 0 4 {} with strobes := [(64 * aYLV_PORT_CTL 0 + 4, 1)] } (aYLV_PORT_CTL 0) 4 = some 1 ∧ portState (portDev 0 4 {}) 0 = 4 ∧
    portState (portDev 0 1 {}) 0 = 1 ∧ portState (portDev 0 3 {}) 0 = 3 ∧ (portOf (portDev 0 1 { fails := 2 }) 0).fails = 2 ∧
    (portOf (portDev 0 4 { downAt := some 0 }) 0).downAt = some 0 ∧ 0 + 1000000 ≤ (portDev 0 4 {}).tense.toNat := by decide
/-- A torus of two devices in dimension 0: port 0 leads to device 1, port 1. -/
theorem wit_PeerWanted : (peerWanted (regSet (portDev 0 1 {}) aYLV_TOPO 0x101) 0).isSome = true ∧
    peerWanted (regSet (portDev 0 1 {}) aYLV_TOPO 0x101) 0 ≠ some (77, 5) ∧ peerWanted (portDev 0 1 {}) 0 = none := by decide +kernel

/-- A packet's first beat: TYPE, with key 7, and the rest as given (R368). -/
def pk (ty body : Nat) : Pkt := { hdr := natLe 64 (ty + 7 * 256 ^ 6 + 5 * 256 ^ 13 + body) }
/-- A device that has it to deliver to itself. -/
def loopDev (p : Pkt) : State := { dev with loop := [p] }
theorem arrives_loop (p : Pkt) : arrives (loopDev p) 14 [] p { loopDev p with loop := [] } := .inl ⟨rfl, [], rfl, rfl⟩
theorem wit_Egress : (egressPick (portDev 0 2 { cred := [10, 10, 10, 10], wait := [{ id := 3, from_ := 14, pkt := pk 0x10 0 }] }) 0).map (·.id) = some 3 ∧
    ((portOf (portDev 0 2 { wait := [{ id := 3, from_ := 14, pkt := pk 0x10 0 }] }) 0).wait.any fun r => r.id == 3) = true ∧
    ((portOf (portDev 0 2 {}) 0).wait.any fun r => r.id == 3) = false := by decide +kernel
/-- A SIGNAL to Conjunction 5, by 2, that comes in by mirror port 12. -/
def sigHd : List Byte := hd (0x10 + 7 * 256 ^ 6 + 5 * 256 ^ 13 + 5 * 256 ^ 16 + 2 * 256 ^ 18)
theorem wit_ArrivesAtPort : arrives (regSet (portDev 12 2 {}) (aYLV_KEYFILT 12 3) 0x80000007) 12 sigHd { hdr := sigHd }
    (takeIn (regSet (portDev 12 2 {}) (aYLV_KEYFILT 12 3) 0x80000007) 12 { hdr := sigHd }) := by
  refine .inr ⟨by decide, by decide, by decide, by decide +kernel, ?_, ?_, by decide +kernel, by decide +kernel, by decide +kernel, by decide +kernel,
    by decide +kernel, by decide +kernel, .inl (by decide), rfl⟩
  · intro h; revert h; decide +kernel
  · intro _; decide +kernel
theorem wit_Delivered : devCtx (loopDev (pk 0x10 0)) (pkKey (pk 0x10 0)) = some 0 ∧ devCtx { loopDev (pk 0x10 0) with ctxs := [] } (pkKey (pk 0x10 0)) = none ∧
    pkType (pk 0x10 (5 * 256 ^ 16)) = ptSIGNAL ∧ pkNat (pk 0x10 (5 * 256 ^ 16)) 16 2 = 5 ∧ conjKeyOk (loopDev (pk 0x10 0)) 5 (BitVec.ofNat 16 (pkKey (pk 0x10 0))) = true ∧
    conjKeyOk (loopDev (pk 0x10 0)) 6 (BitVec.ofNat 16 (pkKey (pk 0x10 0))) = false ∧
    pkType (pk 0x11 0) = ptWACK ∧ mapFind { loopDev (pk 0x11 0) with ackWait := [(0, (1, 0))] }.ackWait (pkNat (pk 0x11 0) 16 2) = some (1, 0) ∧
    pkType (pk 0x14 (0x20 * 256 ^ 19)) = ptUNDEL ∧ bit (pkNat (pk 0x14 (0x20 * 256 ^ 19)) 20 1) 0 = false ∧ pkNat (pk 0x14 (0x20 * 256 ^ 19)) 19 1 = ptDATA ∧
    pkType (pk 0x12 0) = ptREAD ∧ pkType (pk 0x13 0) = ptABORT ∧ pwrState dev = 0 := by decide +kernel
/-- A WRITE of eight bytes to scratchpad address 8192 of the context, which has its page there; and the same as a READ_RESP. -/
def wr (form : Nat) : Pkt := { pk 0x20 (8 * 256 ^ 16 + form * 256 ^ 18 + (2 ^ 63 + 8192) * 256 ^ 24) with payload := natLe 8 0x123456789 }
theorem wit_DataWrites : ∀ f ∈ [0, 1], devCtx (loopDev (wr f)) (pkKey (wr f)) = some 0 ∧ pkType (wr f) = ptDATA ∧ pkNat (wr f) 18 1 = f ∧ (wr f).poison = 0 ∧
    pairMsg 14 (wr f) = false := by decide +kernel
theorem wit_DataReach : peerReach { loopDev (wr 0) with loop := [] } 0 (pkNat (wr 0) 24 8) (wr 0).payload.length (pkKey (wr 0)) true =
    ({ loopDev (wr 0) with loop := [] }, stOK) := by decide +kernel

/-! ### Collectives -/

/-- The record of group 3, rank 0 of 2, reduce-scatter of F32 sums over a ring in segments of 256 bytes, shares of 512 (R405). -/
def grec : List Byte := natLe 128 (3 + 0x11 * 256 ^ 5 + 256 ^ 7 + 2 * 256 ^ 8 + 256 * 256 ^ 0xC + 512 * 256 ^ 0x10 + (2 ^ 63 + 4096) * 256 ^ 0x18 +
  (2 ^ 63 + 8192) * 256 ^ 0x20 + (2 ^ 63 + 12288) * 256 ^ 0x28 + 1 * 256 ^ 0x3C)
/-- Its peer table: entries 0, 1 and 3 name device 1. -/
def gpeers : List Byte := natLe 144 (0x1000001 + 0x1000001 * 256 ^ 8 + 0x1000001 * 256 ^ 24)
/-- The group, set up in context 0. -/
def grp : Group := { cid := 0, group := 3, rec_ := grec, peers := (List.range 18).map fun i => leNat ((gpeers.drop (8 * i)).take 8) }
/-- A device that has it, running as `r` says, and that has accepted a COLLECTIVE descriptor of a form for it. -/
def grDev (fm : Nat) (g : Group) : State := { deDev (de 5 fm (3 * 256 ^ 0x18 + 6 * 256 ^ 0x1A)) with groups := [(3, g)] }
theorem wit_Collectives : ∀ fm ∈ [1, 2, 3, 4, 5, 6], descReady (grDev fm grp) 9 dtCOLLECTIVE fm = some (de 5 fm (3 * 256 ^ 0x18 + 6 * 256 ^ 0x1A)) ∧
    dCtx (grDev fm grp) (de 5 fm (3 * 256 ^ 0x18 + 6 * 256 ^ 0x1A)) = some 0 ∧
    groupOf (grDev fm grp) (65536 * 0 + dNat (de 5 fm (3 * 256 ^ 0x18 + 6 * 256 ^ 0x1A)) 0x18 2) = some grp ∧
    groupOf { grDev fm grp with groups := [] } 3 = none ∧ grp.run = none ∧ grp.bound = none ∧
    dNat (de 5 fm (3 * 256 ^ 0x18 + 6 * 256 ^ 0x1A)) 0x1A 2 = 6 ∧ mapGet .none (grDev fm grp).handles 6 = .none := by decide +kernel
theorem wit_GroupsBound : groupOf (grDev 3 { grp with bound := some 6 }) 3 = some { grp with bound := some 6 } ∧
    groupOf (grDev 4 { grp with run := some {} }) 3 = some { grp with run := some {} } := by decide +kernel
/-- A SETUP whose record has been read, with the peer table in scratchpad. -/
def setupDev (b : List Byte) : State := { dev with descs := [(9, { de 5 0 0 with aux := b.map (·.toNat) })]
                                                   spm := { cells := ((List.range 144).map fun i => (12288 + i, gpeers.getD i 0)).filter fun x => x.2 != 0 } }
theorem wit_GroupSetup : descReady (setupDev grec) 9 dtCOLLECTIVE 0 = some { de 5 0 0 with aux := grec.map (·.toNat) } ∧
    dCtx (setupDev grec) (de 5 0 0) = some 0 ∧ auxBytes { de 5 0 0 with aux := grec.map (·.toNat) } = grec ∧ grec ≠ [] ∧
    arRsv (leNat ((grec.drop 0x28).take 8)) = false ∧ gRecordOk grp = true ∧ gRecordOk { grp with rec_ := natLe 128 3 } = false ∧
    groupOf (setupDev grec) (gKey grp) = none ∧ gWin grp * gFoot grp ≤ 16777216 := by decide +kernel
theorem wit_GroupPeersRead : areaGather (setupDev grec) 0 48 (leNat ((grec.drop 0x28).take 8)) 144 7 (.desc 9) = (setupDev grec, .done gpeers false false) := by
  decide +kernel
/-- A packet of the group's generation `n`, of each TYPE that a collective uses. -/
def cpk (ty form n : Nat) : Pkt := match ty with
  | 0x20 => { pk 0x20 (64 * 256 ^ 16 + 2 * 256 ^ 18 + 3 * 256 ^ 32 + n * 256 ^ 34) with payload := natLe 64 0 }
  | 0x13 => pk 0x13 (3 * 256 ^ 16 + n * 256 ^ 18)
  | _ => pk 0x15 (form * 256 ^ 16 + n * 256 ^ 17 + 3 * 256 ^ 18)
theorem wit_CollectiveTraffic : ∀ x ∈ [(0x20, 2), (0x15, 2), (0x15, 3), (0x13, 0), (0x15, 1)], ∀ n ∈ [0, 1, 2],
    devCtx (loopDev (cpk x.1 x.2 n)) (pkKey (cpk x.1 x.2 n)) = some 0 ∧ pkType (cpk x.1 x.2 n) = x.1 ∧ (collIds (cpk x.1 x.2 n)) = (3, n) ∧
    genMeets { grp with run := some {} } n = n ∧ (x.1 = 0x20 → pkNat (cpk x.1 x.2 n) 18 1 = 2) ∧ (x.1 = 0x15 → pkNat (cpk x.1 x.2 n) 16 1 = x.2) := by
  decide +kernel
/-- The group running, with segment 2 of step 0 (the first of the share it sends) not yet sent. -/
theorem wit_SegmentSend : gSteps grp = [0] ∧ gPlace grp 0 2 = some 0 ∧ gPlace grp 0 3 = some 1 ∧ gKth grp 0 0 = 2 ∧
    (sendUnits (grDev 1 { grp with run := some {} }) 3 { grp with run := some {} } {} 0 2).2.isSome = true ∧
    ((groupOf (sendUnits (grDev 1 { grp with run := some {} }) 3 { grp with run := some {} } {} 0 2).1 3).bind (·.run)).isSome = true ∧
    gWin grp = 1 ∧ mapGet 0 ({} : RRun).freed (rk 0 2) < 1 ∧ gNat grp 0x3C 4 ≠ 0 ∧ 0 + 1000 * gNat grp 0x3C 4 ≤ (grDev 1 grp).tense.toNat := by decide +kernel

/-! ### Inputs, the Gloss, the step gate and the copies of training -/

/-- Context 0 of `dev`, with its page, to change. -/
def cx : Ctx := { live := true, ckey := 7, pages := [(0, { phys := some (0, 0) })], conjBase := 5, conjCount := 4 }
/-- A device that has accepted a descriptor whose context is as `c` says. -/
def cxDev (c : Ctx) (d : Desc) : State := { deDev d with ctxs := [(0, c)] }
/-- Scratchpad areas at 4096 and 8192. -/
def a1 : Nat := 2 ^ 63 + 4096
/-- The second. -/
def a2 : Nat := 2 ^ 63 + 8192
/-- A PLAIN COPY of 64 bytes. -/
def cp (st : DescSt) : Desc := { de 2 0 (a1 * 256 ^ 0x10 + a2 * 256 ^ 0x18 + 64 * 256 ^ 0x20) with st := st }
theorem wit_CopyPlain : descLive (deDev (cp .running)) 9 dtCOPY 0 = some (cp .running) ∧ dCtx (deDev (cp .running)) (cp .running) = some 0 ∧
    cpInput (cp .running) = false ∧ (cp .running).pos < dNat (cp .running) 0x20 8 ∧ dNat (cp .running) 0x20 8 - (cp .running).pos ≤ chunkBytes ∧
    areaInside (deDev (cp .accepted)) 0 (dNat (cp .accepted) 0x10 8) (dNat (cp .accepted) 0x20 8) = true ∧
    (areaCheck (deDev (cp .running)) 0 48 (dNat (cp .running) 0x18 8 + 0) 64 7 true).isNone = true := by decide +kernel
theorem wit_CopyGather : areaGather (deDev (cp .running)) 0 48 (dNat (cp .running) 0x10 8 + 0) 64 7 (.desc 9) =
    (deDev (cp .running), .done (List.replicate 64 0) false false) := by decide +kernel
theorem wit_CopyOutside : areaInside (deDev (cp .accepted)) 0 (2 ^ 63 + 2 ^ 32 - 1) 2 = false ∧
    descReady (deDev (de 2 0 ((2 ^ 63 + 2 ^ 32 - 1) * 256 ^ 0x10 + 2 * 256 ^ 0x20))) 9 dtCOPY 0 = some (de 2 0 ((2 ^ 63 + 2 ^ 32 - 1) * 256 ^ 0x10 + 2 * 256 ^ 0x20)) ∧
    dNat (de 2 0 ((2 ^ 63 + 2 ^ 32 - 1) * 256 ^ 0x10 + 2 * 256 ^ 0x20)) 0x10 8 = 2 ^ 63 + 2 ^ 32 - 1 := by decide +kernel
theorem wit_HashLane : (({ cp .running with chunks := [(0, [1])] } : Desc).chunks.find? fun y => y.1 == 0) = some (0, [1]) := by decide
/-- An input of 64 bytes for step 3 that has come whole. -/
def inp : Desc := { de 2 0 (a1 * 256 ^ 0x10 + a2 * 256 ^ 0x18 + 64 * 256 ^ 0x20 + 4 * 256 ^ 0x28 + 3 * 256 ^ 0x38) with st := .running, pos := 64 }
theorem wit_InputAccepted : descRunning (deDev inp) 9 dtCOPY 0 = some inp ∧ dCtx (deDev inp) inp = some 0 ∧ cpInput inp = true ∧ inp.pos = dNat inp 0x20 8 ∧
    inp.chunks = [] ∧ inputErr (deDev inp) 0 inp false = none ∧ (ctxOf (deDev inp) 0).gloss = none ∧
    (inputErr (cxDev { cx with inputs := [{ isid := 0, iseq := 0, step := 3, digest := [], len := 0 }] } inp) 0 inp false).isSome = true := by decide +kernel
/-- A Gloss with no weights that waits for `n` inputs before step 0. -/
def gl (n : Nat) : Gloss := glossOf (natLe 64 (n * 256 ^ 0x1C))
/-- OPEN with its record read. -/
def op (b : List Byte) (st : DescSt) : Desc := { de 6 2 0 with aux := b.map (·.toNat), st := st }
theorem wit_Open : descReady (deDev (op (natLe 64 0) .accepted)) 9 dtSTEP 2 = some (op (natLe 64 0) .accepted) ∧
    auxBytes (op (natLe 64 0) .accepted) = natLe 64 0 ∧ (glossOf (natLe 64 0)).wcount = 0 ∧ glossSetupOk (natLe 64 0) (dNat (op (natLe 64 0) .accepted) 0x10 8) = true ∧
    wOk [] = true ∧ glossSetupOk (natLe 64 3) 0 = false ∧ (glossOf (natLe 64 (2 ^ 32))).wcount = 1 ∧ glossSetupOk (natLe 64 (2 ^ 32)) 0 = true ∧
    wOk (natLe 32 (256 ^ 0x18)) = false ∧ (ctxOf (cxDev { cx with gloss := some (gl 0) } (op [] .accepted)) 0).gloss.isSome = true := by decide +kernel
theorem wit_GlossOpen : descRunning (cxDev { cx with gloss := some (gl 1) } (op (natLe 64 0) .running)) 9 dtSTEP 2 = some (op (natLe 64 0) .running) ∧
    (preInputs (cxDev { cx with gloss := some (gl 1) } (op (natLe 64 0) .running)) 0 (gl 1).pre).length < (gl 1).pre ∧ (gl 0).pre ≤ 0 ∧
    wChunks (wEnts ((auxBytes (op (natLe 64 0) .running)).drop 64)) = [] := by decide +kernel
/-- A SNAPSHOT descriptor of a form. -/
def sn (fm body : Nat) (st : DescSt) : Desc := { de 7 fm (a1 * 256 ^ 0x18 + body) with st := st, pos := 1 }
theorem wit_Snapshots : descReady (deDev (sn 0 0 .accepted)) 9 dtSNAPSHOT 0 = some (sn 0 0 .accepted) ∧ (ctxOf (deDev (sn 0 0 .accepted)) 0).glossOpen = false ∧
    descRunning (cxDev { cx with gloss := some (gl 0), glossOpen := true } (sn 0 0 .running)) 9 dtSNAPSHOT 0 = some (sn 0 0 .running) ∧
    (gl 0).wcount = 0 ∧ wOk [] = true ∧ wChunks (wEnts []) = [] ∧
    (areaCheck (cxDev { cx with gloss := some (gl 0), glossOpen := true } (sn 0 0 .running)) 0 48 (dNat (sn 0 0 .running) 0x18 8) 0 7 true).isNone = true ∧
    descRunning (deDev (sn 1 (a2 * 256 ^ 0x30) .running)) 9 dtSNAPSHOT 1 = some (sn 1 (a2 * 256 ^ 0x30) .running) ∧
    (areaCheck (deDev (sn 1 (a2 * 256 ^ 0x30) .running)) 0 48 (dNat (sn 1 (a2 * 256 ^ 0x30) .running) 0x30 8) 32 7 true).isNone = true ∧
    descReady (deDev (sn 2 (256 ^ 0x2C) .accepted)) 9 dtSNAPSHOT 2 = some (sn 2 (256 ^ 0x2C) .accepted) ∧ exPeer (sn 2 (256 ^ 0x2C) .accepted) = true ∧
    routeOk (deDev (sn 2 (256 ^ 0x2C) .accepted)) 0 (dNat (sn 2 (256 ^ 0x2C) .accepted) 0x2A 2) = false ∧
    descRunning (cxDev { cx with gloss := some (gl 0), glossOpen := true } (sn 2 0 .running)) 9 dtSNAPSHOT 2 = some (sn 2 0 .running) ∧ exPeer (sn 2 0 .running) = false := by
  decide +kernel
/-- A step table of one region: pages 0 and 1 of scratchpad, of role 1 (R456). -/
def tabB (role : Nat) : List Byte := natLe 192 (1 + (2 ^ 63) * 256 ^ 64 + (2 ^ 63 + 65536) * 256 ^ 72 + 65536 * 256 ^ 80 + role * 256 ^ 88)
/-- SETUP with the table read. -/
def su (b : List Byte) : Desc := { de 6 0 0 with aux := b.map (·.toNat) }
theorem wit_StepSetup : descReady (deDev (su (tabB 1))) 9 dtSTEP 0 = some (su (tabB 1)) ∧ (tabB 1).length = (tableLens (tabB 1)).2 + 64 ∧
    (ctxOf (deDev (su (tabB 1))) 0).table = none ∧ tableOk (tabB 1) = true ∧ ((List.range (bNat (tabB 1) 0 2)).all (regionOk (deDev (su (tabB 1))) 0 (tabB 1))) = true ∧
    viewsApart ((List.range (bNat (tabB 1) 0 2)).map (viewOf (tabB 1))) = true ∧ bNat (tabB 1) 6 2 = 0 ∧ auxBytes (su (tabB 1)) = tabB 1 ∧
    tableOk (natLe 64 0) = false := by decide +kernel
/-- A declared table, with its step record at 4096 and a retention entry. -/
def st : StepTab := { gateMask := 1, gates := [], rec_ := a1, genC := [], rets := [{ area := 2 ^ 63, bytes := 65536, policy := 2, conj := 5, target := 1, adv := 1 }] }
/-- A commit of a step, with cover Conjunction 5 at target 1. -/
def cm (step : Nat) (x : DescSt) (pos : Nat) : Desc := { de 6 1 (step * 256 ^ 0x10 + 256 ^ 0x1C + 5 * 256 ^ 0x20 + a2 * 256 ^ 0x28) with st := x, pos := pos, aux := [0, 0, 0] }
theorem wit_Commit : descReady (cxDev { cx with table := some st } (cm 0 .accepted 0)) 9 dtSTEP 1 = some (cm 0 .accepted 0) ∧
    commitBefore (cxDev { cx with table := some st } (cm 0 .accepted 0)) 9 0 = false ∧ cmStep (cm 0 .accepted 0) = (runOf (deDev (cm 0 .accepted 0)) 0).step ∧
    cmStep (cm 5 .accepted 0) ≠ (runOf (deDev (cm 5 .accepted 0)) 0).step ∧ (ctxOf (deDev (cm 0 .accepted 0)) 0).table = none := by decide +kernel
theorem wit_Decision : ∀ c ∈ [({ key := 7 } : Conj), { key := 7, error := true }, { key := 7, count := 1 }],
    descRunning { cxDev { cx with table := some st } (cm 0 .running 1) with conj := [(5, c)] } 9 dtSTEP 1 = some (cm 0 .running 1) ∧ st.gates = [] ∧
    conjOf { cxDev { cx with table := some st } (cm 0 .running 1) with conj := [(5, c)] } (dNat (cm 0 .running 1) 0x20 2 % 2 ^ 14) = c ∧
    dNat (cm 0 .running 1) 0x18 4 = 0 ∧ (waitOver c (BitVec.ofNat 32 (dNat (cm 0 .running 1) 0x1C 4)) = (c.error || c.count == 1)) ∧
    bit (dNat (cm 0 .running 1) 0x22 1) 0 = false ∧ (ctxOf (cxDev { cx with table := some st } (cm 0 .running 1)) 0).sflags &&& st.gateMask = 0 := by decide +kernel
theorem wit_Exchange : descRunning (cxDev { cx with table := some st } (cm 0 .running 2)) 9 dtSTEP 1 = some (cm 0 .running 2) ∧
    exportReads (cxDev { cx with table := some st } (cm 0 .running 2)) 0 = false ∧ pairHold (cxDev { cx with table := some st } (cm 0 .running 2)) 0 0 = false ∧
    mirrorOn (cxDev { cx with table := some st } (cm 0 .running 2)) 0 = false ∧ (cm 0 .running 2).aux[2]? = some 0 := by decide +kernel
theorem wit_ExchangeReads : areaGather (cxDev { cx with table := some st } (cm 0 .running 2)) 0 48 (st.rec_ + 0x60) 64 7 (.desc 9) =
    (cxDev { cx with table := some st } (cm 0 .running 2), .done (List.replicate 64 0) false false) := by decide +kernel
theorem wit_Retention : (ctxOf (cxDev { cx with table := some st } (cp .accepted)) 0).table = some st ∧
    st.rets[0]? = some { area := 2 ^ 63, bytes := 65536, policy := 2, conj := 5, target := 1, adv := 1 } ∧
    reached (conjOf { dev with conj := [(5, { key := 7, count := 1 })] } 5).count (BitVec.ofNat 32 1) = true := by decide
theorem wit_Deferrable : dDefer (de 2 0 256) = true ∧ (de 2 0 256).deferGo = false ∧ dType (de 2 0 256) = dtCOPY ∧ dForm (de 2 0 256) ≠ 3 ∧
    ((deDev (de 2 0 256)).descs.any fun y => decide (y.1 < 9) && dDefer y.2 && !y.2.deferGo && y.2.st == .accepted && dCtx (deDev (de 2 0 256)) y.2 == some 0) = false := by
  decide +kernel
/-- The same partition with the first GiB of device virtual space mapped to host memory at 2^40, which it may write. -/
def hostDev (d : Desc) : State :=
  pmWrite (pmWrite (regSet (deDev d) (aPART_XLAT 0) 4099) 0 4096 (natLe 8 8193) false) 0 8192 (natLe 8 (2 ^ 40 + 15)) false
/-- OFFLOAD of 64 bytes of scratchpad. -/
def off : Desc := de 2 1 (a1 * 256 ^ 0x10 + 64 * 256 ^ 0x20 + a2 * 256 ^ 0x30)
theorem wit_Offload : descReady (hostDev off) 9 dtCOPY 1 = some off ∧ dCtx (hostDev off) off = some 0 ∧ off.pos = 0 ∧ off.digs = [] ∧ off.note = stOK ∧
    areaInside (hostDev off) 0 (dNat off 0x10 8) 64 = true ∧ areaInside (hostDev off) 0 (dNat off 0x18 8) 64 = true ∧
    areaAll (hostDev off) 0 (dNat off 0x10 8) 64 false false = true ∧ areaAll (hostDev off) 0 (dNat off 0x18 8) 64 true true = true ∧
    (let s₁ := updDesc (hostDev off) 9 fun y => { y with st := .running }
     arReach s₁ 0 48 (dNat off 0x10 8) 64 false = .ok ∧ (areaCheck s₁ 0 48 (dNat off 0x18 8) 64 7 true).isNone = true ∧
     (hereRuns s₁ 0 (dNat off 0x10 8) 64).any (·.2) = false ∧
     (areaCheck (updDesc (storeRuns s₁ 0 (dNat off 0x18 8) (hereRuns s₁ 0 (dNat off 0x10 8) 64)) 9 fun y => { y with pos := 64 }) 0 48
       (dNat off 0x30 8) 64 7 true).isNone = true) := by decide +kernel
/-- A PREFETCH whose record has been read and whose last 32 of 64 bytes come. -/
def pre (dig : List Byte) : Desc := { de 2 2 (a2 * 256 ^ 0x18) with st := .running, pos := 32, aux := (natLe 32 (a1 + 64 * 256 ^ 8) ++ dig).map (·.toNat) }
/-- The digest that its bytes give. -/
def preDig : List Byte := cdOuter tagOFFLD 64 [sha256 (List.replicate 32 0)]
theorem wit_Prefetch : ∀ g ∈ [preDig, List.replicate 32 0], descRunning (deDev (pre g)) 9 dtCOPY 2 = some (pre g) ∧ dCtx (deDev (pre g)) (pre g) = some 0 ∧
    (auxBytes (pre g)).length = 64 ∧ bNat (auxBytes (pre g)) 8 8 = 64 ∧
    (areaCheck (updDesc (deDev (pre g)) 9 fun y => { y with st := .running }) 0 48 (dNat (pre g) 0x18 8 + 32) 32 7 true).isNone = true ∧
    (cdOuter tagOFFLD 64 (digList { pre g with digs := [(0, sha256 (List.replicate 32 0))] }) == ((auxBytes (pre g)).drop 0x20).take 32) = (g == preDig) := by
  decide +kernel
theorem wit_PrefetchReads : areaGather (updDesc (deDev (pre [])) 9 fun y => { y with st := .running }) 0 48 (a1 + 32) 32 7 (.desc 9) =
    (updDesc (deDev (pre [])) 9 fun y => { y with st := .running }, .done (List.replicate 32 0) false false) := by decide +kernel

/-- A transform of four F32 elements by blocks of 1,024, with KB 2 and the residual region 0 (R528). -/
def xf (k : Nat) : Desc := de 2 3 (a1 * 256 ^ 0x10 + a2 * 256 ^ 0x18 + 4 * 256 ^ 0x20 + 2 * 256 ^ 0x28 + 1 * 256 ^ 0x2E + k * 256 ^ 0x30 + 10 * 256 ^ 0x31 + 0x1111 * 256 ^ 0x32)
/-- The residual region: 16 bytes at 16384, staged at 20480. -/
def rv : View := { spad := true, vc := 16384, vs := 20480, bytes := 16, role := 3, carry := false, bitmap := 0 }
theorem wit_Compress : ∀ k ∈ [0, 1], descReady (cxDev { cx with views := [rv] } (xf k)) 9 dtCOPY 3 = some (xf k) ∧ dNat (xf k) 0x30 1 = k ∧
    xfOk (cxDev { cx with views := [rv] } (xf k)) 0 (xf k) (xfOf (xf k)) = true ∧ xfRegion (cxDev { cx with views := [rv] } (xf k)) 0 (xfOf (xf k)) = some rv ∧
    xfOk (deDev (xf k)) 0 (xf k) (xfOf (xf k)) = false ∧
    (areaCheck (cxDev { cx with views := [rv] } (xf k)) 0 48 (xfOf (xf k)).out (xfBlocks (xfOf (xf k)) * xfBlockBytes (xfOf (xf k)) (k == 1)) 7 true).isNone = true := by
  decide +kernel
theorem wit_CompressReads : areaGather (cxDev { cx with views := [rv] } (xf 0)) 0 48 (xfOf (xf 0)).grad ((xfOf (xf 0)).n * fw (xfOf (xf 0)).gf) 7 (.desc 9) =
      (cxDev { cx with views := [rv] } (xf 0), .done (List.replicate 16 0) false false) ∧
    areaGather (cxDev { cx with views := [rv] } (xf 0)) 0 48 (viewRef rv rv.vc) rv.bytes 7 (.desc 9) =
      (cxDev { cx with views := [rv] } (xf 0), .done (List.replicate 16 0) false false) := by decide +kernel
theorem wit_Expand : ∀ k ∈ [2, 3], descReady (deDev (xf k)) 9 dtCOPY 3 = some (xf k) ∧ dNat (xf k) 0x30 1 = k ∧
    xfOk (deDev (xf k)) 0 (xf k) (xfOf (xf k)) = true ∧ (areaCheck (deDev (xf k)) 0 48 (xfOf (xf k)).out ((xfOf (xf k)).n * fw (xfOf (xf k)).of_) 7 true).isNone = true ∧
    (xfOf (xf k)).g * (xfBlocks (xfOf (xf k)) * xfBlockBytes (xfOf (xf k)) (k == 3)) = (if k = 2 then 16 else 132) := by decide +kernel
theorem wit_ExpandReads : areaGather (deDev (xf 2)) 0 48 (xfOf (xf 2)).grad 16 7 (.desc 9) = (deDev (xf 2), .done (List.replicate 16 0) false false) ∧
    areaGather (deDev (xf 3)) 0 48 (xfOf (xf 3)).grad 132 7 (.desc 9) = (deDev (xf 3), .done (List.replicate 132 0) false false) := by decide +kernel

/-! ### Command rings -/

/-- Submission ring 0 and completion ring 0 of partition 0 enabled, of 2^8 slots each, and the event ring. -/
def ringDev (q : Sq) : State := { regSet (regSet (regSet dev (aPART_SQ_CTL 0 0) 17) (aPART_CQ_CTL 0 0) 17) (aPART_CQ_CTL 0 4) 17 with sqs := [(0, q)] }
theorem wit_Doorbells : barOpen (ringDev {}) = true ∧ (fnOf (ringDev {}) 1).enabled = true ∧ (fnOf (ringDev {}) 1).flr = 0 ∧ (natLe 4 3).length = 4 ∧
    sqOn (wakeBy (ringDev {}) 0) 0 0 = true ∧ cqOn (wakeBy (ringDev {}) 0) 0 0 = true ∧ cqOn (wakeBy (ringDev {}) 0) 0 4 = true ∧
    partState (wakeBy (ringDev {}) 0) 0 ≠ 3 ∧ 3 ≤ sqN (wakeBy (ringDev {}) 0) 0 0 ∧ sqHC (wakeBy (ringDev {}) 0) 0 0 = 0 := by decide +kernel
theorem wit_Fetch : sqOn (ringDev { tc := 3 }) 0 0 = true ∧ pwrState (ringDev { tc := 3 }) = 0 ∧ sqStopped (ringDev { tc := 3 }) 0 0 = false ∧
    (sqOf (ringDev { tc := 3 }) 0 0).stall = none ∧ fetchOut (ringDev { tc := 3 }) 0 = false ∧
    min (min (64 - (sqOf (ringDev { tc := 3 }) 0 0).buf.length) 3) 64 = 3 ∧ fnSends (ringDev { tc := 3 }) (vfOf 0) = true ∧
    freeTracker (ringDev { tc := 3 }) (vfOf 0) = some 0 := by decide +kernel
/-- The answer of a fetch of one slot, whose phase bit is `p`. -/
def ans (p : Nat) (failed : Bool) : HostAns := { work := .fetch 0 0 1, addr := 0, len := 64, got := [(0, List.replicate 63 0 ++ [BitVec.ofNat 8 (128 * p)], false)], failed := failed }
theorem wit_FetchCompletion : ∀ p ∈ [0, 1], ∀ f ∈ [true, false], (ans p f).work = .fetch 0 (sqHC { ringDev {} with answers := [ans p f] } 0 0) 1 ∧
    (ans p f).dropped = false ∧ ansPoison (ans p f) = false ∧ leNat (((ansBytes (ans p f)).take 64).drop 63) / 128 = p ∧ phaseOf (sqN (ringDev {}) 0 0) 0 = 1 := by
  decide +kernel
theorem wit_Reread : (sqOf (ringDev { stall := some 999500 }) 0 0).stall = some 999500 ∧ (ringDev {}).tense.toNat < 999500 + 1000 ∧
    (sqOf (ringDev { stall := some 999000 }) 0 0).stall = some 999000 ∧ 999000 + 1000 ≤ (ringDev {}).tense.toNat := by decide
theorem wit_RingStrobes : strobeOf { dev with strobes := [(64 * aPART_SQ_CTL 0 0, 2), (64 * aPART_SQ_CTL 0 0 + 6, 1)] } (aPART_SQ_CTL 0 0) 6 = some 1 ∧
    strobeOf { dev with strobes := [(64 * aPART_SQ_CTL 0 0, 2), (64 * aPART_SQ_CTL 0 0 + 6, 1)] } (aPART_SQ_CTL 0 0) 0 = some 2 ∧
    strobeOf { dev with strobes := [(64 * aPART_CQ_CTL 0 4, 2)] } (aPART_CQ_CTL 0 4) 0 = some 2 := by decide
/-- A fetched slot: a FENCE, with or without a completion entry, and one of a reserved TYPE. -/
def slot (nocq : Bool) (ty : Nat) : List Byte := natLe 64 (ty + (if nocq then 512 else 0))
/-- The descriptor that it becomes. -/
def slotD (nocq : Bool) (ty : Nat) : Desc := { part := 0, sq := 0, count := 0, bytes := slot nocq ty, since := 1000000 }
theorem wit_Accept : ∀ n ∈ [true, false], ∀ ty ∈ [0xA, 0xFF], (sqOf (ringDev { buf := [(0, slot n ty)] }) 0 0).buf = [(0, slot n ty)] ∧
    (sqOf (ringDev { buf := [(0, slot n ty)] }) 0 0).hold = none ∧ partActive (ringDev {}) 0 = true ∧ dNocq (slotD n ty) = n ∧ dCq (slotD n ty) = 0 ∧
    ringRoom (ringDev {}) 0 0 = true ∧ dType (slotD n ty) = ty ∧
    ((dCheck (ringDev {}) { slotD n ty with signals := dSignals (ringDev {}) (slotD n ty), cq := if n then none else some 0, resv := !n }).isSome = (ty == 0xFF)) ∧
    cqOn dev 0 0 = false ∧ ringRoom { ringDev {} with rcs := [(0, 0)], cqRes := [(0, 256)] } 0 0 = false := by decide +kernel
/-- A descriptor that has ended, with an entry to write. -/
def ended (cq : Option Nat) : Desc := { slotD false 0xA with st := .ended 0 0 0, cq := cq, resv := true }
theorem wit_Complete : cqOn (ringDev {}) 0 0 = true ∧ fnSends (ringDev {}) (vfOf 0) = true ∧ fld (ringDev {}) (aPART_CQ_CTL 0 0) 6 6 = 0 ∧ cqOn dev 0 0 = false := by decide +kernel

/-! ### The host link -/

/-- Partition 0 with its memory window open. -/
theorem wit_Windows : hostUp dev = true ∧ devReady dev = true ∧ inEllipsis dev = false ∧ barOpen dev = true ∧ winAddr dev 1 4096 = some (0, 4096) ∧ barAligned 4096 8 = true ∧
    barAligned 4097 8 = false ∧ 4096 + 8 ≤ pmSize dev 0 ∧ pmOffline dev 0 4096 8 = false ∧
    pmOffline (regSet (regSet dev (aHBM_STATUS 0) 0) (aHBM_STATUS 1) 0) 0 4096 8 = true ∧
    winAddr (regSet dev (aPART_MEMWIN 0) (2 ^ 37)) 1 0 = some (0, 2 ^ 37) ∧ pmSize dev 0 < 2 ^ 37 + 8 := by decide
theorem wit_Functions : (fnOf dev 0).flr = 0 ∧ (fnOf dev 1).d3hot = false ∧ fnSends (after dev [.busMasterEnableSet 1]) 1 = true ∧
    (fnOf { dev with fns := [(1, { flr := 4 })] } 1).flr ≠ 0 := by decide
/-- An outstanding read. -/
def trk : Tracker := { fn := 1, gen := 0, work := .desc 9, addr := 4096, len := 64 }
theorem wit_Trackers : cplTracker { dev with trackers := [(0, trk)] } 1 0 = some trk ∧ cplTracker dev 1 0 = none ∧ trk.dropped = false ∧
    mapFind { dev with trackers := [(0, trk)] }.trackers 0 = some trk := by decide
theorem wit_Walks : xStop dev 0 0 = 0 ∧ mapFind dev.xcache (xStop dev 0 0 * 2 ^ 32 + 4096 / 65536) = none ∧ dev.xseen = [] ∧ fld dev (aPART_XLAT 0) 0 0 = 0 ∧
    (mapFind { dev with xcache := [(0, { oa := 0, host := false, w := true, lvl := 1 })] }.xcache (xStop dev 0 0 * 2 ^ 32 + 4096 / 65536)).isSome = true ∧
    fld (hostDev off) (aPART_XLAT 0) 0 0 = 1 ∧ xDeep (hostDev off) 0 4096 (fld (hostDev off) (aPART_XLAT 0) 51 12 * 4096) = (0, 4096) ∧
    (match xWalk (hostDev off) 0 4096 4 4096 0 with | .ok e => decide (e.oa = 2 ^ 40 + 4096) | .error _ => false) = true ∧
    (match xWalk (hostDev off) 0 (2 ^ 39) 4 4096 0 with | .ok _ => false | .error e => decide (e = (xNOT_VALID, 0))) = true ∧
    xDeep (hostDev off) 0 (2 ^ 39) (fld (hostDev off) (aPART_XLAT 0) 51 12 * 4096) = (0, 4096) := by decide +kernel
theorem wit_Invalidate : strobeOf { dev with strobes := [(64 * aPART_XLAT_INV 0 + 61, 1)] } (aPART_XLAT_INV 0) 61 = some 1 ∧
    fld (regSet dev (aPART_XLAT_INV 0) (2 ^ 62)) (aPART_XLAT_INV 0) 62 62 = 1 := by decide

/-! ### Partitions and custody -/

/-- FORM of partition 1 on slices `m`, written by management, in lifecycle state `lc`. -/
def formDev (m lc : Nat) : State := { regSet (regSet (regSet dev (aPART_CFG 1) m) (aHBM_STATUS 2) 0x400) aSYN_LC lc with strobes := [(64 * aPART_CFG 1 + 14, 1)] }
theorem wit_Form : ∀ x ∈ [(4, 1, 0), (1, 1, 1), (4, 0, 16)], strobeOf (formDev x.1 x.2.1) (aPART_CFG 1) 14 = some 1 ∧ pwrState (formDev x.1 x.2.1) = 0 ∧
    formErr (strobeClr (formDev x.1 x.2.1) (aPART_CFG 1) 14) 1 (fld (formDev x.1 x.2.1) (aPART_CFG 1) 11 0) false false = x.2.2 := by decide
theorem wit_Active : partState (regSet dev (aPART_CFG 1) 0x1004) 1 = 1 ∧ mapGet 0 dev.cust.formAt 1 + 400000 ≤ dev.tense.toNat ∧
    ({ dev with tense := 399999 } : State).tense.toNat < mapGet 0 dev.cust.formAt 1 + 400000 ∧
    strobeOf { dev with strobes := [(64 * aPART_CFG 0 + 15, 1)] } (aPART_CFG 0) 15 = some 1 ∧
    partState (regSet dev (aPART_CFG 0) 0x3003) 0 = 3 ∧ dev.trackers.any (fun x => x.2.fn == vfOf 0) = false ∧
    ({ dev with trackers := [(0, trk)] } : State).trackers.any (fun x => x.2.fn == vfOf 0) = true := by decide

/-! ### Custody: a signed request and a signed image, signed by hand outside the model with the P-384 key 1234567h -/

/-- The hash of the key. -/
def keyHash : List Byte := natLe 48 0x7002639514331F46F45B3C35292C795006D9194E7A2A82AB903616C06A675A5C049D84AB49F9B9CA500ECAEF09B33849
/-- A request that takes a BLANK device with nonce ABCDEFh and serial number 99h to OWNED. -/
def lcGood : List Byte := natLe 272 0xAECAB20A52F8DAFA6E5DBEC4EC20A8A2E6CE4D87B897DFD846FA90973B984EB23C2D54062EE740FA2099A3E8AFA72DAF967024EFA03217B4B622E3D45B0A08DC70E515B0FC187FEADCA24922B3E0F458A1C73A345F1BC8C8BDD13F9B364888104FE7F6BBCCA6F363ED48394579ED47BB140FDB71A561D099940BB05CEB3636EE0D9A394B03D83815240DD84C4421ACD82B3003436FFD5058B43F4ED8E4F20075B95DEDC336CD4EA4E8FB08460F24666C1F19E51B07EFC1704C796011DBE1E97A449359A630367900C337A3E4EBDD2596443107AFD0C18009D4EE167C93BFB2CFB5352BCCC304D7CA044A17F0C9F9A2D6000000000000000000000000000000990000000000ABCDEF0000000000000001
/-- The header of an image whose body is 64 KiB of zeros. -/
def fwHead : List Byte := natLe 512 0xFE84E106396B696AE1A3B4C2EBD0A0F64EDBB746E4FDE01DF11D1CB52FADFDDE1A9613C3DA5893C973BBE625EC39E7C95EFE707B14C13C1959C022F0F9F4C608E5B1C11A7E0BE72F912212B7B84FA426C6EC0E7D6800EBE78814F4A99C466834FE7F6BBCCA6F363ED48394579ED47BB140FDB71A561D099940BB05CEB3636EE0D9A394B03D83815240DD84C4421ACD82B3003436FFD5058B43F4ED8E4F20075B95DEDC336CD4EA4E8FB08460F24666C1F19E51B07EFC1704C796011DBE1E97A00000000000000000000000000000000000000000000000000000000000000000000000000000000000000000000000000000000000000000000000000000000000000000000000000000000000000000000000000000000000000000000000000000000000000000000000000000000000000000000000000000000000000000000000000000000000000000000000000000000000000000000000000000000000000000000000000000000000000000000000000000000C2FA604FC8E3286B6DCEBEFA0A4A5AF147E9A783D13764A27416FAA86F33B5B7F2472A125E164F2E958A114369A4FC6900010000000000090000000302000001474D4957464E5848
/-- A device whose fuses hold that key as the provisioning key, and as the firmware key of slot 0. -/
def cuDev : State := { regSet (regSet dev aSYN_LC_NONCE 0xABCDEF) aSYN_LC_CMD 2 with
  nvm := { dev.nvm with serial := 0x99, prov := keyHash, fwKeys := [keyHash] } }
theorem wit_LifecycleSubmit : strobeOf { dev with strobes := [(64 * aSYN_LC_CMD, 4)] } aSYN_LC_CMD 0 = some 4 ∧ fld dev aSYN_LC_CMD 1 1 = 0 := by decide
theorem wit_LifecycleDecision : ∀ x ∈ [(lcGood, 0), (lcGood.set 40 0, 1)], fld { cuDev with lcWork := x.1 } aSYN_LC_CMD 1 1 = 1 ∧ pwrState { cuDev with lcWork := x.1 } = 0 ∧
    lcDecide { cuDev with lcWork := x.1 } x.1 = x.2 := by decide +kernel
theorem beNat_zeros : ∀ n, beNat (List.replicate n 0#8) = 0
  | 0 => rfl
  | n + 1 => by have := beNat_zeros n; simp only [beNat] at this ⊢; simpa [List.replicate_succ] using this
theorem shaWords_zeros (n : Nat) (t : List Byte) : ∀ (m q : Nat), n * m ≤ q → shaWords n m (List.replicate q 0#8 ++ t) = List.replicate m 0
  | 0, _, _ => rfl
  | m + 1, q, h => by
    have h1 : n ≤ q := by rw [Nat.mul_succ] at h; omega
    rw [shaWords, List.take_append_of_le_length (by simpa using h1), List.drop_append_of_le_length (by simpa using h1), List.take_replicate,
      List.drop_replicate, beNat_zeros, shaWords_zeros n t m (q - n) (by rw [Nat.mul_succ] at h; omega), List.replicate_succ]
/-- Some blocks of zeros. -/
def zeroBlocks (p : ShaP) : Nat → List Nat → List Nat
  | 0, h => h
  | k + 1, h => zeroBlocks p k (shaBlock p h (List.replicate 16 0))
theorem shaBlocks_zeros (p : ShaP) (n j : Nat) (t : List Byte) : ∀ (k : Nat) (h : List Nat),
    shaBlocks p n (k + j) (List.replicate (16 * n * k) 0#8 ++ t) h = shaBlocks p n j t (zeroBlocks p k h)
  | 0, h => by simp [zeroBlocks]
  | k + 1, h => by
    rw [show k + 1 + j = (k + j) + 1 by omega, shaBlocks, shaWords_zeros n t 16 _ (by have : 16 * n * (k + 1) = 16 * n * k + 16 * n := Nat.mul_succ _ _; omega),
      List.drop_append_of_le_length (by simp [Nat.mul_succ]), List.drop_replicate, Nat.mul_succ, Nat.add_sub_cancel, shaBlocks_zeros p n j t k, zeroBlocks]
/-- SHA-384 of 64 KiB of zeros. -/
theorem sha_body : sha384 (List.replicate 65536 0#8) = slice fwHead 0x18 48 := by
  have e : shaPad 8 (List.replicate 65536 0#8) = List.replicate (16 * 8 * 512) 0#8 ++ ([0x80] ++ List.replicate 111 0 ++ natBe 16 524288) := by
    simp only [shaPad, List.length_replicate, List.append_assoc]
  have l : (List.replicate (16 * 8 * 512) 0#8 ++ ([0x80] ++ List.replicate 111 0 ++ natBe 16 524288)).length / 128 = 512 + 1 := by
    rw [List.length_append, List.length_replicate, show ([0x80] ++ List.replicate 111 0 ++ natBe 16 524288 : List Byte).length = 128 by decide +kernel]
  rw [sha384, e, l, shaBlocks_zeros]; decide +kernel
theorem fwHead_length : fwHead.length = 512 := by decide +kernel
/-- An image. -/
def fwGood : List Byte := fwHead ++ List.replicate 65536 0#8
theorem fwGood_ok : fwCheck cuDev fwGood = true := by
  have l : fwGood.length = 512 + 65536 := by rw [fwGood, List.length_append, List.length_replicate, fwHead_length]
  have b : sha384 (fwGood.drop 512) = slice fwHead 0x18 48 := by
    rw [fwGood, List.drop_append_of_le_length (by decide +kernel), show fwHead.drop 512 = [] by decide +kernel, List.nil_append, sha_body]
  unfold fwCheck; dsimp only; rw [l, b]; decide +kernel
theorem mapGet_above (m : Map Byte) (k : Nat) (h : ∀ x ∈ m, x.1 < k) : mapGet 0#8 m k = 0#8 := by
  induction m with
  | nil => rfl
  | cons x r ih => rw [mapGet, if_neg (by have := h x (by simp); omega), ih fun y hy => h y (by simp [hy])]
theorem map_zip (l : List Byte) : ∀ a, (List.range' a l.length).map (mapGet 0#8 ((List.range' a l.length).zip l)) = l := by
  induction l with
  | nil => exact fun _ => rfl
  | cons b r ih =>
    intro a
    rw [List.length_cons, List.range'_succ, List.zip_cons_cons, List.map_cons, mapGet, if_pos rfl]
    refine congrArg (b :: ·) (Eq.trans (List.map_congr_left fun i hi => ?_) (ih (a + 1)))
    rw [mapGet, if_neg (by have := (List.mem_range'_1.1 hi).1; omega)]
/-- The staging area that holds the image: its header's bytes, by offset. -/
def fwArea : Map Byte := (List.range' 0 fwHead.length).zip fwHead
/-- A device that stages it, with a LEN of its size and GO. -/
def stageDev (area : Map Byte) : State := { regSet (regSet cuDev aSYN_FW_LEN (66048 + 2 ^ 32)) aSYN_FW_STATUS 1 with fwBuf := area }
theorem stage_image : (List.range 66048).map (fun i => mapGet 0#8 fwArea i) = fwGood := by
  have h : ∀ i, 512 ≤ i → mapGet 0#8 fwArea i = 0#8 := fun i hi => mapGet_above _ _ fun x hx => by
    have := (List.mem_range'_1.1 (List.of_mem_zip (show (x.1, x.2) ∈ (List.range' 0 fwHead.length).zip fwHead from hx)).1).2; rw [fwHead_length] at this; omega
  rw [show 66048 = 512 + 65536 from rfl, List.range_add, List.map_append, fwGood, show (List.range 512).map (fun i => mapGet 0#8 fwArea i) = fwHead by
    have := map_zip fwHead 0; rw [fwHead_length] at this; rw [List.range_eq_range', fwArea, fwHead_length]; exact this]
  refine congrArg (fwHead ++ ·) ?_
  rw [List.map_map, List.eq_replicate_iff]
  refine ⟨by rw [List.length_map, List.length_range], fun b hb => ?_⟩
  obtain ⟨i, -, rfl⟩ := List.mem_map.1 hb
  rw [Function.comp_apply]
  exact h (512 + i) (Nat.le_add_right 512 i)
theorem stage_buf (a : Map Byte) : (stageDev a).fwBuf = a := rfl
theorem wit_StagingPasses : ∃ b, fld (stageDev fwArea) aSYN_FW_STATUS 2 0 = 1 ∧ fld (stageDev fwArea) aSYN_FW_LEN 31 0 = 66048 ∧
    bit (regGet (stageDev fwArea) aSYN_FW_LEN) 32 = true ∧ b = (List.range 66048).map (fun i => mapGet 0#8 (stageDev fwArea).fwBuf i) ∧
    fwCheck (stageDev fwArea) b = true :=
  ⟨_, by decide, by decide, by decide, rfl, by
    rw [stage_buf, stage_image]; exact fwGood_ok⟩
theorem wit_StagingFails : fwCheck (regSet (stageDev []) aSYN_FW_LEN (512 + 2 ^ 32)) ((List.range 512).map (fun i => mapGet 0#8 (stageDev []).fwBuf i)) = false ∧
    fld (regSet (stageDev []) aSYN_FW_LEN (512 + 2 ^ 32)) aSYN_FW_STATUS 2 0 = 1 ∧
    fld (regSet (stageDev []) aSYN_FW_LEN (512 + 2 ^ 32)) aSYN_FW_LEN 31 0 = 512 := by decide +kernel
theorem wit_FirmwareStrobes : strobeOf { dev with strobes := [(64 * aSYN_FW_STAGE, 4)] } aSYN_FW_STAGE 0 = some 4 ∧ fld dev aSYN_FW_STATUS 2 0 ≠ 1 ∧
    fld (stageDev []) aSYN_FW_STATUS 2 0 = 1 ∧ strobeOf { dev with strobes := [(64 * aSYN_FW_STATUS + 3, 4)] } aSYN_FW_STATUS 3 = some 4 := by decide

/-! ### Power and Ellipsis -/

theorem atTime_past : atTime dev 0 = dev ∧ atTime dev 1000000 = dev := by decide
theorem wit_Periodic : ∀ k ∈ [(0, 100000), (1, 10000), (2, 1000000), (3, 10000), (103, 20)], (periodic dev k.1 k.2).isSome = true ∧
    (periodic { dev with pwr := { lastAt := [(k.1, 1000001 - k.2)] } } k.1 k.2).isNone = true ∧
    (periodic { dev with pwr := { lastAt := [(k.1, 1000000 - k.2)] } } k.1 k.2).isSome = true := by decide
theorem wit_Junction : ∀ t ∈ [99, 100, 104, 105, 114, 115], ∀ i ∈ [0, 13], ((sensorCheck ((sensorSet i).map fun n => (List.replicate 52 (t : Int)).getD n 0)).filter
    fun x => !x.2).map (·.1) ≠ [] := by decide +kernel
theorem wit_RailSample : domOn dev 3 = true ∧ (monitorPick 700 684 none).2 = true ∧ (monitorPick 700 685 none).2 = false ∧ (monitorPick 700 700 (some 716)).2 = true ∧
    3 ∈ ({ dev with pwr := { seen := [3] } } : State).pwr.seen ∧ dev.pwr.dip = none := by decide
theorem wit_DipEnd : ∃ e, ({ dev with pwr := { dip := some { start := 5, doms := [(3, some 999000)], minV := 500, minDom := 3 } } } : State).pwr.dip = some e ∧
    (e.doms.all fun d => match d.2 with | some t => decide (t + 1000 ≤ dev.tense.toNat) | none => false) = true := ⟨_, rfl, by decide⟩
theorem wit_DipRaise : ∀ u ∈ [1000000, 1000001], mapFind { dev with pwr := { raise := [(40, u)] } }.pwr.raise 40 = some u := by decide
/-- A device with a provisional record of kind 2 of slice 11, whose class rose 5 s ago. -/
def calDev : State := { regSet dev (aPWR_CAL 11) 2 with tense := 5000001000, nvm := { dev.nvm with cal := [(46, { cls := 1, st := 1 })] }
                                                        pwr := { clsAt := [(11, 1000)] } }
theorem wit_Revalidation : calRec calDev 11 2 = some { cls := 1, st := 1 } ∧ 1 < loadClass calDev 11 ∧
    mapGet 0 calDev.pwr.clsAt 11 + 5000000000 ≤ calDev.tense.toNat ∧ calDev.pwr.dip = none := by decide
theorem wit_Sleep : strobeOf { dev with strobes := [(64 * aPWR_CTL, 4)] } aPWR_CTL 0 = some 4 ∧ sleepRefused dev = false ∧
    sleepRefused { dev with acts := [{ kind := 3, slice := 0 }] } = true ∧ fld (regSet dev aPWR_CTL 0x10004) aPWR_CTL 2 2 = 1 ∧ workRuns dev = false ∧
    dev.pwr.workAt + 1000000 * fld (regSet dev aPWR_CTL 0x10004) aPWR_CTL 31 16 ≤ dev.tense.toNat ∧ devReady dev = true ∧ pwrState dev = 0 := by decide
theorem wit_Ellipsis : (∀ k, k < 12 → runningOf { regSet dev aPWR_STATUS 1 with runs := [] } k = none) ∧ pwrState (regSet dev aPWR_STATUS 1) = 1 ∧
    descSettled { part := 0, sq := 2, count := 0, bytes := natLe 64 0xA } = true ∧ pwrState { regSet dev aPWR_STATUS 2 with wakeWant := some 5 } = 2 ∧
    pwrState (regSet dev aPWR_STATUS 3) = 3 ∧ 600001 + 400000 = 1000001 ∧ 600000 + 400000 ≤ dev.tense.toNat := by decide

/-! ### Maintenance and reports -/

/-- A MAINT descriptor on slice `sl`, with a RESULT at 8192 and its parameters read. -/
def mt (fm kind sl : Nat) : Desc := { de dtMAINT fm ((kind + sl * 256) * 256 ^ 0x10 + 4096 * 256 ^ 0x18 + 8192 * 256 ^ 0x20) with aux := List.replicate 16 0 }
theorem wit_MaintStarts : ∀ kind ∈ [maSTRESS, maCALIBRATE, maSTACK_TEST, maSCRUB, maUNIT_TEST], ∀ sl ∈ [1, 2],
    let z := hostDev (mt 0 kind sl)
    (z.acts.find? fun a => a.kind == kind && a.slice == sl && !a.out) = none ∧ maintDesc z 9 0 kind = some (mt 0 kind sl) ∧ dNat (mt 0 kind sl) 0x11 1 = sl ∧
    partSlices z 0 = [0, 1] ∧ arSpad (dNat (mt 0 kind sl) 0x18 8) = false ∧ arSpad (dNat (mt 0 kind sl) 0x20 8) = false ∧ (auxBytes (mt 0 kind sl)).length = 16 ∧
    (areaCheck (updDesc z 9 (fun y => { y with st := .running })) 0 48 (dNat (mt 0 kind sl) 0x20 8) 64 0 true).isNone = true ∧
    bNat (auxBytes (mt 0 kind sl)) 2 1 < 18 ∧ tokenOk z kind 1 0 = true ∧
    tokenOk { z with acts := [{ kind := 1, slice := 1, out := true }] } kind 1 0 = false ∧
    (({ z with acts := [{ kind := 1, slice := 1, out := true }] } : State).acts.find? fun a => a.kind == kind && a.slice == sl && !a.out) = none := by decide +kernel
/-- A device with an activity of a kind on slice 0, in evacuation. -/
def actDev (kind : Nat) : State := { dev with acts := [{ kind := kind, slice := 0 }] }
theorem wit_Evacuation : ∀ kind ∈ [maSTRESS, maCALIBRATE, maSTACK_TEST], ((actDev kind).acts.find? fun a => a.kind == kind && a.slice == 0 && !a.out) = some { kind := kind, slice := 0 } ∧
    (match evacuate { tileDev [] with acts := (actDev kind).acts } 0 with | .waits => true | _ => false) = true ∧
    (match evacuate (actDev kind) 0 with | .done y => decide (({ kind := kind, slice := 0 } : Act) ∈ y.acts) | _ => false) = true := by decide +kernel
theorem wit_MaintEnd : ∀ sl ∈ [0, 2], dType (mt 1 3 sl) = dtMAINT ∧ dForm (mt 1 3 sl) = 1 ∧ dNat (mt 1 3 sl) 0x11 1 = sl ∧ (mt 1 3 sl).st = .accepted ∧
    (({ deDev (mt 1 3 sl) with acts := [{ kind := 3, slice := sl }] } : State).acts.find? fun a => a.kind == dNat (mt 1 3 sl) 0x10 1 && a.slice == dNat (mt 1 3 sl) 0x11 1) =
      some { kind := 3, slice := sl } ∧ (deDev (mt 1 3 sl)).acts = [] := by decide +kernel
theorem wit_ActivityEnd : ((actDev 3).acts.find? fun a => a.kind == 3 && a.slice == 0 && (a.out || a.kind == 3)) = some { kind := 3, slice := 0 } ∧
    ((actDev 1).acts.find? fun a => a.kind == 1 && a.slice == 0 && (a.out || a.kind == 3)) = none ∧
    (({ dev with acts := [{ kind := 1, slice := 0, out := true }] } : State).acts.find? fun a => a.kind == 1 && a.slice == 0 && (a.out || a.kind == 3)) =
      some { kind := 1, slice := 0, out := true } ∧ ∃ r, r ∈ [3, 4] ∧ 4 ≤ r := ⟨by decide, by decide, by decide, 4, by decide⟩
theorem wit_QuickTest : 32 * 0 + 17 ∈ ({ dev with quickQ := [17] } : State).quickQ ∧ tokenOk { dev with quickQ := [17] } maUNIT_TEST 0 17 = true ∧
    unitBusy { dev with quickQ := [17] } 0 17 = false ∧ computeOn { dev with quickQ := [17] } 0 = true := by decide
theorem wit_ScheduledStress : stressDue dev 11 = true ∧ tokenOk dev maSTRESS 11 0xFF = true ∧ stressDue dev 0 = false := by decide
theorem test_stress_bounds : let r := [2, 2, 2, 2, 2, 2, 2].foldl (stressTest 6) { st := 0, trim := 6, off := 0 }
    r.trim = 9 ∧ r.off = 2 := by decide
theorem wit_LatentScrub : ({ dev with tense := 60000000000 } : State).field.scrubAt + 60000000000 ≤ ({ dev with tense := 60000000000 } : State).tense.toNat ∧
    dev.tense.toNat < dev.field.scrubAt + 60000000000 ∧ devReady dev = true ∧ scratchOn dev 11 = true := by decide
/-- A tile program that waits to be placed. -/
def waiting : Prog := { tp with comp := none }
theorem wit_NoUnit : progOf { dev with progs := [(0, waiting)] } 0 = some waiting ∧ waiting.ended = none ∧ waiting.unit = none ∧ waiting.issue.mtarget = none ∧
    kindGone { dev with progs := [(0, waiting)] } 0 .tile = false ∧
    kindGone (regSet (regSet { dev with progs := [(0, waiting)] } (aPWR_DOM 0) 0) (aPWR_DOM 1) 0) 0 .tile = true := by decide
theorem wit_Resend : dev.field.resentAt + 10000000 ≤ ({ dev with tense := 10000000 } : State).tense.toNat ∧ dev.tense.toNat < dev.field.resentAt + 10000000 ∧
    fld dev aRAS_CTL 0 0 = 1 ∧ fld (regSet dev aRAS_CTL 0) aRAS_CTL 0 0 = 0 := by decide
theorem wit_Corrected : ∀ u ∈ [1000000, 1000001], mapFind { dev with corrected := [(65536, 3)], corrAt := [(65536, u)] }.corrAt 65536 = some u ∧
    mapFind { dev with corrected := [(65536, 3)], corrAt := [(65536, u)] }.corrected 65536 = some 3 ∧ mapFind dev.corrAt 65536 = none ∧
    (u = 1000000 → u + 1000000000 ≤ ({ dev with tense := 1001000000 } : State).tense.toNat) ∧ dev.tense.toNat < u + 1000000000 ∧ dev.reports.length < 960 := by decide

/-! ### Device pairs -/

/-- A device of a pair in mode `mode` (1 MIRROR, 2 COMPARE), as the primary or not, in state `st`, on both mirror ports, for the context of key 7. -/
def pairDev (mode role st : Nat) (q : Port) : State :=
  regSet (regSet (regSet { dev with ports := [(12, q)] } (aYLV_PORT_STATUS 12) 2) (aYLV_KEYFILT 12 3) 0x80000007) aRAS_PAIR
    (1 + 2 * mode + 8 * role + 0x30 + 7 * 65536) |> fun s => regSet s aRAS_PAIR_STATUS st
/-- A pair message of step 4, with a compare word of 1 (R608). -/
def pairBytes (msg : Nat) : List Byte :=
  let body := natLe 128 (msg + 4 * 256 ^ 8 + 256 ^ 16)
  hd (0x20 + 7 * 256 ^ 6 + 5 * 256 ^ 13 + 128 * 256 ^ 16 + (2 ^ 63 + 0xFFFFFF80) * 256 ^ 24) ++ body ++ natLe 60 0 ++ natLe 4 (crc32 (body ++ natLe 60 0))
/-- The packet that it is. -/
def pairPkt (msg : Nat) : Pkt := (parseData (pairBytes msg)).1
/-- The pair's context with a step table of one region of 4096 bytes, and a commit of step 4 that waits for the partner. -/
def tabDev (mode role st : Nat) (q : Pair) : State := { pairDev mode role st {} with
  ctxs := [(0, { (ctxOf dev 0) with table := some Tests.st, views := [⟨false, 0, 0, 4096, 0, false, 0, false⟩] })], pair := q, descs := [(9, cm 4 .running 3)] }
/-- It, once a message has been taken in. -/
def tabIn (m mode role st : Nat) (q : Pair) : State := takeIn (tabDev mode role st q) 12 (pairPkt m)
theorem pairPkt_ok : ∀ m ∈ [1, 2, 3, 4, 5, 6], isPairMsg 12 m (pairPkt m) = true ∧ pmStep (pairPkt m) = 4 ∧ ((pairPkt m).payload.drop 16).take 32 = natLe 32 1 := by
  decide +kernel
theorem pair_beats : ∀ m ∈ [1, 2, 3, 4, 5, 6], headOk (pairBytes m) = true ∧ (parseData (pairBytes m)).2 = 0 ∧ 0x10 ≤ pkType (pairPkt m) ∧
    bit (pkNat (pairPkt m) 4 2) 15 = false ∧ pkNat (pairPkt m) 2 2 = 0 ∧ pkReserved (pairPkt m) = false ∧ pkCkt (pairPkt m) = false ∧
    pkKey (pairPkt m) = 7 ∧ leNat ((pairBytes m).take 1) = ptDATA := by decide +kernel
theorem pair_port : ∀ mode ∈ [1, 2], ∀ role ∈ [0, 1], ∀ st ∈ [1, 2, 4], portUp (tabDev mode role st {}) 12 = true ∧ (portOf (tabDev mode role st {}) 12).deaf = false ∧
    (portOf (tabDev mode role st {}) 12).exp = 0 ∧ keyFiltered (tabDev mode role st {}) 12 7 = true := by decide +kernel
theorem wit_PairArrives (m mode role st : Nat) (q : Pair) (hm : m ∈ [1, 2, 3, 4, 5, 6]) (hd : mode ∈ [1, 2]) (hr : role ∈ [0, 1]) (hs : st ∈ [1, 2, 4]) :
    arrives (tabDev mode role st q) 12 (pairBytes m) (pairPkt m) (tabIn m mode role st q) := by
  obtain ⟨h1, h2, h3, h4, h5, h6, h7, h8, h9⟩ := pair_beats m hm
  obtain ⟨p1, p2, p3, p4⟩ := pair_port mode hd role hr st hs
  exact .inr ⟨by decide, p1, p2, h1, fun _ => ⟨rfl, h2⟩, fun h => absurd h9 h, h3, h4, by
    rw [h5, show (portOf (tabDev mode role st q) 12).exp = 0 from p3], h6, h7, by rw [h8]; exact p4, .inl (by decide), rfl⟩
theorem wit_PairingEnable : ∀ v ∈ [1, 2], strobeOf { pairDev 1 0 0 {} with strobes := [(64 * aRAS_PAIR, v)] } aRAS_PAIR 0 = some v ∧
    pairMode (strobeClr { pairDev 1 0 0 {} with strobes := [(64 * aRAS_PAIR, v)] } aRAS_PAIR 0) = 1 ∧ (pairDev 1 0 0 {}).pair.seen = none ∧
    pairMode (strobeClr { pairDev 0 0 0 {} with strobes := [(64 * aRAS_PAIR, v)] } aRAS_PAIR 0) = 0 := by decide
theorem wit_PairLayout : ∀ mode ∈ [1, 2], pairState (tabIn 1 mode 1 1 {}) = 1 ∧ pairState (tabIn 1 mode 1 2 {}) = 2 ∧ pairMode (tabIn 1 mode 1 1 {}) = mode ∧
    layoutOk (tabIn 1 mode 1 1 {}) [1, 4096] = true ∧ layoutOk (tabIn 1 mode 1 1 {}) [1, 8192] = false := by decide +kernel
theorem wit_ViewCopy : ∀ l ∈ [[1, 4096], [1, 8192]], pairCtx (tabDev 1 0 1 { seen := some l }) = some 0 ∧ (tabDev 1 0 1 { seen := some l }).pair.seen = some l ∧
    fld (tabDev 1 0 1 { seen := some l }) aRAS_PAIR 0 0 = 1 ∧ pairMode (tabDev 1 0 1 { seen := some l }) = 1 ∧ pairState (tabDev 1 0 1 { seen := some l }) = 1 ∧
    (layoutOk (tabDev 1 0 1 { seen := some l }) l = (l == [1, 4096])) := by decide
theorem wit_PairCommit : pairHere (tabIn 2 1 1 2 {}) 12 (pairPkt 2) = true ∧ mirrorPartner (tabIn 2 1 1 2 {}) = true ∧ pairCtx (tabIn 2 1 1 2 {}) = some 0 ∧
    (ctxOf (tabIn 2 1 1 2 {}) 0).table.isSome = true := by decide +kernel
theorem wit_PairAck : pairHere (tabIn 3 1 0 2 {}) 12 (pairPkt 3) = true ∧ pairMode (tabIn 3 1 0 2 {}) = 1 ∧ pairPrimary (tabIn 3 1 0 2 {}) = true ∧
    pairState (tabIn 3 1 0 2 {}) = 2 ∧ (tabIn 3 1 0 2 {}).descs = [(9, cm 4 .running 3)] ∧ dType (cm 4 .running 3) = dtSTEP ∧ dForm (cm 4 .running 3) = 1 ∧
    cmStep (cm 4 .running 3) = pmStep (pairPkt 3) ∧ dCtx (tabIn 3 1 0 2 {}) (cm 4 .running 3) = pairCtx (tabIn 3 1 0 2 {}) := by decide +kernel
theorem wit_PairCompare : ∀ own ∈ [[], [(4, natLe 32 1)], [(4, natLe 32 2)]], pairHere (tabIn 4 2 0 2 { own := own }) 12 (pairPkt 4) = true ∧
    pairMode (tabIn 4 2 0 2 { own := own }) = 2 ∧ pairState (tabIn 4 2 0 2 { own := own }) = 2 ∧ (tabIn 4 2 0 2 { own := own }).pair.got = [] ∧
    (tabIn 4 2 0 2 { own := own }).pair.own = own := by decide +kernel
theorem wit_PairEnds : pairHere (tabIn 5 1 1 2 {}) 12 (pairPkt 5) = true ∧ mayPromote (tabIn 5 1 1 2 {}) = true ∧ pairHere (tabIn 6 1 0 1 {}) 12 (pairPkt 6) = true ∧
    pairState (tabIn 6 1 0 1 {}) ≠ 4 := by decide +kernel
theorem wit_PartnerLost : ∀ st ∈ [1, 2], fld (tabDev 1 1 st {}) aRAS_PAIR 0 0 = 1 ∧ pairState (tabDev 1 1 st {}) = st ∧ pairPorts (tabDev 1 1 st {}) = [12, 13] ∧
    (∀ p ∈ [12, 13], (portOf (tabDev 1 1 st {}) p).heard + 1000000 ≤ (tabDev 1 1 st {}).tense.toNat) := by decide
theorem wit_Promote : strobeOf { tabDev 1 1 2 {} with strobes := [(64 * aRAS_PAIR + 7, 4)] } aRAS_PAIR 7 = some 4 ∧
    mayPromote { tabDev 1 1 2 {} with strobes := [(64 * aRAS_PAIR + 7, 4)] } = true := by decide

/-! ### Resets, the boot, and the setup space -/

theorem wit_ColdResets : dev.pins.coldLow = false ∧ strobeOf { dev with strobes := [(64 * aSYN_RESET + 8, 4)] } aSYN_RESET 8 = some 4 ∧
    100 ≤ mapGet 0 ({ dev with pwr := { low := [(40, 100)] } } : State).pwr.low 40 ∧ mapGet 0 ({ dev with pwr := { low := [(40, 99)] } } : State).pwr.low 40 < 100 ∧
    State.reset.pins.coldLow = true ∧ dev.pins.perst = false ∧ dev.pins.reset = false ∧ State.reset.pins.reset = true := by decide
/-- A device at a row of the boot, with these images. -/
def bootDev (n : Nat) (l : List (List Byte)) : State := { regSet cuDev aSYN_BOOT n with nvm := { cuDev.nvm with banks := l } }
theorem bootDev_check (n : Nat) (l : List (List Byte)) (b : List Byte) : fwCheck (bootDev n l) b = fwCheck cuDev b := rfl
theorem wit_BootRows : ∀ n ∈ [1, 2, 3, 4, 5, 6, 7], bootState (bootDev n []) = n ∧ (bootDev n []).pins.reset = false ∧ (bootDev n []).cust.wiping = [] := by decide
theorem wit_BootRom : fwCheck (bootDev 2 [[], fwGood]) ([[], fwGood].getD 1 []) = true ∧ bootState (bootDev 2 [[], fwGood]) = 2 ∧
    fwCheck (bootDev 2 [[], []]) ([[], []].getD 0 []) = false ∧ fwCheck (bootDev 2 [[], []]) ([[], []].getD 1 []) = false :=
  ⟨(bootDev_check _ _ _).trans fwGood_ok, rfl, by decide +kernel, by decide +kernel⟩
theorem wit_BootWipe : ({ bootDev 7 [] with cust := { wiping := [3] } } : State).cust.wiping ≠ [] ∧ bootState (bootDev 7 []) = 7 := by decide
theorem wit_Paths : devReady dev = true ∧ devReady (regSet dev aSYN_BOOT 7) = false ∧ aSYN_BOOT / 8 * 8 = aSYN_BOOT ∧ aRAS_PAIR % 8 = 0 ∧ (aRAS_PAIR + 4) % 4 = 0 ∧
    (aRAS_PAIR + 4) % 8 ≠ 0 ∧ aRAS_PAIR / 8 * 8 ≠ aSYN_BOOT ∧ aRAS_PAIR / 8 * 8 ≠ aSYN_RST_CAUSE ∧ lcState dev = 0 ∧ (∀ l ∈ [1, 2, 3], lcState (regSet dev aSYN_LC l) = l) ∧
    bit (2 ^ 88) 88 = true ∧ bits (2 ^ 64 * 0x40 + 2 ^ 89) 87 64 = 0x40 := by decide
theorem wit_SetupOrigins : fnOpen dev 0 = true ∧ fnOpen dev 1 = true ∧ fnOffset 0 aRAS_PAIR = some aRAS_PAIR ∧ (fnOffset 1 0).isSome = true ∧ barAligned aRAS_PAIR 8 = true := by decide
theorem wit_Hold : holdRefuses (regSet (regSet dev aAUD_CTL 3) aAUD_STATUS (8192 * 2 ^ 32)) aRAS_PAIR 1 = true ∧ holdRefuses dev aRAS_PAIR 1 = false := by decide
theorem wit_SetupFinds : regFind (0x700 / 8 * 8) = none ∧ (match regFind (aRAS_PAIR_STATUS / 8 * 8) with
    | some (d, _, _) => !d.writers.any (writerIs dev orgPF) && !(d.width == 4 && aRAS_PAIR_STATUS % 8 == 4) && d.width == 8 | none => false) = true := by decide +kernel
theorem wit_Circuits : cktOk dev 0 0x70003 = true ∧ cktOk dev 0 0x00003 = false ∧ cktMine dev 0 0 0x70003 = true := by decide
theorem wit_AudAck : let s := regSet dev aAUD_STATUS (10 + 3 * 2 ^ 32)
    audPending s = 3 ∧ audNext s = 10 ∧ (audNext s + 2 ^ 32 - 1 - 9) % 2 ^ 32 = 0 ∧ (audNext s + 2 ^ 32 - 1 - 7) % 2 ^ 32 = 2 ∧
    ¬(audNext s + 2 ^ 32 - 1 - 6) % 2 ^ 32 < audPending s := by decide
theorem test_aud_ack : audPending (audAck (regSet dev aAUD_STATUS (10 + 3 * 2 ^ 32)) 7) = 2 ∧ audPending (audAck (regSet dev aAUD_STATUS (10 + 3 * 2 ^ 32)) 6) = 3 := by decide
theorem wit_Counters : fld (satFld dev aAUD_STATUS 63 48 70000) aAUD_STATUS 63 48 = 65535 := by decide
/-- A WAIT for Conjunction 5 to reach 2^31 past its count, or that less one. -/
def wq (u : Nat) : Desc := { de 0x9 0 (5 * 256 ^ 0x10 + u * 256 ^ 0x14) with st := .running }
theorem wit_WaitTargets : conjKeyOk dev 5 7 = true ∧ descRunning (deDev (wq 1)) 9 dtWAIT 0 = some (wq 1) ∧ dNat (wq 1) 0x10 2 % 2 ^ 14 = 5 ∧
    waitOver (conjOf (deDev (wq 1)) 5) (BitVec.ofNat 32 (dNat (wq 1) 0x14 4)) = false ∧ waitOver (conjOf (deDev (wq 0)) 5) (BitVec.ofNat 32 (dNat (wq 0) 0x14 4)) = true ∧
    waitOver (conjOf dev 5) 0x80000001#32 = true ∧ waitOver (conjOf dev 5) 0x80000000#32 = false := by decide +kernel
end Sys2Proof.Tests
end

section
/-! Signals and waits of Conjunctions (R306 to R308, R532): what a signal does to a Conjunction, what reaching a target means, and when
a WAIT descriptor ends. -/

namespace Sys2Proof.Machine

open Sys2Proof.Claims (endsAs)

/-! ### Signals (R306, R307, R308) -/

theorem conjOf_updConj_same (s : State) (j : Nat) (f : Conj → Conj) : conjOf (updConj s j f) j = f (conjOf s j) :=
  mapGet_mapSet_same _ _ _ _

theorem conjOf_updConj_other (s : State) (j l : Nat) (f : Conj → Conj) (h : l ≠ j) : conjOf (updConj s j f) l = conjOf s l :=
  mapGet_mapSet_other _ _ _ _ _ _ h

@[simp] theorem raiseIrq_conj (s : State) (p i : Nat) : (raiseIrq s p i).conj = s.conj := by simp [raiseIrq, updCtl]

/-- The WAIT interrupts that a signal raises change no Conjunction. -/
@[simp] theorem wakeWaiters_conj (s : State) (j : Nat) : (wakeWaiters s j).conj = s.conj := by
  unfold wakeWaiters
  refine foldl_keep State.conj _ (fun s p => ?_) _ _
  dsimp only
  split
  · exact raiseIrq_conj _ _ _
  · rfl

/-- A signal is its update of the Conjunction, as every Conjunction sees it. -/
theorem conjOf_conjApply (s : State) (j n l : Nat) (err : Bool) :
    conjOf (conjApply s j n err) l =
      conjOf (updConj s j fun c => { c with count := c.count + BitVec.ofNat 32 n, error := c.error || err }) l :=
  congrArg (fun m => mapGet ({} : Conj) m l) (wakeWaiters_conj _ j)

/-- R308: with the Conjunction's key a signal is applied. -/
theorem conjSignal_of_key {s : State} {j : Nat} {key : BitVec 16} (h : conjKeyOk s j key = true) (n : Nat) (err : Bool) :
    conjSignal s j n err key = conjApply s j n err := if_pos h

theorem conjOf_conjSignal_same {s : State} {j : Nat} {key : BitVec 16} (h : conjKeyOk s j key = true) (n : Nat) (err : Bool) :
    conjOf (conjSignal s j n err key) j =
      { conjOf s j with count := (conjOf s j).count + BitVec.ofNat 32 n, error := (conjOf s j).error || err } := by
  rw [conjSignal_of_key h, conjOf_conjApply, conjOf_updConj_same]

theorem conjOf_conjSignal_other {s : State} {j l : Nat} {key : BitVec 16} (h : conjKeyOk s j key = true) (hl : l ≠ j) (n : Nat)
    (err : Bool) : conjOf (conjSignal s j n err key) l = conjOf s l := by
  rw [conjSignal_of_key h, conjOf_conjApply, conjOf_updConj_other _ _ _ _ hl]

/-! ### Reaching a target (R306, R307) -/

theorem reached_iff (c u : W32) : reached c u = true ↔ (c.toNat + 2 ^ 32 - u.toNat) % 2 ^ 32 < 2 ^ 31 := by
  have hu : u.toNat < 2 ^ 32 := u.isLt
  rw [reached, decide_eq_true_eq, BitVec.toNat_sub, ← Nat.sub_add_comm hu.le, Nat.add_comm]

theorem waitOver_iff (c : Conj) (u : W32) :
    waitOver c u = true ↔ c.error = true ∨ (c.count.toNat + 2 ^ 32 - u.toNat) % 2 ^ 32 < 2 ^ 31 := by
  rw [waitOver, Bool.or_eq_true, reached_iff, or_comm]

/-! ### Events leave the descriptors alone (R534, R540) -/

/-- The state without what a post to an event ring may change. -/
def eventRest (s : State) : State := { s with regs := [], fns := [], hostOut := [], eqLost := [] }

theorem hostEntry_rest (s : State) (f : Nat) (o : HostOut) : eventRest (hostEntry s f o) = eventRest s := by
  unfold hostEntry; split <;> rfl

theorem hostMsix_rest (s : State) (f v : Nat) : eventRest (hostMsix s f v) = eventRest s := by
  unfold hostMsix; split <;> rfl

theorem setFld_eventRest (s : State) (off hi lo v : Nat) : eventRest (setFld s off hi lo v) = eventRest s := rfl

theorem ringEntry_rest (s : State) (k m : Nat) (body : List Byte) : eventRest (ringEntry s k m body) = eventRest s := by
  unfold ringEntry
  dsimp only
  split
  · rw [hostMsix_rest, setFld_eventRest, setFld_eventRest, hostEntry_rest]
  · rw [setFld_eventRest, setFld_eventRest, hostEntry_rest]

theorem eqLost_eventRest (s : State) (l : Map Nat) : eventRest { s with eqLost := l } = eventRest s := rfl

theorem eventLost_rest (s : State) (k : Nat) : eventRest (eventLost s k) = eventRest s :=
  (eqLost_eventRest _ _).trans (setFld_eventRest s _ _ _ _)

/-- An event changes registers, the functions' held writes, the host link and the count of lost events, and nothing else. -/
theorem postEvent_rest (s : State) (k code source ckey d0 d1 : Nat) :
    eventRest (postEvent s k code source ckey d0 d1) = eventRest s := by
  have afterLost (l : Map Nat) (body : List Byte) : eventRest (ringEntry { s with eqLost := l } k 4 body) = eventRest s :=
    (ringEntry_rest _ _ _ _).trans (eqLost_eventRest s l)
  unfold postEvent
  dsimp only
  split
  · split
    · exact ringEntry_rest _ _ _ _
    · split
      · exact (ringEntry_rest _ _ _ _).trans (afterLost _ _)
      · exact (eventLost_rest _ _).trans (afterLost _ _)
  · exact eventLost_rest _ _

/-- So does a ring that stops. -/
theorem ringStop_rest (s : State) (k i cause : Nat) : eventRest (ringStop s k i cause) = eventRest s :=
  (postEvent_rest _ _ _ _ _ _ _).trans (setFld_eventRest s _ _ _ _)

theorem eventRest_descs (s : State) : (eventRest s).descs = s.descs := rfl

theorem ringStop_descs (s : State) (k i cause : Nat) : (ringStop s k i cause).descs = s.descs := by
  rw [← eventRest_descs, ringStop_rest, eventRest_descs]

/-! ### The end of a WAIT (R532) -/

theorem mapFind_of_descRunning {s : State} {d ty fm : Nat} {x : Desc} (h : descRunning s d ty fm = some x) :
    mapFind s.descs d = some x := by
  unfold descRunning at h
  split at h
  · rename_i y hy
    split at h
    · rw [hy, h]
    · cases h
  · cases h

/-- An accepted descriptor ends as it is told to. -/
theorem endsAs_descEnd {s : State} {d : Nat} {x : Desc} (h : mapFind s.descs d = some x) (st dt r : Nat) :
    endsAs (descEnd s d st dt r) d st dt r := by
  unfold endsAs descEnd
  rw [h]
  dsimp only
  rw [mapFind_mapIns_same, Option.map_some]

/-- The release of a ring changes no descriptor's outcome. -/
theorem endsAs_ringRelease {s : State} {d st dt r : Nat} (x : Desc) (id : Nat) (h : endsAs s d st dt r) :
    endsAs (ringRelease s x id) d st dt r := h

theorem endsAs_waitFinish {s : State} {d : Nat} {x : Desc} (h : mapFind s.descs d = some x) (st r : Nat) :
    endsAs (waitFinish s d x st r) d st 0 r := by
  unfold waitFinish
  dsimp only
  refine endsAs_ringRelease x d ?_
  split
  · exact endsAs_descEnd (by rw [ringStop_descs, h]) st 0 r
  · exact endsAs_descEnd h st 0 r

section
variable {s : State} {d : Nat} {x : Desc} (hx : descRunning s d dtWAIT 0 = some x)
include hx

/-- WAIT_COMPLETE of a WAIT under way asks for ERROR, then for the target. -/
theorem exec_waitComplete :
    exec (.waitComplete d) s = ran s (
      let c := conjOf s (dNat x 0x10 2 % 2 ^ 14)
      if c.error then waitFinish s d x stCONJ_ERROR (creadWord c)
      else if reached c.count (BitVec.ofNat 32 (dNat x 0x14 4)) then waitFinish s d x stOK (creadWord c)
      else s) := by
  change execWaitComplete d s = _
  rw [execWaitComplete, hx]

/-- WAIT_COMPLETE before the wait is over changes nothing. -/
theorem exec_waitComplete_of_open
    (h : waitOver (conjOf s (dNat x 0x10 2 % 2 ^ 14)) (BitVec.ofNat 32 (dNat x 0x14 4)) = false) :
    exec (.waitComplete d) s = .next s := by
  obtain ⟨hreached, herror⟩ := Bool.or_eq_false_iff.mp h
  have hran : exec (.waitComplete d) s = ran s s := by
    rw [exec_waitComplete hx, if_neg (ne_true_of_eq_false herror), if_neg (ne_true_of_eq_false hreached)]
  exact hran

/-- R307: a wait that is over ends CONJ_ERROR where ERROR is set and OK where it is not, with the Conjunction's word as RESULT. -/
theorem exec_waitComplete_of_over
    (h : waitOver (conjOf s (dNat x 0x10 2 % 2 ^ 14)) (BitVec.ofNat 32 (dNat x 0x14 4)) = true) :
    exec (.waitComplete d) s = ran s (waitFinish s d x
      (if (conjOf s (dNat x 0x10 2 % 2 ^ 14)).error then stCONJ_ERROR else stOK) (creadWord (conjOf s (dNat x 0x10 2 % 2 ^ 14)))) := by
  rw [exec_waitComplete hx]
  by_cases herror : (conjOf s (dNat x 0x10 2 % 2 ^ 14)).error = true
  · rw [if_pos herror, if_pos herror]
  · have hreached := (Bool.or_eq_true_iff.mp h).resolve_right herror
    rw [if_neg herror, if_neg herror, if_pos hreached]

end

/-- Settles O60: the signal's update of its Conjunction, the meaning of *reached*, and the two cases of WAIT_COMPLETE. -/
theorem signalsAddAndWaitsReach : Obligations.SignalsAddAndWaitsReach := by
  unfold Obligations.SignalsAddAndWaitsReach
  refine ⟨fun s j n err key hkey => ⟨?_, ?_, fun l hl => conjOf_conjSignal_other hkey hl n err⟩, waitOver_iff,
    fun s d x hx => ⟨exec_waitComplete_of_open hx, fun hover => ?_⟩⟩
  · rw [conjOf_conjSignal_same hkey, BitVec.toNat_add, BitVec.toNat_ofNat, Nat.add_mod_mod]
  · rw [conjOf_conjSignal_same hkey]
  · exact ⟨_, _, _, exec_waitComplete_of_over hx hover, endsAs_waitFinish (mapFind_of_descRunning hx) _ _⟩

end Sys2Proof.Machine
end

section
/-! Every command answers (assumption log 3): what each arm of `exec` gives, and the runs of a queue whose commands name units that exist. -/

namespace Sys2Proof.Machine

/-! ### What a command answers -/

/-- A command's answer from `s`: a next state with the queue as it was where its units exist (`ok`), else the fault. -/
def Answers (s : State) (ok : Bool) (r : Res) : Prop :=
  (ok = true → ∃ t, r = .next t ∧ t.pending = s.pending) ∧ (ok = false → r = .fault .noSuchUnit)

/-- An effect that looks at no unit's number always answers, and leaves the queue. -/
theorem answers_ran (s t : State) : Answers s true (ran s t) := ⟨fun _ => ⟨_, rfl, rfl⟩, nofun⟩

/-- A guard on a unit's number is where the fault comes from. -/
theorem answers_guardUnit {s : State} {r : Res} (ok : Bool) (h : Answers s true r) : Answers s ok (guardUnit ok r) := by
  cases ok
  · exact ⟨nofun, fun _ => rfl⟩
  · exact h

@[simp] theorem atTime_pending (s : State) (now : Nat) : (atTime s now).pending = s.pending := by unfold atTime; split <;> rfl

/-- A timed command leaves the queue that it found. -/
theorem answers_atTime {s : State} (now : Nat) {ok : Bool} {r : Res} (h : Answers (atTime s now) ok r) : Answers s ok r := by
  unfold Answers at h ⊢
  rwa [atTime_pending] at h

theorem ixFunction_eq_fnExists (f : Nat) : ixFunction f = fnExists f := decide_eq_decide.mpr Nat.lt_succ_iff

/-- Every arm of `exec`: the guarded, the timed, and those that name no unit. -/
theorem exec_answers (i : Instr) (s : State) : Answers s (wellFormed i) (exec i s) := by
  cases i
  case busMasterEnableClear | busMasterEnableSet | functionLevelReset | setupRegisterWrite | d3hotEntry =>
    rw [wellFormed, ixFunction_eq_fnExists]
    exact answers_guardUnit _ (answers_ran _ _)
  case collectiveTimeout | inputAccepted | stepCommitCommit | stepDecision | viewExchange | copyPlain | copyOffload | copyPrefetch |
      snapshotExport | launchCreate | launchEnd | maintStartScrub | maintStartUnitTest | maintEnd | activityEnd | lifecycleDecision |
      firmwareStagingDone | setPointUpdate | powerEstimate | pmbusCorrection | junctionSensorRead | dipEventEnd | pwrSleep |
      idleSleep | ellipsisEntered | pwrWake | wakeComplete | latentScrub | noUnit | reportResend | correctedReport | partnerLost |
      bootRom | bootFwInit | bootFabricTest | bootSlices | bootStacks | bootWipe | bootReady =>
    exact answers_atTime _ (answers_ran _ _)
  case compoundPlacement | tileNop | ldAcc | zero | mma | treeComb | accAdd | cvt | qnt | tileSt | hist | chkStat | chkInject | csig |
      cwait | cwaitMet | cwaitTimeout | tileFence | tnsRd | perfRd | continuationCount | programCompletion | programAbort | infGroup |
      solveCg | solveBicgstab | solveGmres | solveLu | solveCholesky | solveQr | outerIteration | innerIteration |
      solveDeadlineMatch | assembleStencil | assembleElements | colourBoundary | assembleMeasure | assembleAdj | mapSwitch |
      conjSignal | conjReset | conjArm | conjDisarm | conjRead | comparatorMatch | ppsEdge | missingMeasurement | ppsAbsence |
      tsyncRequestSend | collectiveSetup | collectiveLaunch | collectiveBind | collectiveUnbind | collectiveAbort |
      collectiveRelease | collectiveRoute | segmentSend | hashLaneChunk | stepCommitOpen | glossOpen | stepCommitSetup |
      retentionRelease | deferrableStart | copyTopk | copySign | copyExpandTopk | copyExpandSign | snapshotDigest | snapshotFinal |
      launchProgram | wait | waitComplete | waitTimeout | fence | fenceRelease | maintStartStress | maintStartCalibrate |
      maintStartStackTest | descriptorCompletion | memoryWindowRead | memoryWindowWrite | atomicopReceived | hostCompletion |
      completionTimeout | lifecycleSubmit | firmwareStageGo | commitSvn | pmbusAlert | lockstepMismatch | pairingEnable |
      initialViewCopy | promote | powerOnReset | coldRstNAssert | synResetCold | bootRelease | bootClocks | perstNAssert |
      perstNRelease | testReset | extest | idcode | samplePreload | setupacc | bypass | i3cWrite4 | i3cWrite8 | i3cRead4 | i3cRead8 |
      i3cPrivateRead | setdasa | entdaa | railEnFall | vfEnable =>
    exact answers_ran _ _
  all_goals exact answers_guardUnit _ (answers_ran _ _)

/-- Settles O3: each arm answers as its guard says, and the guards are the units of `wellFormed`. -/
theorem commandAnswersIffUnitsExist : Obligations.CommandAnswersIffUnitsExist := exec_answers

/-- Settles O1: the queue's front is the arm of `step` that runs a command. -/
theorem stepRunsFrontCommand : Obligations.StepRunsFrontCommand := by
  unfold Obligations.StepRunsFrontCommand
  intro c rest s
  rfl

/-! ### Runs of a queue -/

@[simp] theorem noteSlew_pending (s : State) : (noteSlew s).pending = s.pending := by simp [noteSlew]

@[simp] theorem idleClock_pending (s : State) : (idleClock s).pending = s.pending := by
  unfold idleClock tenseClock
  split
  · dsimp only
    split
    · exact noteSlew_pending _
    · rfl
  · rfl

theorem step_of_empty {s : State} (h : s.pending = []) : step s = .next (idleClock s) := by rw [step, h]

/-- Settles O2: the idle clock, before the clocks run and once they do. -/
theorem emptyQueueCountsClock : Obligations.EmptyQueueCountsClock := by
  unfold Obligations.EmptyQueueCountsClock
  refine fun s hs => ⟨fun hc => ?_, fun hc hleft => ?_⟩
  · rw [step_of_empty hs, idleClock, hc]
    rfl
  · rw [step_of_empty hs, idleClock, hc, if_pos rfl, tenseClock]
    simp [hleft]

theorem queueOk_iff (s : State) : queueOk s = true ↔ ∀ c ∈ s.pending, wellFormed c = true := List.all_eq_true

/-- From a queue of well-formed commands a step goes on, and takes the front command and no other from the queue. -/
theorem step_next_of_queueOk {s : State} (h : queueOk s = true) : ∃ t, step s = .next t ∧ t.pending = s.pending.drop 1 := by
  cases hq : s.pending with
  | nil => exact ⟨_, step_of_empty hq, (idleClock_pending s).trans hq⟩
  | cons c rest =>
    have hc : wellFormed c = true := (queueOk_iff s).mp h c (hq ▸ List.mem_cons_self)
    obtain ⟨t, ht, hrest⟩ := (exec_answers c { s with pending := rest }).1 hc
    exact ⟨t, by rw [step, hq]; exact ht, hrest⟩

/-- What still waits after some commands names units that exist if all did. -/
theorem queueOk_of_drop {s t : State} {n : Nat} (h : queueOk s = true) (ht : t.pending = s.pending.drop n) : queueOk t = true := by
  rw [queueOk_iff] at h ⊢
  exact fun c hc => h c (List.mem_of_mem_drop (ht ▸ hc))

theorem run_succ_of_step (M : Host.Core) {s t : M.State} (h : M.step s = .next t) (n : Nat) : M.run (n + 1) s = M.run n t := by
  rw [Host.Core.run, h]

/-- Settles O4, by induction on the number of steps: a step takes one command and keeps `queueOk`. -/
theorem queueRunsInOrder : Obligations.QueueRunsInOrder := by
  unfold Obligations.QueueRunsInOrder
  intro n
  induction n with
  | zero => exact fun s h => ⟨s, rfl, rfl, h⟩
  | succ n ih =>
    intro s h
    obtain ⟨u, hu, hfront⟩ := step_next_of_queueOk h
    obtain ⟨t, ht, hdrop, hok⟩ := ih u (queueOk_of_drop h hfront)
    refine ⟨t, (run_succ_of_step core hu n).trans ht, ?_, hok⟩
    rw [hdrop, hfront, List.drop_drop, Nat.add_comm]

end Sys2Proof.Machine
end

section
/-! Fields of registers and numbers: what a field reads after a write of it, of another field, or of another register. -/

namespace Sys2Proof.Machine

/-! ### Bit fields -/

theorem testBit_bits (x hi lo k : Nat) : (bits x hi lo).testBit k = (decide (k < hi + 1 - lo) && x.testBit (lo + k)) := by
  rw [bits, Nat.testBit_mod_two_pow, Nat.testBit_shiftRight]

/-- A field's bits are the written ones, the others the old ones. -/
theorem testBit_setBits (x hi lo v i : Nat) (h : lo ≤ hi) :
    (setBits x hi lo v).testBit i = if lo ≤ i ∧ i ≤ hi then v.testBit (i - lo) else x.testBit i := by
  have hlow : x % 2 ^ lo < 2 ^ lo := Nat.mod_lt _ (Nat.two_pow_pos _)
  have hform : setBits x hi lo v = 2 ^ lo * (2 ^ (hi + 1 - lo) * (x >>> (hi + 1)) + v % 2 ^ (hi + 1 - lo)) + x % 2 ^ lo := by
    have hpow : 2 ^ lo * 2 ^ (hi + 1 - lo) = 2 ^ (hi + 1) := by rw [← pow_add, Nat.add_sub_cancel' (by omega)]
    rw [setBits, Nat.shiftLeft_eq, Nat.shiftLeft_eq, Nat.mul_add, ← Nat.mul_assoc, hpow, Nat.mul_comm (2 ^ (hi + 1)),
      Nat.mul_comm (2 ^ lo) (v % _)]
  rw [hform, Nat.testBit_two_pow_mul_add _ hlow, Nat.testBit_two_pow_mul_add _ (Nat.mod_lt _ (Nat.two_pow_pos _))]
  by_cases h1 : i < lo
  · rw [if_pos h1, if_neg (by omega), Nat.testBit_mod_two_pow]
    simp [h1]
  · rw [if_neg h1]
    by_cases h2 : i ≤ hi
    · rw [if_pos (by omega), if_pos ⟨by omega, h2⟩, Nat.testBit_mod_two_pow]
      simp [show i - lo < hi + 1 - lo by omega]
    · rw [if_neg (by omega), if_neg (by omega), Nat.testBit_shiftRight]
      congr 1
      omega

/-- A field reads as written, modulo its width. -/
theorem bits_setBits_same (x v : Nat) {hi lo : Nat} (h : lo ≤ hi) : bits (setBits x hi lo v) hi lo = v % 2 ^ (hi + 1 - lo) := by
  refine Nat.eq_of_testBit_eq fun k => ?_
  rw [testBit_bits, testBit_setBits _ _ _ _ _ h, Nat.testBit_mod_two_pow]
  by_cases hk : k < hi + 1 - lo
  · rw [if_pos (by omega), Nat.add_sub_cancel_left]
  · simp [hk]

/-- A write of a field reaches no field apart from it. -/
theorem bits_setBits_apart (x v : Nat) {hi lo i j : Nat} (h : lo ≤ hi) (hd : i < lo ∨ hi < j) : bits (setBits x hi lo v) i j = bits x i j := by
  refine Nat.eq_of_testBit_eq fun k => ?_
  rw [testBit_bits, testBit_bits, testBit_setBits _ _ _ _ _ h]
  by_cases hk : k < i + 1 - j
  · rw [if_neg (by omega)]
  · simp [hk]

theorem bits_mod_two_pow (x w hi lo : Nat) (h : hi < w) : bits (x % 2 ^ w) hi lo = bits x hi lo := by
  refine Nat.eq_of_testBit_eq fun k => ?_
  rw [testBit_bits, testBit_bits, Nat.testBit_mod_two_pow]
  by_cases hk : k < hi + 1 - lo
  · simp [show lo + k < w by omega]
  · simp [hk]

theorem bits_lt (x hi lo : Nat) : bits x hi lo < 2 ^ (hi + 1 - lo) := Nat.mod_lt _ (Nat.two_pow_pos _)

/-- A bit as a field of one bit. -/
theorem bits_one_eq (x i : Nat) : bits x i i = (bit x i).toNat := by
  rw [bits, Nat.add_sub_cancel_left, pow_one, bit, Nat.toNat_testBit, Nat.shiftRight_eq_div_pow]

theorem bits_one_eq_one_iff (x i : Nat) : bits x i i = 1 ↔ bit x i = true := by
  rw [bits_one_eq]
  cases bit x i <;> simp

theorem bits_one_eq_zero_iff (x i : Nat) : bits x i i = 0 ↔ bit x i = false := by
  rw [bits_one_eq]
  cases bit x i <;> simp

/-! ### Fields of registers -/

theorem regGet_setFld_same (s : State) (off hi lo v : Nat) :
    regGet (setFld s off hi lo v) off = setBits (regGet s off) hi lo v % 2 ^ 64 := regGet_regSet_same _ _ _

theorem fld_regSet_same (s : State) (off v hi lo : Nat) (h : hi < 64) : fld (regSet s off v) off hi lo = bits v hi lo := by
  rw [fld, regGet_regSet_same, bits_mod_two_pow _ _ _ _ h]

theorem fld_regSet_other (s : State) (off a v hi lo : Nat) (h : a ≠ off) : fld (regSet s off v) a hi lo = fld s a hi lo := by
  rw [fld, fld, regGet_regSet_other _ _ _ _ h]

/-- A field of a register reads as written. -/
theorem fld_setFld_same (s : State) (off v : Nat) {hi lo : Nat} (h : lo ≤ hi) (h64 : hi < 64) :
    fld (setFld s off hi lo v) off hi lo = v % 2 ^ (hi + 1 - lo) := by
  rw [setFld, fld_regSet_same _ _ _ _ _ h64, bits_setBits_same _ _ h]

/-- A write of a field leaves the register's other fields. -/
theorem fld_setFld_apart (s : State) (off v : Nat) {hi lo i j : Nat} (h : lo ≤ hi) (h64 : i < 64) (hd : i < lo ∨ hi < j) :
    fld (setFld s off hi lo v) off i j = fld s off i j := by
  rw [setFld, fld_regSet_same _ _ _ _ _ h64, bits_setBits_apart _ _ h hd, fld]

theorem fld_lt (s : State) (off hi lo : Nat) : fld s off hi lo < 2 ^ (hi + 1 - lo) := bits_lt _ _ _

/-- A field reads the same in states of the same registers. -/
theorem fld_of_regs {s t : State} (h : t.regs = s.regs) (off hi lo : Nat) : fld t off hi lo = fld s off hi lo := by
  rw [fld, fld, regGet, regGet, h]

theorem regGet_of_regs {s t : State} (h : t.regs = s.regs) (off : Nat) : regGet t off = regGet s off := by
  rw [regGet, regGet, h]

theorem fld_setBitOf_same (s : State) (off i : Nat) (h : i < 64) : fld (setBitOf s off i) off i i = 1 := by
  rw [setBitOf, fld_setFld_same _ _ _ le_rfl h, Nat.add_sub_cancel_left]
  rfl

theorem fld_clrBitOf_same (s : State) (off i : Nat) (h : i < 64) : fld (clrBitOf s off i) off i i = 0 := by
  rw [clrBitOf, fld_setFld_same _ _ _ le_rfl h, Nat.zero_mod]

/-- R11: a counter field takes its sum or its largest value. -/
theorem fld_satFld_same (s : State) (off n : Nat) {hi lo : Nat} (h : lo ≤ hi) (h64 : hi < 64) :
    fld (satFld s off hi lo n) off hi lo = satAdd (hi + 1 - lo) (fld s off hi lo) n := by
  rw [satFld, fld_setFld_same _ _ _ h h64, Nat.mod_eq_of_lt]
  have := Nat.two_pow_pos (hi + 1 - lo)
  rw [satAdd]
  omega

theorem fld_satFld_other (s : State) (off a hi lo n i j : Nat) (h : a ≠ off) : fld (satFld s off hi lo n) a i j = fld s a i j :=
  fld_setFld_other _ _ _ _ _ _ _ _ h

/-! ### Timed commands -/

theorem atTime_rest (s : State) (now : Nat) : { atTime s now with tense := s.tense } = s := by
  unfold atTime
  split <;> rfl

theorem atTime_eq (s : State) (now : Nat) : atTime s now = { s with tense := (atTime s now).tense } := by
  unfold atTime
  split <;> rfl

/-- A timed command moves nothing but Tense. -/
@[simp] theorem atTime_keeps (s : State) (now : Nat) :
    (atTime s now).regs = s.regs ∧ (atTime s now).spm = s.spm ∧ (atTime s now).hbm = s.hbm ∧ (atTime s now).conj = s.conj ∧
    (atTime s now).ctxs = s.ctxs ∧ (atTime s now).runs = s.runs ∧ (atTime s now).progs = s.progs ∧ (atTime s now).verbs = s.verbs ∧
    (atTime s now).descs = s.descs ∧ (atTime s now).servo = s.servo ∧ (atTime s now).particles = s.particles ∧
    (atTime s now).ports = s.ports ∧ (atTime s now).wire = s.wire ∧ (atTime s now).hostOut = s.hostOut ∧ (atTime s now).sqs = s.sqs ∧
    (atTime s now).groups = s.groups ∧ (atTime s now).outSigs = s.outSigs ∧ (atTime s now).hstk = s.hstk ∧ (atTime s now).nvm = s.nvm ∧
    (atTime s now).queues = s.queues ∧ (atTime s now).nextProg = s.nextProg := by
  unfold atTime
  split <;> exact ⟨rfl, rfl, rfl, rfl, rfl, rfl, rfl, rfl, rfl, rfl, rfl, rfl, rfl, rfl, rfl, rfl, rfl, rfl, rfl, rfl, rfl⟩

/-! ### Little-endian bytes -/

@[simp] theorem natLe_length (n x : Nat) : (natLe n x).length = n := by
  induction n generalizing x with
  | zero => rfl
  | succ n ih => rw [natLe, List.length_cons, ih]

/-! ### Records -/

@[simp] theorem ctxOf_updCtx_same (s : State) (c : Nat) (f : Ctx → Ctx) : ctxOf (updCtx s c f) c = f (ctxOf s c) := mapGet_mapUpd_same _ _ _ _
theorem ctxOf_updCtx_other (s : State) (c j : Nat) (f : Ctx → Ctx) (h : j ≠ c) : ctxOf (updCtx s c f) j = ctxOf s j := mapGet_mapUpd_other _ _ _ _ _ h

@[simp] theorem runOf_updRun_same (s : State) (c : Nat) (f : CtxRun → CtxRun) : runOf (updRun s c f) c = f (runOf s c) := mapGet_mapUpd_same _ _ _ _
theorem runOf_updRun_other (s : State) (c j : Nat) (f : CtxRun → CtxRun) (h : j ≠ c) : runOf (updRun s c f) j = runOf s j := mapGet_mapUpd_other _ _ _ _ _ h

@[simp] theorem verbOf_updVerb_same (s : State) (v : Nat) (f : Verb → Verb) : verbOf (updVerb s v f) v = f (verbOf s v) := mapGet_mapUpd_same _ _ _ _
theorem verbOf_updVerb_other (s : State) (v j : Nat) (f : Verb → Verb) (h : j ≠ v) : verbOf (updVerb s v f) j = verbOf s j := mapGet_mapUpd_other _ _ _ _ _ h

@[simp] theorem fnOf_updFn_same (s : State) (f : Nat) (g : Fn → Fn) : fnOf (updFn s f g) f = g (fnOf s f) := mapGet_mapUpd_same _ _ _ _
theorem fnOf_updFn_other (s : State) (f j : Nat) (g : Fn → Fn) (h : j ≠ f) : fnOf (updFn s f g) j = fnOf s j := mapGet_mapUpd_other _ _ _ _ _ h

@[simp] theorem portOf_updPort_same (s : State) (p : Nat) (f : Port → Port) : portOf (updPort s p f) p = f (portOf s p) := mapGet_mapUpd_same _ _ _ _
theorem portOf_updPort_other (s : State) (p j : Nat) (f : Port → Port) (h : j ≠ p) : portOf (updPort s p f) j = portOf s j := mapGet_mapUpd_other _ _ _ _ _ h

@[simp] theorem stkOf_updStk_same (s : State) (k : Nat) (f : Stack → Stack) : stkOf (updStk s k f) k = f (stkOf s k) := mapGet_mapUpd_same _ _ _ _
theorem stkOf_updStk_other (s : State) (k j : Nat) (f : Stack → Stack) (h : j ≠ k) : stkOf (updStk s k f) j = stkOf s j := mapGet_mapUpd_other _ _ _ _ _ h

theorem sqOf_updSq_same (s : State) (k i : Nat) (f : Sq → Sq) : sqOf (updSq s k i f) k i = f (sqOf s k i) := mapGet_mapUpd_same _ _ _ _

theorem sqOf_updSq_other (s : State) (k i a b : Nat) (f : Sq → Sq) (h : 16 * a + b ≠ 16 * k + i) : sqOf (updSq s k i f) a b = sqOf s a b :=
  mapGet_mapUpd_other _ _ _ _ _ h

theorem updDesc_of_find {s : State} {d : Nat} {x : Desc} (h : mapFind s.descs d = some x) (f : Desc → Desc) :
    updDesc s d f = { s with descs := mapIns s.descs d (f x) } := by
  unfold updDesc
  rw [h]

theorem mapFind_updDesc_same {s : State} {d : Nat} {x : Desc} (h : mapFind s.descs d = some x) (f : Desc → Desc) :
    mapFind (updDesc s d f).descs d = some (f x) := by
  rw [updDesc_of_find h]
  exact mapFind_mapIns_same _ _ _

theorem progOf_updProg_same {s : State} {id : Nat} {p : Prog} (h : progOf s id = some p) (f : Prog → Prog) :
    progOf (updProg s id f) id = some (f p) := by
  unfold updProg
  rw [h]
  exact progOf_setProg _ _ _

theorem progOf_updProg_other (s : State) (id j : Nat) (f : Prog → Prog) (h : j ≠ id) : progOf (updProg s id f) j = progOf s j := by
  unfold updProg
  split
  · exact progOf_setProg_other _ _ _ _ h
  · rfl

theorem groupOf_setGroup_same (s : State) (gk : Nat) (g : Group) : groupOf (setGroup s gk g) gk = some g := mapFind_mapIns_same _ _ _

theorem solveOf_setSolve_same (s : State) (id : Nat) (v : Solve) : solveOf (setSolve s id v) id = some v := mapFind_mapIns_same _ _ _

/-! ### What a command that ran leaves -/

/-- A state under the queue of another. -/
def underQueue (s t : State) : State := { t with pending := s.pending }

theorem ran_eq (s t : State) : ran s t = .next (underQueue s t) := rfl

theorem underQueue_self (s : State) : underQueue s s = s := rfl

section
variable (s t : State)

/-- Only the queue of commands is another's. -/
@[simp] theorem underQueue_keeps :
    (underQueue s t).free = t.free ∧ (underQueue s t).tense = t.tense ∧ (underQueue s t).regs = t.regs ∧ (underQueue s t).spm = t.spm ∧
    (underQueue s t).hbm = t.hbm ∧ (underQueue s t).lcWork = t.lcWork ∧ (underQueue s t).fwBuf = t.fwBuf ∧ (underQueue s t).hstk = t.hstk ∧
    (underQueue s t).corrected = t.corrected ∧ (underQueue s t).corrAt = t.corrAt ∧ (underQueue s t).conj = t.conj ∧ (underQueue s t).ctxs = t.ctxs ∧
    (underQueue s t).runs = t.runs ∧ (underQueue s t).queues = t.queues ∧ (underQueue s t).progs = t.progs ∧ (underQueue s t).nextProg = t.nextProg ∧
    (underQueue s t).verbs = t.verbs ∧ (underQueue s t).reports = t.reports ∧ (underQueue s t).mgmtOut = t.mgmtOut ∧
    (underQueue s t).audit = t.audit ∧ (underQueue s t).ports = t.ports ∧ (underQueue s t).wire = t.wire ∧ (underQueue s t).loop = t.loop ∧
    (underQueue s t).cancelled = t.cancelled ∧ (underQueue s t).ackWait = t.ackWait ∧ (underQueue s t).groups = t.groups ∧
    (underQueue s t).servo = t.servo ∧ (underQueue s t).quickQ = t.quickQ ∧ (underQueue s t).infRuns = t.infRuns ∧
    (underQueue s t).infUnits = t.infUnits ∧ (underQueue s t).parsers = t.parsers ∧ (underQueue s t).lexers = t.lexers ∧
    (underQueue s t).handles = t.handles ∧ (underQueue s t).outSigs = t.outSigs ∧ (underQueue s t).particles = t.particles ∧
    (underQueue s t).pmoves = t.pmoves ∧ (underQueue s t).epochs = t.epochs ∧ (underQueue s t).strobes = t.strobes ∧
    (underQueue s t).xcache = t.xcache ∧ (underQueue s t).fns = t.fns ∧ (underQueue s t).trackers = t.trackers ∧
    (underQueue s t).answers = t.answers ∧ (underQueue s t).hostOut = t.hostOut ∧ (underQueue s t).sqs = t.sqs ∧ (underQueue s t).descs = t.descs ∧
    (underQueue s t).nextDesc = t.nextDesc ∧ (underQueue s t).acts = t.acts ∧ (underQueue s t).i3c = t.i3c ∧ (underQueue s t).pins = t.pins ∧
    (underQueue s t).nvm = t.nvm ∧ (underQueue s t).pwr = t.pwr ∧ (underQueue s t).cust = t.cust ∧ (underQueue s t).field = t.field := by
  exact ⟨rfl, rfl, rfl, rfl, rfl, rfl, rfl, rfl, rfl, rfl, rfl, rfl, rfl, rfl, rfl, rfl, rfl, rfl, rfl, rfl, rfl, rfl, rfl, rfl, rfl, rfl,
    rfl, rfl, rfl, rfl, rfl, rfl, rfl, rfl, rfl, rfl, rfl, rfl, rfl, rfl, rfl, rfl, rfl, rfl, rfl, rfl, rfl, rfl, rfl, rfl, rfl, rfl, rfl⟩

theorem hbm_underQueue : (underQueue s t).hbm = t.hbm := rfl
theorem conj_underQueue : (underQueue s t).conj = t.conj := rfl
theorem queues_underQueue : (underQueue s t).queues = t.queues := rfl
@[simp] theorem fld_underQueue (off hi lo : Nat) : fld (underQueue s t) off hi lo = fld t off hi lo := rfl
@[simp] theorem regGet_underQueue (off : Nat) : regGet (underQueue s t) off = regGet t off := rfl
@[simp] theorem conjOf_underQueue (j : Nat) : conjOf (underQueue s t) j = conjOf t j := rfl
@[simp] theorem ctxOf_underQueue (c : Nat) : ctxOf (underQueue s t) c = ctxOf t c := rfl
@[simp] theorem runOf_underQueue (c : Nat) : runOf (underQueue s t) c = runOf t c := rfl
@[simp] theorem progOf_underQueue (i : Nat) : progOf (underQueue s t) i = progOf t i := rfl
@[simp] theorem verbOf_underQueue (v : Nat) : verbOf (underQueue s t) v = verbOf t v := rfl
@[simp] theorem partOf_underQueue (p : Nat) : partOf (underQueue s t) p = partOf t p := rfl
@[simp] theorem coreOf_underQueue (p : Nat) : coreOf (underQueue s t) p = coreOf t p := rfl

end

end Sys2Proof.Machine
end

section
/-! The paths to the setup space (R630, R631, R661, R662): what an I3C command and a JTAG access answer. -/

namespace Sys2Proof.Machine

/-- Asking for a wake changes nothing but the request. -/
@[simp] theorem wakeBy_keeps (s : State) (src : Nat) :
    (wakeBy s src).regs = s.regs ∧ (wakeBy s src).i3c = s.i3c ∧ (wakeBy s src).sqs = s.sqs ∧ (wakeBy s src).tense = s.tense ∧
    (wakeBy s src).groups = s.groups ∧ (wakeBy s src).spm = s.spm ∧ (wakeBy s src).hbm = s.hbm ∧ (wakeBy s src).conj = s.conj ∧
    (wakeBy s src).rcs = s.rcs ∧ (wakeBy s src).descs = s.descs ∧ (wakeBy s src).pending = s.pending := by
  unfold wakeBy
  split <;> exact ⟨rfl, rfl, rfl, rfl, rfl, rfl, rfl, rfl, rfl, rfl, rfl⟩

theorem devReady_of_regs {s t : State} (h : t.regs = s.regs) : devReady t = devReady s := by
  rw [devReady, devReady, bootState, bootState, fld_of_regs h]

theorem devReady_wakeBy (s : State) (src : Nat) : devReady (wakeBy s src) = devReady s := devReady_of_regs (wakeBy_keeps s src).1

/-! ### I3C (R631) -/

section
variable {s z : State} {off n v : Nat} (hz : z = wakeBy s 5)
include hz

/-- Until READY an I3C write is answered OFF, aligned or not. -/
theorem i3cWrite_off (hr : devReady z = false) : i3cWrite s off n v = i3cSet z suOFF [] := by
  subst hz
  unfold i3cWrite
  dsimp only
  split
  · simp [setupBy, hr]
  · simp [hr]

theorem i3cWrite_aligned (hr : devReady z = true) (ho : off % 2 ^ 24 % n = 0) :
    i3cWrite s off n v = i3cSet (setupWrite z orgMG (off % 2 ^ 24) n (v % 2 ^ (8 * n))).1
      (setupWrite z orgMG (off % 2 ^ 24) n (v % 2 ^ (8 * n))).2 [] := by
  subst hz
  rw [i3cWrite, if_pos ho, setupBy, if_pos rfl]
  simp [hr]

theorem i3cWrite_unaligned (hr : devReady z = true) (ho : off % 2 ^ 24 % n ≠ 0) : (i3cWrite s off n v).i3c.status = suBAD := by
  subst hz
  rw [i3cWrite, if_neg ho]
  simp only [hr, Bool.not_true, Bool.false_eq_true, if_false]
  split <;> rfl

theorem i3cRead_off (hr : devReady z = false) (hb : off % 2 ^ 24 / 8 * 8 ≠ aSYN_BOOT) (hc : off % 2 ^ 24 / 8 * 8 ≠ aSYN_RST_CAUSE) :
    i3cRead s off n = i3cSet z suOFF (natLe n 0) := by
  subst hz
  unfold i3cRead
  dsimp only
  generalize off % 2 ^ 24 = o at hb hc ⊢
  simp [hr, hb, hc]

/-- What is served in every state: a ready device, SYN_BOOT and SYN_RST_CAUSE. -/
theorem i3cRead_served (hr : devReady z = true ∨ off % 2 ^ 24 / 8 * 8 = aSYN_BOOT ∨ off % 2 ^ 24 / 8 * 8 = aSYN_RST_CAUSE) :
    i3cRead s off n = if off % 2 ^ 24 % n ≠ 0 then i3cSet z suBAD (natLe n 0)
      else i3cSet z (setupRead z (off % 2 ^ 24) n).2 (natLe n (setupRead z (off % 2 ^ 24) n).1) := by
  subst hz
  unfold i3cRead
  dsimp only
  generalize off % 2 ^ 24 = o at hr ⊢
  have hserve : (!devReady (wakeBy s 5) && !(o / 8 * 8 == aSYN_BOOT || o / 8 * 8 == aSYN_RST_CAUSE)) = false := by
    rcases hr with h | h | h <;> simp [h]
  rw [hserve]
  rfl

end

/-! ### JTAG (R631) -/

/-- Until READY a write over JTAG is answered OFF. -/
theorem setupBy_jtag_off {s : State} (hr : devReady s = false) (hl : lcState s = 0 ∨ lcState s = 3) (off n v : Nat) :
    setupBy s orgJT off n v = jtagSet s suOFF 0 := by
  rw [setupBy, if_neg (by decide), if_pos rfl, if_neg (by omega)]
  simp [hr]

/-- From READY on it is the setup space's. -/
theorem setupBy_jtag_ready {s : State} (hr : devReady s = true) (hl : lcState s = 0 ∨ lcState s = 3) (off n v : Nat) :
    setupBy s orgJT off n v = jtagSet (setupWrite s orgJT off n v).1 (setupWrite s orgJT off n v).2 0 := by
  rw [setupBy, if_neg (by decide), if_pos rfl, if_neg (by omega)]
  simp [hr]

section
variable {s : State} {dr off n : Nat} (hoff : off = bits dr 87 64) (hn : n = if bit dr 89 then 8 else 4)
include hoff hn

theorem jtagAccess_off (hr : devReady s = false) (hl : lcState s = 0 ∨ lcState s = 3) : jtagAccess s dr = jtagSet s suOFF 0 := by
  have hby : setupBy s orgJT off n (dr % 2 ^ (8 * n)) = jtagSet s suOFF 0 := setupBy_jtag_off hr hl _ _ _
  subst hoff hn
  unfold jtagAccess
  dsimp only
  rw [hby]
  simp [hr]

theorem jtagAccess_read (hr : devReady s = true) (ho : off % n = 0) (hw : bit dr 88 = false) :
    jtagAccess s dr = jtagSet s (setupRead s off n).2 (setupRead s off n).1 := by
  subst hoff hn
  simp [jtagAccess, hr, ho, hw]

theorem jtagAccess_write (hr : devReady s = true) (hl : lcState s = 0 ∨ lcState s = 3) (ho : off % n = 0) (hw : bit dr 88 = true) :
    jtagAccess s dr = jtagSet (setupWrite s orgJT off n (dr % 2 ^ (8 * n))).1 (setupWrite s orgJT off n (dr % 2 ^ (8 * n))).2 0 := by
  have hby := setupBy_jtag_ready hr hl off n (dr % 2 ^ (8 * n))
  subst hoff hn
  rw [jtagAccess, if_pos hw, if_pos ho, hby]

end

/-- SETUPACC runs its access in BLANK and RETURNED. -/
theorem exec_setupacc_of_open {s : State} {dr : Nat} (h : lcState s = 0 ∨ lcState s = 3) :
    exec (.setupacc dr) s = ran s (jtagAccess (jtagScan s 0x40 (s.jtag.data % 2 ^ 64 + s.jtag.status % 8 * 2 ^ 90)) dr) :=
  congrArg (ran s) (if_pos h)

/-- Elsewhere it selects the bypass register. -/
theorem exec_setupacc_of_closed {s : State} {dr : Nat} (h : lcState s = 1 ∨ lcState s = 2) :
    exec (.setupacc dr) s = ran s (jtagScan s 0x40 0) := congrArg (ran s) (if_neg (by omega))

/-- Settles O57: the I3C commands by READY and alignment, the JTAG access by lifecycle state, READY and direction. -/
theorem pathsReachTheSetupSpace : Obligations.PathsReachTheSetupSpace := by
  unfold Obligations.PathsReachTheSetupSpace
  refine ⟨?_, ?_, fun s => rfl, fun s a d => ⟨⟨_, rfl, ?_⟩, ⟨_, rfl, ?_⟩⟩, fun s pins load => ?_, ?_⟩
  case refine_1 =>
    intro s off v n i o z hi ho hz
    subst ho
    have hexec : exec i s = ran s (i3cWrite s off n v) := by
      simp only [List.mem_cons, Prod.mk.injEq, List.not_mem_nil, or_false] at hi
      rcases hi with ⟨rfl, rfl⟩ | ⟨rfl, rfl⟩ <;> rfl
    rw [hexec]
    refine ⟨fun hr => ⟨_, rfl, ?_⟩, fun hr ho => ⟨_, rfl, ?_⟩, fun hr ho => ⟨_, rfl, i3cWrite_unaligned hz hr ho⟩⟩
    · rw [i3cWrite_off hz hr, hz]
      exact ⟨by simp [i3cSet], (wakeBy_keeps s 5).1⟩
    · rw [i3cWrite_aligned hz hr ho]
      exact ⟨rfl, rfl⟩
  case refine_2 =>
    intro s off n i o z hi ho hz
    subst ho
    have hexec : exec i s = ran s (i3cRead s off n) := by
      simp only [List.mem_cons, Prod.mk.injEq, List.not_mem_nil, or_false] at hi
      rcases hi with ⟨rfl, rfl⟩ | ⟨rfl, rfl⟩ <;> rfl
    rw [hexec]
    refine ⟨fun hr hb hc => ⟨_, rfl, ?_⟩, fun hr => ⟨fun ho => ⟨_, rfl, ?_⟩, fun ho => ⟨_, rfl, ?_⟩⟩⟩
    · rw [i3cRead_off hz hr hb hc]
      rfl
    · rw [i3cRead_served hz hr, if_pos ho]
      exact ⟨rfl, rfl⟩
    · rw [i3cRead_served hz hr, if_neg (not_not.mpr ho), hz]
      exact ⟨rfl, rfl, (wakeBy_keeps s 5).1⟩
  case refine_3 =>
    by_cases h : a = i3cStatic s <;> simp [h]
  case refine_4 =>
    cases h : s.i3c.dyn <;> simp [h]
  case refine_5 =>
    exact ⟨⟨_, rfl, rfl, rfl⟩, ⟨_, rfl, rfl⟩, ⟨_, rfl, rfl, rfl⟩, ⟨_, rfl, rfl, rfl, rfl⟩, ⟨_, rfl, rfl, rfl, rfl⟩⟩
  case refine_6 =>
    intro s dr off n z hoff hn hz
    refine ⟨fun hl => ?_, fun hl hr => ?_, fun hl hr ho => ⟨fun hw => ?_, fun hw => ?_⟩⟩
    · exact ⟨_, exec_setupacc_of_closed hl, rfl, rfl⟩
    all_goals
      rw [exec_setupacc_of_open hl, ← hz]
      have hlz : lcState z = 0 ∨ lcState z = 3 := hz ▸ hl
      have hrz : devReady z = devReady s := hz ▸ rfl
      rw [← hrz] at hr
    · rw [jtagAccess_off hoff hn hr hlz, hz]
      exact ⟨_, rfl, rfl, rfl⟩
    · rw [jtagAccess_read hoff hn hr ho hw]
      exact ⟨_, rfl, rfl, rfl⟩
    · rw [jtagAccess_write hoff hn hr hlz ho hw]
      exact ⟨_, rfl, rfl, rfl⟩

end Sys2Proof.Machine
end

section
/-! What reports and audit entries leave alone (R596 to R600, R559), and runs of register writes. -/

namespace Sys2Proof.Machine

/-! ### Maps -/

/-- What holds of the default and of every entry holds of every value read. -/
theorem mapGet_of_forall {α : Type} {P : α → Prop} {d : α} (hd : P d) {m : Map α} (h : ∀ x ∈ m, P x.2) (k : Nat) : P (mapGet d m k) := by
  induction m with
  | nil => exact hd
  | cons x r ih =>
    obtain ⟨j, v⟩ := x
    rw [mapGet]
    split
    · exact h _ List.mem_cons_self
    · exact ih fun y hy => h y (List.mem_cons_of_mem _ hy)

/-! ### The report stream and the audit log -/

/-- The state without what the report stream and the audit log hold. -/
def logRest (s : State) : State :=
  { s with regs := [], reports := [], rseq := 0, rptLost := 0, rptBuf := [], mgmtOut := [], audit := [], audLost := 0, audFirst := 0 }

theorem mgmtSend_logRest (s : State) (rs : List Rpt) : logRest (mgmtSend s rs) = logRest s := by unfold mgmtSend; split <;> rfl

theorem sendRpt_logRest (s : State) (r : Rpt) : logRest (sendRpt s r).1 = logRest s := by
  unfold sendRpt
  dsimp only
  split
  · exact mgmtSend_logRest _ _
  · exact (mgmtSend_logRest _ _).trans (mgmtSend_logRest _ _)

theorem postRpt_logRest (s : State) (r : Rpt) : logRest (postRpt s r) = logRest s := by
  have hold (s : State) (r : Rpt) : logRest { (sendRpt s r).1 with reports := (sendRpt s r).1.reports ++ [(sendRpt s r).2] } = logRest s :=
    (rfl : _ = logRest (sendRpt s r).1).trans (sendRpt_logRest s r)
  unfold postRpt
  dsimp only
  generalize (if r.cls = clFATAL then 1024 else 960) = limit
  split
  · exact hold _ _
  · split
    · exact (hold _ _).trans rfl
    · rfl

/-- A report that names no unit leaves the health records. -/
theorem report_logRest (s : State) (cls cause part slice unit : Nat) (d : List Nat) (h : 12 ≤ slice) :
    logRest (report s cls cause part slice unit d) = logRest s := by
  unfold report
  rw [if_neg (by omega)]
  exact postRpt_logRest _ _

theorem setFld_logRest (s : State) (off hi lo v : Nat) : logRest (setFld s off hi lo v) = logRest s := rfl

theorem auditSet_logRest (s : State) (l : Map AudEnt) : logRest { s with audit := l } = logRest s := rfl

theorem audPut_logRest (s : State) (e : AudEnt) : logRest (audPut s e) = logRest s := by
  unfold audPut
  dsimp only
  generalize hz : (if audMirror s = true ∧ audPending s = 8192 then _ else s) = z
  have hrest : logRest z = logRest s := by
    by_cases hfull : audMirror s = true ∧ audPending s = 8192
    · rw [← hz, if_pos hfull]
      simp only [logRest]
    · rw [← hz, if_neg hfull]
  rw [setFld_logRest, auditSet_logRest]
  by_cases hm : audMirror z = true
  · rw [if_pos hm, setFld_logRest]
    exact (sendRpt_logRest _ _).trans hrest
  · rw [if_neg hm]
    exact hrest

/-- An audit entry reaches no further than the log and the report stream. -/
theorem audit_logRest (s : State) (e : AudEnt) : logRest (audit s e) = logRest s := by
  unfold audit
  refine (audPut_logRest _ _).trans ?_
  split
  · exact (audPut_logRest _ _).trans rfl
  · rfl

theorem auditCore_logRest (s : State) (kind part addr detail value : Nat) :
    logRest (auditCore s kind part addr detail value) = logRest s := audit_logRest _ _

/-! ### Runs of register writes -/

/-- Registers written one after another leave what one write leaves. -/
theorem foldl_regSet_keep {β : Type} (g : State → β) (hg : ∀ s a v, g (regSet s a v) = g s) (l : List (Nat × Nat)) (s : State) :
    g (l.foldl (fun s x => regSet s x.1 x.2) s) = g s :=
  foldl_keep g (fun s x => regSet s x.1 x.2) (fun s x => hg s x.1 x.2) l s

theorem regGet_foldl_regSet_other (l : List (Nat × Nat)) (s : State) (a : Nat) (h : a ∉ l.map (·.1)) :
    regGet (l.foldl (fun s x => regSet s x.1 x.2) s) a = regGet s a := by
  induction l generalizing s with
  | nil => rfl
  | cons x r ih =>
    rw [List.map_cons, List.mem_cons, not_or] at h
    rw [List.foldl_cons, ih _ h.2, regGet_regSet_other _ _ _ _ h.1]

/-- Of registers written one after another, each once, each reads as written. -/
theorem regGet_foldl_regSet_mem {l : List (Nat × Nat)} (s : State) {a v : Nat} (hd : (l.map (·.1)).Nodup) (h : (a, v) ∈ l) :
    regGet (l.foldl (fun s x => regSet s x.1 x.2) s) a = v % 2 ^ 64 := by
  induction l generalizing s with
  | nil => exact absurd h List.not_mem_nil
  | cons x r ih =>
    rw [List.map_cons, List.nodup_cons] at hd
    rw [List.foldl_cons]
    rcases List.mem_cons.mp h with rfl | h
    · rw [regGet_foldl_regSet_other _ _ _ hd.1, regGet_regSet_same]
    · exact ih _ hd.2 h

end Sys2Proof.Machine
end

section
/-! Particles (chapter 08): what the accessors of a Particle read after an update, and what an instruction about to run comes to.
O12 on scalar results. -/

namespace Sys2Proof.Machine

open Sys2Proof.Claims

/-! ### The state of a Particle -/

@[simp] theorem partOf_updPart_same (s : State) (p : Nat) (f : Particle → Particle) : partOf (updPart s p f) p = f (partOf s p) :=
  mapGet_mapUpd_same _ _ _ _

theorem partOf_updPart_other (s : State) (p q : Nat) (f : Particle → Particle) (h : q ≠ p) : partOf (updPart s p f) q = partOf s q :=
  mapGet_mapUpd_other _ _ _ _ _ h

@[simp] theorem coreOf_updPart_same (s : State) (p : Nat) (f : Particle → Particle) : coreOf (updPart s p f) p = (f (partOf s p)).core := by
  rw [coreOf, partOf_updPart_same]

@[simp] theorem coreOf_updCore_same (s : State) (p : Nat) (f : PCore → PCore) : coreOf (updCore s p f) p = f (coreOf s p) :=
  coreOf_updPart_same _ _ _

@[simp] theorem partOf_updCore_same (s : State) (p : Nat) (f : PCore → PCore) :
    partOf (updCore s p f) p = { partOf s p with core := f (coreOf s p) } := partOf_updPart_same _ _ _

@[simp] theorem coreOf_updCtl_same (s : State) (p : Nat) (f : PCtl → PCtl) :
    coreOf (updCtl s p f) p = { coreOf s p with ctl := f (coreOf s p).ctl } := coreOf_updCore_same _ _ _

/-- A change of a core leaves the memories. -/
@[simp] theorem updCore_mem (s : State) (p : Nat) (f : PCore → PCore) : (updCore s p f).spm = s.spm ∧ (updCore s p f).hbm = s.hbm := ⟨rfl, rfl⟩

@[simp] theorem retire_mem (s : State) (p pc : Nat) : (retire s p pc).spm = s.spm ∧ (retire s p pc).hbm = s.hbm := ⟨rfl, rfl⟩

/-- An instruction that retires moves the pc, minstret and what the host has answered. -/
theorem coreOf_retire (s : State) (p pc : Nat) : coreOf (retire s p pc) p = { coreOf s p with
    pc := BitVec.ofNat 64 pc, hgot := []
    csr := { (coreOf s p).csr with minstret := (coreOf (retire s p pc) p).csr.minstret } } := by
  unfold retire
  rw [coreOf_updPart_same, coreOf]

/-! ### Registers -/

theorem xGet_zero (c : PCore) : xGet c 0 = 0 := rfl

theorem xGet_xPut_same (c : PCore) (i v : Nat) (po : Option Nat) (h : i ≠ 0) : xGet (xPut c i v po) i = v % 2 ^ 64 := by
  unfold xGet xPut
  rw [if_neg h, if_neg h]
  exact (congrArg BitVec.toNat (mapGet_mapSet_same _ _ _ _)).trans (BitVec.toNat_ofNat _ _)

theorem xGet_xPut_other (c : PCore) (i j v : Nat) (po : Option Nat) (h : j ≠ i) : xGet (xPut c i v po) j = xGet c j := by
  unfold xGet xPut
  by_cases hj : j = 0
  · rw [if_pos hj, if_pos hj]
  · rw [if_neg hj, if_neg hj]
    by_cases hi : i = 0
    · rw [if_pos hi]
    · rw [if_neg hi]
      exact congrArg BitVec.toNat (mapGet_mapSet_other _ _ _ _ _ _ h)

/-! ### An instruction about to run -/

/-- Where an instruction's outcome leaves the device; `raw` goes to mtval where the instruction is illegal. -/
def outState (p raw : Nat) : RvOut → State
  | .done s => s
  | .held s => s
  | .trap s t => takeTrap s p (if t.code = 2 then { t with tval := raw } else t)

/-- An instruction with nothing in its way does what its row says. -/
theorem prtStep_of_prtRuns {s : State} {p : Nat} {hit : Bool} {cls : RvCls} {raw w len : Nat} {s₁ : State}
    (h : prtRuns s p hit cls raw w len s₁) (body : State → Nat → Nat → RvOut) :
    prtStep s p hit cls body = outState p raw (body s₁ w len) := by
  obtain ⟨_, hrun, hlp, hon, hhold, hirq, hfetch, hcls, rfl, hclean⟩ := h
  have hready : rvReady s p = (s, true) := by
    unfold rvReady
    dsimp only
    rw [hhold]
  unfold prtStep
  simp only [hrun, hon, Option.isNone_eq_false_iff.mpr hlp, Bool.not_true, Bool.or_self, Bool.false_eq_true, if_false, hready, hirq, hfetch, hcls,
    ne_eq, not_true_eq_false, hclean]
  cases body (fillCache s p raw len) w len <;> rfl

variable {s : State} {p : Nat} {hit : Bool} {cls : RvCls} {raw w len : Nat} {s₁ : State} {body : State → Nat → Nat → RvOut} {t : State} (q : State)

theorem prtOk_of_prtRuns (h : prtRuns s p hit cls raw w len s₁) : prtOk p = true := decide_eq_true h.1

theorem eq_fillCache_of_prtRuns (h : prtRuns s p hit cls raw w len s₁) : s₁ = fillCache s p raw len := by
  obtain ⟨_, _, _, _, _, _, _, _, hs₁, _⟩ := h
  exact hs₁

/-- An instruction that its row completes. -/
theorem ran_prtStep_done (h : prtRuns s p hit cls raw w len s₁) (hb : body s₁ w len = .done t) :
    guardUnit (prtOk p) (ran q (prtStep s p hit cls body)) = .next (underQueue q t) := by
  rw [prtStep_of_prtRuns h, hb, prtOk_of_prtRuns h]
  rfl

/-- An instruction that its row ends in a trap. -/
theorem ran_prtStep_trap (h : prtRuns s p hit cls raw w len s₁) {tr : Trap} (hb : body s₁ w len = .trap t tr) :
    guardUnit (prtOk p) (ran q (prtStep s p hit cls body)) =
      .next (underQueue q (takeTrap t p (if tr.code = 2 then { tr with tval := raw } else tr))) := by
  rw [prtStep_of_prtRuns h, hb, prtOk_of_prtRuns h]
  rfl

/-- An instruction that its row holds. -/
theorem ran_prtStep_held (h : prtRuns s p hit cls raw w len s₁) (hb : body s₁ w len = .held t) :
    guardUnit (prtOk p) (ran q (prtStep s p hit cls body)) = .next (underQueue q t) := by
  rw [prtStep_of_prtRuns h, hb, prtOk_of_prtRuns h]
  rfl

/-! ### Scalar results -/

/-- A float instruction runs where mstatus.FS is on. -/
theorem rvFpu_on (s : State) (p : Nat) (r : RvOut) (h : mst (coreOf s p) 14 13 ≠ 0) : rvFpu s p r = r := if_neg h

/-- Settles O12: an instruction about to run is its row's meaning, and the decoded instruction picks the row's branch. -/
theorem scalarResults : Obligations.ScalarResults := by
  unfold Obligations.ScalarResults
  refine ⟨fun s p hit raw w len s₁ h => ?_, fun s p hit raw w len s₁ h hfs => ?_⟩
  · refine ⟨?_, ?_, ?_, ?_, ?_, ?_, ?_, ?_, ?_⟩
    case refine_5 =>
      intro f a b i hd
      refine ran_prtStep_done _ h ?_
      rw [rvExec, hd]
    all_goals
      intros
      rename_i hd
      refine ran_prtStep_done _ h ?_
      rw [rvExec, hd]
      rfl
  · refine ⟨fun d rm rd a b m hm => ⟨?_, ?_, ?_, ?_, ?_⟩, fun k d rm rd a b e m hm hd => ?_⟩
    case refine_6 =>
      refine ran_prtStep_done _ h ?_
      rw [rvExec, hd]
      refine (rvFpu_on _ _ _ hfs).trans ?_
      rw [rvFma, hm]
      rfl
    all_goals
      intro hd
      refine ran_prtStep_done _ h ?_
      rw [rvExec, hd]
      refine (rvFpu_on _ _ _ hfs).trans ?_
      rw [rvFop, hm]
      rfl

end Sys2Proof.Machine
end

section
/-! Traps of a Particle (R249, R250): what entering one and returning from one leave. O14. -/

namespace Sys2Proof.Machine

open Sys2Proof.Claims

/-! ### Fields of mstatus -/

theorem bits_toNat_ofNat (m hi lo : Nat) (h : hi < 64) : bits (BitVec.ofNat 64 m).toNat hi lo = bits m hi lo := by
  rw [BitVec.toNat_ofNat, bits_mod_two_pow _ _ _ _ h]

theorem bits_setBits_self_lt (x v : Nat) {hi lo : Nat} (h : lo ≤ hi) (hv : v < 2 ^ (hi + 1 - lo)) : bits (setBits x hi lo v) hi lo = v := by
  rw [bits_setBits_same _ _ h, Nat.mod_eq_of_lt hv]

/-- What entering a trap makes of mstatus. -/
def trapMstatus (m : Nat) (mach : Bool) : Nat := setBits (setBits (setBits m 7 7 (bits m 3 3)) 3 3 0) 12 11 (if mach then 3 else 0)

theorem bits_trapMstatus (m : Nat) (mach : Bool) : bits (trapMstatus m mach) 3 3 = 0 ∧ bits (trapMstatus m mach) 7 7 = bits m 3 3 ∧
    bits (trapMstatus m mach) 12 11 = if mach then 3 else 0 := by
  refine ⟨?_, ?_, ?_⟩
  · rw [trapMstatus, bits_setBits_apart _ _ (by omega) (by omega), bits_setBits_self_lt _ _ le_rfl (by decide)]
  · rw [trapMstatus, bits_setBits_apart _ _ (by omega) (by omega), bits_setBits_apart _ _ le_rfl (by omega)]
    exact bits_setBits_self_lt _ _ le_rfl (bits_lt m 3 3)
  · exact bits_setBits_self_lt _ _ (by omega) (by cases mach <;> decide)

/-- What MRET makes of mstatus. -/
def mretMstatus (m : Nat) : Nat :=
  let n := setBits (setBits (setBits m 3 3 (bits m 7 7)) 7 7 1) 12 11 0
  if bits m 12 11 == 3 then n else setBits n 17 17 0

theorem bits_mretMstatus (m : Nat) : bits (mretMstatus m) 3 3 = bits m 7 7 ∧ bits (mretMstatus m) 7 7 = 1 ∧ bits (mretMstatus m) 12 11 = 0 := by
  have hmprv (hi lo : Nat) (h : hi < 17) : bits (mretMstatus m) hi lo =
      bits (setBits (setBits (setBits m 3 3 (bits m 7 7)) 7 7 1) 12 11 0) hi lo := by
    unfold mretMstatus
    dsimp only
    split
    · rfl
    · exact bits_setBits_apart _ _ le_rfl (by omega)
  rw [hmprv _ _ (by omega), hmprv _ _ (by omega), hmprv _ _ (by omega)]
  refine ⟨?_, ?_, ?_⟩
  · rw [bits_setBits_apart _ _ (by omega) (by omega), bits_setBits_apart _ _ le_rfl (by omega)]
    exact bits_setBits_self_lt _ _ le_rfl (bits_lt m 7 7)
  · rw [bits_setBits_apart _ _ (by omega) (by omega), bits_setBits_self_lt _ _ le_rfl (by decide)]
  · exact bits_setBits_self_lt _ _ (by omega) (by decide)

/-! ### The core after a trap -/

/-- Filling the instruction cache leaves the rest of the core. -/
theorem coreOf_fillCache (s : State) (p raw len : Nat) :
    coreOf (fillCache s p raw len) p = { coreOf s p with icache := (coreOf (fillCache s p raw len) p).icache } := by
  unfold fillCache
  rw [coreOf_updCore_same]

theorem coreOf_of_particles {s t : State} (h : t.particles = s.particles) (p : Nat) : coreOf t p = coreOf s p := by
  rw [coreOf, coreOf, partOf, partOf, h]

theorem partOf_of_particles {s t : State} (h : t.particles = s.particles) (p : Nat) : partOf t p = partOf s p := by
  rw [partOf, partOf, h]

/-- R250: the core of a Particle that takes an exception with no fault record. -/
theorem coreOf_takeTrap (s : State) (p : Nat) (t : Trap) (h : t.fault = none) :
    coreOf (takeTrap s p t) p = trapEnter (coreOf s p) false t.code t.tval := by
  unfold takeTrap
  rw [h]
  exact coreOf_updCore_same _ _ _

/-- R250: the parts of a core that has entered a trap for an exception. -/
theorem trapEnter_exception (c : PCore) (code tval : Nat) : let d := trapEnter c false code tval
    d.mach = true ∧ d.csr.mepc = c.pc ∧ d.csr.mcause = BitVec.ofNat 64 code ∧ d.csr.mtval = BitVec.ofNat 64 tval ∧
    d.pc.toNat = c.csr.mtvec.toNat / 4 * 4 ∧ mst d 3 3 = 0 ∧ mst d 7 7 = mst c 3 3 ∧ mst d 12 11 = (if c.mach then 3 else 0) ∧ d.x = c.x := by
  intro d
  have hm (hi lo : Nat) (h : hi < 64) : mst d hi lo = bits (trapMstatus c.csr.mstatus.toNat c.mach) hi lo := bits_toNat_ofNat _ _ _ h
  obtain ⟨h3, h7, h12⟩ := bits_trapMstatus c.csr.mstatus.toNat c.mach
  have hpc : d.pc = BitVec.ofNat 64 (c.csr.mtvec.toNat / 4 * 4) := congrArg (BitVec.ofNat 64) (if_neg fun h => absurd h.1 (by decide))
  refine ⟨rfl, rfl, rfl, rfl, ?_, (hm _ _ (by omega)).trans h3, (hm _ _ (by omega)).trans h7, (hm _ _ (by omega)).trans h12, rfl⟩
  rw [hpc, BitVec.toNat_ofNat, Nat.mod_eq_of_lt]
  have := c.csr.mtvec.isLt
  omega

/-- MRET in machine mode. -/
theorem rvMret_machine (s : State) (p : Nat) (h : (coreOf s p).mach = true) : rvMret s p = .done (retire (updCore s p fun c =>
    { c with mach := bits (coreOf s p).csr.mstatus.toNat 12 11 == 3
             csr := { c.csr with mstatus := BitVec.ofNat 64 (mretMstatus (coreOf s p).csr.mstatus.toNat) } }) p (coreOf s p).csr.mepc.toNat) := by
  unfold rvMret
  dsimp only
  rw [h]
  rfl

/-- Settles O14: the row's trap is taken (`coreOf_takeTrap`), and MRET undoes what `trapEnter` did to mstatus. -/
theorem particleExceptionsEnterAndReturn : Obligations.ParticleExceptionsEnterAndReturn := by
  unfold Obligations.ParticleExceptionsEnterAndReturn
  refine ⟨fun s p hit raw w len s₁ h code tval hd => ?_, fun s p hit raw w len s₁ h hd hmach => ?_⟩
  · have hfill := eq_fillCache_of_prtRuns h
    have htrap : ∃ tr : Trap, rvExec p s₁ w len = .trap s₁ tr ∧
        (if tr.code = 2 then { tr with tval := raw } else tr) = ⟨code, tval, none⟩ := by
      unfold rvExec
      dsimp only
      rcases hd with ⟨hd, rfl, rfl⟩ | ⟨hd, rfl, rfl⟩ | ⟨hd, rfl, rfl⟩
      · rw [hd]
        refine ⟨_, rfl, ?_⟩
        cases (coreOf s₁ p).mach <;> rfl
      · rw [hd]
        exact ⟨_, rfl, rfl⟩
      · rw [hd]
        exact ⟨_, rfl, rfl⟩
    obtain ⟨tr, hbody, htr⟩ := htrap
    refine ⟨_, ran_prtStep_trap _ h hbody, ?_⟩
    rw [coreOf_underQueue, htr, coreOf_takeTrap _ _ _ rfl, hfill]
    have := trapEnter_exception (coreOf (fillCache s p raw len) p) code tval
    rw [coreOf_fillCache] at this ⊢
    exact this
  · have hfill := eq_fillCache_of_prtRuns h
    have hbody : rvExec p s₁ w len = rvMret s₁ p := by rw [rvExec, hd]
    have hmach₁ : (coreOf s₁ p).mach = true := by rw [hfill, coreOf_fillCache, hmach]
    rw [rvMret_machine _ _ hmach₁] at hbody
    refine ⟨_, ran_prtStep_done _ h hbody, ?_⟩
    rw [coreOf_underQueue, coreOf_retire, coreOf_updCore_same, hfill, coreOf_fillCache]
    obtain ⟨h3, h7, h12⟩ := bits_mretMstatus (coreOf s p).csr.mstatus.toNat
    exact ⟨BitVec.ofNat_toNat _ _, rfl, (bits_toNat_ofNat _ _ _ (by omega)).trans h3, (bits_toNat_ofNat _ _ _ (by omega)).trans h7,
      (bits_toNat_ofNat _ _ _ (by omega)).trans h12, rfl⟩

end Sys2Proof.Machine
end

section
/-! PVX (chapter 08): the rules of vector and mask registers, of elements and of group writes; then O18, O19 and O20. -/

namespace Sys2Proof.Machine

open Sys2Proof.Claims

/-! ### Changes made point by point -/

/-- A run of changes over distinct indices, each of which changes what is read at its own index only. -/
theorem foldl_pointwise {β γ : Type} (get : β → Nat → γ) (step : β → Nat → β) (new : Nat → γ → γ) (P : β → Prop)
    (hP : ∀ d e, P d → P (step d e)) (hstep : ∀ d e j, P d → get (step d e) j = if j = e then new e (get d j) else get d j)
    (l : List Nat) (hl : l.Nodup) (d : β) (hd : P d) (j : Nat) :
    get (l.foldl step d) j = if j ∈ l then new j (get d j) else get d j := by
  induction l generalizing d with
  | nil => rw [if_neg List.not_mem_nil]; rfl
  | cons e r ih =>
    rw [List.nodup_cons] at hl
    rw [List.foldl_cons, ih hl.2 _ (hP _ _ hd), hstep _ _ _ hd]
    by_cases he : j = e
    · subst he
      rw [if_neg hl.1, if_pos rfl, if_pos List.mem_cons_self]
    · simp only [List.mem_cons, he, false_or, if_false]

theorem bit_setBits (x e v j : Nat) : bit (setBits x e e v) j = if j = e then bit v 0 else bit x j := by
  unfold bit
  rw [testBit_setBits _ _ _ _ _ le_rfl]
  by_cases h : j = e
  · rw [if_pos (by omega), if_pos h, h, Nat.sub_self]
  · rw [if_neg (by omega), if_neg h]

@[simp] theorem bit_b2n (b : Bool) : bit (b2n b) 0 = b := by cases b <;> rfl

/-! ### Vector and mask registers -/

theorem vlenOf_pos (c : PCore) : 0 < vlenOf c := by
  unfold vlenOf
  split <;> decide

theorem vReg_lt (c : PCore) (r : Nat) : vReg c r < 2 ^ vlenOf c := by
  unfold vReg vlenOf
  split
  · exact BitVec.isLt _
  · exact BitVec.isLt _

theorem vReg_vRegPut_same (c : PCore) (r x : Nat) : vReg (vRegPut c r x) r = x % 2 ^ vlenOf c := by
  cases h : c.overlay <;>
    simp only [vReg, vRegPut, vlenOf, fsDirty, fGet, h, if_true, if_false, Bool.false_eq_true, mapGet_mapSet_same, BitVec.toNat_ofNat]

theorem vReg_vRegPut_other (c : PCore) (r q x : Nat) (hq : q ≠ r) : vReg (vRegPut c r x) q = vReg c q := by
  cases h : c.overlay <;>
    simp only [vReg, vRegPut, fsDirty, fGet, h, if_true, if_false, Bool.false_eq_true, mapGet_mapSet_other _ _ _ _ _ _ hq]

/-- What a write of a vector register leaves. -/
theorem vRegPut_keeps (c : PCore) (r x : Nat) : (vRegPut c r x).overlay = c.overlay ∧ (vRegPut c r x).x = c.x ∧ (vRegPut c r x).m = c.m ∧
    (vRegPut c r x).vl = c.vl ∧ (vRegPut c r x).lmem = c.lmem ∧ (vRegPut c r x).mach = c.mach ∧
    (vRegPut c r x).csr.pmpcfg = c.csr.pmpcfg ∧ (vRegPut c r x).csr.pmpaddr = c.csr.pmpaddr ∧ (vRegPut c r x).pc = c.pc := by
  unfold vRegPut
  split <;> exact ⟨rfl, rfl, rfl, rfl, rfl, rfl, rfl, rfl, rfl⟩

/-- What a write of an element leaves. -/
theorem vPut_keeps (c : PCore) (vn sew e v : Nat) (po : Option Nat) : (vPut c vn sew e v po).overlay = c.overlay ∧
    (vPut c vn sew e v po).x = c.x ∧ (vPut c vn sew e v po).m = c.m ∧ (vPut c vn sew e v po).vl = c.vl ∧
    (vPut c vn sew e v po).lmem = c.lmem ∧ (vPut c vn sew e v po).mach = c.mach ∧
    (vPut c vn sew e v po).csr.pmpcfg = c.csr.pmpcfg ∧ (vPut c vn sew e v po).csr.pmpaddr = c.csr.pmpaddr ∧ (vPut c vn sew e v po).pc = c.pc := by
  have h := vRegPut_keeps c (vAt c vn sew e).1
    (setBits (vReg c (vAt c vn sew e).1) ((vAt c vn sew e).2 + sew - 1) (vAt c vn sew e).2 v)
  unfold vPut
  dsimp only
  split <;> exact h

theorem vReg_vPut (c : PCore) (vn sew e v : Nat) (po : Option Nat) (r : Nat) : vReg (vPut c vn sew e v po) r =
    vReg (vRegPut c (vAt c vn sew e).1
      (setBits (vReg c (vAt c vn sew e).1) ((vAt c vn sew e).2 + sew - 1) (vAt c vn sew e).2 v)) r := by
  unfold vPut
  dsimp only
  split <;> rfl

theorem vlenOf_of_overlay {c d : PCore} (h : d.overlay = c.overlay) : vlenOf d = vlenOf c := by
  rw [vlenOf, vlenOf, h]

theorem vAt_of_overlay {c d : PCore} (h : d.overlay = c.overlay) (vn sew e : Nat) : vAt d vn sew e = vAt c vn sew e := by
  rw [vAt, vAt, vlenOf_of_overlay h]

/-- The elements of a group that share a register lie apart in it. -/
theorem vAt_apart (c : PCore) (vn sew e j : Nat) (hs : 0 < sew) (hd : sew ∣ vlenOf c) (hne : j ≠ e)
    (hr : (vAt c vn sew j).1 = (vAt c vn sew e).1) :
    (vAt c vn sew j).2 + sew ≤ (vAt c vn sew e).2 ∨ (vAt c vn sew e).2 + sew ≤ (vAt c vn sew j).2 := by
  obtain ⟨q, hq⟩ := hd
  have hqpos : 0 < q := Nat.pos_of_mul_pos_left (hq ▸ vlenOf_pos c)
  simp only [vAt, hq] at hr ⊢
  have hdiv (i : Nat) : i * sew / (sew * q) = i / q := by rw [Nat.mul_comm i, Nat.mul_div_mul_left _ _ hs]
  have hmod (i : Nat) : i * sew % (sew * q) = sew * (i % q) := by rw [Nat.mul_comm i, Nat.mul_mod_mul_left]
  rw [hmod, hmod]
  rw [hdiv, hdiv] at hr
  have hdistinct : j % q ≠ e % q := fun h => hne (by
    rw [← Nat.div_add_mod j q, ← Nat.div_add_mod e q, h, show j / q = e / q by omega])
  rcases Nat.lt_or_gt_of_ne hdistinct with h | h
  · exact .inl (by simpa [Nat.mul_succ] using Nat.mul_le_mul_left sew (Nat.succ_le_of_lt h))
  · exact .inr (by simpa [Nat.mul_succ] using Nat.mul_le_mul_left sew (Nat.succ_le_of_lt h))

/-- An element lies inside its register. -/
theorem vAt_inside (c : PCore) (vn sew e : Nat) (hd : sew ∣ vlenOf c) : (vAt c vn sew e).2 + sew ≤ vlenOf c := by
  obtain ⟨q, hq⟩ := hd
  have hqpos : 0 < q := Nat.pos_of_mul_pos_left (hq ▸ vlenOf_pos c)
  simp only [vAt, hq]
  rw [Nat.mul_comm e, Nat.mul_mod_mul_left]
  simpa [Nat.mul_succ] using Nat.mul_le_mul_left sew (Nat.succ_le_of_lt (Nat.mod_lt e hqpos))

/-- An element reads as written, and the group's other elements as before. -/
theorem vEl_vPut (c : PCore) (vn sew e v : Nat) (po : Option Nat) (j : Nat) (hs : 0 < sew) (hd : sew ∣ vlenOf c) :
    vEl (vPut c vn sew e v po) vn sew j = if j = e then v % 2 ^ sew else vEl c vn sew j := by
  have hin := vAt_inside c vn sew j hd
  unfold vEl
  rw [vAt_of_overlay (vPut_keeps c vn sew e v po).1]
  dsimp only
  rw [vReg_vPut]
  by_cases hje : j = e
  · subst hje
    rw [if_pos rfl, vReg_vRegPut_same, bits_mod_two_pow _ _ _ _ (by omega), bits_setBits_same _ _ (by omega)]
    congr 2
    omega
  · rw [if_neg hje]
    by_cases hr : (vAt c vn sew j).1 = (vAt c vn sew e).1
    · rw [hr, vReg_vRegPut_same, bits_mod_two_pow _ _ _ _ (by omega)]
      have := vAt_apart c vn sew e j hs hd hje hr
      exact bits_setBits_apart _ _ (by omega) (by omega)
    · rw [vReg_vRegPut_other _ _ _ _ hr]

/-- A write into a group leaves the registers below it. -/
theorem vReg_vPut_below (c : PCore) (vn sew e v : Nat) (po : Option Nat) (r : Nat) (h : r < vn) :
    vReg (vPut c vn sew e v po) r = vReg c r := by
  rw [vReg_vPut]
  exact vReg_vRegPut_other _ _ _ _ (Nat.ne_of_lt (Nat.lt_of_lt_of_le h (Nat.le_add_right _ _)))

/-! ### Flags -/

/-- What accruing flags leaves. -/
theorem accrue_keeps (c : PCore) (fl : Nat) : (accrue c fl).overlay = c.overlay ∧ (accrue c fl).x = c.x ∧ (accrue c fl).m = c.m ∧
    (accrue c fl).vl = c.vl ∧ (accrue c fl).f = c.f ∧ (accrue c fl).v = c.v := by
  unfold accrue
  split <;> exact ⟨rfl, rfl, rfl, rfl, rfl, rfl⟩

theorem vReg_accrue (c : PCore) (fl r : Nat) : vReg (accrue c fl) r = vReg c r := by
  obtain ⟨ho, _, _, _, hf, hv⟩ := accrue_keeps c fl
  unfold vReg fGet
  rw [ho, hf, hv]

theorem vEl_accrue (c : PCore) (fl vn sew e : Nat) : vEl (accrue c fl) vn sew e = vEl c vn sew e := by
  unfold vEl
  rw [vAt_of_overlay (accrue_keeps c fl).1]
  exact congrArg (bits · _ _) (vReg_accrue c fl _)

/-! ### Group writes (R259) -/

/-- One element's turn in a group write. -/
def vWriteStep (c : PCore) (v : VEnv) (sew : Nat) (f : Nat → FpR) (d : PCore) (e : Nat) : PCore :=
  if vAct c v e then accrue (vPut d v.vd sew e (f e).1 none) (f e).2 else if v.z then vPut d v.vd sew e 0 none else d

theorem vWrite_eq (c : PCore) (v : VEnv) (sew : Nat) (f : Nat → FpR) :
    vWrite c v sew f = (List.range v.n).foldl (vWriteStep c v sew f) c := rfl

theorem vWriteStep_keeps (c : PCore) (v : VEnv) (sew : Nat) (f : Nat → FpR) (d : PCore) (e : Nat) :
    (vWriteStep c v sew f d e).overlay = d.overlay ∧ (vWriteStep c v sew f d e).x = d.x ∧ (vWriteStep c v sew f d e).m = d.m ∧
    (vWriteStep c v sew f d e).vl = d.vl := by
  unfold vWriteStep
  split
  · obtain ⟨ho, hx, hm, hv, -⟩ := accrue_keeps (vPut d v.vd sew e (f e).1 none) (f e).2
    obtain ⟨po, px, pm, pv, -⟩ := vPut_keeps d v.vd sew e (f e).1 none
    exact ⟨ho.trans po, hx.trans px, hm.trans pm, hv.trans pv⟩
  · split
    · obtain ⟨po, px, pm, pv, -⟩ := vPut_keeps d v.vd sew e 0 none
      exact ⟨po, px, pm, pv⟩
    · exact ⟨rfl, rfl, rfl, rfl⟩

theorem vEl_vWriteStep (c : PCore) (v : VEnv) (sew : Nat) (f : Nat → FpR) (d : PCore) (e j : Nat) (hs : 0 < sew) (hd : sew ∣ vlenOf d) :
    vEl (vWriteStep c v sew f d e) v.vd sew j =
      if j = e then (if vAct c v e then (f e).1 % 2 ^ sew else if v.z then 0 else vEl d v.vd sew j) else vEl d v.vd sew j := by
  unfold vWriteStep
  split
  · rw [vEl_accrue, vEl_vPut _ _ _ _ _ _ _ hs hd]
  · split
    · rw [vEl_vPut _ _ _ _ _ _ _ hs hd, Nat.zero_mod]
    · rw [ite_self]

theorem vReg_vWriteStep_below (c : PCore) (v : VEnv) (sew : Nat) (f : Nat → FpR) (d : PCore) (e r : Nat) (h : r < v.vd) :
    vReg (vWriteStep c v sew f d e) r = vReg d r := by
  unfold vWriteStep
  split
  · rw [vReg_accrue, vReg_vPut_below _ _ _ _ _ _ _ h]
  · split
    · exact vReg_vPut_below _ _ _ _ _ _ _ h
    · rfl

/-- R259: the elements of a group after a write of it. -/
theorem vEl_vWrite (c : PCore) (v : VEnv) (sew : Nat) (f : Nat → FpR) (e : Nat) (hs : 0 < sew) (hd : sew ∣ vlenOf c) :
    vEl (vWrite c v sew f) v.vd sew e =
      if e < v.n then (if vAct c v e then (f e).1 % 2 ^ sew else if v.z then 0 else vEl c v.vd sew e) else vEl c v.vd sew e := by
  have h := foldl_pointwise (fun d j => vEl d v.vd sew j) (vWriteStep c v sew f)
    (fun e x => if vAct c v e then (f e).1 % 2 ^ sew else if v.z then 0 else x) (fun d => d.overlay = c.overlay)
    (fun d e h => (vWriteStep_keeps c v sew f d e).1.trans h)
    (fun d e j h => vEl_vWriteStep c v sew f d e j hs (vlenOf_of_overlay h ▸ hd)) (List.range v.n) List.nodup_range c rfl e
  rw [vWrite_eq]
  simpa only [List.mem_range] using h

/-! ### Rows -/

/-- A PVX instruction that is enabled, legal and clean runs its body. -/
theorem vRun_clean {s : State} {p : Nat} (v : VEnv) (hp : v.p = p) {bad : Bool} {els : List (Nat × Nat × Nat)} {xs fs : List Nat}
    {body : Unit → RvOut} {r : RvOut} (hon : pvxOn (coreOf s p) = true) (hbad : bad = false) (hclean : pvxClean s p els xs fs)
    (hbody : body () = r) : vRun s v bad els xs fs body = r := by
  subst hp hbody
  unfold vRun
  rw [hon, hbad]
  exact congrArg (fun u : Option (State × Trap) => match u with
    | some (t, tr) => RvOut.trap t tr
    | none => body ()) hclean

/-- A row whose instruction writes the core and retires. -/
theorem pvxRow_done {s : State} {p : Nat} {hit : Bool} {op raw w len : Nat} {s₁ t : State} {body : Nat → State → Nat → Nat → RvOut}
    (h : prtRuns s p hit (.pvx op) raw w len s₁) (hb : body p s₁ w len = .done t) : pvxRow p hit op body s = .next (underQueue s t) :=
  ran_prtStep_done _ h hb

/-- No element is read: no poison is met. -/
theorem pvxClean_nil (s : State) (p : Nat) : pvxClean s p [] [] [] := by
  unfold pvxClean vUse poisonUse
  rfl

theorem vBad_false {n m : Nat} (h : n % m = 0) : vBad n m = false := by
  rw [vBad, h]
  rfl

/-- The element-wise rows run the shape that the claims give. -/
theorem exec_pvxElems (p : Nat) (hit : Bool) : ∀ r ∈ pvxElems p hit, ∀ s, exec r.2.1 s = pvxRow p hit r.1 (vElem r.2.2.1 r.2.2.2) s := by
  simp only [pvxElems, List.forall_mem_cons]
  repeat' apply And.intro
  all_goals first | exact fun _ => rfl | exact fun _ h => absurd h List.not_mem_nil

end Sys2Proof.Machine
end

section
/-! PVX results (chapter 08): O18, O19 and O20. -/

namespace Sys2Proof.Machine

open Sys2Proof.Claims

/-- A change of a core depends on the change only where it applies. -/
theorem updCore_congr (s : State) (p : Nat) {f g : PCore → PCore} (h : f (coreOf s p) = g (coreOf s p)) : updCore s p f = updCore s p g :=
  congrArg (fun c => { s with particles := mapIns s.particles p { partOf s p with core := c } }) h

/-! ### Element-wise operations -/

theorem elemLegal_bad {o : VSpec} {v : VEnv} (h : elemLegal o v) : ((o.float && v.sew == 8) || (o.only32 && v.sew != 32) || (o.zero1 && v.r1 != 0)
    || ((decide (1 < o.dst) || decide (1 < o.src)) && (v.lmul == 8 || v.sew == 64))
    || vBad v.vd (o.dst * v.lmul) || vBad v.r2 (o.src * v.lmul) || ((o.uses1 && !v.scalar) && vBad v.r1 v.lmul)
    || ((decide (1 < o.dst) || decide (1 < o.src)) && (vMeet v.vd (o.dst * v.lmul) v.r2 (o.src * v.lmul) ||
      ((o.uses1 && !v.scalar) && vMeet v.vd (o.dst * v.lmul) v.r1 v.lmul)))) = false := by
  obtain ⟨hfloat, h32, hzero, hvd, hr2, hr1, hwide⟩ := h
  have hmeet (a m b k : Nat) (hd : a + m ≤ b ∨ b + k ≤ a) : vMeet a m b k = false := by
    rw [vMeet, Bool.and_eq_false_iff, decide_eq_false_iff_not, decide_eq_false_iff_not]
    omega
  have hv1 : ((o.uses1 && !v.scalar) && vBad v.r1 v.lmul) = false := by
    cases hu : o.uses1 <;> cases hs : v.scalar <;> simp only [Bool.false_and, Bool.and_false, Bool.not_true, Bool.not_false, Bool.true_and]
    exact vBad_false (hr1 hu hs)
  have hw : ((decide (1 < o.dst) || decide (1 < o.src)) && (v.lmul == 8 || v.sew == 64)) = false := by
    by_cases hd : 1 < o.dst ∨ 1 < o.src
    · simp [(hwide hd).1, (hwide hd).2.1]
    · simp [not_or.mp hd]
  have hm : ((decide (1 < o.dst) || decide (1 < o.src)) && (vMeet v.vd (o.dst * v.lmul) v.r2 (o.src * v.lmul) ||
      ((o.uses1 && !v.scalar) && vMeet v.vd (o.dst * v.lmul) v.r1 v.lmul))) = false := by
    by_cases hd : 1 < o.dst ∨ 1 < o.src
    · obtain ⟨_, _, h2, h1⟩ := hwide hd
      rw [hmeet _ _ _ _ h2]
      cases hu : o.uses1 <;> cases hs : v.scalar <;> simp only [Bool.false_and, Bool.and_false, Bool.not_true, Bool.not_false, Bool.true_and,
        Bool.or_false, Bool.false_or]
      rw [hmeet _ _ _ _ (h1 hu hs), Bool.and_false]
    · simp [not_or.mp hd]
  rw [vBad_false hvd, vBad_false hr2, hv1, hw, hm]
  cases hf : o.float <;> cases h3 : o.only32 <;> cases hz : o.zero1 <;> simp_all

/-- Settles O18: each row runs the element-wise shape, and a group write is a run of element writes (`vEl_vWrite`). -/
theorem pvxElementwiseResults : Obligations.PvxElementwiseResults := by
  unfold Obligations.PvxElementwiseResults
  constructor
  · intro s p hit raw w len s₁ func i o f hrow h hon c v hlegal hclean
    have hrun : vElem o f p s₁ w len = .done (retire (updCore s₁ p fun d => vWrite d v (o.dst * v.sew) fun e =>
        f v (vEl d v.r2 (o.src * v.sew) e) (if v.scalar then vScalar c v o.float v.sew else vEl c v.r1 v.sew e)
          (vEl d v.vd (o.dst * v.sew) e)) p v.nx) := by
      unfold vElem
      exact vRun_clean (p := p) v rfl hon (elemLegal_bad hlegal) hclean rfl
    refine (exec_pvxElems p hit _ hrow s).trans (pvxRow_done h (hrun.trans ?_))
    exact congrArg (fun t => RvOut.done (retire t p v.nx)) (updCore_congr _ _ rfl)
  · intro c v sew f hs hd
    refine ⟨fun e he => ?_, fun e he => ?_, fun r hr => ?_, ?_, ?_, ?_⟩
    · rw [vEl_vWrite _ _ _ _ _ hs hd, if_pos he]
    · rw [vEl_vWrite _ _ _ _ _ hs hd, if_neg (Nat.not_lt.mpr he)]
    · exact foldl_keep (fun d => vReg d r) _ (fun d e => vReg_vWriteStep_below c v sew f d e r hr) _ _
    · exact foldl_keep PCore.x _ (fun d e => (vWriteStep_keeps c v sew f d e).2.1) _ _
    · exact foldl_keep PCore.m _ (fun d e => (vWriteStep_keeps c v sew f d e).2.2.1) _ _
    · exact foldl_keep PCore.vl _ (fun d e => (vWriteStep_keeps c v sew f d e).2.2.2) _ _

/-! ### Mask registers -/

theorem mReg_mRegPut_same (c : PCore) (r x : Nat) : mReg (mRegPut c r x) r = x % 2 ^ vlenOf c := by
  have hle : vlenOf c ≤ 512 := by
    unfold vlenOf
    split <;> decide
  unfold mReg mRegPut
  rw [mapGet_mapSet_same, BitVec.toNat_setWidth, BitVec.toNat_ofNat]
  exact Nat.mod_eq_of_lt (Nat.lt_of_lt_of_le (Nat.mod_lt _ (Nat.two_pow_pos _)) (Nat.pow_le_pow_right (by decide) hle))

theorem bit_mRegPut (c : PCore) (r x e : Nat) (he : e < vlenOf c) : bit (mReg (mRegPut c r x) r) e = bit x e := by
  rw [mReg_mRegPut_same, bit, Nat.testBit_mod_two_pow, decide_eq_true he, Bool.true_and, bit]

theorem mReg_of_m {c d : PCore} (h : d.m = c.m) (r : Nat) : mReg d r = mReg c r := by rw [mReg, mReg, h]

/-- Bits set one after another. -/
theorem bit_foldl_setBits (g : Nat → Nat) (n x j : Nat) :
    bit ((List.range n).foldl (fun m e => setBits m e e (g e)) x) j = if j < n then bit (g j) 0 else bit x j := by
  have h := foldl_pointwise bit (fun m e => setBits m e e (g e)) (fun e _ => bit (g e) 0) (fun _ => True) (fun _ _ _ => trivial)
    (fun d e j _ => by
      rw [bit_setBits]) (List.range n) List.nodup_range x trivial j
  simpa only [List.mem_range] using h

/-! ### Compares -/

/-- The three outcomes of an element's turn, told apart in one conditional. -/
theorem ite_turn {α : Type} (q : Prop) [Decidable q] (on zero : Bool) (x y z : α) :
    (if q then (if on then x else if zero then y else z) else z) = if q ∧ on = true then x else if q ∧ zero = true then y else z := by
  by_cases hq : q
  · simp only [hq, if_true, true_and]
  · simp only [hq, if_false, false_and]

theorem exec_pvxCompares (p : Nat) (hit : Bool) : ∀ r ∈ pvxCompares p hit, ∀ s, exec r.2.1 s = pvxRow p hit r.1 (vCmp r.2.2.1 r.2.2.2) s := by
  simp only [pvxCompares, List.forall_mem_cons]
  exact ⟨fun _ => rfl, fun _ => rfl, fun _ => rfl, fun _ => rfl, fun _ => rfl, fun _ => rfl, fun _ h => absurd h List.not_mem_nil⟩

/-- One element's turn in a compare. -/
def vCmpStep (c : PCore) (v : VEnv) (r : Nat → FpR) (acc : Nat × Nat) (e : Nat) : Nat × Nat :=
  if vAct c v e then (setBits acc.1 e e (r e).1, acc.2 ||| (r e).2) else if v.z then (setBits acc.1 e e 0, acc.2) else acc

theorem bit_vCmpStep (c : PCore) (v : VEnv) (r : Nat → FpR) (acc : Nat × Nat) (e j : Nat) : bit (vCmpStep c v r acc e).1 j =
    if j = e then (if vAct c v e then bit (r e).1 0 else if v.z then false else bit acc.1 j) else bit acc.1 j := by
  unfold vCmpStep
  split
  · exact bit_setBits _ _ _ _
  · split
    · exact (bit_setBits _ _ _ _).trans (by rw [bit, Nat.zero_testBit])
    · rw [ite_self]

theorem bit_foldl_vCmpStep (c : PCore) (v : VEnv) (r : Nat → FpR) (acc : Nat × Nat) (e : Nat) :
    bit ((List.range v.n).foldl (vCmpStep c v r) acc).1 e =
      if e < v.n then (if vAct c v e then bit (r e).1 0 else if v.z then false else bit acc.1 e) else bit acc.1 e := by
  have h := foldl_pointwise (fun (a : Nat × Nat) j => bit a.1 j) (vCmpStep c v r)
    (fun e x => if vAct c v e then bit (r e).1 0 else if v.z then false else x) (fun _ => True) (fun _ _ _ => trivial)
    (fun d e j _ => bit_vCmpStep c v r d e j) (List.range v.n) List.nodup_range acc trivial e
  simpa only [List.mem_range] using h

/-- The element of vs1 or the scalar. -/
def vSrc1 (c : PCore) (v : VEnv) (fl : Bool) (e : Nat) : Nat := if v.scalar then vScalar c v fl v.sew else vEl c v.r1 v.sew e

theorem vSrc1_eq (c : PCore) (v : VEnv) (fl : Bool) (e : Nat) :
    vSrc1 c v fl e = if v.scalar then vScalar c v fl v.sew else vEl c v.r1 v.sew e := rfl

/-- The bits and the flags that a compare comes to. -/
def vCmpRes (c : PCore) (v : VEnv) (fl : Bool) (f : VEnv → Nat → Nat → FpR) : Nat × Nat :=
  (List.range v.n).foldl (vCmpStep c v fun e => f v (vEl c v.r2 v.sew e) (vSrc1 c v fl e)) (mReg c v.vd, 0)

theorem notFloat8_false {fl : Bool} {sew : Nat} (h : fl = true → sew ≠ 8) : (fl && sew == 8) = false := by
  cases fl
  · rfl
  · simpa using h rfl

theorem vector1_bad {v : VEnv} (h : v.scalar = false → v.r1 % v.lmul = 0) : (!v.scalar && vBad v.r1 v.lmul) = false := by
  cases hs : v.scalar
  · exact vBad_false (h hs)
  · rfl

/-! ### Reductions -/

theorem exec_pvxReductions (p : Nat) (hit : Bool) : ∀ r ∈ pvxReductions p hit, ∀ s,
    exec r.2.1 s = pvxRow p hit r.1 (vRed r.2.2.1 r.2.2.2) s := by
  simp only [pvxReductions, List.forall_mem_cons]
  exact ⟨fun _ => rfl, fun _ => rfl, fun _ => rfl, fun _ => rfl, fun _ => rfl, fun _ => rfl, fun _ h => absurd h List.not_mem_nil⟩

/-- Settles O19: a compare sets its bits one by one (`bit_foldl_vCmpStep`); a reduction is the fold that the row names. -/
theorem pvxComparesAndReductions : Obligations.PvxComparesAndReductions := by
  unfold Obligations.PvxComparesAndReductions
  constructor
  · intro s p hit raw w len s₁ func i fl f hrow h hon c v hfl hvd hr2 hr1 hclean
    have hbad : ((fl && v.sew == 8) || decide (8 ≤ v.vd) || vBad v.r2 v.lmul || (!v.scalar && vBad v.r1 v.lmul)) = false := by
      rw [notFloat8_false hfl, vBad_false hr2, vector1_bad hr1, decide_eq_false (by omega)]
      rfl
    have hclean' : pvxClean s₁ p (vEls v.r2 v.sew (vActs c v) ++ (if !v.scalar then vEls v.r1 v.sew (vActs c v) else []))
        (if v.scalar && !fl then [v.r1] else []) (if v.scalar && fl then [v.r1] else []) := by
      cases hs : v.scalar <;> rw [hs] at hclean <;> exact hclean
    have hbody : vCmp fl f p s₁ w len = .done (retire (updCore s₁ p fun d =>
        accrue (mRegPut d v.vd (vCmpRes c v fl f).1) (vCmpRes c v fl f).2) p v.nx) := by
      unfold vCmp
      exact vRun_clean (p := p) v rfl hon hbad hclean' rfl
    refine ⟨_, (exec_pvxCompares p hit _ hrow s).trans (pvxRow_done h hbody), ?_, fun e he => ?_⟩
    · rw [coreOf_underQueue, coreOf_retire]
    · have hm : (coreOf (underQueue s (retire (updCore s₁ p fun d => accrue (mRegPut d v.vd (vCmpRes c v fl f).1) (vCmpRes c v fl f).2) p v.nx)) p).m =
          (mRegPut c v.vd (vCmpRes c v fl f).1).m := by
        rw [coreOf_underQueue, coreOf_retire, coreOf_updCore_same]
        exact (accrue_keeps _ _).2.2.1
      rw [mReg_of_m hm, bit_mRegPut _ _ _ _ he, vCmpRes, bit_foldl_vCmpStep]
      exact ite_turn _ _ _ _ _ _
  · intro s p hit raw w len s₁ func i fl f hrow h hon c v hfl hvd hr2 hr1 hclean r
    have hbad : ((fl && v.sew == 8) || vBad v.vd v.lmul || vBad v.r2 v.lmul || (!v.scalar && vBad v.r1 v.lmul)) = false := by
      rw [notFloat8_false hfl, vBad_false hvd, vBad_false hr2, vector1_bad hr1]
      rfl
    have hbody : vRed fl f p s₁ w len = .done (retire (if v.n = 0 then s₁ else
        updCore s₁ p fun c => accrue (vPut c v.vd v.sew 0 r.1 none) r.2) p v.nx) := by
      unfold vRed
      exact vRun_clean (p := p) v rfl hon hbad hclean rfl
    refine ⟨fun hn => ?_, fun hn => ?_⟩
    · rw [if_pos hn] at hbody
      exact (exec_pvxReductions p hit _ hrow s).trans (pvxRow_done h hbody)
    · rw [if_neg hn] at hbody
      exact (exec_pvxReductions p hit _ hrow s).trans (pvxRow_done h hbody)

/-! ### Mask operations and moves -/

theorem exec_pvxMasks (p : Nat) (hit : Bool) : ∀ r ∈ pvxMasks p hit, ∀ s, exec r.2.1 s = pvxRow p hit r.1 (vMask r.2.2.1 r.2.2.2) s := by
  simp only [pvxMasks, List.forall_mem_cons]
  exact ⟨fun _ => rfl, fun _ => rfl, fun _ => rfl, fun _ => rfl, fun _ => rfl, fun _ h => absurd h List.not_mem_nil⟩

theorem exec_pvxMoves (p : Nat) (hit : Bool) : ∀ r ∈ pvxMoves p hit, ∀ s,
    exec r.2.1 s = pvxRow p hit r.1 (vMove r.2.2.1 r.2.2.2.1 r.2.2.2.2.1 r.2.2.2.2.2.1 r.2.2.2.2.2.2) s := by
  simp only [pvxMoves, List.forall_mem_cons]
  exact ⟨fun _ => rfl, fun _ => rfl, fun _ => rfl, fun _ => rfl, fun _ => rfl, fun _ => rfl, fun _ h => absurd h List.not_mem_nil⟩

/-- Settles O20: each mask operation sets bits one by one (`bit_foldl_setBits`); each move is its row's writes of elements. -/
theorem pvxMasksAndMoves : Obligations.PvxMasksAndMoves := by
  unfold Obligations.PvxMasksAndMoves
  refine ⟨⟨?_, ?_, ?_⟩, ?_, ?_, ?_⟩
  · intro s p hit raw w len s₁ func i two f hrow h hon c v hz hvd hr1 hr2
    have hbad : (v.z || decide (8 ≤ v.vd) || decide (8 ≤ v.r1) || (two && decide (8 ≤ v.r2))) = false := by
      rw [hz, decide_eq_false (by omega), decide_eq_false (by omega)]
      cases two
      · rfl
      · simpa using hr2 rfl
    refine ⟨_, (exec_pvxMasks p hit _ hrow s).trans (pvxRow_done h (by
      unfold vMask
      exact vRun_clean (p := p) { v with pred := 0 } rfl hon hbad (pvxClean_nil _ _) rfl)), ?_, fun e he => ?_⟩
    · rw [coreOf_underQueue, coreOf_retire]
    · rw [coreOf_underQueue, coreOf_retire, coreOf_updCore_same]
      refine (bit_mRegPut _ _ _ _ he).trans ((bit_foldl_setBits _ _ _ _).trans ?_)
      rw [bit_b2n]
  · intro s p hit raw w len s₁ h hon hbit hvd
    have hbad : (vkBad w || decide (8 ≤ bits w 11 7)) = false := by
      rw [vkBad, hbit, decide_eq_false (by omega)]
      rfl
    refine ⟨_, pvxRow_done h (by
      unfold vMset
      exact vRun_clean (p := p) (vkEnv s₁ p w len) rfl hon hbad (pvxClean_nil _ _) rfl), fun e he => ?_⟩
    rw [coreOf_underQueue, coreOf_retire, coreOf_updCore_same]
    refine (bit_mRegPut _ _ _ _ he).trans ((bit_foldl_setBits (fun _ => 1) _ _ _).trans ?_)
    by_cases hn : e < (vEnv s₁ p w len).n
    · exact (if_pos hn).trans (by rw [decide_eq_true hn]; rfl)
    · exact (if_neg hn).trans (by rw [decide_eq_false hn]; rfl)
  · intro s p hit raw w len s₁ op i hrow h hon hbit hr1 l
    have hbad : (vkBad w || decide (8 ≤ bits w 19 15)) = false := by
      rw [vkBad, hbit, decide_eq_false (by omega)]
      rfl
    simp only [List.mem_cons, Prod.mk.injEq, List.not_mem_nil, or_false] at hrow
    obtain ⟨rfl, rfl⟩ | ⟨rfl, rfl⟩ := hrow
    · exact pvxRow_done h (by
        unfold vMaskX
        exact vRun_clean (p := p) (vkEnv s₁ p w len) rfl hon hbad (pvxClean_nil _ _) rfl)
    · exact pvxRow_done h (by
        unfold vMaskX
        exact vRun_clean (p := p) (vkEnv s₁ p w len) rfl hon hbad (pvxClean_nil _ _) rfl)
  · intro s p hit raw w len s₁ op i u2 xs fs els f hrow h hon c v hbit hvd hr2 hclean
    have hbad : (vkBad w || vBad v.vd v.lmul || (u2 && vBad v.r2 v.lmul)) = false := by
      rw [vkBad, hbit, vBad_false hvd]
      cases u2
      · rfl
      · exact vBad_false (hr2 rfl)
    refine (exec_pvxMoves p hit _ hrow s).trans (pvxRow_done h ?_)
    unfold vMove
    refine vRun_clean (p := p) v rfl hon hbad hclean ?_
    exact congrArg (fun t => RvOut.done (retire t p v.nx)) (updCore_congr _ _ rfl)
  · intro s p hit raw w len s₁ hon hbit c v hr2 hclean
    have hbad : (vkBad w || vBad v.r2 v.lmul) = false := by
      rw [vkBad, hbit, vBad_false hr2]
      rfl
    refine ⟨fun h => pvxRow_done h ?_, fun h => pvxRow_done h ?_⟩
    · unfold vMvX
      exact vRun_clean (p := p) v rfl hon hbad hclean rfl
    · unfold vMvF
      exact vRun_clean (p := p) v rfl hon hbad hclean rfl
  · intro s p hit raw w len s₁ h hon c v hpred hvd hr2 hr1 hclean
    have hbad : (v.pred == 0 || vBad v.vd v.lmul || vBad v.r2 v.lmul || (!v.scalar && vBad v.r1 v.lmul)) = false := by
      rw [beq_false_of_ne hpred, vBad_false hvd, vBad_false hr2, vector1_bad hr1]
      rfl
    refine pvxRow_done h ?_
    unfold vMerge
    refine vRun_clean (p := p) v rfl hon hbad hclean ?_
    exact congrArg (fun t => RvOut.done (retire t p v.nx)) (updCore_congr _ _ rfl)

end Sys2Proof.Machine
end

section
/-! A Particle's CSRs, its modes and its issue queues (R252, R257, R258, R268, R271, R272, R593): O15 and O16. -/

namespace Sys2Proof.Machine

open Sys2Proof.Claims

/-! ### Writes of integer registers -/

theorem xPut_keeps (c : PCore) (i v : Nat) (po : Option Nat) : (xPut c i v po).csr = c.csr ∧ (xPut c i v po).vl = c.vl ∧ (xPut c i v po).v = c.v ∧
    (xPut c i v po).pc = c.pc ∧ (xPut c i v po).mach = c.mach := by
  unfold xPut
  split <;> exact ⟨rfl, rfl, rfl, rfl, rfl⟩

theorem xGet_of_x {c d : PCore} (h : d.x = c.x) (i : Nat) : xGet d i = xGet c i := by rw [xGet, xGet, h]

/-- An integer register after a write of one. -/
theorem xGet_xPut (c : PCore) (rd v i : Nat) (po : Option Nat) :
    xGet (xPut c rd v po) i = if i = rd ∧ i ≠ 0 then v % 2 ^ 64 else xGet c i := by
  by_cases h : i = rd
  · subst h
    by_cases h0 : i = 0
    · rw [if_neg fun hn => hn.2 h0, h0, xGet_zero, xGet_zero]
    · rw [if_pos ⟨rfl, h0⟩, xGet_xPut_same _ _ _ _ h0]
  · rw [if_neg fun hn => h hn.1, xGet_xPut_other _ _ _ _ _ h]

/-! ### CSR instructions -/

/-- A read of a CSR that writes none of it. -/
theorem rvCsr_read (s : State) (p rd n pc v : Nat) (h : csrRead s p n = some v) : rvCsr s p 2 rd 0 n pc = rvX s p rd v pc := by
  unfold rvCsr
  rw [h]
  rfl

theorem csrRead_pvxcfg (s : State) (p : Nat) : (csrRead s p 0x800).isSome = true := by
  unfold csrRead
  rfl

/-- R257: a write of PVXCFG that holds no reserved value. -/
theorem csrWrite_pvxcfg (s : State) (p v : Nat) (h : pvxcfgOk v = true) :
    csrWrite s p 0x800 v = some (updCsr s p fun r => { r with pvxcfg := BitVec.ofNat 64 (setBits v 8 8 0) }) := by
  have hread : (csrRead s p 0x800).isNone = false := by rw [Option.isNone_eq_false_iff, csrRead_pvxcfg]
  unfold csrWrite
  rw [if_neg (by rw [hread]; decide)]
  exact if_pos h

theorem rvCsr_pvxcfg (s : State) (p rd src pc : Nat) (h : pvxcfgOk (xGet (coreOf s p) src) = true) :
    ∃ t, rvCsr s p 1 rd src 0x800 pc = .done t ∧ (coreOf t p).csr.pvxcfg = BitVec.ofNat 64 (setBits (xGet (coreOf s p) src) 8 8 0) ∧
      (coreOf t p).vl = (coreOf s p).vl := by
  obtain ⟨old, hold⟩ := Option.isSome_iff_exists.mp (csrRead_pvxcfg s p)
  have hrun : rvCsr s p 1 rd src 0x800 pc = (if (1 % 4 != 1 || rd != 0) = true then
      rvX (updCsr s p fun r => { r with pvxcfg := BitVec.ofNat 64 (setBits (xGet (coreOf s p) src) 8 8 0) }) p rd old pc
      else .done (retire (updCsr s p fun r => { r with pvxcfg := BitVec.ofNat 64 (setBits (xGet (coreOf s p) src) 8 8 0) }) p pc)) := by
    unfold rvCsr
    rw [hold]
    dsimp only
    rw [if_pos (show (1 : Nat) < 4 by decide), show csrWrites 1 src = true from rfl, if_pos rfl]
    exact congrArg (fun o : Option State => match o with
      | none => RvOut.trap s (illegal 0)
      | some s => if (1 % 4 != 1 || rd != 0) = true then rvX s p rd old pc else .done (retire s p pc)) (csrWrite_pvxcfg s p _ h)
  rw [hrun]
  by_cases hrd : (1 % 4 != 1 || rd != 0) = true
  · refine ⟨_, if_pos hrd, ?_⟩
    obtain ⟨hcsr, hvl, -⟩ := xPut_keeps (coreOf (updCsr s p fun r => { r with pvxcfg := BitVec.ofNat 64 (setBits (xGet (coreOf s p) src) 8 8 0) }) p)
      rd old none
    rw [coreOf_retire, coreOf_updCore_same]
    refine ⟨(congrArg PCsr.pvxcfg hcsr).trans ?_, hvl.trans ?_⟩
    · rw [updCsr, coreOf_updCore_same]
    · rw [updCsr, coreOf_updCore_same]
  · refine ⟨_, if_neg hrd, ?_⟩
    rw [coreOf_retire, updCsr, coreOf_updCore_same]
    exact ⟨rfl, rfl⟩

/-! ### Modes and mismatches -/

theorem overlayChange_stopped (s : State) (p : Nat) (h : (partOf s p).running = false) :
    overlayChange s p = updCore s p fun c =>
      { c with overlay := !c.overlay, v := [], m := [], vl := 0, pv := [], f := if c.overlay then [] else c.f, pf := if c.overlay then [] else c.pf } :=
  if_neg (by rw [h]; decide)

/-- R593: a first mismatch marks the Particle. -/
theorem exec_particleMismatch_first (s : State) (p lp : Nat) (hp : p < 48) (hlp : (partOf s p).lp = some lp) (hrun : (partOf s p).running = true)
    (hretry : (partOf s p).retry = false) :
    exec (.particleMismatch p) s = .next (underQueue s (updPart s p fun q => { q with retry := true })) := by
  change execParticleMismatch p s = _
  unfold execParticleMismatch
  simp only [hlp, hrun, hretry, prtOk, decide_eq_true hp, guardUnit, Bool.not_true, Bool.not_false, Bool.false_eq_true, if_false, if_true]
  rfl

/-- Settles O15, clause by clause over the row that each command runs. -/
theorem particleCsrsAndModes : Obligations.ParticleCsrsAndModes := by
  unfold Obligations.ParticleCsrsAndModes
  refine ⟨⟨?_, ?_⟩, ⟨?_, ?_⟩, ?_⟩
  · intro s p hit now stages raw w len s₁ rd n v h hd hread
    have hbody : rvCounter p s₁ w len = .done (markIndet (retire (updCore s₁ p fun c => xPut c rd v none) p
        (lo64 ((coreOf s₁ p).pc.toNat + len))) (prtCid s₁ p)) := by
      unfold rvCounter
      dsimp only
      rw [hd]
      dsimp only
      rw [rvCsr_read _ _ _ _ _ _ hread]
      rfl
    have hcore : coreOf (markIndet (retire (updCore s₁ p fun c => xPut c rd v none) p (lo64 ((coreOf s₁ p).pc.toNat + len))) (prtCid s₁ p)) p =
        coreOf (retire (updCore s₁ p fun c => xPut c rd v none) p (lo64 ((coreOf s₁ p).pc.toNat + len))) p := rfl
    refine ⟨_, ran_prtStep_done s h hbody, fun i _ => ?_, ?_, ?_⟩
    · rw [coreOf_underQueue, hcore, coreOf_retire, coreOf_updCore_same]
      exact (xGet_of_x rfl i).trans (xGet_xPut _ _ _ _ _)
    · rw [ctxOf_underQueue, markIndet, ctxOf_updCtx_same]
    · rw [coreOf_underQueue, hcore, coreOf_retire]
  · intro s p hit raw w len s₁ rd src h hd hok
    obtain ⟨t, ht, hcfg, hvl⟩ := rvCsr_pvxcfg s₁ p rd src (lo64 ((coreOf s₁ p).pc.toNat + len)) hok
    have hbody : rvExec p s₁ w len = .done t := by rw [rvExec, hd, ← ht]
    exact ⟨_, ran_prtStep_done s h hbody, hcfg, hvl⟩
  · intro s p hp hstop
    refine ⟨underQueue s (overlayChange s p), ?_, ?_⟩
    · change guardUnit (prtOk p) _ = _
      rw [prtOk, decide_eq_true hp]
      rfl
    · rw [coreOf_underQueue, overlayChange_stopped s p hstop, coreOf_updCore_same]
      exact ⟨rfl, rfl, rfl, rfl, fun h => if_neg (by rw [h]; decide)⟩
  · intro s p lp hp hlp hrun hretry
    refine ⟨_, exec_particleMismatch_first s p lp hp hlp hrun hretry, ?_, ?_, ?_⟩
    · rw [partOf_underQueue, partOf_updPart_same]
    · rw [coreOf_underQueue, coreOf_updPart_same]
      rfl
    · rw [partOf_underQueue, partOf_updPart_same]
      exact hrun
  · intro s p hit raw w len s₁ h hon h24 h28 h31 hclean c vl
    have hbad : (bit w 24 || decide (4 ≤ bits w 28 26) || bits w 31 29 != 0) = false := by
      rw [h24, h31, decide_eq_false (by omega)]
      rfl
    have hbody : vSetvl p s₁ w len = .done (retire (updCore s₁ p fun c => xPut { c with vl := vl, csr := { c.csr with
        pvxcfg := BitVec.ofNat 64 (bits w 21 20 + bits w 23 22 * 4 + bits w 25 25 * 16 + bits w 28 26 * 32) } } (bits w 11 7) vl none) p
        (vEnv s₁ p w len).nx) := by
      unfold vSetvl
      exact vRun_clean (p := p) (vEnv s₁ p w len) rfl hon hbad hclean rfl
    obtain ⟨hcsr, hvl, hv, -⟩ := xPut_keeps { coreOf s₁ p with vl := vl, csr := { (coreOf s₁ p).csr with
      pvxcfg := BitVec.ofNat 64 (bits w 21 20 + bits w 23 22 * 4 + bits w 25 25 * 16 + bits w 28 26 * 32) } } (bits w 11 7) vl none
    refine ⟨_, pvxRow_done h hbody, ?_⟩
    rw [coreOf_underQueue, coreOf_retire, coreOf_updCore_same]
    refine ⟨hvl, fun hrd => ?_, congrArg PCsr.pvxcfg hcsr, hv⟩
    exact (xGet_of_x rfl _).trans (xGet_xPut_same _ _ _ _ hrd)

end Sys2Proof.Machine
end

section
/-! The issue queues and the control window (R139, R143, R144, R271, R272): O16. -/

namespace Sys2Proof.Machine

open Sys2Proof.Claims

/-! ### Issue queues -/

theorem queueOf_updQueue_same (s : State) (lp q : Nat) (f : IQueue → IQueue) : queueOf (updQueue s lp q f) lp q = f (queueOf s lp q) :=
  mapGet_mapUpd_same _ _ _ _

theorem queueOf_of_queues {s t : State} (h : t.queues = s.queues) (lp q : Nat) : queueOf t lp q = queueOf s lp q := by
  rw [queueOf, queueOf, h]

/-- The bytes of the staged record of a Particle. -/
def stagedBytes (s : State) (p : Nat) : List Byte := (List.range 4).flatMap fun i => natLe 8 (mapGet 0#64 (coreOf s p).ctl.stage i).toNat

theorem stagedBytes_length (s : State) (p : Nat) : (stagedBytes s p).length = 32 := by
  unfold stagedBytes
  simp [List.range_succ, natLe_length]

/-- A push into a queue with room: the record under the queue's next number. -/
theorem pushRecord_room {s : State} {p lp q : Nat} (h : (queueOf s lp q).recs.length < queueSize q) :
    pushRecord s p lp q = some (updCtl (updQueue s lp q fun x =>
      { x with recs := x.recs ++ [{ seq := x.next, bytes := stagedBytes s p }], next := (x.next + 1) % 2 ^ 32 }) p fun c =>
        { c with qseq := (queueOf s lp q).next, qseqQ := q }) := if_pos h

theorem pushRecord_full {s : State} {p lp q : Nat} (h : queueSize q ≤ (queueOf s lp q).recs.length) : pushRecord s p lp q = none :=
  if_neg (Nat.not_lt.mpr h)

theorem queueOf_push (s : State) (p lp q : Nat) : ∃ r : QRec, r.seq = (queueOf s lp q).next ∧ r.bytes.length = 32 ∧
    queueOf (updQueue s lp q fun x => { x with recs := x.recs ++ [{ seq := x.next, bytes := stagedBytes s p }], next := (x.next + 1) % 2 ^ 32 }) lp q =
      { recs := (queueOf s lp q).recs ++ [r], next := ((queueOf s lp q).next + 1) % 2 ^ 32 } :=
  ⟨{ seq := (queueOf s lp q).next, bytes := stagedBytes s p }, rfl, stagedBytes_length s p, queueOf_updQueue_same _ _ _ _⟩

/-- R143: a flushed record is taken in as work that has ended. -/
theorem flushRec_keeps (s : State) (lp q : Nat) (r : QRec) : (flushRec s lp q r).nextProg = s.nextProg + 1 ∧ (flushRec s lp q r).queues = s.queues :=
  ⟨rfl, rfl⟩

theorem foldl_flushRec (lp q : Nat) (rs : List QRec) (s : State) :
    (rs.foldl (fun s r => flushRec s lp q r) s).nextProg = s.nextProg + rs.length := by
  induction rs generalizing s with
  | nil => rfl
  | cons r rs ih => rw [List.foldl_cons, ih, (flushRec_keeps s lp q r).1, List.length_cons, Nat.add_assoc, Nat.add_comm 1]

theorem qspace_keeps (s : State) (lp q n : Nat) : (qspace s lp q n).queues = s.queues ∧ (qspace s lp q n).nextProg = s.nextProg := by
  unfold qspace
  split
  · split <;> exact ⟨rfl, rfl⟩
  · exact ⟨rfl, rfl⟩

/-- R143: the flush of a queue leaves it empty and takes each record in. -/
theorem flushQueue_result (s : State) (lp q : Nat) : (queueOf (flushQueue s lp q) lp q).recs = [] ∧
    (flushQueue s lp q).nextProg = s.nextProg + (queueOf s lp q).recs.length := by
  unfold flushQueue
  obtain ⟨hqueues, hnext⟩ := qspace_keeps (updQueue ((queueOf s lp q).recs.foldl (fun s r => flushRec s lp q r) s) lp q fun x => { x with recs := [] })
    lp q (queueOf s lp q).recs.length
  refine ⟨?_, hnext.trans (foldl_flushRec lp q _ s)⟩
  rw [queueOf_of_queues hqueues, queueOf_updQueue_same]

/-! ### The control window -/

/-- A doubleword access that its checks let through is carried out. -/
theorem ctlRun_clean {p : Nat} {k : AKind} {run : State → Nat → Nat → Nat → Nat → RvOut} {s : State} {w len a v rd : Nat}
    (ha : ctlAccess (coreOf s p) w = (a, v, rd)) (hrd : rd < 32) (htrap : accessTrap s p a 8 k = none) :
    ctlRun p k run s w len = run s a v rd len := by
  unfold ctlRun
  simp only [ha, htrap]
  exact if_neg fun h => absurd h.1 (by omega)

section

variable {s : State} {p : Nat} {hit : Bool} {cls : RvCls} {raw w len : Nat} {s₁ : State}

/-- Filling the instruction cache moves the Particles' record only. -/
theorem lp_of_prtRuns (h : prtRuns s p hit cls raw w len s₁) : (partOf s₁ p).lp = (partOf s p).lp := by
  rw [eq_fillCache_of_prtRuns h, fillCache, partOf_updCore_same]

theorem core_of_prtRuns (h : prtRuns s p hit cls raw w len s₁) : coreOf s₁ p = { coreOf s p with icache := (coreOf s₁ p).icache } := by
  rw [eq_fillCache_of_prtRuns h]
  exact coreOf_fillCache _ _ _ _

theorem queues_of_prtRuns (h : prtRuns s p hit cls raw w len s₁) : s₁.queues = s.queues := by rw [eq_fillCache_of_prtRuns h]; rfl

theorem spm_of_prtRuns (h : prtRuns s p hit cls raw w len s₁) : s₁.spm = s.spm := by rw [eq_fillCache_of_prtRuns h]; rfl

theorem hbm_of_prtRuns (h : prtRuns s p hit cls raw w len s₁) : s₁.hbm = s.hbm := by rw [eq_fillCache_of_prtRuns h]; rfl

theorem nextProg_of_prtRuns (h : prtRuns s p hit cls raw w len s₁) : s₁.nextProg = s.nextProg := by rw [eq_fillCache_of_prtRuns h]; rfl

end

/-- Settles O16: the queue after a push (`queueOf_push`) and after a flush (`flushQueue_result`). -/
theorem issueQueueCommands : Obligations.IssueQueueCommands := by
  unfold Obligations.IssueQueueCommands
  refine ⟨?_, ?_, ?_, ?_⟩
  · intro s p hit raw w len s₁ a v rd h ha hrd htrap lp old
    have hlp : (partOf s₁ p).lp.getD 0 = lp := by rw [lp_of_prtRuns h]
    constructor
    · intro hroom
      have hbody : ctlRun p .store (pushRun p) s₁ w len = .done (retire (updCtl (updQueue s₁ lp (v % 4) fun x =>
          { x with recs := x.recs ++ [{ seq := x.next, bytes := stagedBytes s₁ p }], next := (x.next + 1) % 2 ^ 32 }) p fun c =>
            { c with qseq := old.next, qseqQ := v % 4 }) p (lo64 ((coreOf s₁ p).pc.toNat + len))) := by
        rw [ctlRun_clean ha hrd htrap, pushRun, hlp, pushRecord_room hroom]
      obtain ⟨r, hseq, hlen, hqueue⟩ := queueOf_push s₁ p lp (v % 4)
      refine ⟨_, r, ran_prtStep_done s h hbody, hseq, hlen, (queueOf_of_queues rfl _ _).trans hqueue, ?_⟩
      rw [coreOf_underQueue, coreOf_retire, coreOf_updCtl_same]
      exact ⟨rfl, rfl⟩
    · intro hfull
      have hbody : ctlRun p .store (pushRun p) s₁ w len = .held (updCore s₁ p fun c => { c with hold := .push (v % 4) len }) := by
        rw [ctlRun_clean ha hrd htrap, pushRun, hlp, pushRecord_full hfull]
      refine ⟨_, ran_prtStep_held s h hbody, ?_, ?_, (queues_of_prtRuns h : s₁.queues = s.queues)⟩
      · rw [coreOf_underQueue, coreOf_updCore_same]
      · rw [coreOf_underQueue, coreOf_updCore_same, core_of_prtRuns h]
  · intro s p q len lp hp hlp hhold hroom
    have hlp' : (partOf s p).lp.getD 0 = lp := by rw [hlp]; rfl
    have hrun : heldPush s p = retire (updCore (updCtl (updQueue s lp q fun x =>
        { x with recs := x.recs ++ [{ seq := x.next, bytes := stagedBytes s p }], next := (x.next + 1) % 2 ^ 32 }) p fun c =>
          { c with qseq := (queueOf s lp q).next, qseqQ := q }) p fun c => { c with hold := .none }) p (lo64 ((coreOf s p).pc.toNat + len)) := by
      unfold heldPush
      simp only [hhold, hlp', pushRecord_room hroom]
    obtain ⟨r, hseq, -, hqueue⟩ := queueOf_push s p lp q
    refine ⟨underQueue s (heldPush s p), r, ?_, ?_, ?_, hseq⟩
    · change guardUnit (prtOk p) _ = _
      rw [prtOk, decide_eq_true hp]
      rfl
    · rw [coreOf_underQueue, hrun, coreOf_retire, coreOf_updCore_same]
    · rw [hrun]
      exact (congrArg IQueue.recs ((queueOf_of_queues rfl lp q).trans hqueue))
  · intro s p hit raw w len s₁ a v rd h ha hrd htrap hflush lp
    have hlp : (partOf s₁ p).lp.getD 0 = lp := by rw [lp_of_prtRuns h]
    have hbody : ctlRun p .store (qctlRun p) s₁ w len =
        .done (retire (flushQueue s₁ lp (v % 4)) p (lo64 ((coreOf s₁ p).pc.toNat + len))) := by
      rw [ctlRun_clean ha hrd htrap, qctlRun, hlp, if_pos hflush]
    obtain ⟨hempty, hnext⟩ := flushQueue_result s₁ lp (v % 4)
    refine ⟨_, ran_prtStep_done s h hbody, (congrArg IQueue.recs (queueOf_of_queues rfl lp (v % 4))).trans hempty, hnext.trans ?_⟩
    rw [nextProg_of_prtRuns h, queueOf_of_queues (queues_of_prtRuns h)]
  · intro s p hit raw w len s₁ a v rd h ha hrd htrap
    have hbody : ctlRun p .store (abortRun p) s₁ w len = .done (retire (requestAbort s₁ ((partOf s p).lp.getD 0) (bits v 33 32) (bits v 31 0)) p
        (lo64 ((coreOf s₁ p).pc.toNat + len))) := by
      rw [ctlRun_clean ha hrd htrap, abortRun, lp_of_prtRuns h]
    exact ran_prtStep_done s h hbody

end Sys2Proof.Machine
end

section
/-! PVX loads and stores (R265): O21. -/

namespace Sys2Proof.Machine

open Sys2Proof.Claims

/-! ### Bytes -/

theorem leNat_lt (bs : List Byte) : leNat bs < 256 ^ bs.length := by
  induction bs with
  | nil => exact Nat.one_pos
  | cons b r ih =>
    have hb : b.toNat < 256 := b.isLt
    rw [leNat, List.length_cons, Nat.pow_succ]
    omega

theorem memBytes_length (m : Mem) (a n : Nat) : (memBytes m a n).length = n := by
  rw [memBytes, List.length_map, List.length_range]

/-! ### What a local access reads of a core -/

/-- What a checked access to local memory depends on. -/
def accessCore (c : PCore) : Mem × Map Nat × Map W64 × Bool := (c.lmem, c.csr.pmpcfg, c.csr.pmpaddr, dataMach c)

theorem dataMach_fsDirty (c : PCore) : dataMach (fsDirty c) = dataMach c := by
  have hmst (hi lo : Nat) (h : hi < 64) (hd : hi < 13 ∨ 14 < lo) : mst (fsDirty c) hi lo = mst c hi lo :=
    (bits_toNat_ofNat _ _ _ h).trans (bits_setBits_apart _ _ (by omega) hd)
  unfold dataMach
  rw [hmst 17 17 (by omega) (by omega), hmst 12 11 (by omega) (by omega)]
  rfl

theorem vRegPut_accessCore (c : PCore) (r x : Nat) : accessCore (vRegPut c r x) = accessCore c := by
  unfold vRegPut accessCore
  split
  · exact congrArg (fun b => (c.lmem, c.csr.pmpcfg, c.csr.pmpaddr, b)) ((dataMach_fsDirty _).trans rfl)
  · rfl

/-- A vector element's write leaves what local accesses depend on. -/
theorem vPut_accessCore (c : PCore) (vn sew e v : Nat) (po : Option Nat) : accessCore (vPut c vn sew e v po) = accessCore c := by
  unfold vPut
  dsimp only
  split <;> exact vRegPut_accessCore _ _ _

theorem pmpOk_of_access {c d : PCore} (h : accessCore d = accessCore c) (a : Nat) (k : AKind) :
    pmpOk d (dataMach d) a k = pmpOk c (dataMach c) a k := by
  obtain ⟨_, hcfg, haddr, hmach⟩ : d.lmem = c.lmem ∧ d.csr.pmpcfg = c.csr.pmpcfg ∧ d.csr.pmpaddr = c.csr.pmpaddr ∧ dataMach d = dataMach c := by
    simpa only [accessCore, Prod.mk.injEq] using h
  unfold pmpOk pmpHas
  rw [hcfg, haddr, hmach]

theorem accessTrap_local {s t : State} {p a : Nat} (h : accessCore (coreOf t p) = accessCore (coreOf s p)) (hr : regionOf a = .local_) (n : Nat)
    (k : AKind) : accessTrap t p a n k = accessTrap s p a n k := by
  have hmap (u : State) : mapErr u p a n k = none := by
    unfold mapErr
    rw [hr]
  unfold accessTrap
  rw [pmpOk_of_access h, hmap, hmap]

/-- A load of local memory that its checks let through, of bytes that are not poisoned. -/
theorem loadAt_local {s : State} {p a n : Nat} (htrap : accessTrap s p a n .load = none) (hr : regionOf a = .local_)
    (hpo : memPoison (coreOf s p).lmem a n = false) : loadAt s p a n = .val s (leNat (memBytes (coreOf s p).lmem a n)) false := by
  have hload : memLoad s p a n = .val (leNat (memBytes (coreOf s p).lmem a n)) false := by
    unfold memLoad
    rw [hr, ← hpo]
  unfold loadAt
  rw [htrap, hload]
  rfl

/-- R506: only device virtual space has translation faults. -/
theorem noteXlat_of_region {s : State} {p a : Nat} (h : regionOf a ≠ .dvs) (write : Bool) : noteXlat s p a write = s := by
  unfold noteXlat
  split
  · exact absurd (by assumption) h
  · rfl

theorem accessTrap_of_vmTrap {s : State} {v : VEnv} {a : Nat} {k : AKind} (h : vmTrap s v a k = none) : accessTrap s v.p a (v.sew / 8) k = none := by
  unfold vmTrap at h
  cases hacc : accessTrap s v.p a (v.sew / 8) k with
  | none => rfl
  | some t =>
    rw [hacc] at h
    exact absurd h (by simp)

/-! ### The elements that a load writes -/

/-- The value of an element in local memory. -/
def vmLocal (c : PCore) (v : VEnv) (kind e : Nat) : Nat := leNat (memBytes c.lmem (vmAddr c v kind e) (v.sew / 8))

/-- A load of elements of local memory, in turn. -/
theorem vmLoadAll_local {s0 : State} {v : VEnv} {kind : Nat} (es : List Nat) (s : State)
    (hcore : accessCore (coreOf s v.p) = accessCore (coreOf s0 v.p))
    (hes : ∀ e ∈ es, vmTrap s0 v (vmAddr (coreOf s0 v.p) v kind e) .load = none ∧ regionOf (vmAddr (coreOf s0 v.p) v kind e) = .local_ ∧
      memPoison (coreOf s0 v.p).lmem (vmAddr (coreOf s0 v.p) v kind e) (v.sew / 8) = false) :
    vmLoadAll s0 v kind es s = .done (retire (es.foldl (fun s e =>
      updCore s v.p fun c => vPut c v.vd v.sew e (vmLocal (coreOf s0 v.p) v kind e) none) s) v.p v.nx) := by
  induction es generalizing s with
  | nil => rfl
  | cons e es ih =>
    obtain ⟨htrap, hregion, hpo⟩ := hes e List.mem_cons_self
    have hlmem : (coreOf s v.p).lmem = (coreOf s0 v.p).lmem := congrArg Prod.fst hcore
    have hload : loadAt s v.p (vmAddr (coreOf s0 v.p) v kind e) (v.sew / 8) = .val s (vmLocal (coreOf s0 v.p) v kind e) false := by
      rw [loadAt_local ((accessTrap_local hcore hregion _ _).trans (accessTrap_of_vmTrap htrap)) hregion (hlmem ▸ hpo), hlmem, vmLocal]
    rw [vmLoadAll, hload]
    refine ih _ ?_ fun x hx => hes x (List.mem_cons_of_mem _ hx)
    rw [coreOf_updCore_same, vPut_accessCore, hcore]

theorem coreOf_foldl_updCore (p : Nat) (g : Nat → PCore → PCore) (l : List Nat) (s : State) :
    coreOf (l.foldl (fun s e => updCore s p (g e)) s) p = l.foldl (fun d e => g e d) (coreOf s p) := by
  induction l generalizing s with
  | nil => rfl
  | cons e l ih => rw [List.foldl_cons, List.foldl_cons, ih, coreOf_updCore_same]

theorem foldl_updCore_spm (p : Nat) (g : Nat → PCore → PCore) (l : List Nat) (s : State) : (l.foldl (fun s e => updCore s p (g e)) s).spm = s.spm :=
  foldl_keep State.spm (fun s e => updCore s p (g e)) (fun _ _ => by rfl) l s

theorem foldl_updCore_hbm (p : Nat) (g : Nat → PCore → PCore) (l : List Nat) (s : State) : (l.foldl (fun s e => updCore s p (g e)) s).hbm = s.hbm :=
  foldl_keep State.hbm (fun s e => updCore s p (g e)) (fun _ _ => by rfl) l s

/-- A run of element writes over distinct indices. -/
theorem vEl_foldl_vPut (c : PCore) (vn sew : Nat) (x : Nat → Nat) (l : List Nat) (hl : l.Nodup) (hs : 0 < sew) (hd : sew ∣ vlenOf c) (j : Nat) :
    vEl (l.foldl (fun d e => vPut d vn sew e (x e) none) c) vn sew j = if j ∈ l then x j % 2 ^ sew else vEl c vn sew j :=
  foldl_pointwise (fun d j => vEl d vn sew j) (fun d e => vPut d vn sew e (x e) none) (fun e _ => x e % 2 ^ sew)
    (fun d => d.overlay = c.overlay) (fun d e h => (vPut_keeps d vn sew e (x e) none).1.trans h)
    (fun d e j h => by
      have hv := vEl_vPut d vn sew e (x e) none j hs (vlenOf_of_overlay h ▸ hd)
      rw [hv]) l hl c rfl j

/-- What a run of element writes leaves. -/
theorem foldl_vPut_keeps (c : PCore) (vn sew : Nat) (x : Nat → Nat) (l : List Nat) :
    let d := l.foldl (fun d e => vPut d vn sew e (x e) none) c
    d.overlay = c.overlay ∧ d.x = c.x ∧ d.pc = c.pc := by
  have h := foldl_keep (fun d : PCore => (d.overlay, d.x, d.pc)) (fun d e => vPut d vn sew e (x e) none) (fun d e => by
    obtain ⟨ho, hx, _, _, _, _, _, _, hpc⟩ := vPut_keeps d vn sew e (x e) none
    rw [ho, hx, hpc]) l c
  simpa only [Prod.mk.injEq] using h

theorem vEl_of_regs {c d : PCore} (ho : d.overlay = c.overlay) (hf : d.f = c.f) (hv : d.v = c.v) (vn sew e : Nat) :
    vEl d vn sew e = vEl c vn sew e := by
  unfold vEl
  rw [vAt_of_overlay ho]
  dsimp only
  rw [vReg, vReg, fGet, fGet, ho, hf, hv]

/-- SEW divides VLEN. -/
theorem sew_dvd_vlen (s : State) (p w len : Nat) (c : PCore) : 0 < (vmEnv s p w len).sew ∧ (vmEnv s p w len).sew ∣ vlenOf c ∧
    (vmEnv s p w len).sew / 8 * 8 = (vmEnv s p w len).sew := by
  have hsew : (vmEnv s p w len).sew = 8 * 2 ^ bits (coreOf s p).csr.pvxcfg.toNat 1 0 := rfl
  have hk : bits (coreOf s p).csr.pvxcfg.toNat 1 0 ≤ 3 := Nat.le_of_lt_succ (bits_lt _ 1 0)
  rw [hsew]
  refine ⟨Nat.mul_pos (by decide) (Nat.two_pow_pos _), ?_, Nat.div_mul_cancel (Nat.dvd_mul_right _ _)⟩
  have h64 : 8 * 2 ^ bits (coreOf s p).csr.pvxcfg.toNat 1 0 ∣ 64 := Nat.mul_dvd_mul_left 8 (Nat.pow_dvd_pow 2 hk)
  unfold vlenOf
  split
  · exact h64
  · exact h64.trans (by decide)

/-! ### The rows -/

/-- The core that a load leaves: the active elements loaded, the others zeroed under Z. -/
def vmLoaded (c : PCore) (v : VEnv) (kind : Nat) : PCore := (vActs c v).foldl (fun d e => vPut d v.vd v.sew e (vmLocal c v kind e) none) c

theorem findSome?_vmTrap_none {s : State} {v : VEnv} {f : Nat → Nat} {k : AKind} {es : List Nat} (h : ∀ e ∈ es, vmTrap s v (f e) k = none) :
    (es.findSome? fun e => (vmTrap s v (f e) k).map fun t => (f e, t)) = none := by
  rw [List.findSome?_eq_none_iff]
  exact fun e he => by rw [h e he]; rfl

/-- Zeroes the elements masked off, under Z. -/
def vmZeroed (c : PCore) (v : VEnv) (d : PCore) : PCore :=
  if v.z then ((List.range v.n).filter fun e => !vAct c v e).foldl (fun d e => vPut d v.vd v.sew e 0 none) d else d

theorem vmZeroed_keeps (c : PCore) (v : VEnv) (d : PCore) : (vmZeroed c v d).x = d.x ∧ (vmZeroed c v d).pc = d.pc := by
  unfold vmZeroed
  split
  · obtain ⟨_, hx, hpc⟩ := foldl_vPut_keeps d v.vd v.sew (fun _ => 0) ((List.range v.n).filter fun e => !vAct c v e)
    exact ⟨hx, hpc⟩
  · exact ⟨rfl, rfl⟩

theorem vEl_vmZeroed (c : PCore) (v : VEnv) (d : PCore) (e : Nat) (hs : 0 < v.sew) (hd : v.sew ∣ vlenOf d) (he : e < v.n) :
    vEl (vmZeroed c v d) v.vd v.sew e = if !vAct c v e && v.z then 0 else vEl d v.vd v.sew e := by
  unfold vmZeroed
  cases v.z with
  | false => rw [Bool.and_false]; rfl
  | true =>
    rw [if_pos rfl, vEl_foldl_vPut d v.vd v.sew (fun _ => 0) _ (List.nodup_range.filter _) hs hd, Nat.zero_mod, Bool.and_true]
    simp only [List.mem_filter, List.mem_range, he, true_and]

/-- A load of local memory. -/
theorem vmLoad_local {kind p w len : Nat} {s : State} (hon : pvxOn (coreOf s p) = true)
    (hbad : vmBad (vmEnv s p w len) kind false = false)
    (hclean : pvxClean s p (vmUses (coreOf s p) (vmEnv s p w len) kind false)
      (if kind = 1 then [(vmEnv s p w len).r1, (vmEnv s p w len).r2] else [(vmEnv s p w len).r1]) [])
    (hes : ∀ e ∈ vActs (coreOf s p) (vmEnv s p w len), vmTrap s (vmEnv s p w len) (vmAddr (coreOf s p) (vmEnv s p w len) kind e) .load = none ∧
      regionOf (vmAddr (coreOf s p) (vmEnv s p w len) kind e) = .local_ ∧
      memPoison (coreOf s p).lmem (vmAddr (coreOf s p) (vmEnv s p w len) kind e) ((vmEnv s p w len).sew / 8) = false) :
    vmLoad kind p s w len = .done (updCore (retire ((vActs (coreOf s p) (vmEnv s p w len)).foldl (fun s' e => updCore s' p fun c =>
      vPut c (vmEnv s p w len).vd (vmEnv s p w len).sew e (vmLocal (coreOf s p) (vmEnv s p w len) kind e) none) s) p (vmEnv s p w len).nx) p
        (vmZeroed (coreOf s p) (vmEnv s p w len))) := by
  unfold vmLoad
  refine vRun_clean (p := p) (vmEnv s p w len) rfl hon hbad hclean ?_
  dsimp only
  rw [findSome?_vmTrap_none fun e he => (hes e he).1]
  dsimp only
  rw [vmLoadAll_local (v := vmEnv s p w len) _ s rfl hes]
  rfl

/-- An element's bytes fit it. -/
theorem vmLocal_lt (c : PCore) (v : VEnv) (kind e : Nat) (h : v.sew / 8 * 8 = v.sew) : vmLocal c v kind e < 2 ^ v.sew := by
  have hlt := leNat_lt (memBytes c.lmem (vmAddr c v kind e) (v.sew / 8))
  rwa [memBytes_length, show (256 : Nat) = 2 ^ 8 from rfl, ← Nat.pow_mul, Nat.mul_comm, h] at hlt

theorem mem_vActs (c : PCore) (v : VEnv) {e : Nat} (he : e < v.n) : e ∈ vActs c v ↔ vAct c v e = true := by
  rw [vActs, List.mem_filter, List.mem_range]
  exact ⟨fun h => h.2, fun h => ⟨he, h⟩⟩

/-- What taking an exception records, and that it stores nothing. -/
theorem takeTrap_keeps (s : State) (p : Nat) (t : Trap) : (takeTrap s p t).spm = s.spm ∧ (takeTrap s p t).hbm = s.hbm ∧
    (coreOf (takeTrap s p t) p).csr.mcause = BitVec.ofNat 64 t.code ∧ (coreOf (takeTrap s p t) p).lmem = (coreOf s p).lmem := by
  unfold takeTrap
  dsimp only
  cases t.fault with
  | none =>
    rw [coreOf_updCore_same]
    exact ⟨rfl, rfl, rfl, rfl⟩
  | some f =>
    rw [coreOf_updCore_same, coreOf_updCtl_same]
    exact ⟨rfl, rfl, rfl, rfl⟩

/-- Settles O21: the loads by `vmLoadAll_local`, the stores by the row's own fold. -/
theorem pvxMemoryResults : Obligations.PvxMemoryResults := by
  unfold Obligations.PvxMemoryResults
  refine ⟨?_, ?_, ?_⟩
  · intro s p hit raw w len s₁ kind i hrow h hon c v hbad hclean hes
    have hexec : exec i s = pvxRow p hit (128 + kind) (vmLoad kind) s := by
      simp only [List.mem_cons, Prod.mk.injEq, List.not_mem_nil, or_false] at hrow
      obtain ⟨rfl, rfl⟩ | ⟨rfl, rfl⟩ | ⟨rfl, rfl⟩ := hrow <;> rfl
    refine ⟨_, hexec.trans (pvxRow_done h (vmLoad_local hon hbad hclean hes)), ?_⟩
    rw [coreOf_underQueue, coreOf_updCore_same, coreOf_retire,
      coreOf_foldl_updCore p (fun e d => vPut d v.vd v.sew e (vmLocal c v kind e) none) (vActs c v) s₁]
    obtain ⟨hover, hx, -⟩ := foldl_vPut_keeps c v.vd v.sew (vmLocal c v kind) (vActs c v)
    refine ⟨(vmZeroed_keeps _ _ _).2, (vmZeroed_keeps _ _ _).1.trans hx, ?_, ?_, fun e he => ?_⟩
    · simp only [underQueue_keeps, updCore_mem, retire_mem]
      exact (foldl_updCore_spm p (fun e d => vPut d v.vd v.sew e (vmLocal c v kind e) none) (vActs c v) s₁).trans (spm_of_prtRuns h)
    · simp only [underQueue_keeps, updCore_mem, retire_mem]
      exact (foldl_updCore_hbm p (fun e d => vPut d v.vd v.sew e (vmLocal c v kind e) none) (vActs c v) s₁).trans (hbm_of_prtRuns h)
    · obtain ⟨hpos, hdvd, hbytes⟩ := sew_dvd_vlen s₁ p w len c
      have hloaded := vEl_foldl_vPut c v.vd v.sew (vmLocal c v kind) (vActs c v) (List.nodup_range.filter _) hpos hdvd e
      rw [Nat.mod_eq_of_lt (vmLocal_lt c v kind e hbytes)] at hloaded
      refine (vEl_vmZeroed c v _ e hpos (sew_dvd_vlen s₁ p w len _).2.1 he).trans ?_
      refine (congrArg (fun x => if (!vAct c v e && v.z) = true then 0 else x) ((vEl_of_regs rfl rfl rfl v.vd v.sew e).trans hloaded)).trans ?_
      simp only [mem_vActs c v he]
      cases vAct c v e
      · rfl
      · rfl
  · intro s p hit raw w len s₁ kind i hrow h hon c v hbad hclean htrap hstore
    have hexec : exec i s = pvxRow p hit (132 + kind) (vmStore kind) s := by
      simp only [List.mem_cons, Prod.mk.injEq, List.not_mem_nil, or_false] at hrow
      obtain ⟨rfl, rfl⟩ | ⟨rfl, rfl⟩ | ⟨rfl, rfl⟩ := hrow <;> rfl
    refine hexec.trans (pvxRow_done h ?_)
    unfold vmStore
    refine vRun_clean (p := p) v rfl hon hbad hclean ?_
    dsimp only
    rw [findSome?_vmTrap_none htrap]
    dsimp only
    rw [List.find?_eq_none.mpr fun e he => by rw [Option.isNone_eq_false_iff.mpr (hstore e he)]; decide]
  · intro s p hit raw w len s₁ e es tr h hon c v hbad hclean hacts htrap hregion
    have hbody : vmStore 0 p s₁ w len = .trap s₁ tr := by
      unfold vmStore
      refine vRun_clean (p := p) v rfl hon hbad hclean ?_
      dsimp only
      rw [show vActs (coreOf s₁ p) (vmEnv s₁ p w len) = e :: es from hacts, List.findSome?_cons]
      rw [show vmTrap s₁ (vmEnv s₁ p w len) (vmAddr (coreOf s₁ p) (vmEnv s₁ p w len) 0 e) .store = some tr from htrap]
      exact congrArg (RvOut.trap · tr) (noteXlat_of_region hregion true)
    obtain ⟨hspm, hhbm, hcause, hlmem⟩ := takeTrap_keeps s₁ p (if tr.code = 2 then { tr with tval := raw } else tr)
    refine ⟨_, ran_prtStep_trap s h hbody, hspm.trans (spm_of_prtRuns h), hhbm.trans (hbm_of_prtRuns h), ?_, ?_⟩
    · rw [coreOf_underQueue, hcause]
      split <;> rfl
    · rw [coreOf_underQueue, hlmem, core_of_prtRuns h]

end Sys2Proof.Machine
end

section
/-! The boot, row by row (R619, R620, R623, R625), and what the domains' switches leave alone (R566). -/

namespace Sys2Proof.Machine

/-! ### Parts of a map -/

/-- Keeping the keys that satisfy a test keeps what they read. -/
theorem mapGet_filter_key {α : Type} (d : α) (m : Map α) (f : Nat → Bool) {k : Nat} (h : f k = true) :
    mapGet d (m.filter fun x => f x.1) k = mapGet d m k := by
  induction m with
  | nil => rfl
  | cons x r ih =>
    obtain ⟨j, v⟩ := x
    by_cases hk : k = j
    · subst hk
      simp [mapGet, h]
    · cases hj : f j <;> simp [mapGet, hj, hk, ih]

/-! ### Registers that the audit log leaves alone -/

theorem regGet_mgmtSend (s : State) (rs : List Rpt) (a : Nat) : regGet (mgmtSend s rs) a = regGet s a := by
  unfold mgmtSend
  split <;> rfl

theorem regGet_sendRpt (s : State) (r : Rpt) (a : Nat) : regGet (sendRpt s r).1 a = regGet s a := by
  unfold sendRpt
  dsimp only
  split
  · exact regGet_mgmtSend _ _ _
  · exact (regGet_mgmtSend _ _ _).trans (regGet_mgmtSend _ _ _)

theorem regGet_postRpt (s : State) (r : Rpt) {a : Nat} (h : a ≠ aRAS_RPT_STATUS) : regGet (postRpt s r) a = regGet s a := by
  have hlose (s : State) : regGet (postRpt.lose s) a = regGet s a := regGet_setFld_other _ _ _ _ _ _ h
  have hhold (s : State) (r : Rpt) (l : List Rpt) : regGet { (sendRpt s r).1 with reports := l } a = regGet s a := regGet_sendRpt s r a
  unfold postRpt
  extract_lets limit hold
  split
  · exact hhold _ _ _
  · split
    · exact (hhold _ _ _).trans (hlose _)
    · exact hlose _

theorem regGet_audPut (s : State) (e : AudEnt) {a : Nat} (h : a ≠ aAUD_STATUS) : regGet (audPut s e) a = regGet s a := by
  have hlost (m n : Nat) : regGet { s with audFirst := m, audLost := n } a = regGet s a := Eq.refl (regGet s a)
  have hput (z : State) (l : Map AudEnt) (v : Nat) : regGet (setFld { z with audit := l } aAUD_STATUS 31 0 v) a = regGet z a :=
    (regGet_setFld_other _ _ _ _ _ _ h).trans (Eq.refl (regGet z a))
  have hcount (z : State) (r : Rpt) (v : Nat) : regGet (setFld (sendRpt z r).1 aAUD_STATUS 45 32 v) a = regGet z a :=
    (regGet_setFld_other _ _ _ _ _ _ h).trans (regGet_sendRpt z r a)
  unfold audPut
  extract_lets n e z
  have hz : regGet z a = regGet s a := by
    by_cases hfull : audMirror s = true ∧ audPending s = 8192
    · simp only [z, if_pos hfull]
      exact hlost _ _
    · simp only [z, if_neg hfull]
  clear_value z
  rw [← hz]
  by_cases hm : audMirror z = true
  · rw [if_pos hm]
    dsimp only
    rw [hput]
    exact hcount _ _ _
  · rw [if_neg hm]
    exact hput _ _ _

/-- An audit entry changes no register but AUD_STATUS. -/
theorem regGet_audit (s : State) (e : AudEnt) {a : Nat} (h : a ≠ aAUD_STATUS) : regGet (audit s e) a = regGet s a := by
  unfold audit
  refine (regGet_audPut _ _ h).trans ?_
  split
  · exact (regGet_audPut _ _ h).trans (regGet_of_regs rfl a)
  · rfl

theorem fld_audit (s : State) (e : AudEnt) {a : Nat} (hi lo : Nat) (h : a ≠ aAUD_STATUS) : fld (audit s e) a hi lo = fld s a hi lo := by
  rw [fld, fld, regGet_audit _ _ h]

/-! ### What a slice's domains leave alone -/

/-- What the power switches leave alone: the pins, and what only the host's and the board's side changes. -/
def boardPart (s : State) : Pins × I3c × Nvm × W64 := (s.pins, s.i3c, s.nvm, s.tense)

theorem setFld_board (s : State) (off hi lo v : Nat) : boardPart (setFld s off hi lo v) = boardPart s := by
  simp only [boardPart, setFld_keeps]

theorem computeClear_board (s : State) (sl : Nat) : boardPart (computeClear s sl) = boardPart s := by
  unfold computeClear
  exact foldl_keep boardPart _ (fun _ _ => by rw [setFld_board, setFld_board]) _ _

theorem dvSet_board (s : State) (d sp : Nat) : boardPart (dvSet s d sp) = boardPart s := by
  unfold dvSet
  extract_lets a old s1 s2
  have h2 : boardPart s2 = boardPart s := by simp only [s2, s1, setFld_board]
  clear_value s2
  split <;> exact h2

theorem domPower_board (s : State) (d : Nat) : boardPart (domPower s d) = boardPart s := (dvSet_board _ _ _).trans (setFld_board _ _ _ _ _)

theorem domOff_board (s : State) (d : Nat) : boardPart (domOff s d) = boardPart s := by
  unfold domOff
  extract_lets a z z₁ p z₂
  have h : boardPart z₂ = boardPart s := by simp only [boardPart, z₂, z₁, z, clrBitOf, setFld_keeps]
  clear_value z₂
  split
  · exact (computeClear_board _ _).trans h
  · simp only [boardPart] at h ⊢
    split
    · exact h
    · split
      · exact h
      · split
        · exact h
        · split <;> exact h

theorem selfRefresh_board (s : State) (k : Nat) (on : Bool) : boardPart (selfRefresh s k on) = boardPart s := by
  unfold selfRefresh
  split
  · exact setFld_board _ _ _ _ _
  · exact Eq.refl (boardPart s)

theorem sliceIdle_board (s : State) (sl : Nat) : boardPart (sliceIdle s sl) = boardPart s :=
  (selfRefresh_board _ _ _).trans ((domOff_board _ _).trans (domOff_board _ _))

theorem report_pins (s : State) (cls cause part slice unit : Nat) (d : List Nat) : (report s cls cause part slice unit d).pins = s.pins :=
  (congrArg State.pins (report_rest s cls cause part slice unit d) : (rptRest _).pins = (rptRest _).pins)

theorem sendRpt_pins (s : State) (r : Rpt) : (sendRpt s r).1.pins = s.pins :=
  (congrArg State.pins (sendRpt_rest s r) : (rptRest _).pins = (rptRest _).pins)

theorem audResend_pins (s : State) : (audResend s).pins = s.pins := by
  unfold audResend
  dsimp only
  split
  · rfl
  · refine foldl_keep State.pins _ (fun s i => ?_) _ _
    split
    · exact sendRpt_pins _ _
    · rfl

/-! ### Rows of the boot -/

theorem bootState_setFld (s : State) {n : Nat} (h : n < 16) : bootState (setFld s aSYN_BOOT 3 0 n) = n := by
  rw [bootState, fld_setFld_same _ _ _ (by decide) (by decide)]
  exact Nat.mod_eq_of_lt h

/-- A row at its STATE runs and names the next one. -/
theorem bootRow_of_at {s : State} {st : Nat} (act : State → State) (hr : s.pins.reset = false) (h : bootState s = st) :
    bootRow s st act = setFld (act s) aSYN_BOOT 3 0 (st + 1) := by
  rw [bootRow, if_pos (by simp [hr, h])]

/-- A row at any other STATE leaves the device as it is. -/
theorem bootRow_of_other {s : State} {st : Nat} (act : State → State) (h : bootState s ≠ st) : bootRow s st act = s := by
  rw [bootRow, if_neg (by simp [h])]

/-- What the rows do between the test of STATE and its advance. -/
theorem trimSet_board (s : State) (sl u t : Nat) : boardPart (trimSet s sl u t) = boardPart s := by
  unfold trimSet
  dsimp only
  split <;> rfl

theorem fuseTrims_board (s : State) : boardPart (fuseTrims s) = boardPart s := by
  unfold fuseTrims
  exact foldl_keep boardPart _ (fun s sl => foldl_keep boardPart _ (fun s u => trimSet_board s sl u _) _ _) _ _

theorem unitStatus_ge {sl u a : Nat} (h : unitStatus sl u = some a) : 0x100000 ≤ a := by
  unfold unitStatus at h
  split at h
  · cases h; unfold aVRB_STATUS aSlice; omega
  · split at h
    · cases h; unfold aINF_STATUS aSlice; omega
    · split at h
      · cases h; unfold aPRS_STATUS aSlice; omega
      · split at h
        · cases h; unfold aLEX_STATUS aSlice; omega
        · cases h

/-- A unit's trim stands in RAS_UNIT and in its own status register: no register below 41000h changes. -/
theorem regGet_trimSet (s : State) (sl u t : Nat) {a : Nat} (h : a < 0x41000) : regGet (trimSet s sl u t) a = regGet s a := by
  have hunit : a ≠ aRAS_UNIT sl u := by unfold aRAS_UNIT; omega
  unfold trimSet
  dsimp only
  split
  · rename_i b hb
    have hge := unitStatus_ge hb
    rw [regGet_setFld_other _ _ _ _ _ _ (by omega), regGet_setFld_other _ _ _ _ _ _ hunit]
  · exact regGet_setFld_other _ _ _ _ _ _ hunit

theorem regGet_fuseTrims (s : State) {a : Nat} (h : a < 0x41000) : regGet (fuseTrims s) a = regGet s a := by
  unfold fuseTrims
  exact foldl_keep (regGet · a) _ (fun s sl => foldl_keep (regGet · a) _ (fun s u => regGet_trimSet s sl u _ h) _ _) _ _

/-! ### The wipe before READY (R623) -/

/-- A slice's compute domain holds no register outside the slice's own. -/
theorem regGet_computeClear (s : State) (sl : Nat) {a : Nat} (h : a < 0x100000) : regGet (computeClear s sl) a = regGet s a := by
  unfold computeClear
  dsimp only
  have hkeys : ∀ x ∈ (List.range 18).filterMap fun u => (unitStatus sl u).map fun b => (b, fld s b 15 12, fld s b 9 9), 0x100000 ≤ x.1 := by
    intro x hx
    obtain ⟨u, _, hu⟩ := List.mem_filterMap.mp hx
    obtain ⟨b, hb, rfl⟩ := Option.map_eq_some_iff.mp hu
    exact unitStatus_ge hb
  generalize (List.range 18).filterMap (fun u => (unitStatus sl u).map fun b => (b, fld s b 15 12, fld s b 9 9)) = keep at hkeys
  have hfold (z : State) : regGet (keep.foldl (fun s k => setFld (setFld s k.1 15 12 k.2.1) k.1 9 9 k.2.2) z) a = regGet z a := by
    induction keep generalizing z with
    | nil => rfl
    | cons x r ih =>
      have hx := hkeys x List.mem_cons_self
      rw [List.foldl_cons, ih (fun y hy => hkeys y (List.mem_cons_of_mem _ hy)), regGet_setFld_other _ _ _ _ _ _ (by omega),
        regGet_setFld_other _ _ _ _ _ _ (by omega)]
  rw [hfold]
  refine congrArg BitVec.toNat ?_
  exact mapGet_filter_key _ s.regs (fun o => !(decide (aSlice sl + 0x1000 ≤ o) && decide (o < aSlice sl + 0x3000) &&
    !(decide (o < aSlice sl + 0x1800) && decide (0x40 ≤ o % 0x100) && decide (o % 0x100 < 0x80)))) (by
      have : ¬ aSlice sl + 0x1000 ≤ a := by unfold aSlice; omega
      simp [this])

theorem regGet_sliceWipe (s : State) (sl : Nat) {a : Nat} (h : a < 0x100000) : regGet (sliceWipe s sl) a = regGet s a := by
  unfold sliceWipe
  extract_lets z z₁ z₂
  have hz₂ : z₂.regs = z₁.regs := by
    by_cases h : stackOnline z₁ sl = true
    · simp only [z₂, if_pos h, stackWipe]
    · simp only [z₂, if_neg h]
  have hz : regGet z₂ a = regGet s a := (regGet_of_regs (t := z₂) (s := z) (hz₂.trans (by simp only [z₁])) a).trans (regGet_computeClear s sl h)
  clear_value z₂
  exact hz

theorem sliceWipe_spm (s : State) (sl : Nat) : (sliceWipe s sl).spm = memZero s.spm (spmIx sl 0 0) 50331648 := by
  unfold sliceWipe
  extract_lets z z₁ z₂
  have hz : z₂.spm = z₁.spm := by
    by_cases h : stackOnline z₁ sl = true
    · simp only [z₂, if_pos h, stackWipe]
    · simp only [z₂, if_neg h]
  exact hz.trans (by simp only [z₁])

/-- A wipe makes no byte anything but zero. -/
theorem memByte_memZero_of_zero {m : Mem} {i : Nat} (a n : Nat) (h : memByte m i = 0#8) : memByte (memZero m a n) i = 0#8 := by
  by_cases hin : i < a ∨ a + n ≤ i
  · rw [memByte_memZero_outside _ _ _ _ hin, h]
  · exact memByte_memZero_inside _ _ _ _ (by omega) (by omega)

/-- R551: a wipe of slices leaves the scratchpad of each of them zero. -/
theorem foldl_sliceWipe_zero (l : List Nat) (s : State) {sl b : Nat} (hl : sl ∈ l) (hb : b < 50331648) :
    memByte (l.foldl sliceWipe s).spm (spmIx sl 0 0 + b) = 0#8 := by
  have hstays (l : List Nat) (s : State) (i : Nat) (h : memByte s.spm i = 0#8) : memByte (l.foldl sliceWipe s).spm i = 0#8 := by
    induction l generalizing s with
    | nil => exact h
    | cons x r ih => exact ih _ (by rw [sliceWipe_spm]; exact memByte_memZero_of_zero _ _ h)
  induction l generalizing s with
  | nil => exact absurd hl List.not_mem_nil
  | cons x r ih =>
    rcases List.mem_cons.mp hl with rfl | h
    · exact hstays r _ _ (by rw [sliceWipe_spm]; exact memByte_memZero_inside _ _ _ _ (by omega) (by omega))
    · exact ih _ h

/-! ### The statement -/

/-- What O56 says of one row: at any other STATE it leaves the device, and at its own it goes on with `next` of the state that it leaves. -/
def RowOf (s z : State) (st : Nat) (i : Instr) (next : State → Prop) : Prop :=
  (bootState z ≠ st → exec i s = .next { z with pending := s.pending }) ∧
  (bootState z = st → ∃ t, exec i s = .next t ∧ bootState t = st + 1 ∧ next t)

theorem rowOf_bootRow {s z : State} {st : Nat} {i : Instr} {act : State → State} {next : State → Prop} (hp : z.pending = s.pending)
    (hr : z.pins.reset = false) (hst : st + 1 < 16) (hexec : exec i s = ran z (bootRow z st act))
    (hnext : next (underQueue z (setFld (act z) aSYN_BOOT 3 0 (st + 1)))) : RowOf s z st i next := by
  refine ⟨fun h => ?_, fun h => ⟨_, ?_, ?_, hnext⟩⟩
  · rw [hexec, bootRow_of_other act h, ran, hp]
  · rw [hexec, bootRow_of_at act hr h, ran_eq]
  · exact (fld_underQueue _ _ _ _ _).trans (bootState_setFld _ hst)

/-- R619 sequence 4: the bank that the row starts from is the newer one that checks, else the other. -/
theorem bootRom_row {s z : State} {now : Nat} (hz : z = atTime s now) (hr : z.pins.reset = false)
    (hok : bootState z = 2 → fwCheck z (z.nvm.banks.getD z.nvm.newer []) = true ∨ fwCheck z (z.nvm.banks.getD (1 - z.nvm.newer) []) = true) :
    RowOf s z 2 (.bootRom now) fun t => fwBank t =
      (if fwCheck z (z.nvm.banks.getD z.nvm.newer []) then z.nvm.newer else 1 - z.nvm.newer) % 2 := by
  have hp : z.pending = s.pending := by rw [hz, atTime_pending]
  have hexec : exec (.bootRom now) s = execBootRom now s := rfl
  unfold execBootRom at hexec
  rw [← hz] at hexec
  have hgo : ¬ (!z.pins.reset && bootState z == 2 && !fwCheck z (z.nvm.banks.getD z.nvm.newer []) &&
      !fwCheck z (z.nvm.banks.getD (1 - z.nvm.newer) [])) = true := by
    intro h
    simp only [Bool.and_eq_true, Bool.not_eq_true', beq_iff_eq] at h
    obtain ⟨⟨⟨_, h2⟩, h0⟩, h1⟩ := h
    rcases hok h2 with h | h
    · rw [h] at h0; cases h0
    · rw [h] at h1; cases h1
  dsimp only at hexec
  rw [if_neg hgo] at hexec
  refine rowOf_bootRow hp hr (by decide) hexec ?_
  rw [fwBank, fld_underQueue, fld_setFld_apart _ _ _ (by decide) (by decide) (.inr (by decide)), fwAudit, fld_audit _ _ _ _ (by decide),
    fld_setFld_other _ _ _ _ _ _ _ _ (by decide), fld_setFld_other _ _ _ _ _ _ _ _ (by decide),
    fld_setFld_apart _ _ _ (by decide) (by decide) (.inl (by decide)), fld_setFld_same _ _ _ (by decide) (by decide)]
  rfl

/-- R620: with no image that checks, the boot stops at FW_FAIL. -/
theorem bootRom_fails {s z : State} {now : Nat} (hz : z = atTime s now) (hr : z.pins.reset = false) (h : bootState z = 2)
    (h0 : fwCheck z (z.nvm.banks.getD z.nvm.newer []) = false) (h1 : fwCheck z (z.nvm.banks.getD (1 - z.nvm.newer) []) = false) :
    ∃ t, exec (.bootRom now) s = .next t ∧ bootState t = 14 := by
  have hexec : exec (.bootRom now) s = execBootRom now s := rfl
  rw [hexec, execBootRom, ← hz]
  simp only [hr, h, h0, h1]
  rw [if_pos (by decide), ran_eq]
  exact ⟨_, rfl, bootState_setFld _ (by decide)⟩

/-- R619 sequence 6: the board's rails are enabled, and the fabric's domains, switched on, leave the pins. -/
theorem bootFabricTest_row {s z : State} {now : Nat} {failed : Bool} (hz : z = atTime s now) (hr : z.pins.reset = false) :
    RowOf s z 4 (.bootFabricTest failed now) fun t => t.pins.railEn = true := by
  have hp : z.pending = s.pending := by rw [hz, atTime_pending]
  have hexec : exec (.bootFabricTest failed now) s = execBootFabricTest failed now s := rfl
  unfold execBootFabricTest at hexec
  rw [← hz] at hexec
  refine rowOf_bootRow hp hr (by decide) hexec ?_
  have hdoms (l : List Nat) (z : State) : (l.foldl domPower z).pins = z.pins :=
    congrArg Prod.fst (foldl_keep boardPart _ (fun s d => domPower_board s d) l z)
  simp only [underQueue_keeps, setFld_keeps]
  split
  · simp only [bootFail, setBitOf, setFld_keeps, hdoms]
  · simp only [hdoms]

/-- R619 sequence 10: READY shows on its pin, and neither the reports nor the domains that are switched off change a pin. -/
theorem bootReady_row {s z : State} {now : Nat} (hz : z = atTime s now) (hr : z.pins.reset = false)
    (hw : bootState z = 7 → z.cust.wiping = []) : RowOf s z 7 (.bootReady now) fun t => t.pins.ready = true := by
  have hp : z.pending = s.pending := by rw [hz, atTime_pending]
  have hexec : exec (.bootReady now) s = execBootReady now s := rfl
  unfold execBootReady at hexec
  rw [← hz] at hexec
  dsimp only at hexec
  have hrow (act : State → State) : (if (!z.cust.wiping.isEmpty) = true then z else bootRow z 7 act) = bootRow z 7 act := by
    by_cases h : bootState z = 7
    · rw [if_neg (by simp [hw h])]
    · rw [bootRow_of_other act h, ite_self]
  rw [hrow] at hexec
  refine rowOf_bootRow hp hr (by decide) hexec ?_
  have hidle (l : List Nat) (z : State) : (l.foldl sliceIdle z).pins = z.pins :=
    congrArg Prod.fst (foldl_keep boardPart _ (fun s d => sliceIdle_board s d) l z)
  have hreports (l : List (Nat × Nat × Nat × Nat × Nat)) (z : State) :
      (l.foldl (fun s x => report s x.1 x.2.1 0xFF x.2.2.1 x.2.2.2.1 [x.2.2.2.2]) z).pins = z.pins :=
    foldl_keep State.pins _ (fun _ _ => report_pins _ _ _ _ _ _ _) l z
  simp only [underQueue_keeps, setFld_keeps, hidle, audResend_pins, hreports, report_pins]

theorem RowOf.at_row {s z : State} {st : Nat} {i : Instr} {next P : State → Prop} (h : RowOf s z st i next) (hst : bootState z = st)
    (hP : ∀ t, next t → P t) : ∃ t, exec i s = .next t ∧ bootState t = st + 1 ∧ P t := by
  obtain ⟨t, ht, hb, hn⟩ := h.2 hst
  exact ⟨t, ht, hb, hP t hn⟩

/-- A row whose work is all that `bootRow` runs. -/
theorem boot_row {s z : State} {st : Nat} {i : Instr} {act : State → State} (hp : z.pending = s.pending) (hr : z.pins.reset = false)
    (hst : st + 1 < 16) (hexec : exec i s = ran z (bootRow z st act)) : RowOf s z st i fun _ => True :=
  rowOf_bootRow hp hr hst hexec trivial

/-- R619 sequences 1 and 2, R620: the release reads the fuses, or stops where they have no majority. -/
theorem bootRelease_row {s : State} (strap : Nat) (hr : s.pins.reset = true) :
    (∃ t, exec (.bootRelease strap true) s = .next t ∧ bootState t = 1 ∧ t.pins.reset = false ∧ fld t aSYN_LC 1 0 = s.nvm.lc % 4 ∧
      t.i3c.strap = strap % 4) ∧
    (∃ t, exec (.bootRelease strap false) s = .next t ∧ bootState t = 15 ∧ t.pins.reset = false) := by
  have hexec (m : Bool) : exec (.bootRelease strap m) s = execBootRelease strap m s := rfl
  have htrims (z : State) : (fuseTrims z).pins = z.pins ∧ (fuseTrims z).i3c = z.i3c := by
    obtain ⟨hpins, hrest⟩ := Prod.mk.inj (fuseTrims_board z)
    exact ⟨hpins, (Prod.mk.inj hrest).1⟩
  rw [hexec, hexec]
  unfold execBootRelease
  constructor
  · rw [if_neg (by simp [hr])]
    dsimp only
    rw [if_neg (by decide), ran_eq]
    refine ⟨_, rfl, (fld_underQueue _ _ _ _ _).trans (bootState_setFld _ (by decide)), ?_, ?_, ?_⟩
    · simp only [underQueue_keeps, setFld_keeps, (htrims _).1, regSet_keeps]
    · rw [fld_underQueue, fld_setFld_other _ _ _ _ _ _ _ _ (by decide), fld, regGet_fuseTrims _ (by decide),
        regGet_regSet_other _ _ _ _ (by decide), regGet_regSet_other _ _ _ _ (by decide)]
      change fld (setFld (setFld _ aSYN_LC 1 0 _) aSYN_LC 5 2 _) aSYN_LC 1 0 = _
      rw [fld_setFld_apart _ _ _ (by decide) (by decide) (.inl (by decide)), fld_setFld_same _ _ _ (by decide) (by decide)]
      rfl
    · simp only [underQueue_keeps, setFld_keeps, (htrims _).2, regSet_keeps]
  · rw [if_neg (by simp [hr])]
    dsimp only
    rw [if_pos (by decide), ran_eq]
    exact ⟨_, rfl, (fld_underQueue _ _ _ _ _).trans (bootState_setFld _ (by decide)), by simp only [underQueue_keeps, setFld_keeps]⟩

/-- R623: the wipe clears every slice that waits for it and leaves STATE, so that READY may follow. -/
theorem bootWipe_row {s z : State} {now : Nat} (hz : z = atTime s now) (hr : z.pins.reset = false) (h : bootState z = 7)
    (hw : z.cust.wiping ≠ []) : ∃ t, exec (.bootWipe now) s = .next t ∧ bootState t = 7 ∧ t.cust.wiping = [] ∧
      ∀ sl b, sl ∈ z.cust.wiping → b < 50331648 → memByte t.spm (spmIx sl 0 0 + b) = 0#8 := by
  have hexec : exec (.bootWipe now) s = execBootWipe now s := rfl
  have hwipes (l : List Nat) (z : State) : regGet (l.foldl sliceWipe z) aSYN_BOOT = regGet z aSYN_BOOT :=
    foldl_keep (regGet · aSYN_BOOT) _ (fun s sl => regGet_sliceWipe s sl (by decide)) l z
  have hcust (z : State) (c : Custody) : fld { z with cust := c } aSYN_BOOT 3 0 = fld z aSYN_BOOT 3 0 := Eq.refl (fld z aSYN_BOOT 3 0)
  have hnote (z : State) : (wipeNote z).spm = z.spm := by
    have hlog := congrArg State.spm (auditCore_logRest z 2 0xFF 0xFF 0 (2 ^ 63))
    simp only [logRest] at hlog
    exact hlog
  rw [hexec]
  unfold execBootWipe
  rw [← hz]
  dsimp only
  rw [if_neg (by simp [hr, h, hw]), ran_eq]
  refine ⟨_, rfl, ?_, ?_, fun sl b hsl hb => ?_⟩
  · rw [bootState, fld_underQueue, fld_setFld_apart _ _ _ (by decide) (by decide) (.inl (by decide))]
    rw [hcust, wipeNote, auditCore, fld_audit _ _ _ _ (by decide), fld, hwipes]
    exact h
  · simp only [underQueue_keeps, setFld_keeps]
  · simp only [underQueue_keeps, setFld_keeps, hnote]
    exact foldl_sliceWipe_zero _ _ hsl hb

/-- Settles O56: each row runs at its own STATE and at no other, the failures that stop the boot, and the wipe before READY. -/
theorem bootGoesRowByRow : Obligations.BootGoesRowByRow := by
  unfold Obligations.BootGoesRowByRow
  refine ⟨fun s strap hr => bootRelease_row strap hr, fun s now z st i fb fl bd bs ur hi hr => ?_,
    fun s now z hz hr h h0 h1 => bootRom_fails hz hr h h0 h1, fun s now z hz hr h hw => bootWipe_row hz hr h hw⟩
  simp only [List.mem_cons, List.not_mem_nil, or_false, Prod.mk.injEq] at hi
  rcases hi with ⟨rfl, rfl, rfl⟩ | ⟨hz, rfl, rfl⟩ | ⟨hz, rfl, rfl⟩ | ⟨hz, rfl, rfl⟩ | ⟨hz, rfl, rfl⟩ | ⟨hz, rfl, rfl⟩ | ⟨hz, rfl, rfl⟩
  case inl =>
    have h : RowOf z z 1 .bootClocks fun t => t.tense = 0 :=
      rowOf_bootRow (act := fun s => { s with tense := 0 }) rfl hr (by decide) rfl (by simp only [underQueue_keeps, setFld_keeps])
    exact ⟨h.1, fun hst _ _ => h.at_row hst fun t ht => ⟨fun _ => ht, nofun, nofun, nofun⟩⟩
  all_goals have hp : z.pending = s.pending := by rw [hz, atTime_pending]
  case inr.inl =>
    refine ⟨fun hst => (bootRom_row hz hr fun h => absurd h hst).1 hst, fun hst hok _ => ?_⟩
    exact (bootRom_row hz hr fun _ => hok rfl).at_row hst fun t ht => ⟨nofun, fun _ => ht, nofun, nofun⟩
  case inr.inr.inl =>
    have h := boot_row hp hr (by decide) (show exec (.bootFwInit now) s = ran z (bootRow z 3 _) from by subst hz; rfl)
    exact ⟨h.1, fun hst _ _ => h.at_row hst fun _ _ => ⟨nofun, nofun, nofun, nofun⟩⟩
  case inr.inr.inr.inl =>
    have h := bootFabricTest_row (failed := fb) hz hr
    exact ⟨h.1, fun hst _ _ => h.at_row hst fun _ ht => ⟨nofun, nofun, fun _ => ht, nofun⟩⟩
  case inr.inr.inr.inr.inl =>
    have h := boot_row hp hr (by decide) (show exec (.bootSlices fl bd now) s = ran z (bootRow z 5 _) from by subst hz; rfl)
    exact ⟨h.1, fun hst _ _ => h.at_row hst fun _ _ => ⟨nofun, nofun, nofun, nofun⟩⟩
  case inr.inr.inr.inr.inr.inl =>
    have h := boot_row hp hr (by decide) (show exec (.bootStacks bs ur now) s = ran z (bootRow z 6 _) from by subst hz; rfl)
    exact ⟨h.1, fun hst _ _ => h.at_row hst fun _ _ => ⟨nofun, nofun, nofun, nofun⟩⟩
  case inr.inr.inr.inr.inr.inr =>
    refine ⟨fun hst => (bootReady_row hz hr fun h => absurd h hst).1 hst, fun hst _ hw => ?_⟩
    exact (bootReady_row hz hr fun _ => hw rfl).at_row hst fun t ht => ⟨nofun, nofun, nofun, fun _ => ht⟩

end Sys2Proof.Machine
end

section
/-! What the end of a context leaves: the pins, and every descriptor that was there (R301, R549). -/

namespace Sys2Proof.Machine

/-- The pins, and which descriptors there are. -/
def endSide (s : State) : Pins × (Nat → Bool) := (s.pins, fun d => (mapFind s.descs d).isSome)

theorem endSide_of_mem {s t : State} (h : memRest t = memRest s) : endSide t = endSide s :=
  (congrArg endSide h : endSide (memRest t) = endSide (memRest s))

theorem endSide_of_rpt {s t : State} (h : rptRest t = rptRest s) : endSide t = endSide s :=
  (congrArg endSide h : endSide (rptRest t) = endSide (rptRest s))

theorem endSide_of_log {s t : State} (h : logRest t = logRest s) : endSide t = endSide s :=
  (congrArg endSide h : endSide (logRest t) = endSide (logRest s))

theorem endSide_of_event {s t : State} (h : eventRest t = eventRest s) : endSide t = endSide s :=
  (congrArg endSide h : endSide (eventRest t) = endSide (eventRest s))

/-! ### Registers and records -/

theorem setFld_endSide (s : State) (off hi lo v : Nat) : endSide (setFld s off hi lo v) = endSide s := by simp only [endSide, setFld_keeps]
theorem satFld_endSide (s : State) (off hi lo n : Nat) : endSide (satFld s off hi lo n) = endSide s := by simp only [endSide, satFld_keeps]
theorem regSet_endSide (s : State) (off v : Nat) : endSide (regSet s off v) = endSide s := by simp only [endSide, regSet_keeps]
theorem clrBitOf_endSide (s : State) (off i : Nat) : endSide (clrBitOf s off i) = endSide s := by simp only [endSide, clrBitOf_keeps]
theorem updCtx_endSide (s : State) (c : Nat) (f : Ctx → Ctx) : endSide (updCtx s c f) = endSide s := endSide_of_mem (updCtx_rest s c f)
theorem updRun_endSide (s : State) (c : Nat) (f : CtxRun → CtxRun) : endSide (updRun s c f) = endSide s := by simp only [endSide, updRun_keeps]
theorem updFn_endSide (s : State) (f : Nat) (g : Fn → Fn) : endSide (updFn s f g) = endSide s := by simp only [endSide, updFn_keeps]
theorem updPort_endSide (s : State) (p : Nat) (f : Port → Port) : endSide (updPort s p f) = endSide s := by simp only [endSide, updPort_keeps]
theorem updPart_endSide (s : State) (p : Nat) (f : Particle → Particle) : endSide (updPart s p f) = endSide s := by
  simp only [endSide, updPart_keeps]
theorem updVerb_endSide (s : State) (v : Nat) (f : Verb → Verb) : endSide (updVerb s v f) = endSide s := by simp only [endSide, updVerb_keeps]
theorem updProg_endSide (s : State) (id : Nat) (f : Prog → Prog) : endSide (updProg s id f) = endSide s := by simp only [endSide, updProg_keeps]
theorem updConj_endSide (s : State) (j : Nat) (f : Conj → Conj) : endSide (updConj s j f) = endSide s := by simp only [endSide, updConj_keeps]
theorem setProg_endSide (s : State) (id : Nat) (p : Prog) : endSide (setProg s id p) = endSide s := by simp only [endSide, setProg_keeps]
theorem setGroup_endSide (s : State) (gk : Nat) (g : Group) : endSide (setGroup s gk g) = endSide s := by simp only [endSide, setGroup_keeps]
theorem hostSend_endSide (s : State) (o : HostOut) : endSide (hostSend s o) = endSide s := by simp only [endSide, hostSend_keeps]

theorem report_endSide (s : State) (cls cause part slice unit : Nat) (d : List Nat) : endSide (report s cls cause part slice unit d) = endSide s :=
  endSide_of_rpt (report_rest s cls cause part slice unit d)

theorem auditCore_endSide (s : State) (kind part addr detail value : Nat) : endSide (auditCore s kind part addr detail value) = endSide s :=
  endSide_of_log (auditCore_logRest s kind part addr detail value)

theorem postEvent_endSide (s : State) (k code source ckey d0 d1 : Nat) : endSide (postEvent s k code source ckey d0 d1) = endSide s :=
  endSide_of_event (postEvent_rest s k code source ckey d0 d1)

/-- A record that is put again keeps the descriptors that there are. -/
theorem isSome_mapFind_mapIns {α : Type} {m : Map α} {k : Nat} (h : (mapFind m k).isSome = true) (v : α) (j : Nat) :
    (mapFind (mapIns m k v) j).isSome = (mapFind m j).isSome := by
  by_cases hj : j = k
  · rw [hj, mapFind_mapIns_same, h, Option.isSome_some]
  · rw [mapFind_mapIns_other _ _ _ _ hj]

theorem descEnd_endSide (s : State) (d status detail result : Nat) : endSide (descEnd s d status detail result) = endSide s := by
  unfold descEnd
  split
  · next x hx => exact Prod.ext rfl (funext fun j => isSome_mapFind_mapIns (by rw [hx, Option.isSome_some]) _ j)
  · exact Eq.refl (endSide s)

theorem dropWork_endSide (s : State) (w : HostWork) : endSide (dropWork s w) = endSide s := Eq.refl (endSide s)

/-! ### Memory and the host -/

theorem hostWrite_endSide (f fuel addr : Nat) (bs : List Byte) (ep ro ns : Bool) (s : State) :
    endSide (hostWrite s f fuel addr bs ep ro ns) = endSide s := by
  induction fuel generalizing s addr bs with
  | zero => rfl
  | succ fuel ih =>
    rw [hostWrite]
    split
    · rfl
    · exact (ih _ _ _).trans (hostSend_endSide _ _)

theorem arWrite_endSide (s : State) (c sl r : Nat) (bs : List Byte) (po : Bool) : endSide (arWrite s c sl r bs po) = endSide s := by
  unfold arWrite
  split
  · exact endSide_of_mem (spWrite_rest _ _ _ _ _ _)
  · exact endSide_of_mem (dvaWrite_rest _ _ _ _ _ _)

theorem areaStore_endSide (s : State) (c sl r : Nat) (bs : List Byte) (po : Bool) : endSide (areaStore s c sl r bs po) = endSide s := by
  unfold areaStore
  dsimp only
  split
  · exact arWrite_endSide _ _ _ _ _ _
  · refine foldl_keep endSide _ (fun s p => ?_) _ _
    split
    · exact hostWrite_endSide _ _ _ _ _ _ _ _
    · exact endSide_of_mem (dvaWrite_rest _ _ _ _ _ _)
    · rfl

theorem xFault_endSide (s : State) (k ckey dva cause lvl : Nat) (w : Bool) : endSide (xFault s k ckey dva cause lvl w) = endSide s := by
  unfold xFault
  split
  · exact Eq.refl (endSide s)
  · exact (postEvent_endSide _ _ _ _ _ _ _).trans (regSet_endSide _ _ _)

theorem areaCheck_endSide {s z : State} {c sl r n ckey st : Nat} {w : Bool} (h : areaCheck s c sl r n ckey w = some (z, st)) :
    endSide z = endSide s := by
  unfold areaCheck at h
  split at h
  · cases h
  · split at h
    · cases h
    · cases h; rfl
  · cases h; rfl
  · cases h; exact xFault_endSide _ _ _ _ _ _ _

/-! ### Conjunctions and links -/

theorem wakeWaiters_endSide (s : State) (j : Nat) : endSide (wakeWaiters s j) = endSide s := by
  unfold wakeWaiters
  refine foldl_keep endSide _ (fun s p => ?_) _ _
  dsimp only
  split
  · exact updPart_endSide _ _ _
  · rfl

theorem conjSignal_endSide (s : State) (j n : Nat) (err : Bool) (key : BitVec 16) : endSide (conjSignal s j n err key) = endSide s := by
  unfold conjSignal
  dsimp only
  split
  · exact (wakeWaiters_endSide _ _).trans (updConj_endSide _ _ _)
  · split
    · rfl
    · rw [setFld_endSide, setFld_endSide, satFld_endSide]

theorem egressPush_endSide (s : State) (e src : Nat) (pk : Pkt) (lock : Bool) : endSide (egressPush s e src pk lock) = endSide s := by
  simp only [endSide, egressPush, updPort_keeps]

theorem inject_endSide (s : State) (src : Nat) (pk : Pkt) (lock : Bool) : endSide (inject s src pk lock) = endSide s := by
  unfold inject
  split
  · exact Eq.refl (endSide s)
  · exact egressPush_endSide _ _ _ _ _
  · split
    · rfl
    · exact Eq.refl (endSide s)

theorem pairData_endSide (s : State) (tag addr : Nat) (ack : Bool) (bs : List Byte) (po : Nat) :
    endSide (pairData s tag addr ack bs po) = endSide s := by
  have hwait (z : State) (l : Map (Nat × Nat)) : endSide { z with ackWait := l } = endSide z := Eq.refl (endSide z)
  unfold pairData
  split
  · rfl
  · dsimp only
    split
    · rw [egressPush_endSide, hwait]
    · exact egressPush_endSide _ _ _ _ _

theorem pairSet_endSide (s : State) (st : Nat) : endSide (pairSet s st) = endSide s := by
  unfold pairSet
  split
  · rfl
  · exact (report_endSide _ _ _ _ _ _ _).trans (setFld_endSide _ _ _ _ _)

theorem pairCtxEnd_endSide (s : State) (cid status : Nat) : endSide (pairCtxEnd s cid status) = endSide s := by
  have hend (msg st step : Nat) : endSide (pairSet (pairSend s msg step []) st) = endSide s :=
    (pairSet_endSide _ _).trans (pairData_endSide _ _ _ _ _ _)
  unfold pairCtxEnd
  split
  · split
    · split
      · exact hend _ _ _
      · rfl
    · exact hend _ _ _
  · rfl

/-! ### Work, descriptors and groups -/

theorem flushAll_endSide (s : State) (cid : Nat) : endSide (flushAll s cid) = endSide s := by
  have hrec (z : State) (lp q : Nat) (r : QRec) : endSide (flushRec z lp q r) = endSide z := by
    simp only [endSide, flushRec, addWork, setProg_keeps]
  have hspace (z : State) (lp q n : Nat) : endSide (qspace z lp q n) = endSide z := by
    unfold qspace
    split
    · split
      · exact updPart_endSide _ _ _
      · rfl
    · rfl
  have hqueue (z : State) (lp q : Nat) (f : IQueue → IQueue) : endSide (updQueue z lp q f) = endSide z := Eq.refl (endSide z)
  unfold flushAll
  refine foldl_keep endSide _ (fun s lp => foldl_keep endSide _ (fun s q => ?_) _ _) _ _
  unfold flushQueue
  dsimp only
  rw [hspace, hqueue]
  exact foldl_keep endSide _ (fun s r => hrec s lp q r) _ _

theorem unitsDrop_endSide (s : State) (id : Nat) : endSide (unitsDrop s id) = endSide s := by
  have hinf (z : State) (u : Nat) : endSide (infRelease z u) = endSide z := clrBitOf_endSide _ _ _
  have hprs (z : State) (sl : Nat) : endSide (prsRelease z sl) = endSide z := clrBitOf_endSide _ _ _
  have hlex (z : State) (sl : Nat) : endSide (lexRelease z sl) = endSide z := clrBitOf_endSide _ _ _
  unfold unitsDrop
  dsimp only
  rw [foldl_keep endSide _ (fun s sl => hlex s sl), foldl_keep endSide _ (fun s sl => hprs s sl), foldl_keep endSide _ (fun s u => hinf s u)]
  exact foldl_keep endSide _ (fun s v => (clrBitOf_endSide _ _ _).trans (updVerb_endSide _ _ _)) _ _

theorem orSflags_endSide (s : State) (c fl : Nat) : endSide (orSflags s c fl) = endSide s := by
  unfold orSflags
  split
  · rfl
  · exact updCtx_endSide _ _ _

theorem workComplete_endSide (s : State) (id : Nat) : endSide (workComplete s id) = endSide s := by
  have hspace (z : State) : endSide (dropSpace z id) = endSide z := Eq.refl (endSide z)
  have hgone (z : State) (a : Map Prog) (b : Map InfRun) (c : Map Solve) (d : Map Asm) (w : Pwr) :
      endSide { z with progs := a, infRuns := b, solves := c, asms := d, pwr := w } = endSide z := Eq.refl (endSide z)
  unfold workComplete
  split
  · rfl
  · split
    · rfl
    · split
      · rfl
      · extract_lets e w fl
        split
        next z seen hz =>
        have hz : endSide z = endSide s := by
          split at hz
          · split at hz
            · cases hz; rfl
            · cases hz; exact endSide_of_mem (spWrite_rest _ _ _ _ _ _)
          · cases hz; rfl
        extract_lets z₁ z₂ z₃ z₄ z₅ z₆ pw z₇
        have h₁ : endSide z₁ = endSide s := by
          simp only [z₁]
          split
          · exact hz
          · exact (endSide_of_mem (spWrite_rest _ _ _ _ _ _)).trans hz
        have h₂ : endSide z₂ = endSide s := by
          simp only [z₂]
          split
          · split
            · exact (arWrite_endSide _ _ _ _ _ _).trans h₁
            · exact h₁
          · exact h₁
        have h₃ : endSide z₃ = endSide s := by
          simp only [z₃]
          split
          · exact h₂
          · exact (conjSignal_endSide _ _ _ _ _).trans h₂
        have h₆ : endSide z₆ = endSide s := by
          simp only [z₆, z₅, z₄, updRun_endSide, hspace, orSflags_endSide, h₃]
        have h₇ : endSide z₇ = endSide s := (hgone z₆ _ _ _ _ _).trans h₆
        clear_value z₇
        split
        · exact (descEnd_endSide _ _ _ _ _).trans h₇
        · exact h₇

theorem workKill_endSide (s : State) (id status : Nat) : endSide (workKill s id status) = endSide s := by
  have hlost (z : State) (l : List ContCount) : endSide { z with contQ := l } = endSide z := Eq.refl (endSide z)
  unfold workKill
  split
  · rfl
  · dsimp only
    unfold workEnd
    split
    · exact (updProg_endSide _ _ _).trans (unitsDrop_endSide _ _)
    · dsimp only
      rw [hlost, workComplete_endSide, updProg_endSide, unitsDrop_endSide]

theorem commitEnd_endSide (s : State) (id c : Nat) (d : Desc) (status outcome cause flags sticky carried flip : Nat) :
    endSide (commitEnd s id c d status outcome cause flags sticky carried flip) = endSide s := by
  unfold commitEnd
  dsimp only
  rw [descEnd_endSide]
  split
  · exact areaStore_endSide _ _ _ _ _ _
  · next h => exact areaCheck_endSide h

theorem descKill_endSide (s : State) (cid id : Nat) : endSide (descKill s cid id) = endSide s := by
  unfold descKill
  split
  · rfl
  · split
    · rfl
    · split
      · exact commitEnd_endSide _ _ _ _ _ _ _ _ _ _ _
      · exact (descEnd_endSide _ _ _ _ _).trans (dropWork_endSide _ _)

theorem runOver_endSide (s : State) (gk : Nat) (g : Group) (r : RRun) (status acause origin : Nat) (cl : RDone) :
    endSide (runOver s gk g r status acause origin cl) = endSide s := by
  have hdrop (z : State) : endSide (runOver.dropHostSegs z gk) = endSide z := Eq.refl (endSide z)
  unfold runOver
  extract_lets lt c₀ flags cause b z₁ cj z₂ z₃ z₄
  have h₁ : endSide z₁ = endSide s := by
    simp only [z₁]
    split
    · exact areaStore_endSide _ _ _ _ _ _
    · next h => exact areaCheck_endSide h
  have h₂ : endSide z₂ = endSide s := by
    simp only [z₂]
    split
    · exact (conjSignal_endSide _ _ _ _ _).trans h₁
    · exact h₁
  have h₃ : endSide z₃ = endSide s := by
    simp only [z₃]
    split
    · exact (orSflags_endSide _ _ _).trans h₂
    · exact h₂
  rw [setGroup_endSide, hdrop]
  exact (updCtx_endSide _ _ _).trans h₃

theorem collFail_endSide (s : State) (gk cause seg : Nat) : endSide (collFail s gk cause seg) = endSide s := by
  unfold collFail
  split
  · unfold collAbort
    split
    · rfl
    · split
      · rfl
      · dsimp only
        rw [runOver_endSide, satFld_endSide]
        split
        · exact (updCtx_endSide _ _ _).trans (foldl_keep endSide _ (fun s d => inject_endSide _ _ _ _) _ _)
        · exact foldl_keep endSide _ (fun s d => inject_endSide _ _ _ _) _ _
  · rfl

theorem groupFree_endSide (s : State) (gk : Nat) : endSide (groupFree s gk) = endSide s := by
  have hhandles (z : State) (l : Map HandleEnt) : endSide { z with handles := l } = endSide z := Eq.refl (endSide z)
  have hgroups (z : State) (l : Map Group) : endSide { z with groups := l } = endSide z := Eq.refl (endSide z)
  unfold groupFree
  split
  · rfl
  · dsimp only
    unfold noteGroups
    dsimp only
    rw [setFld_endSide, setFld_endSide, hgroups]
    unfold unbind
    split
    · rfl
    · unfold handleSet
      rw [auditCore_endSide, hhandles, setGroup_endSide]

theorem freeParticles_endSide (s : State) (cid : Nat) : endSide (freeParticles s cid) = endSide s := by
  unfold freeParticles
  exact foldl_keep endSide _ (fun s p => (updPart_endSide _ _ _).trans (dropWork_endSide _ _)) _ _

/-! ### The end of a context -/

theorem ctxEnd_endSide (s : State) (cid status : Nat) (keep : Option Nat) : endSide (ctxEnd s cid status keep) = endSide s := by
  have harms (z : State) (key : BitVec 16) : endSide (cancelArms z key) = endSide z := Eq.refl (endSide z)
  have hfree (z : State) (key : BitVec 16) : endSide (freeConjs z key) = endSide z := Eq.refl (endSide z)
  have hcst (z : State) : endSide (cstatusWrite z cid) = endSide z := endSide_of_mem (dvaWrite_rest _ _ _ _ _ _)
  unfold ctxEnd
  split
  · rfl
  · extract_lets key z₁ z₂ z₃ z₄ z₅ z₆ z₇ z₈ z₉ z₁₀ z₁₁ z₁₂
    have h₂ : endSide z₂ = endSide s := (flushAll_endSide _ _).trans (pairCtxEnd_endSide _ _ _)
    have h₃ : endSide z₃ = endSide s := (foldl_keep endSide _ (fun s id => workKill_endSide s id _) _ _).trans h₂
    have h₄ : endSide z₄ = endSide s := (foldl_keep endSide _ (fun s id => descKill_endSide s cid id) _ _).trans h₃
    have h₅ : endSide z₅ = endSide s :=
      (foldl_keep endSide _ (fun s gk => (groupFree_endSide _ _).trans (collFail_endSide _ _ _ _)) _ _).trans h₄
    have h₉ : endSide z₉ = endSide s := by simp only [z₉, z₈, z₇, z₆, hcst, updRun_endSide, freeParticles_endSide, harms, h₅]
    have h₁₀ : endSide z₁₀ = endSide s := (hfree _ _).trans h₉
    have h₁₁ : endSide z₁₁ = endSide s := by
      rw [← h₁₀]
      simp only [endSide, z₁₁]
    exact (auditCore_endSide _ _ _ _ _ _).trans ((postEvent_endSide _ _ _ _ _ _ _).trans h₁₁)

theorem ctxEnd_pins (s : State) (cid status : Nat) (keep : Option Nat) : (ctxEnd s cid status keep).pins = s.pins :=
  congrArg Prod.fst (ctxEnd_endSide s cid status keep)

/-- A descriptor that is there stays there. -/
theorem ctxEnd_desc (s : State) (cid status : Nat) (keep : Option Nat) (d : Nat) :
    (mapFind (ctxEnd s cid status keep).descs d).isSome = (mapFind s.descs d).isSome :=
  congrFun (congrArg Prod.snd (ctxEnd_endSide s cid status keep)) d

/-- R301: the context is gone. -/
theorem ctxEnd_dead (s : State) (cid status : Nat) (keep : Option Nat) : (ctxOf (ctxEnd s cid status keep) cid).live = false := by
  have hpost (z : State) (k code source ckey d0 d1 : Nat) : (postEvent z k code source ckey d0 d1).ctxs = z.ctxs :=
    (congrArg State.ctxs (postEvent_rest z k code source ckey d0 d1) : (eventRest _).ctxs = (eventRest _).ctxs)
  have haudit (z : State) (kind part addr detail value : Nat) : (auditCore z kind part addr detail value).ctxs = z.ctxs :=
    (congrArg State.ctxs (auditCore_logRest z kind part addr detail value) : (logRest _).ctxs = (logRest _).ctxs)
  unfold ctxEnd
  split
  · next h => simpa using h
  · dsimp only
    rw [ctxOf, haudit, hpost, mapGet_mapDel_same]

end Sys2Proof.Machine
end

section
/-! What the resets clear and keep (R615 to R618, R627). -/

namespace Sys2Proof.Machine

/-! ### Resets (R615 to R618) -/

theorem guaranteeYield_keeps (s : State) (k y p : Nat) :
    (guaranteeYield s k y p).nvm = s.nvm ∧ (guaranteeYield s k y p).hbm = s.hbm := by
  have hrpt := report_logRest (postEvent s k 8 0 0 (y + 256 * p) 0) clEVENT 0x14 k 0xFF 0xFF [y + 256 * p] (by decide)
  have hev := postEvent_rest s k 8 0 0 (y + 256 * p) 0
  have hn : (eventRest (postEvent s k 8 0 0 (y + 256 * p) 0)).nvm = (eventRest s).nvm := congrArg State.nvm hev
  have hh : (eventRest (postEvent s k 8 0 0 (y + 256 * p) 0)).hbm = (eventRest s).hbm := congrArg State.hbm hev
  exact ⟨(congrArg State.nvm hrpt : (logRest _).nvm = (logRest _).nvm).trans hn,
    (congrArg State.hbm hrpt : (logRest _).hbm = (logRest _).hbm).trans hh⟩

/-- What a cold reset keeps of the state that it finds. -/
def resetKept (s : State) : Nvm × Mem := (s.nvm, s.hbm)

theorem portsWithdraw_kept (s : State) (k : Nat) : resetKept (portsWithdraw s k).1 = resetKept s := by
  unfold portsWithdraw
  exact foldl_keep_fst resetKept _ (fun _ _ => by rfl) _ _

theorem locksEnd_kept (s : State) (k : Nat) : resetKept (locksEnd s k) = resetKept s := by
  unfold locksEnd
  refine (foldl_keep resetKept _ (fun s _ => ?_) _ _).trans ((foldl_keep_fst resetKept _ (fun _ _ => by rfl) _ _).trans (portsWithdraw_kept s k))
  exact Prod.ext (guaranteeYield_keeps s k 5 1).1 (guaranteeYield_keeps s k 5 1).2

theorem keptRegs_nodup : (keptRegs.map (·.1)).Nodup := by decide

/-- The state that a cold reset finds once every locked sequence has ended and the cause is noted. -/
def coldCause (s : State) (c : Nat) : State :=
  let z := setBitOf ((List.range 12).foldl (fun s k => if partState s k = 0 then s else locksEnd s k) s) aSYN_RST_CAUSE c
  if z.pins.trip then setBitOf z aSYN_RST_CAUSE 7 else z

theorem coldCause_kept (s : State) (c : Nat) : resetKept (coldCause s c) = resetKept s := by
  have hlocks : resetKept ((List.range 12).foldl (fun s k => if partState s k = 0 then s else locksEnd s k) s) = resetKept s :=
    foldl_keep resetKept _ (fun s k => by
      split
      · rfl
      · exact locksEnd_kept s k) _ _
  unfold coldCause
  dsimp only
  split <;> exact hlocks

theorem coldCause_noted (s : State) {c : Nat} (h : c < 7) : bit (regGet (coldCause s c) aSYN_RST_CAUSE) c = true := by
  rw [← bits_one_eq_one_iff]
  unfold coldCause
  dsimp only
  split
  · exact (fld_setFld_apart _ _ _ le_rfl (by omega) (.inl h)).trans (fld_setBitOf_same _ _ _ (by omega))
  · exact fld_setBitOf_same _ _ _ (by omega)

/-- What a cold reset leaves of that state but for the kept registers. -/
def coldBase (s : State) (c : Nat) : State :=
  { State.reset with
    pending := s.pending, free := s.free, hbm := s.hbm
    hstk := s.hstk.map fun x => (x.1, { remap := x.2.remap, pend := x.2.pend, dropped := x.2.dropped })
    reports := s.reports, rseq := s.rseq, rptLost := s.rptLost, rptBuf := s.rptBuf, mgmtOut := s.mgmtOut
    audit := s.audit, audLost := s.audLost, audFirst := s.audFirst
    hostOut := s.hostOut, wire := s.wire
    i3c := s.i3c, jtag := s.jtag, nvm := s.nvm
    pins := { s.pins with reset := true, coldLow := c == 1, ready := false, trip := s.pins.trip && c != 1 }
    pwr := { rails := s.pwr.rails, vin := s.pwr.vin } }

theorem coldReset_eq (s : State) (c : Nat) :
    coldReset s c = (keptRegs.map fun x => (x.1, regGet (coldCause s c) x.1 &&& x.2)).foldl (fun s x => regSet s x.1 x.2)
      (coldBase (coldCause s c) c) := rfl

/-- A cold reset is its base but for the registers. -/
theorem coldReset_base {β : Type} (g : State → β) (hg : ∀ s a v, g (regSet s a v) = g s) (s : State) (c : Nat) :
    g (coldReset s c) = g (coldBase (coldCause s c) c) := by
  rw [coldReset_eq]
  exact foldl_regSet_keep g hg _ _

theorem coldReset_kept (s : State) (c : Nat) : resetKept (coldReset s c) = resetKept s :=
  (coldReset_base resetKept (fun _ _ _ => rfl) s c).trans (coldCause_kept s c)

theorem coldReset_nvm (s : State) (c : Nat) : (coldReset s c).nvm = s.nvm := (Prod.mk.inj (coldReset_kept s c)).1
theorem coldReset_hbm (s : State) (c : Nat) : (coldReset s c).hbm = s.hbm := (Prod.mk.inj (coldReset_kept s c)).2

/-- R616: the cause stands after the reset. -/
theorem coldReset_cause (s : State) {c : Nat} (h : c < 7) : fld (coldReset s c) aSYN_RST_CAUSE c c = 1 := by
  have hnodup : ((keptRegs.map fun x => (x.1, regGet (coldCause s c) x.1 &&& x.2)).map (·.1)).Nodup := by
    rw [List.map_map]
    exact keptRegs_nodup
  have hmem : (aSYN_RST_CAUSE, regGet (coldCause s c) aSYN_RST_CAUSE &&& 0xFF) ∈
      keptRegs.map fun x => (x.1, regGet (coldCause s c) x.1 &&& x.2) := List.mem_map.mpr ⟨(aSYN_RST_CAUSE, 0xFF), by decide, rfl⟩
  have hmask : (0xFF).testBit c = true := by interval_cases c <;> rfl
  rw [fld, coldReset_eq, regGet_foldl_regSet_mem _ hnodup hmem, bits_mod_two_pow _ _ _ _ (by omega), bits_one_eq_one_iff, bit,
    Nat.testBit_land, hmask, Bool.and_true]
  exact coldCause_noted s h

theorem coldReset_boot (s : State) (c : Nat) : bootState (coldReset s c) = 0 := by
  have hout : aSYN_BOOT ∉ (keptRegs.map fun x => (x.1, regGet (coldCause s c) x.1 &&& x.2)).map (·.1) := by
    rw [List.map_map]
    exact (by decide : aSYN_BOOT ∉ keptRegs.map (·.1))
  rw [bootState, fld, coldReset_eq, regGet_foldl_regSet_other _ _ _ hout]
  exact (by decide : fld State.reset aSYN_BOOT 3 0 = 0)

/-- What a cold reset leaves besides: it is that of its base. -/
theorem coldReset_clears (s : State) (c : Nat) :
    (coldReset s c).pins.reset = true ∧ (coldReset s c).pins.ready = false ∧ (coldReset s c).spm = {} ∧ (coldReset s c).descs = [] ∧
    (coldReset s c).ctxs = [] ∧ (coldReset s c).conj = [] ∧ (coldReset s c).tense = 0 := by
  have hfield {β : Type} (g : State → β) (hg : ∀ s a v, g (regSet s a v) = g s) := coldReset_base g hg s c
  rw [hfield State.pins fun _ _ _ => rfl, hfield State.spm fun _ _ _ => rfl, hfield State.descs fun _ _ _ => rfl,
    hfield State.ctxs fun _ _ _ => rfl, hfield State.conj fun _ _ _ => rfl, hfield State.tense fun _ _ _ => rfl]
  simp only [coldBase, State.reset]
  exact ⟨trivial, trivial, trivial, trivial, trivial, trivial, trivial⟩

/-! ### PERST_N (R627) -/

theorem ringsDiscard_pins (s : State) (k : Nat) : (ringsDiscard s k).pins = s.pins := by
  unfold ringsDiscard
  dsimp only
  exact foldl_keep State.pins _ (fun s d => congrArg Prod.fst (dropWork_endSide s (.desc d))) _ _

theorem fnQuiet_pins (s : State) (f : Nat) : (fnQuiet s f).pins = s.pins := by
  unfold fnQuiet dropReads
  dsimp only
  exact (foldl_keep State.pins _ (fun s t => by split <;> exact Eq.refl s.pins) _ _).trans (Eq.refl s.pins)

theorem fnReset_pins (s : State) (f : Nat) : (fnReset s f).pins = s.pins := by
  unfold fnReset
  extract_lets z₁ z₂ k z₃
  have h₂ : z₂.pins = s.pins := by simp only [z₂, noteTrackers, setFld_keeps, z₁, fnQuiet_pins]
  clear_value z₂
  have h₃ : z₃.pins = s.pins := by
    simp only [z₃]
    split
    · simp only [regSet_keeps, h₂]
    · simp only [regSet_keeps, ringsDiscard_pins, partCtxsEnd]
      exact (foldl_keep State.pins _ (fun s c => ctxEnd_pins s c _ _) _ _).trans h₂
  simp only [updFn_keeps, h₃]

theorem fnResetAll_pins (s : State) (f : Nat) : (fnResetAll s f).pins = s.pins := by
  unfold fnResetAll
  dsimp only
  split
  · exact foldl_keep State.pins _ fnReset_pins _ _
  · exact foldl_keep State.pins _ fnReset_pins _ _

/-- R627: with PF0 reset no function is enabled. -/
theorem fnResetAll_disabled (s : State) : ∀ x ∈ (fnResetAll s 0).fns, x.2.enabled = false := by
  intro x hx
  obtain ⟨y, _, rfl⟩ := List.mem_map.mp (show x ∈ List.map _ _ from hx)
  rfl

theorem perstNAssert_down {s : State} (hp : s.pins.perst = false) : ∃ t, exec .perstNAssert s = .next t ∧ t.pins.perst = true ∧
    (s.pins.reset = false → ∀ f, (fnOf t f).bme = false ∧ (fnOf t f).enabled = false) := by
  have hexec : exec .perstNAssert s = execPerstNAssert s := rfl
  rw [hexec]
  unfold execPerstNAssert
  rw [if_neg (ne_true_of_eq_false hp), ran_eq]
  extract_lets z₁ z₂
  refine ⟨_, rfl, ?_, fun hr f => ?_⟩
  · simp only [underQueue_keeps]
  · have h₁ : z₁ = fnResetAll s 0 := if_neg (ne_true_of_eq_false hr)
    have h₂ : z₂ = { z₁ with fns := z₁.fns.map fun f => (f.1, { f.2 with bme := false, d3hot := false }) } :=
      if_neg (by rw [h₁, fnResetAll_pins, hr]; decide)
    have hdown : ∀ x ∈ z₂.fns, x.2.bme = false ∧ x.2.enabled = false := by
      rw [h₂, h₁]
      intro x hx
      obtain ⟨y, hy, rfl⟩ := List.mem_map.mp hx
      exact ⟨rfl, fnResetAll_disabled s y hy⟩
    exact mapGet_of_forall (P := fun x : Fn => x.bme = false ∧ x.enabled = false) (d := {}) ⟨rfl, rfl⟩ hdown f

/-- Settles O55: the power-on reset, the cold resets by cause, the rails and COLD_RST_N, and PERST_N. -/
theorem resetsClearTheDevice : Obligations.ResetsClearTheDevice := by
  unfold Obligations.ResetsClearTheDevice
  refine ⟨fun s => ⟨_, rfl, rfl, rfl, rfl, rfl, rfl, rfl, ?_⟩, fun s i cause hi => ?_, fun s d hd hlow => ?_, fun s hlow => ⟨?_, ?_⟩,
    fun s hp => ?_, fun s => ⟨_, rfl, rfl⟩⟩
  case refine_1 =>
    exact (fld_regSet_other _ _ _ _ _ _ (by decide)).trans (by decide : fld State.reset aSYN_BOOT 3 0 = 0)
  case refine_2 =>
    have hran : exec i s = ran s (coldReset s cause) ∧ cause < 7 := by
      rcases hi with ⟨hc, rfl, rfl⟩ | ⟨v, hv, rfl, rfl⟩ | ⟨d, hd, hlow, rfl, rfl⟩
      · exact ⟨congrArg (ran s) (if_neg (by simp [hc])), by decide⟩
      · refine ⟨?_, by split <;> decide⟩
        change execSynResetCold s = _
        rw [execSynResetCold, hv]
      · refine ⟨?_, by decide⟩
        change execRailReset d s = _
        simp [execRailReset, guardUnit, hd, hlow]
    obtain ⟨hexec, hc⟩ := hran
    obtain ⟨hreset, hready, hspm, hdescs, hctxs, hconj, htense⟩ := coldReset_clears s cause
    refine ⟨underQueue s (coldReset s cause), hexec, ?_⟩
    simp only [underQueue_keeps, fld_underQueue]
    exact ⟨coldReset_cause s hc, hreset, hready, coldReset_nvm s cause, coldReset_hbm s cause, hspm, hdescs, hctxs, hconj, htense, coldReset_boot s cause⟩
  case refine_3 =>
    have hexec : exec (.railReset d) s = ran s s := by
      change execRailReset d s = _
      simp [execRailReset, guardUnit, hd, Nat.not_le.mpr hlow]
    exact hexec
  case refine_4 =>
    have hexec : exec .railEnFall s = ran s { s with pins := { s.pins with railEn := false }, pwr := { s.pwr with rails := [] } } :=
      congrArg (ran s) (if_pos hlow)
    exact ⟨_, hexec, rfl, rfl⟩
  case refine_5 => exact congrArg (ran s) (if_pos hlow)
  case refine_6 => exact perstNAssert_down hp

end Sys2Proof.Machine
end

section
/-! Descriptors: what their records say, and how they end (R525, R534). -/

namespace Sys2Proof.Machine

open Sys2Proof.Claims

/-- A descriptor that may start is there, accepted, of its type and form. -/
theorem descReady_facts {s : State} {d ty fm : Nat} {x : Desc} (h : descReady s d ty fm = some x) :
    mapFind s.descs d = some x ∧ x.st = .accepted ∧ dType x = ty ∧ dForm x = fm := by
  unfold descReady at h
  split at h
  · next y hy =>
    obtain ⟨⟨hst, hty, hfm, _, _⟩, hxy⟩ := Option.ite_none_right_eq_some.mp h
    cases hxy
    exact ⟨hy, hst, hty, hfm⟩
  · cases h

theorem mapFind_of_descReady {s : State} {d ty fm : Nat} {x : Desc} (h : descReady s d ty fm = some x) : mapFind s.descs d = some x :=
  (descReady_facts h).1

theorem mapFind_of_descLive {s : State} {d ty fm : Nat} {x : Desc} (h : descLive s d ty fm = some x) : mapFind s.descs d = some x := by
  unfold descLive at h
  split at h
  · next y hy =>
    cases h
    exact mapFind_of_descReady hy
  · exact mapFind_of_descRunning h

/-- A descriptor under way is there, running, of its type and form. -/
theorem descRunning_facts {s : State} {d ty fm : Nat} {x : Desc} (h : descRunning s d ty fm = some x) :
    mapFind s.descs d = some x ∧ x.st = .running ∧ dType x = ty ∧ dForm x = fm := by
  unfold descRunning at h
  split at h
  · next y hy =>
    split at h
    · next hok =>
      cases h
      obtain ⟨hst, hty, hfm⟩ := hok
      exact ⟨hy, hst, hty, hfm⟩
    · cases h
  · cases h

/-- The end of a descriptor is noted at it, and as the latest work; nothing else changes. -/
theorem descEnd_rest (s : State) (d st dt r : Nat) : { descEnd s d st dt r with descs := s.descs, pwr := s.pwr } = s := by
  unfold descEnd
  split <;> rfl

theorem descEnd_eq (s : State) (d st dt r : Nat) :
    descEnd s d st dt r = { s with descs := (descEnd s d st dt r).descs, pwr := (descEnd s d st dt r).pwr } := by
  unfold descEnd
  split <;> rfl

section
variable (s : State) (d st dt r : Nat)

@[simp] theorem descEnd_keeps :
    (descEnd s d st dt r).pending = s.pending ∧ (descEnd s d st dt r).free = s.free ∧ (descEnd s d st dt r).tense = s.tense ∧
    (descEnd s d st dt r).regs = s.regs ∧ (descEnd s d st dt r).spm = s.spm ∧ (descEnd s d st dt r).hbm = s.hbm ∧
    (descEnd s d st dt r).conj = s.conj ∧ (descEnd s d st dt r).ctxs = s.ctxs ∧ (descEnd s d st dt r).runs = s.runs ∧
    (descEnd s d st dt r).progs = s.progs ∧ (descEnd s d st dt r).nextProg = s.nextProg ∧ (descEnd s d st dt r).groups = s.groups ∧
    (descEnd s d st dt r).handles = s.handles ∧ (descEnd s d st dt r).outSigs = s.outSigs ∧ (descEnd s d st dt r).hostOut = s.hostOut ∧
    (descEnd s d st dt r).acts = s.acts ∧ (descEnd s d st dt r).wire = s.wire ∧ (descEnd s d st dt r).sqs = s.sqs := by
  rw [descEnd_eq]
  exact ⟨rfl, rfl, rfl, rfl, rfl, rfl, rfl, rfl, rfl, rfl, rfl, rfl, rfl, rfl, rfl, rfl, rfl, rfl⟩

@[simp] theorem conjOf_descEnd (j : Nat) : conjOf (descEnd s d st dt r) j = conjOf s j := by simp only [conjOf, descEnd_keeps]
@[simp] theorem ctxOf_descEnd (c : Nat) : ctxOf (descEnd s d st dt r) c = ctxOf s c := by simp only [ctxOf, descEnd_keeps]
@[simp] theorem runOf_descEnd (c : Nat) : runOf (descEnd s d st dt r) c = runOf s c := by simp only [runOf, descEnd_keeps]
@[simp] theorem groupOf_descEnd (gk : Nat) : groupOf (descEnd s d st dt r) gk = groupOf s gk := by simp only [groupOf, descEnd_keeps]
@[simp] theorem progOf_descEnd (id : Nat) : progOf (descEnd s d st dt r) id = progOf s id := by simp only [progOf, descEnd_keeps]

end

section
variable (s t : State)

@[simp] theorem groupOf_underQueue (gk : Nat) : groupOf (underQueue s t) gk = groupOf t gk := rfl
@[simp] theorem portOf_underQueue (p : Nat) : portOf (underQueue s t) p = portOf t p := rfl
@[simp] theorem fnOf_underQueue (f : Nat) : fnOf (underQueue s t) f = fnOf t f := rfl
@[simp] theorem stkOf_underQueue (k : Nat) : stkOf (underQueue s t) k = stkOf t k := rfl
@[simp] theorem sqOf_underQueue (k i : Nat) : sqOf (underQueue s t) k i = sqOf t k i := rfl
@[simp] theorem endsAs_underQueue (d st dt r : Nat) : endsAs (underQueue s t) d st dt r = endsAs t d st dt r := rfl

end

/-- What a command that ran answers. -/
theorem ran_next {i : Instr} {s z t : State} (h : exec i s = ran z t) : exec i s = .next (underQueue z t) := h

/-- A command whose units exist runs. -/
theorem exec_guarded {i : Instr} {s z t : State} {ok : Bool} (hok : ok = true) (h : exec i s = guardUnit ok (ran z t)) : exec i s = ran z t :=
  h.trans (if_pos hok)

theorem exec_guarded_eq {i : Instr} {s z u t : State} {ok : Bool} (hok : ok = true) (h : exec i s = guardUnit ok (ran z u)) (hu : u = t) :
    exec i s = ran z t := (exec_guarded hok h).trans (congrArg (ran z) hu)

/-- A command that ends the descriptor `d` of the state `z`. -/
theorem endsAs_ran_descEnd {z : State} {d : Nat} {x : Desc} (hx : mapFind z.descs d = some x) (s : State) (st dt r : Nat) :
    endsAs (underQueue s (descEnd z d st dt r)) d st dt r := endsAs_descEnd hx _ _ _

end Sys2Proof.Machine
end

section
/-! The operations on a Conjunction (R308 to R314) and the comparators (R331). -/

namespace Sys2Proof.Machine

open Sys2Proof.Claims

/-! ### What a signal leaves alone -/

/-- The state without what a signal may change. -/
def conjRest (s : State) : State := { s with regs := [], conj := [], particles := [] }

theorem updConj_rest (s : State) (j : Nat) (f : Conj → Conj) : conjRest (updConj s j f) = conjRest s := rfl
theorem updPart_conjRest (s : State) (p : Nat) (f : Particle → Particle) : conjRest (updPart s p f) = conjRest s := rfl
theorem setFld_conjRest (s : State) (off hi lo v : Nat) : conjRest (setFld s off hi lo v) = conjRest s := rfl

theorem wakeWaiters_rest (s : State) (j : Nat) : conjRest (wakeWaiters s j) = conjRest s := by
  unfold wakeWaiters
  refine foldl_keep conjRest _ (fun s p => ?_) _ _
  dsimp only
  split
  · exact updPart_conjRest _ _ _
  · rfl

theorem conjApply_rest (s : State) (j n : Nat) (err : Bool) : conjRest (conjApply s j n err) = conjRest s :=
  (wakeWaiters_rest _ _).trans (updConj_rest _ _ _)

theorem conjSignal_rest (s : State) (j n : Nat) (err : Bool) (key : BitVec 16) : conjRest (conjSignal s j n err key) = conjRest s := by
  unfold conjSignal
  dsimp only
  split
  · exact conjApply_rest _ _ _ _
  · split
    · rfl
    · exact (setFld_conjRest _ _ _ _ _).trans ((setFld_conjRest _ _ _ _ _).trans (setFld_conjRest _ _ _ _ _))

theorem descs_of_conjRest {s t : State} (h : conjRest t = conjRest s) : t.descs = s.descs :=
  (congrArg State.descs h : (conjRest t).descs = (conjRest s).descs)

/-! ### The operations of CONJ_SIGNAL -/

/-- A Conjunction that a context of a partition holds lies in the device. -/
theorem lt_of_ctxByConj {s : State} {k j : Nat} (h : (ctxByConj s k j).isSome = true) : j < conjTotal := by
  unfold ctxByConj at h
  split at h
  · cases h
  · omega

section
variable {s : State} {d op j : Nat} {x : Desc} {f : State → Desc → Nat → State} (hx : descReady s d dtCONJ op = some x)
include hx

theorem conjCmd_refused (h : ctxByConj s x.part (dNat x 0x10 2 % 2 ^ 14) = none) : conjCmd s d op f = descEnd s d stCONJ_RANGE 0 0 := by
  unfold conjCmd
  rw [hx]
  dsimp only
  rw [h]
  rfl

theorem conjCmd_runs (hj : j = dNat x 0x10 2 % 2 ^ 14) (h : (ctxByConj s x.part j).isSome = true) : conjCmd s d op f = f s x j := by
  subst hj
  unfold conjCmd
  rw [hx]
  dsimp only
  rw [if_neg (by simpa using Option.isSome_iff_ne_none.mp h)]

end

/-- R308: a signal by the Conjunction's own key is applied where that is not zero. -/
theorem conjKeyOk_own {s : State} {j : Nat} (h : j < conjTotal) (hkey : (conjOf s j).key ≠ 0#16) : conjKeyOk s j (conjOf s j).key = true := by
  simp [conjKeyOk, h, hkey]

theorem conjReset_rest (s : State) (j : Nat) (v : W32) : conjRest (conjReset s j v) = conjRest s :=
  (wakeWaiters_rest _ _).trans (updConj_rest _ _ _)

theorem conjReset_same (s : State) (j : Nat) (v : W32) : conjOf (conjReset s j v) j = { conjOf s j with count := v, error := false } := by
  rw [conjReset, conjOf, wakeWaiters_conj]
  exact conjOf_updConj_same _ _ _

theorem conjReset_other (s : State) {j l : Nat} (v : W32) (h : l ≠ j) : conjOf (conjReset s j v) l = conjOf s l := by
  rw [conjReset, conjOf, wakeWaiters_conj]
  exact conjOf_updConj_other _ _ _ _ h

theorem freeArm_lt {s : State} {sl lc : Nat} (h : freeArm s sl = some lc) : lc < 56 := by
  unfold freeArm at h
  exact List.mem_range.mp (List.mem_of_find?_eq_some h)

theorem conjArm_descs (s : State) (j t n : Nat) : (conjArm s j t n).2.descs = s.descs := by
  unfold conjArm
  split
  · rfl
  · split
    · rfl
    · exact descs_of_conjRest (updConj_rest _ _ _)

theorem conjDisarm_descs (s : State) (j : Nat) : (conjDisarm s j).2.descs = s.descs := by
  unfold conjDisarm
  split
  · rfl
  · split
    · rfl
    · exact descs_of_conjRest (updConj_rest _ _ _)

/-! ### The operations, one by one -/

section
variable {s : State} {d j : Nat} {x : Desc}

/-- R309: SIGNAL of a Conjunction of this device. -/
theorem conjSignal_here (hx : descReady s d dtCONJ 0 = some x) (hj : j = dNat x 0x10 2 % 2 ^ 14)
    (hc : (ctxByConj s x.part j).isSome = true) (hfar : bit (dNat x 0x12 1) 1 = false) :
    exec (.conjSignal d) s = ran s (descEnd (signalOwn s j (dNat x 0x14 2) (bit (dNat x 0x12 1) 0)) d stOK 0 0) := by
  refine congrArg (ran s) ((conjCmd_runs hx hj hc).trans ?_)
  unfold conjCmdSignal
  dsimp only
  rw [if_neg (ne_true_of_eq_false hfar)]

end

/-! ### Comparators (R312, R331) -/

theorem conjOf_atTime (s : State) (now j : Nat) : conjOf (atTime s now) j = conjOf s j := by simp only [conjOf, atTime_keeps]

theorem armMatch_before {s : State} {j : Nat} {a : Arm} (ha : (conjOf s j).arm = some a) (ht : s.tense.toNat < a.time) : armMatch s j = s := by
  rw [armMatch, ha]
  exact if_neg (by omega)

theorem armMatch_at {s : State} {j : Nat} {a : Arm} (ha : (conjOf s j).arm = some a) (ht : a.time ≤ s.tense.toNat) :
    armMatch s j = updConj s j fun c => { c with arm := some { a with fired := true } } := by
  rw [armMatch, ha]
  exact if_pos ht

theorem armApply_pending {s : State} {j : Nat} {a : Arm} (ha : (conjOf s j).arm = some a) (hf : a.fired = false) : armApply s j = s := by
  rw [armApply, ha]
  exact if_neg (ne_true_of_eq_false hf)

theorem conjOf_wakeBy (s : State) (src j : Nat) : conjOf (wakeBy s src) j = conjOf s j := by simp only [conjOf, wakeBy_keeps]

theorem armApply_fired {s : State} {j : Nat} {a : Arm} (ha : (conjOf s j).arm = some a) (hf : a.fired = true) :
    armApply s j = wakeBy (updConj (conjApply s j a.inc false) j fun c => { c with arm := none }) 3 := by
  rw [armApply, ha]
  exact if_pos hf

theorem armApply_same {s : State} {j : Nat} {a : Arm} (ha : (conjOf s j).arm = some a) (hf : a.fired = true) :
    conjOf (armApply s j) j = { conjOf s j with count := (conjOf s j).count + BitVec.ofNat 32 a.inc, arm := none } := by
  rw [armApply_fired ha hf, conjOf_wakeBy, conjOf_updConj_same, conjOf_conjApply, conjOf_updConj_same, Bool.or_false]

theorem armApply_other {s : State} {j l : Nat} {a : Arm} (ha : (conjOf s j).arm = some a) (hf : a.fired = true) (hl : l ≠ j) :
    conjOf (armApply s j) l = conjOf s l := by
  rw [armApply_fired ha hf, conjOf_wakeBy, conjOf_updConj_other _ _ _ _ hl, conjOf_conjApply, conjOf_updConj_other _ _ _ _ hl]

/-- COMPARATOR_MATCH decides the match and, with `apply`, applies its signal. -/
theorem exec_comparatorMatch {s z : State} {now : Nat} (hz : z = atTime s now) (j : Nat) (apply : Bool) :
    exec (.comparatorMatch j now apply) s = ran s (if apply then armApply (armMatch z j) j else armMatch z j) := by
  subst hz
  rfl

/-- Settles O28: each operation of the descriptor on the Conjunction that it names, and the two halves of a comparator's match. -/
theorem conjunctionOperations : Obligations.ConjunctionOperations := by
  unfold Obligations.ConjunctionOperations
  refine ⟨⟨fun s d op i x hi hx hc => ?_, fun s d x j hx hj hc hkey => ⟨fun hfar => ?_, fun hfar => ?_⟩, fun s d x j hx hj hc => ?_,
    fun s d x j hx hj hc => ⟨fun ha => ?_, fun ha hf => ?_, fun lc ha hf => ?_⟩,
    fun s d x j hx hj hc => ⟨fun ha => ?_, fun a ha hf => ?_, fun a ha hf => ?_⟩, fun s d x j hx hj hc => ?_⟩,
    fun s j now a z hz ha ht => ⟨?_, ?_⟩, fun s j now apply a z hz ha hf ht => ?_⟩
  case refine_1 =>
    have hrefuse : exec i s = ran s (descEnd s d stCONJ_RANGE 0 0) := by
      simp only [List.mem_cons, List.not_mem_nil, or_false, Prod.mk.injEq] at hi
      rcases hi with ⟨rfl, rfl⟩ | ⟨rfl, rfl⟩ | ⟨rfl, rfl⟩ | ⟨rfl, rfl⟩ | ⟨rfl, rfl⟩ <;> exact congrArg (ran s) (conjCmd_refused hx hc)
    exact ⟨_, ran_next hrefuse, endsAs_ran_descEnd (mapFind_of_descReady hx) _ _ _ _, by simp only [underQueue_keeps, descEnd_keeps]⟩
  case refine_2 =>
    have hk := conjKeyOk_own (lt_of_ctxByConj hc) hkey
    refine ⟨_, ran_next (conjSignal_here hx hj hc hfar), endsAs_ran_descEnd (x := x) ?_ _ _ _ _, ?_, fun l hl => ?_⟩
    · rw [signalOwn, descs_of_conjRest (conjSignal_rest _ _ _ _ _), mapFind_of_descReady hx]
    · simp only [conjOf_underQueue, conjOf_descEnd, signalOwn]
      exact conjOf_conjSignal_same hk _ _
    · simp only [conjOf_underQueue, conjOf_descEnd, signalOwn]
      exact conjOf_conjSignal_other hk hl _ _
  case refine_3 =>
    have hexec : exec (.conjSignal d) s = ran s (if routeOk s x.part (dNat x 0x16 2) = true then
        descEnd { s with outSigs := s.outSigs ++ [{ part := x.part, handle := dNat x 0x16 2, index := j, inc := dNat x 0x14 2
                                                    error := bit (dNat x 0x12 1) 0, key := (conjOf s j).key }] } d stOK 0 0
        else descEnd s d stCONJ_KEY 0 0) := by
      refine congrArg (ran s) ((conjCmd_runs hx hj hc).trans ?_)
      unfold conjCmdSignal
      dsimp only
      rw [if_pos hfar]
    by_cases hr : routeOk s x.part (dNat x 0x16 2) = true
    · rw [if_pos hr] at hexec
      refine ⟨_, ran_next hexec, by simp only [underQueue_keeps, descEnd_keeps], fun _ => ⟨endsAs_ran_descEnd (x := x) ?_ _ _ _ _, ?_⟩,
        fun h => absurd (hr.symm.trans h) (by decide)⟩
      · exact mapFind_of_descReady hx
      · simp only [underQueue_keeps, descEnd_keeps]
    · rw [if_neg hr] at hexec
      exact ⟨_, ran_next hexec, by simp only [underQueue_keeps, descEnd_keeps], fun h => absurd h hr,
        fun _ => ⟨endsAs_ran_descEnd (mapFind_of_descReady hx) _ _ _ _, by simp only [underQueue_keeps, descEnd_keeps]⟩⟩
  case refine_4 =>
    refine ⟨_, ran_next (congrArg (ran s) (conjCmd_runs hx hj hc)), endsAs_ran_descEnd (x := x) ?_ _ _ _ _, ?_, fun l hl => ?_⟩
    · rw [descs_of_conjRest (conjReset_rest _ _ _), mapFind_of_descReady hx]
    · simp only [conjOf_underQueue, conjOf_descEnd, conjReset_same]
    · simp only [conjOf_underQueue, conjOf_descEnd, conjReset_other _ _ hl]
  case refine_5 =>
    have harm : conjArm s j (dNat x 0x20 8) (dNat x 0x14 2) = (stARM_BUSY, s) := if_pos ha
    exact ⟨_, ran_next (congrArg (ran s) ((conjCmd_runs hx hj hc).trans (by dsimp only; rw [harm]))),
      endsAs_ran_descEnd (mapFind_of_descReady hx) _ _ _ _, by simp only [underQueue_keeps, descEnd_keeps]⟩
  case refine_6 =>
    have harm : conjArm s j (dNat x 0x20 8) (dNat x 0x14 2) = (stARM_FULL, s) := by
      rw [conjArm, if_neg (by simp [ha]), hf]
    exact ⟨_, ran_next (congrArg (ran s) ((conjCmd_runs hx hj hc).trans (by dsimp only; rw [harm]))),
      endsAs_ran_descEnd (mapFind_of_descReady hx) _ _ _ _, by simp only [underQueue_keeps, descEnd_keeps]⟩
  case refine_7 =>
    have harm : conjArm s j (dNat x 0x20 8) (dNat x 0x14 2) = (stOK, updConj s j fun c => { c with
        arm := some { lc := lc, time := dNat x 0x20 8, inc := dNat x 0x14 2 } }) := by
      rw [conjArm, if_neg (by simp [ha]), hf]
    refine ⟨_, ran_next (congrArg (ran s) ((conjCmd_runs hx hj hc).trans (by dsimp only; rw [harm]))),
      endsAs_ran_descEnd (x := x) ?_ _ _ _ _, freeArm_lt hf, ?_, fun l hl => ?_⟩
    · rw [descs_of_conjRest (updConj_rest _ _ _), mapFind_of_descReady hx]
    · simp only [conjOf_underQueue, conjOf_descEnd, conjOf_updConj_same]
    · simp only [conjOf_underQueue, conjOf_descEnd, conjOf_updConj_other _ _ _ _ hl]
  case refine_8 =>
    have hdis : conjDisarm s j = (0, s) := by rw [conjDisarm, ha]
    exact ⟨_, ran_next (congrArg (ran s) ((conjCmd_runs hx hj hc).trans (by dsimp only; rw [hdis]))),
      endsAs_ran_descEnd (mapFind_of_descReady hx) _ _ _ _, by simp only [underQueue_keeps, descEnd_keeps]⟩
  case refine_9 =>
    have hdis : conjDisarm s j = (2, s) := by rw [conjDisarm, ha]; exact if_pos hf
    exact ⟨_, ran_next (congrArg (ran s) ((conjCmd_runs hx hj hc).trans (by dsimp only; rw [hdis]))),
      endsAs_ran_descEnd (mapFind_of_descReady hx) _ _ _ _, by simp only [underQueue_keeps, descEnd_keeps]⟩
  case refine_10 =>
    have hdis : conjDisarm s j = (1, updConj s j fun c => { c with arm := none }) := by
      rw [conjDisarm, ha]
      exact if_neg (ne_true_of_eq_false hf)
    refine ⟨_, ran_next (congrArg (ran s) ((conjCmd_runs hx hj hc).trans (by dsimp only; rw [hdis]))),
      endsAs_ran_descEnd (x := x) ?_ _ _ _ _, ?_⟩
    · rw [descs_of_conjRest (updConj_rest _ _ _), mapFind_of_descReady hx]
    · simp only [conjOf_underQueue, conjOf_descEnd, conjOf_updConj_same]
  case refine_11 =>
    exact ⟨_, ran_next (congrArg (ran s) (conjCmd_runs hx hj hc)), endsAs_ran_descEnd (mapFind_of_descReady hx) _ _ _ _,
      by simp only [underQueue_keeps, descEnd_keeps]⟩
  case refine_12 =>
    refine ⟨_, ran_next (exec_comparatorMatch hz j false), ?_⟩
    rw [conjOf_underQueue, if_neg (by decide), armMatch_at ha ht, conjOf_updConj_same, hz, conjOf_atTime]
  case refine_13 =>
    have hm := armMatch_at ha ht
    have hfired : (conjOf (armMatch z j) j).arm = some { a with fired := true } := by rw [hm, conjOf_updConj_same]
    refine ⟨_, ran_next (exec_comparatorMatch hz j true), ?_, fun l hl => ?_⟩
    · rw [conjOf_underQueue, if_pos rfl, armApply_same hfired rfl, hm, conjOf_updConj_same, hz, conjOf_atTime]
    · rw [conjOf_underQueue, if_pos rfl, armApply_other hfired rfl hl, hm, conjOf_updConj_other _ _ _ _ hl, hz, conjOf_atTime]
  case refine_14 =>
    have hm := armMatch_before ha ht
    have hend : (if apply = true then armApply (armMatch z j) j else armMatch z j) = z := by
      rw [hm, armApply_pending ha hf, ite_self]
    refine ⟨_, ran_next (exec_comparatorMatch hz j apply), ?_⟩
    rw [hend]
    simp only [underQueue_keeps, hz, atTime_keeps]

end Sys2Proof.Machine
end

section
/-! The memory windows (R488, R491, R492). -/

namespace Sys2Proof.Machine

/-! ### Partition memory inside a granule (R336) -/

theorem barAligned_iff (o n : Nat) : barAligned o n = true ↔ (n = 4 ∨ n = 8) ∧ o % n = 0 := by
  simp [barAligned]

/-- A place in the same granule lies as far on in the memory. -/
theorem pmIx_add {s : State} {k a i : Nat} (h : a % 256 + i < 256) : pmIx s k (a + i) = pmIx s k a + i := by
  have hq : (a + i) / 256 = a / 256 := by omega
  have hr : (a + i) % 256 = a % 256 + i := by omega
  simp only [pmIx, locate, hq, hr, hbmIx, Nat.add_assoc]

theorem locate_fst_granule (stks : List Nat) (a : Nat) : (locate stks (256 * (a / 256))).1 = (locate stks a).1 := by
  have hq : 256 * (a / 256) / 256 = a / 256 := by omega
  simp only [locate, hq]

/-- A range inside a granule that touches no offline stack lies on an online one. -/
theorem stackOnline_of_inside {s : State} {k a n : Nat} (hn : 0 < n) (h : a % 256 + n ≤ 256) (hon : pmOffline s k a n = false) :
    stackOnline s (locate (partSlices s k) a).1 = true := by
  have hone : (a + n - 1) / 256 + 1 - a / 256 = 1 := by omega
  rw [pmOffline, hone] at hon
  simpa [locate_fst_granule] using hon

/-- Bytes that end inside a granule are one piece. -/
theorem splitAtGran_one {g a fuel : Nat} {bs : List Byte} (hbs : bs ≠ []) (h : a % g + bs.length ≤ g) :
    splitAtGran g (fuel + 2) a bs = [(a, bs)] := by
  have hlen : bs.length ≤ g - a % g := by omega
  have hne : bs.isEmpty = false := by simpa using hbs
  rw [splitAtGran, if_neg (by simp [hne])]
  dsimp only
  rw [List.take_of_length_le hlen, List.drop_of_length_le hlen, splitAtGran, if_pos List.isEmpty_nil]

/-- A write inside a granule of an online stack is a write of the memory. -/
theorem pmWrite_inside {s : State} {k a : Nat} {bs : List Byte} {po : Bool} (hbs : bs ≠ []) (h : a % 256 + bs.length ≤ 256)
    (hon : pmOffline s k a bs.length = false) : pmWrite s k a bs po = { s with hbm := memWrite s.hbm (pmIx s k a) bs po } := by
  have hstack := stackOnline_of_inside (List.length_pos_iff.mpr hbs) h hon
  rw [pmWrite, splitAtGran_one hbs h, List.foldl_cons, List.foldl_nil, if_pos hstack]

theorem memByte_memWrite_inside (m : Mem) (a i : Nat) (bs : List Byte) (po : Bool) (h : i < bs.length) :
    memByte (memWrite m a bs po) (a + i) = bs.getD i 0#8 := by
  rw [memByte_memWrite, if_pos (Nat.le_add_right _ _), Nat.add_sub_cancel_left, List.getD_eq_getElem _ _ h, List.getD_eq_getElem _ _ h]

/-! ### The windows -/

/-- R491: a window access is of 4 or 8 bytes, aligned, so it stays in a granule. -/
theorem inside_of_barAligned {a n : Nat} (h : barAligned a n = true) : 0 < n ∧ a % 256 + n ≤ 256 := by
  obtain ⟨rfl | rfl, ha⟩ := (barAligned_iff a n).mp h <;> omega

section
variable {s : State} {f off n k a : Nat}

theorem exec_memoryWindowRead (hup : hostUp s = true) (hready : devReady s = true) (he : inEllipsis s = false)
    (hw : winAddr s f off = some (k, a)) : exec (.memoryWindowRead f off n) s = ran s (hostSend s (winRead s f k off a n)) := by
  refine congrArg (ran s) ?_
  rw [if_neg (by simp [hup]), if_neg (by simp [hready]), hw]
  exact if_neg (ne_true_of_eq_false he)

theorem exec_memoryWindowWrite {data : List Byte} {po : Bool} (hopen : barOpen s = true) (he : inEllipsis s = false)
    (hw : winAddr s f off = some (k, a)) : exec (.memoryWindowWrite f off data po) s = ran s (
      if po then aerPoisoned (badAccess s) f
      else if !barAligned off data.length then badAccess s
      else if pmSize s k < a + data.length then s
      else pmWrite s k a data false) := by
  refine congrArg (ran s) ?_
  rw [if_neg (by simp [hopen]), hw]
  exact if_neg (ne_true_of_eq_false he)

end

theorem badAccess_counts (s : State) : fld (badAccess s) aPCI_HOST_STATUS 31 16 = satAdd 16 (fld s aPCI_HOST_STATUS 31 16) 1 :=
  fld_satFld_same _ _ _ (by decide) (by decide)

/-- Settles O45: what a window read is answered with, what a window write stores or counts, and the answer to an AtomicOp. -/
theorem hostWindowsReachMemory : Obligations.HostWindowsReachMemory := by
  unfold Obligations.HostWindowsReachMemory
  refine ⟨fun s f off n k a hup hready he hw => ⟨fun hbad => ?_, fun hal hin hoff => ?_, fun hal hin hon => ?_⟩,
    fun s f off data k a hopen he hw => ⟨fun hal hala hin hon => ?_, fun hal => ?_, ?_⟩, fun s f hup => ?_⟩
  case refine_1 =>
    have hread : winRead s f k off a n = .cpl f 1 [] false := by
      unfold winRead
      rcases hbad with h | h
      · rw [if_pos (by simp [h])]
      · rw [if_pos h, ite_self]
    rw [exec_memoryWindowRead hup hready he hw, hread]
    rfl
  case refine_2 =>
    have hread : winRead s f k off a n = .cpl f 4 [] false := by
      rw [winRead, if_neg (by simp [hal]), if_neg (by omega), if_pos hoff]
    rw [exec_memoryWindowRead hup hready he hw, hread]
    rfl
  case refine_3 =>
    have hread : winRead s f k off a n = .cpl f 0 (pmRead s k a n).1 (pmRead s k a n).2 := by
      rw [winRead, if_neg (by simp [hal]), if_neg (by omega), if_neg (ne_true_of_eq_false hon)]
    rw [exec_memoryWindowRead hup hready he hw, hread]
    rfl
  case refine_4 =>
    obtain ⟨hpos, hins⟩ := inside_of_barAligned hala
    have hexec : exec (.memoryWindowWrite f off data false) s = ran s { s with hbm := memWrite s.hbm (pmIx s k a) data false } := by
      rw [exec_memoryWindowWrite hopen he hw, if_neg (by decide), if_neg (by simp [hal]), if_neg (by omega),
        pmWrite_inside (List.length_pos_iff.mp hpos) hins hon]
    refine ⟨_, ran_next hexec, rfl, rfl, fun i hi => ?_⟩
    rw [pmIx_add (by omega)]
    exact memByte_memWrite_inside _ _ _ _ _ hi
  case refine_5 =>
    have hexec : exec (.memoryWindowWrite f off data false) s = ran s (badAccess s) := by
      rw [exec_memoryWindowWrite hopen he hw, if_neg (by decide), if_pos (by simp [hal])]
    exact ⟨_, ran_next hexec, by simp only [underQueue_keeps, badAccess, satFld_keeps], badAccess_counts s⟩
  case refine_6 =>
    refine ⟨_, ran_next (exec_memoryWindowWrite hopen he hw), ?_, ?_, ?_⟩
    · rw [if_pos rfl]
      simp only [underQueue_keeps, aerPoisoned, updFn_keeps, badAccess, satFld_keeps]
    · rw [if_pos rfl, fnOf_underQueue, aerPoisoned, fnOf_updFn_same, bit, Nat.testBit_or, Nat.testBit_two_pow_self, Bool.or_true]
    · rw [if_pos rfl, fld_underQueue, aerPoisoned, fld_of_regs (s := badAccess s) (by simp only [updFn_keeps]), badAccess_counts]
  case refine_7 => exact congrArg (ran s) (if_pos hup)

end Sys2Proof.Machine
end

section
/-! Translations: walks, their faults, and invalidations (R505 to R509). -/

namespace Sys2Proof.Machine

/-! ### Events and the registers -/

theorem regGet_hostEntry (s : State) (f : Nat) (o : HostOut) (a : Nat) : regGet (hostEntry s f o) a = regGet s a := by
  unfold hostEntry
  split <;> rfl

theorem regGet_hostMsix (s : State) (f v a : Nat) : regGet (hostMsix s f v) a = regGet s a := by
  unfold hostMsix
  split <;> rfl

/-- A ring's entry moves the ring's write count and no other register. -/
theorem regGet_ringEntry (s : State) (k m : Nat) (body : List Byte) {a : Nat} (h : a ≠ aPART_CQ_STATE k m) :
    regGet (ringEntry s k m body) a = regGet s a := by
  unfold ringEntry
  extract_lets b n st wc bytes z wc' z₁
  have hz : regGet z₁ a = regGet s a := by
    rw [regGet_setFld_other _ _ _ _ _ _ h, regGet_setFld_other _ _ _ _ _ _ h, regGet_hostEntry]
  clear_value z₁
  split
  · rw [regGet_hostMsix, hz]
  · exact hz

/-- An event changes no register but the state of the partition's event ring. -/
theorem regGet_postEvent (s : State) (k code source ckey d0 d1 : Nat) {a : Nat} (h : a ≠ aPART_CQ_STATE k 4) :
    regGet (postEvent s k code source ckey d0 d1) a = regGet s a := by
  have hset (z : State) (l : Map Nat) : regGet { z with eqLost := l } a = regGet z a := Eq.refl (regGet z a)
  have hlost (z : State) : regGet (eventLost z k) a = regGet z a := by
    unfold eventLost
    dsimp only
    rw [hset]
    exact regGet_setFld_other _ _ _ _ _ _ h
  unfold postEvent
  dsimp only
  split
  · split
    · exact regGet_ringEntry _ _ _ _ h
    · split
      · rw [regGet_ringEntry _ _ _ _ h, regGet_ringEntry _ _ _ _ h, hset]
      · rw [hlost, regGet_ringEntry _ _ _ _ h, hset]
  · exact hlost _

/-- What an event leaves alone, field by field. -/
@[simp] theorem postEvent_keeps (s : State) (k code source ckey d0 d1 : Nat) :
    (postEvent s k code source ckey d0 d1).pending = s.pending ∧ (postEvent s k code source ckey d0 d1).tense = s.tense ∧
    (postEvent s k code source ckey d0 d1).spm = s.spm ∧ (postEvent s k code source ckey d0 d1).hbm = s.hbm ∧
    (postEvent s k code source ckey d0 d1).conj = s.conj ∧ (postEvent s k code source ckey d0 d1).ctxs = s.ctxs ∧
    (postEvent s k code source ckey d0 d1).runs = s.runs ∧ (postEvent s k code source ckey d0 d1).descs = s.descs ∧
    (postEvent s k code source ckey d0 d1).xcache = s.xcache ∧ (postEvent s k code source ckey d0 d1).sqs = s.sqs ∧
    (postEvent s k code source ckey d0 d1).answers = s.answers ∧ (postEvent s k code source ckey d0 d1).hstk = s.hstk ∧
    (postEvent s k code source ckey d0 d1).groups = s.groups ∧ (postEvent s k code source ckey d0 d1).progs = s.progs ∧
    (postEvent s k code source ckey d0 d1).pins = s.pins ∧ (postEvent s k code source ckey d0 d1).pwr = s.pwr := by
  have keep {β : Type} (g : State → β) (hg : ∀ z, g (eventRest z) = g z) : g (postEvent s k code source ckey d0 d1) = g s :=
    (hg _).symm.trans ((congrArg g (postEvent_rest s k code source ckey d0 d1)).trans (hg s))
  exact ⟨keep State.pending fun _ => rfl, keep State.tense fun _ => rfl, keep State.spm fun _ => rfl, keep State.hbm fun _ => rfl,
    keep State.conj fun _ => rfl, keep State.ctxs fun _ => rfl, keep State.runs fun _ => rfl, keep State.descs fun _ => rfl,
    keep State.xcache fun _ => rfl, keep State.sqs fun _ => rfl, keep State.answers fun _ => rfl, keep State.hstk fun _ => rfl,
    keep State.groups fun _ => rfl, keep State.progs fun _ => rfl, keep State.pins fun _ => rfl, keep State.pwr fun _ => rfl⟩

/-! ### Faults (R507) -/

/-- A fault that was not seen before is recorded in the partition's register. -/
theorem xFault_of_new {s : State} {k ckey dva cause lvl : Nat} {w : Bool} (h : s.xseen.contains (k, dva % 2 ^ 48, w) = false) :
    xFault s k ckey dva cause lvl w = postEvent (regSet s (aPART_XLAT_FAULT k) (xFaultImage dva cause lvl w)) k 1 0 ckey
      (xFaultImage dva cause lvl w) 0 := by
  rw [xFault, if_neg (ne_true_of_eq_false h)]

theorem regGet_xFault {s : State} {k ckey dva cause lvl : Nat} {w : Bool} (h : s.xseen = []) :
    regGet (xFault s k ckey dva cause lvl w) (aPART_XLAT_FAULT k) = xFaultImage dva cause lvl w % 2 ^ 64 := by
  rw [xFault_of_new (by rw [h]; rfl), regGet_postEvent _ _ _ _ _ _ _ (by unfold aPART_XLAT_FAULT aPART_CQ_STATE; omega), regGet_regSet_same]

theorem xFault_xcache (s : State) (k ckey dva cause lvl : Nat) (w : Bool) : (xFault s k ckey dva cause lvl w).xcache = s.xcache := by
  cases h : s.xseen.contains (k, dva % 2 ^ 48, w)
  · rw [xFault_of_new h]
    simp only [postEvent_keeps, regSet_keeps]
  · rw [xFault, if_pos h]

theorem xFaultImage_lt (dva lvl cause : Nat) (w : Bool) (hl : lvl < 8) (hc : cause < 256) : xFaultImage dva cause lvl w < 2 ^ 64 := by
  have hw : (if w = true then 2 ^ 59 else 0) ≤ 2 ^ 59 := by
    split
    · exact le_rfl
    · exact Nat.zero_le _
  have hdva : dva % 2 ^ 48 < 2 ^ 48 := Nat.mod_lt _ (Nat.two_pow_pos 48)
  unfold xFaultImage
  generalize dva % 2 ^ 48 = a at hdva
  generalize (if w = true then 2 ^ 59 else 0) = b at hw
  norm_num at hdva hw ⊢
  omega

/-! ### Walks (R505, R506) -/

section
variable {s : State} {k sl dva evict : Nat} {w : Bool} (hk : k < 12)
include hk

theorem exec_translationWalk : exec (.translationWalk k sl dva w evict) s = ran s (
    if mapFind s.xcache (xStop s k sl * 2 ^ 32 + dva % 2 ^ 48 / 65536) = none then walkMiss s k sl (dva % 2 ^ 48) w evict else s) :=
  exec_guarded (by simpa using hk) rfl

theorem exec_translationWalk_hit (h : (mapFind s.xcache (xStop s k sl * 2 ^ 32 + dva % 2 ^ 48 / 65536)).isSome = true) :
    exec (.translationWalk k sl dva w evict) s = ran s s := by
  rw [exec_translationWalk hk, if_neg (Option.isSome_iff_ne_none.mp h)]

theorem exec_translationWalk_miss (h : mapFind s.xcache (xStop s k sl * 2 ^ 32 + dva % 2 ^ 48 / 65536) = none) :
    exec (.translationWalk k sl dva w evict) s = ran s (walkMiss s k sl (dva % 2 ^ 48) w evict) := by
  rw [exec_translationWalk hk, if_pos h]

end

/-- The fault of a walk: recorded, and remembered for the access that asked. -/
def walkFault (s : State) (k dva : Nat) (w : Bool) (cause lvl : Nat) : State :=
  { xFault s k 0 dva cause lvl w with xseen := (xFault s k 0 dva cause lvl w).xseen ++ [(k, dva, w)] }

theorem walkFault_recorded {s : State} {k dva cause lvl : Nat} {w : Bool} (h : s.xseen = []) :
    regGet (walkFault s k dva w cause lvl) (aPART_XLAT_FAULT k) = xFaultImage dva cause lvl w % 2 ^ 64 :=
  (regGet_of_regs rfl _).trans (regGet_xFault h)

theorem walkFault_xcache (s : State) (k dva cause lvl : Nat) (w : Bool) : (walkFault s k dva w cause lvl).xcache = s.xcache :=
  xFault_xcache s k 0 dva cause lvl w

section
variable {s : State} {k sl dva evict : Nat} {w : Bool}

theorem walkMiss_off (h : fld s (aPART_XLAT k) 0 0 = 0) : walkMiss s k sl dva w evict = walkFault s k dva w xNOT_VALID 0 := by
  unfold walkMiss
  dsimp only
  rw [if_pos h]
  rfl

variable {lvl tb : Nat} (hon : fld s (aPART_XLAT k) 0 0 = 1) (hdeep : xDeep s k dva (fld s (aPART_XLAT k) 51 12 * 4096) = (lvl, tb))
include hon hdeep

theorem walkMiss_fails {c l : Nat} (h : xWalk s k dva (4 - lvl) tb lvl = .error (c, l)) :
    walkMiss s k sl dva w evict = walkFault s k dva w c l := by
  unfold walkMiss
  dsimp only
  rw [hdeep]
  dsimp only
  rw [if_neg (by omega), h]
  rfl

theorem walkMiss_fills {e : XEnt} (h : xWalk s k dva (4 - lvl) tb lvl = .ok e) :
    mapFind (walkMiss s k sl dva w evict).xcache (xStop s k sl * 2 ^ 32 + dva / 65536) = some { e with oa := e.oa - dva % 65536 } := by
  unfold walkMiss
  dsimp only
  rw [hdeep]
  dsimp only
  rw [if_neg (by omega), h]
  dsimp only
  split
  · rw [xFault_xcache]
    exact mapFind_mapIns_same _ _ _
  · exact mapFind_mapIns_same _ _ _

end

/-! ### Invalidations (R509) -/

theorem fld_one_cases (s : State) (off i : Nat) : fld s off i i = 0 ∨ fld s off i i = 1 := by
  rw [fld, bits_one_eq]
  cases bit (regGet s off) i <;> simp

/-- Settles O47: a walk that the cache answers, that fails, or that fills the cache; and an invalidation from its start to its end. -/
theorem translationsAreCached : Obligations.TranslationsAreCached := by
  unfold Obligations.TranslationsAreCached
  refine ⟨fun s k sl dva w ev a hk ha => ?_, fun s k v hk hv => ?_, fun s k hk hbusy => ?_⟩
  · subst ha
    refine ⟨fun h => exec_translationWalk_hit hk h, fun hmiss hseen => ⟨fun hoff => ?_, fun lvl tb hon hdeep => ⟨fun c l h => ?_, fun e h => ?_⟩⟩⟩
    · refine ⟨_, ran_next (exec_translationWalk_miss hk hmiss), ?_, ?_⟩
      · rw [regGet_underQueue, walkMiss_off hoff, walkFault_recorded hseen, Nat.mod_eq_of_lt (xFaultImage_lt _ _ _ _ (by decide) (by decide))]
      · simp only [underQueue_keeps, walkMiss_off hoff, walkFault_xcache]
    · refine ⟨_, ran_next (exec_translationWalk_miss hk hmiss), ?_, ?_⟩
      · rw [regGet_underQueue, walkMiss_fails hon hdeep h, walkFault_recorded hseen]
      · simp only [underQueue_keeps, walkMiss_fails hon hdeep h, walkFault_xcache]
    · refine ⟨_, ran_next (exec_translationWalk_miss hk hmiss), ?_⟩
      simp only [underQueue_keeps]
      exact walkMiss_fills hon hdeep h
  · have hexec : exec (.xlatInvalidate k) s = ran s (setBitOf (strobeClr s (aPART_XLAT_INV k) 61) (aPART_XLAT_INV k) 62) := by
      refine exec_guarded_eq (ok := decide (k < 12)) (by simpa using hk) rfl ?_
      dsimp only
      rw [hv]
    exact ⟨_, ran_next hexec, (fld_underQueue _ _ _ _ _).trans (fld_setBitOf_same _ _ _ (by decide)), by simp only [underQueue_keeps, setBitOf_keeps, strobeClr_keeps]⟩
  · have hexec : exec (.xlatInvalidateDone k) s = ran s (setBitOf (clrBitOf (xInval s k (fld s (aPART_XLAT_INV k) 60 60 == 1)
        (fld s (aPART_XLAT_INV k) 47 16) (fld s (aPART_XLAT_INV2 k) 31 0)) (aPART_XLAT_INV k) 62) (aPART_XLAT_INV k) 63) := by
      refine exec_guarded_eq (ok := decide (k < 12)) (by simpa using hk) rfl ?_
      exact if_neg (by omega)
    refine ⟨_, ran_next hexec, ?_, (fld_underQueue _ _ _ _ _).trans (fld_setBitOf_same _ _ _ (by decide)), ?_⟩
    · rw [fld_underQueue, setBitOf, fld_setFld_apart _ _ _ le_rfl (by decide) (.inl (by decide))]
      exact fld_clrBitOf_same _ _ _ (by decide)
    · simp only [underQueue_keeps, setBitOf_keeps, clrBitOf_keeps, xInval, List.mem_filter]
      refine ⟨fun x hx => hx.1, fun x hx hout => ⟨hx, ?_⟩, fun x hx hin => ?_⟩
      · simp [hout, -Nat.reducePow]
      · obtain ⟨_, hkept⟩ := hx
        have hnot60 : fld s (aPART_XLAT_INV k) 60 60 ≠ 1 := by
          intro h1
          simp [hin, h1, -Nat.reducePow] at hkept
        have h60 := (fld_one_cases s (aPART_XLAT_INV k) 60).resolve_right hnot60
        simp [hin, h60, -Nat.reducePow] at hkept
        exact ⟨h60, by omega⟩

end Sys2Proof.Machine
end

section
/-! Command rings: doorbells, fetches, flush and enable (R513 to R520, R537, R540). -/

namespace Sys2Proof.Machine

/-! ### Strobes -/

theorem strobeOf_strobeClr_same (s : State) (off b : Nat) : strobeOf (strobeClr s off b) off b = none := mapFind_mapDel_same _ _

theorem strobeOf_of_strobes {s t : State} (h : t.strobes = s.strobes) (off b : Nat) : strobeOf t off b = strobeOf s off b := by
  rw [strobeOf, strobeOf, h]

/-! ### Rings as the state holds them -/

theorem sqOf_of_sqs {s t : State} (h : t.sqs = s.sqs) (k i : Nat) : sqOf t k i = sqOf s k i := by rw [sqOf, sqOf, h]

theorem sqHC_of_regs {s t : State} (h : t.regs = s.regs) (k i : Nat) : sqHC t k i = sqHC s k i := fld_of_regs h _ _ _
theorem sqN_of_regs {s t : State} (h : t.regs = s.regs) (k i : Nat) : sqN t k i = sqN s k i := by rw [sqN, sqN, fld_of_regs h]

theorem sqHC_lt (s : State) (k i : Nat) : sqHC s k i < 2 ^ 32 := fld_lt _ _ _ _

theorem sqHC_sqSetHC (s : State) (k i hc : Nat) : sqHC (sqSetHC s k i hc) k i = hc % 2 ^ 32 := by
  rw [sqHC, sqSetHC, fld_setFld_apart _ _ _ le_rfl (by decide) (.inl (by decide)), fld_setFld_same _ _ _ (by decide) (by decide)]

theorem sqOf_sqSetHC (s : State) (k i hc a b : Nat) : sqOf (sqSetHC s k i hc) a b = sqOf s a b :=
  sqOf_of_sqs (by simp only [sqSetHC, setFld_keeps]) a b

/-! ### Doorbells (R518, R520) -/

theorem doorbell_runs {s : State} {f k : Nat} {data : List Byte} {act : State → Nat → State} (hopen : barOpen s = true)
    (hf : f = 0 ∨ (f = k + 1 ∧ (fnOf s f).enabled = true ∧ (fnOf s f).flr = 0)) (hlen : data.length = 4 ∨ data.length = 8) :
    doorbell s f k data false act = act (wakeBy s 0) (leNat (data.take 4)) := by
  have hmay : (f == 0 || f == k + 1 && (fnOf s f).enabled && (fnOf s f).flr == 0) = true := by
    rcases hf with rfl | ⟨rfl, he, hl⟩ <;> simp [*]
  rw [doorbell, if_neg (by simp [hopen, hmay]), if_neg (by decide), if_neg (by omega)]

/-- R518: what a doorbell within its bounds, or beyond them, does to the ring. -/
theorem sqDoorbell_ring {z : State} {k i : Nat} (v : Nat) (hon : sqOn z k i = true) {d : Nat} (hd : d = (v + 2 ^ 32 - sqHC z k i) % 2 ^ 32) :
    sqOf (sqDoorbell z k i v) k i =
      if d = 0 ∨ 2 ^ 31 ≤ d ∨ sqN z k i < d then { sqOf z k i with stall := none }
      else { sqOf z k i with stall := none, tc := if ((sqOf z k i).tc + 2 ^ 32 - sqHC z k i) % 2 ^ 32 < d then v else (sqOf z k i).tc } := by
  have hsqs (w : State) (k code source ckey d0 d1 : Nat) : (postEvent w k code source ckey d0 d1).sqs = w.sqs := by simp only [postEvent_keeps]
  unfold sqDoorbell
  dsimp only
  rw [if_neg (by simp [hon]), ← hd]
  by_cases hold : d = 0 ∨ 2 ^ 31 ≤ d
  · rw [if_pos hold, if_pos (by omega), sqOf_updSq_same]
  · rw [if_neg hold]
    by_cases hbig : sqN z k i < d
    · rw [if_pos hbig, if_pos (by omega), sqOf_of_sqs (hsqs _ _ _ _ _ _ _), sqOf_updSq_same]
    · have hin : ¬(d = 0 ∨ 2 ^ 31 ≤ d ∨ sqN z k i < d) := by omega
      rw [if_neg hbig, if_neg hin, sqOf_updSq_same]

/-- R520: a released count within its bounds is taken, one beyond them is not. -/
theorem cqDoorbell_rc {z : State} {k m : Nat} (v : Nat) (hon : cqOn z k m = true) (hst : partState z k ≠ 3) :
    rcOf (cqDoorbell z k m v) k m =
      if (v + 2 ^ 32 - rcOf z k m) % 2 ^ 32 ≤ (fld z (aPART_CQ_STATE k m) 31 0 + 2 ^ 32 - rcOf z k m) % 2 ^ 32 then v else rcOf z k m := by
  have hrcs (w : State) (k code source ckey d0 d1 : Nat) : (postEvent w k code source ckey d0 d1).rcs = w.rcs :=
    (congrArg State.rcs (postEvent_rest w k code source ckey d0 d1) : (eventRest _).rcs = (eventRest _).rcs)
  unfold cqDoorbell
  dsimp only
  rw [if_neg (by simp [hon, hst])]
  split
  · exact mapGet_mapSet_same _ _ _ _
  · rw [rcOf, hrcs, rcOf]

/-! ### Fetches (R519) -/

theorem hostRead_of_free {s : State} {f n : Nat} (w : HostWork) (addr len : Nat) (ro ns : Bool) (hf : fnSends s f = true)
    (hn : freeTracker s f = some n) : hostRead s f w addr len ro ns =
      some (noteTrackers (hostSend { s with trackers := mapIns s.trackers n { fn := f, gen := (fnOf s f).gen, work := w, addr := addr, len := len } }
        (.read f (n + 1024 * (fnOf s f).gen) addr len ro ns))) := by
  rw [hostRead, if_pos hf, hn]

theorem hostRead_sqs {s z : State} {f addr len : Nat} {w : HostWork} {ro ns : Bool} (h : hostRead s f w addr len ro ns = some z) : z.sqs = s.sqs := by
  unfold hostRead at h
  split at h
  · split at h
    · cases h
      simp only [noteTrackers, setFld_keeps, hostSend_keeps]
    · cases h
  · cases h

theorem ringFetch_sqs (s : State) (k i : Nat) : (ringFetch s k i).sqs = s.sqs := by
  unfold ringFetch
  dsimp only
  split
  · rfl
  · cases h : hostRead s (vfOf k) _ _ _ false false with
    | none => rfl
    | some z => exact hostRead_sqs h

/-! ### Flushes (R537) -/

theorem addDesc_keeps (s : State) (x : Desc) : (addDesc s x).regs = s.regs ∧ (addDesc s x).sqs = s.sqs ∧ (addDesc s x).strobes = s.strobes :=
  ⟨rfl, rfl, rfl⟩

/-- The state of a flush once its descriptors have ended. -/
theorem sqFlush_eq (s : State) (k i : Nat) : ∃ z : State, z.regs = s.regs ∧ z.sqs = s.sqs ∧ z.strobes = s.strobes ∧
    sqFlush s k i = clrBitOf (clrBitOf (sqSetHC (updSq z k i fun q => { q with
      buf := [], hold := none, stall := none, tc := (sqHC s k i / sqN s k i + 1) * sqN s k i % 2 ^ 32 }) k i
        ((sqHC s k i / sqN s k i + 1) * sqN s k i % 2 ^ 32)) (aPART_SQ_HEAD k i) 33) (aPART_SQ_HEAD k i) 34 := by
  unfold sqFlush
  extract_lets q z₁ z₂ n hc z₃
  have h₁ : z₁.regs = s.regs ∧ z₁.sqs = s.sqs ∧ z₁.strobes = s.strobes := by
    have hfold := foldl_keep (fun z : State => (z.regs, z.sqs, z.strobes)) (fun (s : State) (b : Nat × List Byte) =>
      let d : Desc := { part := k, sq := i, count := b.1, bytes := b.2, since := s.tense.toNat, st := .ended stFLUSHED 0 0 }
      addDesc s { d with cq := if dNocq d then none else some (dCq d), signals := dSignals s d }) (fun s b => rfl) q.buf s
    exact ⟨congrArg Prod.fst hfold, congrArg (·.2.1) hfold, congrArg (·.2.2) hfold⟩
  have h₂ : z₂.regs = s.regs ∧ z₂.sqs = s.sqs ∧ z₂.strobes = s.strobes := by
    simp only [z₂]
    split
    · simpa only [updDesc_keeps] using h₁
    · exact h₁
  clear_value z₂
  obtain ⟨hregs, hsqs, hstrobes⟩ := h₂
  refine ⟨z₂, hregs, hsqs, hstrobes, ?_⟩
  simp only [z₃, hc, n, sqHC_of_regs hregs, sqN_of_regs hregs]

/-! ### The commands -/

section
variable {s z : State} {k i now : Nat} (hk : k < 12) (hi : i < 16)
include hk hi

theorem ring_guard : (decide (k < 12) && decide (i < 16)) = true := by simp [hk, hi]

/-- R519: a fetch asks for the slots from the head count on. -/
theorem exec_ringFetch_asks {want addr n : Nat} (hon : sqOn s k i = true) (hp : pwrState s = 0) (hst : sqStopped s k i = false)
    (hstall : (sqOf s k i).stall = none) (hout : fetchOut s (16 * k + i) = false)
    (haddr : addr = fld s (aPART_SQ_BASE k i) 63 12 * 4096 + sqHC s k i % sqN s k i * 64)
    (hwant : want = min (min (64 - (sqOf s k i).buf.length) (((sqOf s k i).tc + 2 ^ 32 - sqHC s k i) % 2 ^ 32))
      (min (sqN s k i - sqHC s k i % sqN s k i) ((4096 - addr % 4096) / 64)))
    (hpos : 0 < want) (hf : fnSends s (vfOf k) = true) (hn : freeTracker s (vfOf k) = some n) :
    exec (.ringFetch k i) s = ran s (noteTrackers (hostSend
        { s with trackers := mapIns s.trackers n { fn := vfOf k, gen := (fnOf s (vfOf k)).gen, work := .fetch (16 * k + i) (sqHC s k i) want,
                                                   addr := addr, len := 64 * want } }
        (.read (vfOf k) (n + 1024 * (fnOf s (vfOf k)).gen) addr (64 * want) false false))) := by
  refine exec_guarded_eq (ring_guard hk hi) rfl ?_
  unfold ringFetch
  dsimp only
  rw [← haddr, ← hwant, if_neg (by simp [hon, hp, hst, hstall, hout]; omega), hostRead_of_free _ _ _ _ _ hf hn]
  rfl

/-- R519: the answer to a ring's fetch of one slot is taken from the front. -/
theorem exec_fetchCompletion {a : HostAns} {rest : List HostAns} (hz : z = atTime s now) (ha : z.answers = a :: rest)
    (hwork : a.work = .fetch (16 * k + i) (sqHC z k i) 1) (hdrop : a.dropped = false) (hon : sqOn z k i = true) (hst : sqStopped z k i = false) :
    exec (.fetchCompletion k i now) s = ran s (if a.failed then ringStop { z with answers := rest } k i 1
      else takeSlots { z with answers := rest } k i (ansBytes a)
        (fun j => a.got.any fun g => g.2.2 && decide (g.1 < 64 * j + 64) && decide (64 * j < g.1 + g.2.1.length)) 1 0) := by
  subst hz
  refine exec_guarded_eq (ring_guard hk hi) rfl ?_
  have hfirst : fetchAnswer (16 * k + i) (a :: rest) = some (a, rest) := by
    rw [fetchAnswer, hwork]
    exact if_pos rfl
  unfold fetchDone
  rw [ha, hfirst]
  dsimp only
  rw [hwork]
  dsimp only
  exact if_neg (by
    rw [show sqOn { atTime s now with answers := rest } k i = true from hon,
      show sqStopped { atTime s now with answers := rest } k i = false from hst, hdrop]
    exact (by simp : ∀ a : Nat, ¬(!true || false || decide (a ≠ a) || false) = true) (sqHC (atTime s now) k i))

theorem exec_slotReread (hz : z = atTime s now) : exec (.slotReread k i now) s = ran s (
    match (sqOf z k i).stall with
    | some t => if t + 1000 ≤ z.tense.toNat then ringFetch (updSq z k i fun q => { q with stall := none }) k i else z
    | none => z) := by
  subst hz
  exact exec_guarded (ring_guard hk hi) rfl

/-- R537: FLUSH, once its strobe is taken. -/
theorem exec_sqFlush {v : Nat} (h : strobeOf s (aPART_SQ_CTL k i) 6 = some v) :
    exec (.sqFlush k i) s = ran s (sqFlush (strobeClr s (aPART_SQ_CTL k i) 6) k i) := by
  refine exec_guarded_eq (ring_guard hk hi) rfl ?_
  dsimp only
  rw [h]

/-- R516: EN set starts a submission ring. -/
theorem exec_ringEnable_sq (h : strobeOf s (aPART_SQ_CTL k i) 0 = some 2) :
    exec (.ringEnable k i) s = ran s (updSq (sqSetHC (strobeClr s (aPART_SQ_CTL k i) 0) k i 0) k i fun q => { q with tc := 0 }) := by
  refine exec_guarded_eq (ok := decide (k < 12) && decide (i < 21)) (by simp [hk]; omega) rfl ?_
  rw [if_pos hi, sqEnable, h]
  rfl

end

/-- R516: EN set starts a completion ring or the event ring. -/
theorem exec_ringEnable_cq {s : State} {k m : Nat} (hk : k < 12) (hm : m < 5) (h : strobeOf s (aPART_CQ_CTL k m) 0 = some 2) :
    exec (.ringEnable k (16 + m)) s = ran s { setFld (setFld (strobeClr s (aPART_CQ_CTL k m) 0) (aPART_CQ_STATE k m) 31 0 0)
      (aPART_CQ_STATE k m) 32 32 1 with rcs := mapSet 0 s.rcs (5 * k + m) 0 } := by
  refine exec_guarded_eq (ok := decide (k < 12) && decide (16 + m < 21)) (by simp [hk]; omega) rfl ?_
  rw [if_neg (by omega), Nat.add_sub_cancel_left, cqEnable, h]
  rfl

/-- One slot of a fetch: it joins the buffer where its phase is the ring's, else the ring waits to read it again. -/
theorem takeSlots_one {s : State} {k i : Nat} {bs b : List Byte} {bad : Nat → Bool} (hbad : bad 0 = false) (hb : b = bs.take 64) :
    takeSlots s k i bs bad 1 0 =
      if leNat (b.drop 63) / 128 = phaseOf (sqN s k i) (sqHC s k i) then
        sqSetHC (updSq s k i fun q => { q with buf := q.buf ++ [(sqHC s k i, b)] }) k i ((sqHC s k i + 1) % 2 ^ 32)
      else updSq s k i fun q => { q with stall := some s.tense.toNat } := by
  subst hb
  rw [takeSlots, if_neg (by simp [hbad])]
  rfl

/-- Settles O43: doorbells, the fetch and its answer, the second reading, the flush, and the start of a ring. -/
theorem ringsAreFetched : Obligations.RingsAreFetched := by
  unfold Obligations.RingsAreFetched
  refine ⟨fun s f k i data z v d hk hi hopen hf hlen hz hv hon hd => ?_, fun s f k m i data z v hk hm hi hopen hf hlen hz hv hon hst => ?_,
    fun s f k i data hk hi hopen hf hlen => ?_,
    fun s k i want addr n hk hi hon hp hst hstall hout haddr hwant hpos hf hn => ?_,
    fun s k i now z rest a b hk hi hz ha hwork hdrop hon hst hb => ⟨fun hfail => ?_, fun hok hclean => ?_⟩,
    fun s k i now z hk hi hz => ⟨fun w hw ht => ?_, fun w hw ht => ?_⟩, fun s k i v hk hi hv => ?_, fun s k i hk hi hv => ?_,
    fun s k m hk hm hv => ?_⟩
  case refine_1 =>
    have hexec : exec (.sqDoorbell f k i data false) s = ran s (sqDoorbell z k i v) := by
      subst hz hv
      exact exec_guarded_eq (ring_guard hk hi) rfl (doorbell_runs hopen hf hlen)
    have hring := sqDoorbell_ring v hon hd
    refine ⟨_, ran_next hexec, ?_, ?_, fun h0 hN h31 htc => ?_, fun hout => ?_⟩
    · rw [sqOf_underQueue, hring]; split <;> rfl
    · rw [sqOf_underQueue, hring]; split <;> rfl
    · have hzero : ((sqOf z k i).tc + 2 ^ 32 - sqHC z k i) % 2 ^ 32 < d := by rw [htc, Nat.add_sub_cancel_left, Nat.mod_self]; exact h0
      rw [sqOf_underQueue, hring, if_neg (by omega)]
      exact if_pos hzero
    · rw [sqOf_underQueue, hring, if_pos hout]
  case refine_2 =>
    have hexec : exec i s = ran s (cqDoorbell z k m v) := by
      subst hz hv hi
      by_cases h4 : m < 4
      · rw [if_pos h4]
        exact exec_guarded_eq (ok := decide (k < 12) && decide (m < 4)) (by simp [hk, h4]) rfl (doorbell_runs hopen hf hlen)
      · obtain rfl : m = 4 := by omega
        rw [if_neg h4]
        exact exec_guarded_eq (ok := decide (k < 12)) (by simp [hk]) rfl (doorbell_runs hopen hf hlen)
    have hrc (t : State) : rcOf (underQueue s t) k m = rcOf t k m := rfl
    refine ⟨_, ran_next hexec, fun hin => ?_, fun hout => ?_⟩
    · rw [hrc, cqDoorbell_rc v hon hst, if_pos hin]
    · rw [hrc, cqDoorbell_rc v hon hst, if_neg (by omega)]
  case refine_3 =>
    have hexec : exec (.sqDoorbell f k i data true) s = ran s (aerPoisoned (badAccess s) f) := by
      refine exec_guarded_eq (ring_guard hk hi) rfl ?_
      rw [doorbell, if_neg (by simp [hopen, hf]), if_pos rfl]
    exact hexec
  case refine_4 =>
    refine ⟨_, ran_next (exec_ringFetch_asks hk hi hon hp hst hstall hout haddr hwant hpos hf hn), ?_, ?_⟩
    · simp only [underQueue_keeps, noteTrackers, setFld_keeps, hostSend]
    · simp only [underQueue_keeps, noteTrackers, setFld_keeps, hostSend_keeps, mapFind_mapIns_same, Option.map_some]
  case refine_5 =>
    have hexec := exec_fetchCompletion hk hi hz ha hwork hdrop hon hst
    rw [if_pos hfail] at hexec
    refine ⟨_, ran_next hexec, ?_, ?_, ?_⟩
    · rw [sqOf_underQueue, sqOf_of_sqs (s := z) (by simp only [ringStop, postEvent_keeps, setBitOf_keeps])]
    · rw [sqStopped, fld_underQueue, ringStop, fld, regGet_postEvent _ _ _ _ _ _ _ (by unfold aPART_SQ_HEAD aPART_CQ_STATE; omega)]
      exact beq_iff_eq.mpr (fld_setBitOf_same _ _ _ (by decide))
    · simp only [underQueue_keeps, ringStop, postEvent_keeps, setBitOf_keeps]
  case refine_6 =>
    have hexec := exec_fetchCompletion hk hi hz ha hwork hdrop hon hst
    rw [if_neg (ne_true_of_eq_false hok)] at hexec
    have hbad : (a.got.any fun g => g.2.2 && decide (g.1 < 64 * 0 + 64) && decide (64 * 0 < g.1 + g.2.1.length)) = false := by
      rw [ansPoison, List.any_eq_false] at hclean
      rw [List.any_eq_false]
      intro g hg
      simp [hclean g hg]
    rw [takeSlots_one hbad hb] at hexec
    generalize hw : ({ z with answers := rest } : State) = w at hexec
    have hregs : w.regs = z.regs := by rw [← hw]
    have hsqs : w.sqs = z.sqs := by rw [← hw]
    have htense : w.tense = z.tense := by rw [← hw]
    have hans : w.answers = rest := by rw [← hw]
    rw [sqN_of_regs hregs, sqHC_of_regs hregs] at hexec
    by_cases hph : leNat (b.drop 63) / 128 = phaseOf (sqN z k i) (sqHC z k i)
    · rw [if_pos hph] at hexec
      refine ⟨_, ran_next hexec, ?_, fun _ => ⟨?_, ?_⟩, fun h => absurd hph h⟩
      · simp only [underQueue_keeps, sqSetHC, setFld_keeps, updSq_keeps, hans]
      · rw [sqOf_underQueue, sqOf_sqSetHC, sqOf_updSq_same, sqOf_of_sqs hsqs]
      · rw [sqHC, fld_underQueue]
        exact (sqHC_sqSetHC _ _ _ _).trans (Nat.mod_mod _ _)
    · rw [if_neg hph] at hexec
      refine ⟨_, ran_next hexec, ?_, fun h => absurd h hph, fun _ => ⟨?_, ?_, ?_⟩⟩
      · simp only [underQueue_keeps, updSq_keeps, hans]
      · rw [sqOf_underQueue, sqOf_updSq_same, htense]
      · rw [sqOf_underQueue, sqOf_updSq_same, sqOf_of_sqs hsqs]
      · rw [sqHC_of_regs (s := w) (by simp only [underQueue_keeps, updSq_keeps]), sqHC_of_regs hregs]
  case refine_7 =>
    have hexec := exec_slotReread hk hi hz
    rw [hw] at hexec
    dsimp only at hexec
    rw [if_neg (by omega)] at hexec
    exact hexec
  case refine_8 =>
    have hexec := exec_slotReread hk hi hz
    rw [hw] at hexec
    dsimp only at hexec
    rw [if_pos ht] at hexec
    exact ⟨_, ran_next hexec, by rw [sqOf_underQueue, sqOf_of_sqs (ringFetch_sqs _ _ _), sqOf_updSq_same]⟩
  case refine_9 =>
    obtain ⟨z, hregs, hsqs, hstrobes, hflush⟩ := sqFlush_eq (strobeClr s (aPART_SQ_CTL k i) 6) k i
    have hexec := exec_sqFlush hk hi hv
    rw [hflush, sqHC_of_regs (s := s) (by simp only [strobeClr_keeps]), sqN_of_regs (s := s) (by simp only [strobeClr_keeps])] at hexec
    generalize hhc : (sqHC s k i / sqN s k i + 1) * sqN s k i % 2 ^ 32 = hc at hexec
    generalize hw : updSq z k i (fun q => { q with buf := [], hold := none, stall := none, tc := hc }) = w at hexec
    have hq : sqOf w k i = { sqOf z k i with buf := [], hold := none, stall := none, tc := hc } := by rw [← hw, sqOf_updSq_same]
    generalize ht : clrBitOf (clrBitOf (sqSetHC w k i hc) (aPART_SQ_HEAD k i) 33) (aPART_SQ_HEAD k i) 34 = t at hexec
    have hring : sqOf t k i = sqOf w k i := sqOf_of_sqs (by simp only [← ht, clrBitOf_keeps, sqSetHC, setFld_keeps]) k i
    have hhead : sqHC t k i = hc := by
      rw [← ht, sqHC, clrBitOf, fld_setFld_apart _ _ _ le_rfl (by decide) (.inl (by decide)), clrBitOf,
        fld_setFld_apart _ _ _ le_rfl (by decide) (.inl (by decide))]
      exact (sqHC_sqSetHC _ _ _ _).trans (by rw [← hhc, Nat.mod_mod])
    have hstop : fld t (aPART_SQ_HEAD k i) 33 33 = 0 := by
      rw [← ht, clrBitOf, fld_setFld_apart _ _ _ le_rfl (by decide) (.inl (by decide)), fld_clrBitOf_same _ _ _ (by decide)]
    have hstrobe : t.strobes = (strobeClr s (aPART_SQ_CTL k i) 6).strobes := by
      rw [← hstrobes, ← ht, ← hw]
      simp only [clrBitOf_keeps, sqSetHC, setFld_keeps, updSq_keeps]
    refine ⟨_, ran_next hexec, ?_, ?_, ?_, hhead, ?_, ?_, ?_⟩
    · rw [sqOf_underQueue, hring, hq]
    · rw [sqOf_underQueue, hring, hq]
    · rw [sqOf_underQueue, hring, hq]
    · rw [sqOf_underQueue, hring, hq]
      exact hhead.symm
    · rw [sqStopped, fld_underQueue, hstop]
      rfl
    · exact (strobeOf_of_strobes hstrobe _ _).trans (strobeOf_strobeClr_same _ _ _)
  case refine_10 =>
    refine ⟨_, ran_next (exec_ringEnable_sq hk hi hv), ?_, ?_, ?_⟩
    · rw [sqHC_of_regs (s := sqSetHC (strobeClr s (aPART_SQ_CTL k i) 0) k i 0) (by simp only [underQueue_keeps, updSq_keeps]), sqHC_sqSetHC]
      rfl
    · rw [sqOf_underQueue, sqOf_updSq_same]
    · exact (strobeOf_of_strobes (s := strobeClr s (aPART_SQ_CTL k i) 0)
        (by simp only [underQueue_keeps, updSq_keeps, sqSetHC, setFld_keeps]) _ _).trans (strobeOf_strobeClr_same _ _ _)
  case refine_11 =>
    have hrcs (w : State) (l : Map Nat) (off hi lo : Nat) : fld { w with rcs := l } off hi lo = fld w off hi lo := Eq.refl (fld w off hi lo)
    refine ⟨_, ran_next (exec_ringEnable_cq hk hm hv), ?_, ?_, ?_⟩
    · rw [fld_underQueue, hrcs, fld_setFld_apart _ _ _ le_rfl (by decide) (.inl (by decide)), fld_setFld_same _ _ _ (by decide) (by decide)]
      rfl
    · rw [fld_underQueue, hrcs, fld_setFld_same _ _ _ le_rfl (by decide)]
      rfl
    · unfold rcOf
      exact mapGet_mapSet_same 0 s.rcs (5 * k + m) 0

end Sys2Proof.Machine
end

section
/-! Lifecycle requests, firmware staging and the minimum SVN (R554 to R557, R640, R641). -/

namespace Sys2Proof.Machine

/-- What an audit entry leaves alone, field by field. -/
theorem audit_keeps (s : State) (e : AudEnt) :
    (audit s e).nvm = s.nvm ∧ (audit s e).cust = s.cust ∧ (audit s e).pins = s.pins ∧ (audit s e).tense = s.tense ∧ (audit s e).descs = s.descs ∧
    (audit s e).groups = s.groups ∧ (audit s e).handles = s.handles ∧ (audit s e).acts = s.acts := by
  have keep {β : Type} (g : State → β) (hg : ∀ z, g (logRest z) = g z) : g (audit s e) = g s :=
    (hg _).symm.trans ((congrArg g (audit_logRest s e)).trans (hg s))
  exact ⟨keep State.nvm fun _ => rfl, keep State.cust fun _ => rfl, keep State.pins fun _ => rfl, keep State.tense fun _ => rfl,
    keep State.descs fun _ => rfl, keep State.groups fun _ => rfl, keep State.handles fun _ => rfl, keep State.acts fun _ => rfl⟩

theorem fwAudit_nvm (s : State) (org bank svn release aflags : Nat) : (fwAudit s org bank svn release aflags).nvm = s.nvm :=
  (audit_keeps _ _).1

/-! ### Lifecycle (R554, R640) -/

theorem lcDecide_lt (s : State) (b : List Byte) : lcDecide s b < 5 := by
  unfold lcDecide
  extract_lets lc target key hash signed
  split
  · decide
  · split
    · decide
    · split
      · decide
      · split <;> decide

/-- The request that is refused: what the decision shows. -/
def lcShow (s : State) (e : Nat) : State := setFld (setBitOf (clrBitOf (drawNonce s) aSYN_LC_CMD 1) aSYN_LC_CMD 2) aSYN_LC_CMD 15 8 e

theorem lcShow_nvm (s : State) (e : Nat) : (lcShow s e).nvm = s.nvm := by
  simp only [lcShow, setFld_keeps, setBitOf_keeps, clrBitOf_keeps, drawNonce, regSet_keeps]

theorem lcShow_fields (s : State) {e : Nat} (h : e < 5) :
    fld (lcShow s e) aSYN_LC_CMD 15 8 = e ∧ fld (lcShow s e) aSYN_LC_CMD 1 1 = 0 ∧ fld (lcShow s e) aSYN_LC_CMD 2 2 = 1 := by
  refine ⟨?_, ?_, ?_⟩
  · rw [lcShow, fld_setFld_same _ _ _ (by decide) (by decide)]
    exact Nat.mod_eq_of_lt (by omega)
  · rw [lcShow, fld_setFld_apart _ _ _ (by decide) (by decide) (.inl (by decide)), setBitOf,
      fld_setFld_apart _ _ _ (by decide) (by decide) (.inl (by decide)), fld_clrBitOf_same _ _ _ (by decide)]
  · rw [lcShow, fld_setFld_apart _ _ _ (by decide) (by decide) (.inl (by decide)), fld_setBitOf_same _ _ _ (by decide)]

/-- The audit entry of a decision. -/
def lcEntry (s : State) (e : Nat) : AudEnt :=
  { kind := 6, origin := (lcShow s e).cust.lcOrg, aflags := if e = 0 then 0 else 1, addr := leNat (slice s.lcWork 0 1), detail := e
    value := (lcShow s e).nvm.serial % 2 ^ 64 }

/-- R559: the audit ring is cleared where the device was returned. -/
def lcReturned (s : State) : State :=
  if s.nvm.lc = 3 then setFld { s with audit := [], audLost := 0, audFirst := 0 } aAUD_STATUS 45 32 0 else s

theorem lcReturned_keeps (s : State) : (lcReturned s).nvm = s.nvm ∧ (lcReturned s).pins = s.pins := by
  unfold lcReturned
  split
  · simp only [setFld_keeps, and_self]
  · exact ⟨rfl, rfl⟩

section
variable {s z : State} {now : Nat} (hz : z = atTime s now) (hbusy : fld z aSYN_LC_CMD 1 1 = 1) (hp : pwrState z = 0)
include hz hbusy hp

theorem exec_lifecycleDecision_refused (he : lcDecide z z.lcWork ≠ 0) :
    exec (.lifecycleDecision now) s = ran z (audit (lcShow z (lcDecide z z.lcWork)) (lcEntry z (lcDecide z z.lcWork))) := by
  have hexec : exec (.lifecycleDecision now) s = execLifecycleDecision now s := rfl
  rw [hexec]
  unfold execLifecycleDecision
  rw [← hz]
  dsimp only
  rw [if_neg (by omega), whenAwake, if_neg (by omega), if_pos he]
  exact congrArg (ran z) (congrArg₂ audit (Eq.refl (lcShow z _)) (Eq.refl (lcEntry z _)))

/-- R554: a request that no rule refuses burns the fuses, wipes the device and resets it. -/
theorem exec_lifecycleDecision_taken (he : lcDecide z z.lcWork = 0) :
    ∃ w : State, exec (.lifecycleDecision now) s = ran z w ∧ w.nvm = lcFuses z.nvm z.lcWork ∧ w.pins.reset = true := by
  have hburn (w : State) (n : Nvm) (e : AudEnt) (c : Nat) : (coldReset (audit { w with nvm := n } e) c).nvm = n := by
    rw [coldReset_nvm]
    exact (audit_keeps { w with nvm := n } e).1
  have hreset (w : State) (c : Nat) : (coldReset w c).pins.reset = true := (coldReset_clears w c).1
  have hexec : exec (.lifecycleDecision now) s = execLifecycleDecision now s := rfl
  rw [hexec]
  unfold execLifecycleDecision
  rw [← hz]
  dsimp only
  rw [if_neg (by omega), whenAwake, if_neg (by omega), if_neg (not_not.mpr he)]
  refine ⟨lcReturned (coldReset (audit { wipeAll (lcShow z (lcDecide z z.lcWork)) with nvm := lcFuses (lcShow z (lcDecide z z.lcWork)).nvm z.lcWork }
    (lcEntry z (lcDecide z z.lcWork))) 4), ?_, ?_, ?_⟩
  · unfold lcReturned
    exact congrArg (ran z) (Eq.refl (lcReturned _))
  · rw [(lcReturned_keeps _).1, hburn, lcShow_nvm]
  · rw [(lcReturned_keeps _).2, hreset]

end

/-! ### Firmware (R557, R641) -/

theorem fld_strobeClr (s : State) (off b a hi lo : Nat) : fld (strobeClr s off b) a hi lo = fld s a hi lo := Eq.refl (fld s a hi lo)

/-- R641: GO, once its strobe is taken, does nothing while a stage is busy. -/
theorem exec_firmwareStageGo_busy {s : State} {v : Nat} (h : strobeOf s aSYN_FW_STAGE 0 = some v) (hb : fld s aSYN_FW_STATUS 2 0 = 1) :
    exec .firmwareStageGo s = ran s (strobeClr s aSYN_FW_STAGE 0) := by
  have hexec : exec .firmwareStageGo s = execFirmwareStageGo s := rfl
  rw [hexec]
  unfold execFirmwareStageGo
  rw [h]
  dsimp only
  rw [fld_strobeClr, if_pos hb]

/-- R557: else it begins one, with nothing staged yet. -/
theorem exec_firmwareStageGo_begins {s : State} {v : Nat} (h : strobeOf s aSYN_FW_STAGE 0 = some v) (hb : fld s aSYN_FW_STATUS 2 0 ≠ 1) :
    ∃ (w : State) (bank : Nat), exec .firmwareStageGo s = ran s (fwAudit w (v % 256 - 1) bank 0 0 0) ∧ fld w aSYN_FW_STATUS 2 0 = 1 ∧
      w.cust.fwData = [] := by
  have hcust (w : State) (c : Custody) : fld { w with cust := c } aSYN_FW_STATUS 2 0 = fld w aSYN_FW_STATUS 2 0 := Eq.refl (fld w _ _ _)
  have hexec : exec .firmwareStageGo s = execFirmwareStageGo s := rfl
  rw [hexec]
  unfold execFirmwareStageGo
  rw [h]
  dsimp only
  rw [fld_strobeClr, if_neg hb]
  refine ⟨_, _, rfl, ?_, rfl⟩
  rw [hcust, fld_setFld_same _ _ _ (by decide) (by decide)]
  rfl

theorem fld_fwAudit (s : State) (org bank svn release aflags : Nat) {a : Nat} (hi lo : Nat) (h : a ≠ aAUD_STATUS) :
    fld (fwAudit s org bank svn release aflags) a hi lo = fld s a hi lo := fld_audit _ _ _ _ h

/-- R557: an image of the length that was told is written to the other bank exactly where it checks. -/
theorem fwFinish_checked {s : State} {b : List Byte} (hlen : b.length = fld s aSYN_FW_LEN 31 0) :
    (fwFinish s b).nvm = (if fwCheck s b then { s.nvm with banks := s.nvm.banks.set (1 - fwBank s) b, newer := 1 - fwBank s } else s.nvm) ∧
    fld (fwFinish s b) aSYN_FW_STATUS 2 0 = if fwCheck s b then 2 else 3 := by
  have hok : (b.length == fld s aSYN_FW_LEN 31 0 && fwCheck s b) = fwCheck s b := by rw [hlen, beq_self_eq_true, Bool.true_and]
  unfold fwFinish
  dsimp only
  rw [hok]
  refine ⟨?_, ?_⟩
  · rw [fwAudit_nvm]
    simp only [setFld_keeps]
    split <;> rfl
  · rw [fld_fwAudit _ _ _ _ _ _ _ _ (by decide), fld_setFld_same _ _ _ (by decide) (by decide)]
    split <;> rfl

/-- Settles O49: the request, its decision, the two firmware commands, and COMMIT. -/
theorem custodyIsDecided : Obligations.CustodyIsDecided := by
  unfold Obligations.CustodyIsDecided
  refine ⟨fun s v hv hidle => ?_, fun s now z e hz hbusy hp he => ⟨fun hne => ?_, fun h0 => ?_⟩, fun s v hv => ⟨fun hb => ?_, fun hb => ?_⟩,
    fun s now z n b hz hbusy hn hlo hhi hbuf hb => ?_, fun s v hv => ?_⟩
  case refine_1 =>
    have hexec : exec .lifecycleSubmit s = execLifecycleSubmit s := rfl
    have hwork (w : State) (l : List Byte) (c : Custody) : fld { w with lcWork := l, cust := c } aSYN_LC_CMD 1 1 = fld w aSYN_LC_CMD 1 1 :=
      Eq.refl (fld w _ _ _)
    rw [hexec]
    unfold execLifecycleSubmit
    rw [hv]
    dsimp only
    rw [fld_strobeClr, if_neg (by omega), ran_eq]
    refine ⟨_, rfl, ?_, rfl, ?_⟩
    · rw [fld_underQueue, hwork, fld_setBitOf_same _ _ _ (by decide)]
    · simp only [underQueue_keeps, setBitOf_keeps, strobeClr_keeps]
  case refine_2 =>
    subst he
    obtain ⟨hcode, hbusy', hdone⟩ := lcShow_fields z (lcDecide_lt z z.lcWork)
    refine ⟨_, ran_next (exec_lifecycleDecision_refused hz hbusy hp hne), ?_, ?_, ?_, ?_⟩
    · rw [fld_underQueue, fld_audit _ _ _ _ (by decide), hcode]
    · rw [fld_underQueue, fld_audit _ _ _ _ (by decide), hbusy']
    · rw [fld_underQueue, fld_audit _ _ _ _ (by decide), hdone]
    · simp only [underQueue_keeps, (audit_keeps _ _).1, lcShow_nvm]
  case refine_3 =>
    subst he
    obtain ⟨w, hexec, hnvm, hreset⟩ := exec_lifecycleDecision_taken hz hbusy hp h0
    exact ⟨_, ran_next hexec, hnvm, hreset⟩
  case refine_4 => exact ⟨_, ran_next (exec_firmwareStageGo_busy hv hb), rfl, rfl⟩
  case refine_5 =>
    obtain ⟨w, bank, hexec, hbusy, hdata⟩ := exec_firmwareStageGo_begins hv hb
    refine ⟨_, ran_next hexec, ?_, ?_⟩
    · rw [fld_underQueue, fld_fwAudit _ _ _ _ _ _ _ _ (by decide), hbusy]
    · simp only [underQueue_keeps, fwAudit, (audit_keeps _ _).2.1, hdata]
  case refine_6 =>
    subst hb
    have hexec : exec (.firmwareStagingDone now) s = execFirmwareStagingDone now s := rfl
    unfold execFirmwareStagingDone at hexec
    rw [← hz] at hexec
    dsimp only at hexec
    rw [if_pos hbusy, fwStep] at hexec
    dsimp only at hexec
    rw [← hn, if_neg (by omega), if_pos hbuf] at hexec
    obtain ⟨hnvm, hstatus⟩ := fwFinish_checked (s := z) (b := (List.range n).map fun i => mapGet 0#8 z.fwBuf i) (by simp [hn])
    refine ⟨fun hok => ⟨_, ran_next hexec, ?_, ?_⟩, fun hbad => ⟨_, ran_next hexec, ?_, ?_⟩⟩
    · rw [fld_underQueue, hstatus, if_pos hok]
    · simp only [underQueue_keeps, hnvm, if_pos hok]
    · rw [fld_underQueue, hstatus, if_neg (ne_true_of_eq_false hbad)]
    · simp only [underQueue_keeps, hnvm, if_neg (ne_true_of_eq_false hbad)]
  case refine_7 =>
    have hexec : exec .commitSvn s = execCommitSvn s := rfl
    unfold execCommitSvn at hexec
    rw [hv] at hexec
    dsimp only at hexec
    refine ⟨_, ran_next hexec, ?_⟩
    simp only [underQueue_keeps, fwAudit_nvm, fld_strobeClr, strobeClr_keeps]

end Sys2Proof.Machine
end

section
/-! Reports, latent faults, work without units, and lockstep (R591, R594 to R600, R614). -/

namespace Sys2Proof.Machine

/-- A timed command that finds nothing to do leaves the state as its time found it. -/
theorem idle_of_ran {i : Instr} {s z : State} {now : Nat} (hz : z = atTime s now) (h : exec i s = ran z z) :
    exec i s = .next { z with pending := s.pending } := by
  rw [h, ran, ← atTime_pending s now, hz]

/-! ### The scrub of a minute -/

/-- The state but for what a fault found by the scrub may change of the scratchpad: its marks of poison. -/
def scrubSide (s : State) : Field × Map Byte := (s.field, s.spm.cells)

theorem report_field (s : State) (cls cause part slice unit : Nat) (d : List Nat) : (report s cls cause part slice unit d).field = s.field :=
  (congrArg State.field (report_rest s cls cause part slice unit d) : (rptRest _).field = (rptRest _).field)

theorem report_spm (s : State) (cls cause part slice unit : Nat) (d : List Nat) : (report s cls cause part slice unit d).spm = s.spm :=
  (congrArg State.spm (report_rest s cls cause part slice unit d) : (rptRest _).spm = (rptRest _).spm)

/-- The granule of the scratchpads that an uncorrectable error of slice `u.1` at the byte `u.2` lies in. -/
def ueGranule (u : Nat × Nat) : Nat := (u.1 * 50331648 + u.2 % 50331648 / 32 * 32) / 32

/-- R591: an uncorrectable error marks its granule and reports. -/
def scrubMark (s : State) (u : Nat × Nat) : State :=
  report { s with spm := { s.spm with poison := mapIns s.spm.poison (ueGranule u) true } } clCONTAINED 2 (partByte s u.1) u.1 0xFF [u.2]

theorem scrubMark_side (s : State) (u : Nat × Nat) : scrubSide (scrubMark s u) = scrubSide s := by
  rw [scrubSide, scrubMark, report_field, report_spm]
  rfl

theorem scrubMark_poison (s : State) (u : Nat × Nat) : (scrubMark s u).spm.poison = mapIns s.spm.poison (ueGranule u) true := by
  rw [scrubMark, report_spm]

theorem scrubMarks_poison_kept (l : List (Nat × Nat)) {s : State} {g : Nat} (h : mapGet false s.spm.poison g = true) :
    mapGet false (l.foldl scrubMark s).spm.poison g = true := by
  induction l generalizing s with
  | nil => exact h
  | cons x r ih =>
    refine ih ?_
    rw [scrubMark_poison]
    by_cases hx : g = ueGranule x
    · rw [hx, mapGet_mapIns_same]
    · rw [mapGet_mapIns_other _ _ _ _ _ hx, h]

theorem scrubMarks_poison (l : List (Nat × Nat)) (s : State) {u : Nat × Nat} (h : u ∈ l) :
    mapGet false (l.foldl scrubMark s).spm.poison (ueGranule u) = true := by
  induction l generalizing s with
  | nil => exact absurd h List.not_mem_nil
  | cons x r ih =>
    rcases List.mem_cons.mp h with rfl | h
    · refine scrubMarks_poison_kept r ?_
      rw [scrubMark_poison, mapGet_mapIns_same]
    · exact ih _ h

/-- R594: an uncorrectable error in an accumulator marks the tile of its program. -/
def scrubAcc (s : State) (x : Nat × Nat) : State :=
  match progOf s x.1 with
  | some p =>
    match p.space with
    | .verb v =>
      report (updProg s x.1 fun p => { p with tsw := mapSet 0 p.tsw (x.2 % 256) (mapGet 0 p.tsw (x.2 % 256) ||| tsPOISON) })
        clCONTAINED 2 (partByte s (v / 8)) (v / 8) (v % 8) [x.2]
    | _ => s
  | none => s

theorem scrubAcc_keeps (s : State) (x : Nat × Nat) : (scrubAcc s x).field = s.field ∧ (scrubAcc s x).spm = s.spm := by
  unfold scrubAcc
  split
  · split
    · rw [report_field, report_spm]
      unfold updProg
      split <;> exact ⟨rfl, rfl⟩
    · exact ⟨rfl, rfl⟩
  · exact ⟨rfl, rfl⟩

/-- The scrub that is due. -/
def latentScrubbed (z : State) (ces : List Nat) (ues acc : List (Nat × Nat)) : State :=
  let s := { z with field := { z.field with scrubAt := z.tense.toNat } }
  let s := (ces.filter (· < 12)).foldl (fun s sl => corrNote s 1 sl 0xFF) s
  acc.foldl scrubAcc ((ues.filter fun u => decide (u.1 < 12) && scratchOn s u.1).foldl scrubMark s)

theorem latentScrubbed_facts (z : State) (ces : List Nat) (ues acc : List (Nat × Nat)) :
    (latentScrubbed z ces ues acc).field.scrubAt = z.tense.toNat ∧ (latentScrubbed z ces ues acc).spm.cells = z.spm.cells ∧
    ∀ u, u ∈ ues → u.1 < 12 → scratchOn z u.1 = true → mapGet false (latentScrubbed z ces ues acc).spm.poison (ueGranule u) = true := by
  unfold latentScrubbed
  extract_lets f a b
  have hb {β : Type} (g : State → β) (hg : ∀ s c sl u, g (corrNote s c sl u) = g s) : g b = g a :=
    foldl_keep g _ (fun s sl => hg s _ _ _) _ _
  have hon (sl : Nat) : scratchOn b sl = scratchOn z sl :=
    hb (fun s => scratchOn s sl) fun _ _ _ _ => by rfl
  have hside : scrubSide ((ues.filter fun u => decide (u.1 < 12) && scratchOn b u.1).foldl scrubMark b) = scrubSide a :=
    (foldl_keep scrubSide scrubMark scrubMark_side _ _).trans (hb scrubSide fun _ _ _ _ => rfl)
  rw [foldl_keep State.field scrubAcc fun s x => (scrubAcc_keeps s x).1, foldl_keep State.spm scrubAcc fun s x => (scrubAcc_keeps s x).2]
  refine ⟨congrArg (fun p => p.1.scrubAt) hside, congrArg Prod.snd hside, fun u hu h12 hscr => scrubMarks_poison _ _ ?_⟩
  rw [List.mem_filter, hon, hscr, decide_eq_true h12]
  exact ⟨hu, rfl⟩

/-! ### Work without units -/

theorem unitsDrop_progs (s : State) (id : Nat) : (unitsDrop s id).progs = s.progs := by
  have hinf (z : State) (u : Nat) : (infRelease z u).progs = z.progs := by simp only [infRelease, clrBitOf_keeps]
  have hprs (z : State) (sl : Nat) : (prsRelease z sl).progs = z.progs := by simp only [prsRelease, clrBitOf_keeps]
  have hlex (z : State) (sl : Nat) : (lexRelease z sl).progs = z.progs := by simp only [lexRelease, clrBitOf_keeps]
  unfold unitsDrop
  dsimp only
  rw [foldl_keep State.progs _ (fun s sl => hlex s sl), foldl_keep State.progs _ (fun s sl => hprs s sl), foldl_keep State.progs _ (fun s u => hinf s u)]
  exact foldl_keep State.progs _ (fun s v => by simp only [clrBitOf_keeps, updVerb_keeps]) _ _

/-- Work that has ended, with no unit at work for it, is taken out. -/
theorem workComplete_gone {s : State} {id : Nat} {p : Prog} (hp : progOf s id = some p) (he : p.ended.isSome = true) (hc : p.comp = none) :
    progOf (workComplete s id) id = none := by
  obtain ⟨e, he⟩ := Option.isSome_iff_exists.mp he
  unfold workComplete
  split
  next hnone => exact hnone
  next q hq =>
  obtain rfl : p = q := Option.some.inj (hp.symm.trans hq)
  split
  next hrun => cases he.symm.trans hrun
  rw [if_neg (by rw [hc]; decide)]
  extract_lets e w fl
  split
  next z seen hz =>
  extract_lets z₁ z₂ z₃ z₄ z₅ z₆ pw z₇
  have h₇ : progOf z₇ id = none := mapFind_mapDel_same _ _
  clear_value z₇
  split
  · rw [progOf_descEnd, h₇]
  · exact h₇

theorem workEnd_gone {s : State} {id : Nat} {p : Prog} (hp : progOf s id = some p) (he : p.ended.isSome = true) (hc : p.comp = none) :
    progOf (workEnd s id) id = none := by
  unfold workEnd
  split
  · next hnone => exact hnone
  · exact workComplete_gone hp he hc

/-- R593: work that is killed is taken out. -/
theorem workKill_gone {s : State} {id status : Nat} {p : Prog} (hp : progOf s id = some p) : progOf (workKill s id status) id = none := by
  have hdrop : progOf (unitsDrop s id) id = some p := by rw [progOf, unitsDrop_progs]; exact hp
  unfold workKill
  split
  · next hnone => exact hnone
  · exact workEnd_gone (progOf_updProg_same hdrop _) rfl rfl

/-! ### The report stream -/

/-- R598: a list of records goes out in messages of at most 16. -/
theorem chunks_flatten (l : List Rpt) (n : Nat) (h : l.length ≤ 16 * n) :
    ((List.range n).map fun i => (l.drop (16 * i)).take 16).flatten = l := by
  have hpre (n : Nat) : ((List.range n).map fun i => (l.drop (16 * i)).take 16).flatten = l.take (16 * n) := by
    induction n with
    | zero => rfl
    | succ n ih =>
      rw [List.range_succ, List.map_append, List.flatten_append, ih, List.map_singleton, List.flatten_singleton, Nat.mul_succ, List.take_add]
  rw [hpre, List.take_of_length_le h]

theorem mgmtSend_keeps (s : State) (rs : List Rpt) : (mgmtSend s rs).reports = s.reports ∧ (mgmtSend s rs).field = s.field := by
  unfold mgmtSend
  split <;> exact ⟨rfl, rfl⟩

/-- A record that finds room joins those that are pending. -/
theorem postRpt_reports {s : State} (r : Rpt) (h : s.reports.length < 960) :
    ∃ r', (postRpt s r).reports = s.reports ++ [r'] ∧ r'.cls = r.cls ∧ r'.cause = r.cause ∧ r'.count = r.count := by
  have hsend : (sendRpt s r).1.reports = s.reports := by
    unfold sendRpt
    dsimp only
    rw [(mgmtSend_keeps _ _).1]
    split
    · rfl
    · exact (mgmtSend_keeps _ _).1
  refine ⟨(sendRpt s r).2, ?_, rfl, rfl, rfl⟩
  unfold postRpt
  dsimp only
  rw [if_pos (by split <;> omega), hsend]

theorem postRpt_corr (s : State) (r : Rpt) : (postRpt s r).corrected = s.corrected ∧ (postRpt s r).corrAt = s.corrAt :=
  ⟨(congrArg State.corrected (postRpt_rest s r) : (rptRest _).corrected = (rptRest _).corrected),
    (congrArg State.corrAt (postRpt_rest s r) : (rptRest _).corrAt = (rptRest _).corrAt)⟩

/-- Settles O53: the scrub changes marks of poison only, work without units is killed, a resend cuts the pending records into messages, a corrected
record is posted once a second, and a lockstep mismatch is a cold reset with its cause. -/
theorem reportsAndLatentFaults : Obligations.ReportsAndLatentFaults := by
  unfold Obligations.ReportsAndLatentFaults
  refine ⟨fun s now ces ues acc z hz => ?scrub, fun s prog now z p hz hp he hc hu hm => ?noUnit, fun s now z hz => ?resend,
    fun s key now z n hz hn hn0 => ?corrected, fun s hr => ?lockstep⟩
  case scrub =>
    have hexec : exec (.latentScrub now ces ues acc) s =
        ran z (if !devReady z || z.tense.toNat < z.field.scrubAt + 60000000000 then z else latentScrubbed z ces ues acc) := by
      rw [hz]; rfl
    refine ⟨fun h => idle_of_ran hz ?_, fun hready hdue => ?_⟩
    · rw [hexec, if_pos (by simpa using h)]
    · rw [if_neg (by simpa [hready] using hdue)] at hexec
      exact ⟨_, ran_next hexec, latentScrubbed_facts z ces ues acc⟩
  case noUnit =>
    have hexec : exec (.noUnit prog now) s = execNoUnit prog now s := rfl
    unfold execNoUnit at hexec
    rw [← hz] at hexec
    dsimp only at hexec
    rw [hp] at hexec
    dsimp only at hexec
    rw [he, hc, hu, hm] at hexec
    refine ⟨fun hgone => ?_, fun hstay => idle_of_ran hz ?_⟩
    · rw [hgone] at hexec
      refine ⟨_, ran_next (hexec.trans (congrArg (ran z) (if_pos (by decide)))), ?_⟩
      rw [progOf_underQueue, workKill_gone hp]
    · rw [hexec, hstay, if_neg (by decide)]
  case resend =>
    have hexec : exec (.reportResend now) s = execReportResend now s := rfl
    unfold execReportResend at hexec
    rw [← hz] at hexec
    dsimp only at hexec
    refine ⟨fun h => idle_of_ran hz ?_, fun h => ?_⟩
    · rw [hexec, if_pos h]
    · rw [if_neg (by omega)] at hexec
      refine ⟨_, ran_next hexec, ?_, ?_, fun h0 => ?_, fun h1 => ?_⟩
      · simp only [underQueue_keeps]
      · simp only [underQueue_keeps, mgmtSend_keeps]
      · simp only [underQueue_keeps, mgmtSend, if_pos h0]
      · refine ⟨(List.range ((z.reports.length + 15) / 16)).map fun i => (z.reports.drop (16 * i)).take 16, ?_, chunks_flatten _ _ (by omega), ?_⟩
        · simp only [underQueue_keeps, mgmtSend, h1, one_ne_zero, if_false]
        · intro m hm
          obtain ⟨i, _, rfl⟩ := List.mem_map.mp hm
          exact List.length_take_le _ _
  case corrected =>
    have hexec : exec (.correctedReport key now) s = execCorrectedReport key now s := rfl
    unfold execCorrectedReport at hexec
    rw [← hz] at hexec
    dsimp only at hexec
    rw [hn] at hexec
    dsimp only at hexec
    refine ⟨fun u hu hearly => idle_of_ran hz ?_, fun hdue hroom => ?_⟩
    · refine hexec.trans (congrArg (ran z) (if_pos ?_))
      rw [hu, Bool.or_eq_true]
      exact .inl (decide_eq_true hearly)
    · have hlate : ¬ ((match mapFind z.corrAt key with | some t => decide (z.tense.toNat < t + 1000000000) | none => false) ||
          decide (n = 0)) = true := by
        rw [Bool.or_eq_true, decide_eq_true_eq, not_or]
        refine ⟨?_, hn0⟩
        rcases hdue with hnone | ⟨u, hu, hle⟩
        · rw [hnone]
          exact Bool.false_ne_true
        · rw [hu]
          exact fun h => absurd (of_decide_eq_true h) (by omega)
      generalize hw : { z with corrected := mapDel z.corrected key, corrAt := mapIns z.corrAt key z.tense.toNat } = w at hexec
      have hwr : w.reports = z.reports := by rw [← hw]
      have hwc : w.corrected = mapDel z.corrected key ∧ w.corrAt = mapIns z.corrAt key z.tense.toNat := by rw [← hw]; exact ⟨rfl, rfl⟩
      generalize hr : ({ tense := 0, seq := 0, cls := clCORRECTED, cause := key / 65536, part := partByte w (key / 256 % 256)
                         slice := key / 256 % 256, unit := key % 256, count := n } : Rpt) = r at hexec
      obtain ⟨r', hreps, hcls, hcause, hcount⟩ := postRpt_reports (s := w) r (by rw [hwr]; exact hroom)
      refine ⟨_, r', ran_next (hexec.trans (congrArg (ran z) (if_neg hlate))), ?_, ?_, ?_, ?_, ?_, ?_⟩
      · simp only [underQueue_keeps, postRpt_corr, hwc, mapFind_mapDel_same]
      · simp only [underQueue_keeps, postRpt_corr, hwc, mapFind_mapIns_same]
      · simp only [underQueue_keeps, hreps, hwr]
      · rw [hcls, ← hr]
      · rw [hcause, ← hr]
      · rw [hcount, ← hr]
  case lockstep =>
    have hexec : exec .lockstepMismatch s = execLockstepMismatch s := rfl
    unfold execLockstepMismatch at hexec
    rw [hr, if_neg (by decide)] at hexec
    refine ⟨_, ran_next hexec, ?_, ?_⟩
    · simp only [underQueue_keeps, (coldReset_clears _ _).1]
    · rw [fld_underQueue, coldReset_cause _ (by decide)]

end Sys2Proof.Machine
end

section
/-! Set points, estimates, temperatures, dips and calibration records (R566 to R579, R589, R592, R657). -/

namespace Sys2Proof.Machine

/-! ### Set points (R566 to R568) -/

/-- What the set points are made of stands alike in two states. -/
structure SpSame (s t : State) : Prop where
  regs : ∀ a, a ≠ aPWR_STATUS → a < 0x30400 ∨ 0x30550 ≤ a → regGet t a = regGet s a
  nvm : t.nvm = s.nvm
  acts : t.acts = s.acts
  tceil : t.pwr.tceil = s.pwr.tceil
  pceil : t.pwr.pceil = s.pwr.pceil
  raise : t.pwr.raise = s.pwr.raise
  mism : t.pwr.mism = s.pwr.mism
  ring : t.pwr.ring = s.pwr.ring
  therm : t.pwr.therm = s.pwr.therm
  lost : t.pwr.lost = s.pwr.lost
  held : t.pwr.held = s.pwr.held
  vin : ∀ die, die < 2 → s.pwr.lost.contains die = true → t.pwr.vin.getD die 0 = s.pwr.vin.getD die 0

theorem SpSame.refl (s : State) : SpSame s s := ⟨fun _ _ _ => rfl, rfl, rfl, rfl, rfl, rfl, rfl, rfl, rfl, rfl, rfl, fun _ _ _ => rfl⟩

theorem SpSame.trans {s t u : State} (h : SpSame s t) (h' : SpSame t u) : SpSame s u where
  regs a h1 h2 := (h'.regs a h1 h2).trans (h.regs a h1 h2)
  nvm := h'.nvm.trans h.nvm
  acts := h'.acts.trans h.acts
  tceil := h'.tceil.trans h.tceil
  pceil := h'.pceil.trans h.pceil
  raise := h'.raise.trans h.raise
  mism := h'.mism.trans h.mism
  ring := h'.ring.trans h.ring
  therm := h'.therm.trans h.therm
  lost := h'.lost.trans h.lost
  held := h'.held.trans h.held
  vin die hd hl := (h'.vin die hd (by rw [h.lost]; exact hl)).trans (h.vin die hd hl)

theorem domSlice_lt (d : Nat) : domSlice d < 12 := Nat.mod_lt _ (by decide)

theorem domDie_lt (d : Nat) : domDie d < 2 := by
  unfold domDie
  split
  · split <;> decide
  · split <;> decide

section
variable {s t : State} (h : SpSame s t)
include h

theorem SpSame.fld_eq {a : Nat} (hi lo : Nat) (h1 : a ≠ aPWR_STATUS) (h2 : a < 0x30400 ∨ 0x30550 ≤ a) : fld t a hi lo = fld s a hi lo := by
  rw [fld, fld, h.regs a h1 h2]

theorem SpSame.calGuard_eq {sl : Nat} (k : Nat) (hsl : sl < 12) : calGuard t sl k = calGuard s sl k := by
  have hcal : fld t (aPWR_CAL sl) 1 0 = fld s (aPWR_CAL sl) 1 0 :=
    h.fld_eq _ _ (by unfold aPWR_CAL aPWR_STATUS; omega) (by unfold aPWR_CAL; omega)
  simp only [calGuard, calRec, loadClass, h.nvm, hcal]

theorem SpSame.domOffset_eq (d : Nat) : domOffset t d = domOffset s d := by
  have hunit (u : Nat) : fld t (aRAS_UNIT d u) 7 6 = fld s (aRAS_UNIT d u) 7 6 :=
    h.fld_eq _ _ (by unfold aRAS_UNIT aPWR_STATUS; omega) (by unfold aRAS_UNIT; omega)
  simp only [domOffset, hunit, h.ring]

theorem SpSame.floorOf_eq (d : Nat) : floorOf t d = floorOf s d := by
  simp only [floorOf, h.domOffset_eq, h.mism, dipRaise, h.raise, h.calGuard_eq 0 (domSlice_lt d), calRec, h.nvm]

theorem SpSame.sliceOwner_eq (sl : Nat) : sliceOwner t sl = sliceOwner s sl := by
  have hcfg (k hi lo : Nat) : fld t (aPART_CFG k) hi lo = fld s (aPART_CFG k) hi lo :=
    h.fld_eq _ _ (by unfold aPART_CFG aPart aPWR_STATUS; omega) (by unfold aPART_CFG aPart; omega)
  have hparts (k : Nat) : partSlices t k = partSlices s k := by rw [partSlices, partState, hcfg, hcfg, partSlices, partState]
  simp only [sliceOwner, hparts]

theorem SpSame.demandOf_eq (d : Nat) : demandOf t d = demandOf s d := by
  have hlim (hi lo : Nat) : fld t aPWR_LIMIT hi lo = fld s aPWR_LIMIT hi lo := h.fld_eq _ _ (by decide) (by decide)
  unfold demandOf
  rw [h.sliceOwner_eq, hlim]
  split
  · split
    · next k hk =>
      have hk : k < 12 := List.mem_range.mp (List.mem_of_find?_eq_some hk)
      exact h.fld_eq _ _ (by unfold aPWR_PART_SP aPWR_STATUS; omega) (by unfold aPWR_PART_SP; omega)
    · rfl
  · rfl

/-- R568: what a set point is made of is the set point. -/
theorem SpSame.spOf_eq (d : Nat) : spOf t d = spOf s d := by
  have hstress : stressPoint t (domSlice d) = stressPoint s (domSlice d) := by
    simp only [stressPoint, h.calGuard_eq 2 (domSlice_lt d), h.demandOf_eq]
  have hceil : ceilOf t d = ceilOf s d := by simp only [ceilOf, h.tceil, h.pceil]
  simp only [spOf, h.floorOf_eq, h.demandOf_eq, hceil, dipRaise, h.raise, h.therm, h.acts, hstress, h.lost]
  split
  · next hl => rw [h.vin _ (domDie_lt d) hl]
  · rfl

end

/-- A set point fits its field. -/
theorem spOf_lt (s : State) (d : Nat) : spOf s d < 256 := by
  have hstress (sl : Nat) : stressPoint s sl ≤ 158 := by unfold stressPoint; dsimp only; omega
  unfold spOf
  extract_lets f sp sp₁ sp₂
  have h₁ : sp₁ ≤ 170 := by
    simp only [sp₁]
    split <;> exact min_le_left _ _
  have h₂ : sp₂ ≤ 170 := by
    simp only [sp₂]
    split
    · exact (hstress _).trans (by decide)
    · exact h₁
  split
  · exact lt_of_le_of_lt (min_le_left _ _) (lt_of_le_of_lt h₂ (by decide))
  · exact lt_of_le_of_lt h₂ (by decide)

/-- The registers of a domain that is put at a set point. -/
def dvRegs (s : State) (d sp : Nat) : State :=
  let s := setFld (setFld s (aPWR_DOM d) 7 0 sp) (aPWR_DOM d) 31 24 (floorOf s d)
  setFld s (aPWR_DOM d) 18 18 (if d < 36 && calGuard s (domSlice d) 0 != 0 then 1 else 0)

/-- A state with other set points in motion. -/
def withMoves (s : State) (m : Map (Nat × Nat)) : State := { s with pwr := { s.pwr with moves := m } }

theorem withMoves_keeps (s : State) (m : Map (Nat × Nat)) :
    (withMoves s m).nvm = s.nvm ∧ (withMoves s m).acts = s.acts ∧ (withMoves s m).pins = s.pins ∧ (withMoves s m).tense = s.tense ∧
    { (withMoves s m).pwr with moves := [] } = { s.pwr with moves := [] } :=
  ⟨rfl, rfl, rfl, rfl, rfl⟩

theorem withMoves_regs (s : State) (m : Map (Nat × Nat)) : (withMoves s m).regs = s.regs := rfl

/-- R573: putting a set point changes the domain's register and what moves. -/
theorem dvSet_eq (s : State) (d sp : Nat) : ∃ m, dvSet s d sp = withMoves (dvRegs s d sp) m := by
  unfold dvSet
  extract_lets a old z₁ z₂
  have hz : z₂ = dvRegs s d sp := rfl
  clear_value z₂
  rw [← hz]
  split
  · exact ⟨z₂.pwr.moves, rfl⟩
  · exact ⟨_, rfl⟩

theorem dvRegs_keeps (s : State) (d sp : Nat) :
    (dvRegs s d sp).nvm = s.nvm ∧ (dvRegs s d sp).acts = s.acts ∧ (dvRegs s d sp).pins = s.pins ∧ (dvRegs s d sp).tense = s.tense ∧
    (dvRegs s d sp).pwr = s.pwr := by
  simp only [dvRegs, setFld_keeps, and_self]

theorem dvSet_keeps (s : State) (d sp : Nat) :
    (dvSet s d sp).nvm = s.nvm ∧ (dvSet s d sp).acts = s.acts ∧ (dvSet s d sp).pins = s.pins ∧ (dvSet s d sp).tense = s.tense ∧
    { (dvSet s d sp).pwr with moves := [] } = { s.pwr with moves := [] } := by
  obtain ⟨m, hm⟩ := dvSet_eq s d sp
  obtain ⟨hn, ha, hp, ht, hw⟩ := dvRegs_keeps s d sp
  obtain ⟨hn', ha', hp', ht', hw'⟩ := withMoves_keeps (dvRegs s d sp) m
  rw [hm, hw', hw]
  exact ⟨hn'.trans hn, ha'.trans ha, hp'.trans hp, ht'.trans ht, rfl⟩

/-- What of the power state a moved set point leaves alone. -/
theorem dvSet_pwr {β : Type} (g : Pwr → β) (hg : ∀ p, g { p with moves := [] } = g p) (s : State) (d sp : Nat) :
    g (dvSet s d sp).pwr = g s.pwr :=
  have hp : { (dvSet s d sp).pwr with moves := [] } = { s.pwr with moves := [] } := by
    obtain ⟨_, _, _, _, hp⟩ := dvSet_keeps s d sp
    exact hp
  (hg _).symm.trans ((congrArg g hp).trans (hg _))

theorem regs_dvSet (s : State) (d sp : Nat) : (dvSet s d sp).regs = (dvRegs s d sp).regs := by
  obtain ⟨m, hm⟩ := dvSet_eq s d sp
  rw [hm]
  exact withMoves_regs _ m

theorem regGet_dvSet_other (s : State) (d sp : Nat) {a : Nat} (h : a ≠ aPWR_DOM d) : regGet (dvSet s d sp) a = regGet s a := by
  rw [regGet_of_regs (regs_dvSet s d sp), dvRegs]
  simp only [regGet_setFld_other _ _ _ _ _ _ h]

theorem fld_dvSet_other (s : State) (d sp : Nat) {a : Nat} (hi lo : Nat) (h : a ≠ aPWR_DOM d) : fld (dvSet s d sp) a hi lo = fld s a hi lo := by
  rw [fld, fld, regGet_dvSet_other _ _ _ h]

/-- Any field of the domain's register but those of the set point, the floor and GUARDED stands as it was. -/
theorem fld_dvSet_apart (s : State) (d sp : Nat) {hi lo : Nat} (h7 : 7 < lo) (h64 : hi < 64) (h18 : hi < 18 ∨ 18 < lo) (h31 : hi < 24 ∨ 31 < lo) :
    fld (dvSet s d sp) (aPWR_DOM d) hi lo = fld s (aPWR_DOM d) hi lo := by
  rw [fld_of_regs (regs_dvSet s d sp), dvRegs]
  rw [fld_setFld_apart _ _ _ (by decide) h64 h18, fld_setFld_apart _ _ _ (by decide) h64 h31, fld_setFld_apart _ _ _ (by decide) h64 (.inr h7)]

theorem fld_dvSet_point (s : State) (d sp : Nat) : fld (dvSet s d sp) (aPWR_DOM d) 7 0 = sp % 2 ^ 8 := by
  rw [fld_of_regs (regs_dvSet s d sp), dvRegs]
  rw [fld_setFld_apart _ _ _ (by decide) (by decide) (.inl (by decide)), fld_setFld_apart _ _ _ (by decide) (by decide) (.inl (by decide)),
    fld_setFld_same _ _ _ (by decide) (by decide)]

theorem aPWR_DOM_inj {d e : Nat} (h : e ≠ d) : aPWR_DOM e ≠ aPWR_DOM d := by unfold aPWR_DOM; omega

theorem domOn_dvSet (s : State) (d sp e : Nat) : domOn (dvSet s d sp) e = domOn s e := by
  unfold domOn
  by_cases h : e = d
  · rw [h, fld_dvSet_apart _ _ _ (by decide) (by decide) (.inl (by decide)) (.inl (by decide))]
  · rw [fld_dvSet_other _ _ _ _ _ (aPWR_DOM_inj h)]

theorem dvSet_spSame (s : State) {d : Nat} (sp : Nat) (hd : d < 42) : SpSame s (dvSet s d sp) := by
  obtain ⟨hn, ha, _, _, _⟩ := dvSet_keeps s d sp
  have hp {β : Type} (g : Pwr → β) (hg : ∀ p, g { p with moves := [] } = g p) := dvSet_pwr g hg s d sp
  exact ⟨fun a _ hout => regGet_dvSet_other _ _ _ (by unfold aPWR_DOM; omega), hn, ha, hp Pwr.tceil fun _ => rfl, hp Pwr.pceil fun _ => rfl,
    hp Pwr.raise fun _ => rfl, hp Pwr.mism fun _ => rfl, hp Pwr.ring fun _ => rfl, hp Pwr.therm fun _ => rfl, hp Pwr.lost fun _ => rfl,
    hp Pwr.held fun _ => rfl, fun die _ _ => hp (fun p => p.vin.getD die 0) fun _ => rfl⟩

/-! ### Every powered domain -/

/-- One domain takes its set point where it is powered. -/
def dvOne (s : State) (d : Nat) : State := if domOn s d then dvSet s d (spOf s d) else s

theorem dvOne_spSame (s : State) {d : Nat} (hd : d < 42) : SpSame s (dvOne s d) := by
  unfold dvOne
  split
  · exact dvSet_spSame s _ hd
  · exact SpSame.refl s

theorem domOn_dvOne (s : State) (d e : Nat) : domOn (dvOne s d) e = domOn s e := by
  unfold dvOne
  split
  · exact domOn_dvSet _ _ _ _
  · rfl

theorem fld_dvOne_other (s : State) {d e : Nat} (h : e ≠ d) : fld (dvOne s d) (aPWR_DOM e) 7 0 = fld s (aPWR_DOM e) 7 0 := by
  unfold dvOne
  split
  · exact fld_dvSet_other _ _ _ _ _ (aPWR_DOM_inj h)
  · rfl

theorem dvEach_spSame {l : List Nat} (hl : ∀ d ∈ l, d < 42) (s : State) : SpSame s (l.foldl dvOne s) := by
  induction l generalizing s with
  | nil => exact SpSame.refl s
  | cons x r ih => exact (dvOne_spSame s (hl x List.mem_cons_self)).trans (ih (fun d hd => hl d (List.mem_cons_of_mem _ hd)) _)

theorem domOn_dvEach (l : List Nat) (s : State) (e : Nat) : domOn (l.foldl dvOne s) e = domOn s e :=
  foldl_keep (domOn · e) dvOne (fun s d => domOn_dvOne s d e) l s

theorem fld_dvEach_out {l : List Nat} (s : State) {e : Nat} (h : e ∉ l) : fld (l.foldl dvOne s) (aPWR_DOM e) 7 0 = fld s (aPWR_DOM e) 7 0 := by
  induction l generalizing s with
  | nil => rfl
  | cons x r ih =>
    rw [List.mem_cons, not_or] at h
    rw [List.foldl_cons, ih _ h.2, fld_dvOne_other _ h.1]

/-- R568: each powered domain stands at its set point. -/
theorem fld_dvEach {l : List Nat} (hl : ∀ d ∈ l, d < 42) (s : State) {d : Nat} (hd : d ∈ l) (hon : domOn s d = true) :
    fld (l.foldl dvOne s) (aPWR_DOM d) 7 0 = spOf s d := by
  induction l generalizing s with
  | nil => exact absurd hd List.not_mem_nil
  | cons x r ih =>
    rw [List.foldl_cons]
    by_cases hr : d ∈ r
    · rw [ih (fun d hd => hl d (List.mem_cons_of_mem _ hd)) _ hr (by rw [domOn_dvOne]; exact hon),
        (dvOne_spSame s (hl x List.mem_cons_self)).spOf_eq]
    · obtain rfl : d = x := (List.mem_cons.mp hd).resolve_right hr
      rw [fld_dvEach_out _ hr, dvOne, if_pos hon, fld_dvSet_point]
      exact Nat.mod_eq_of_lt (spOf_lt s d)

theorem vinFollow_regs (s : State) : (vinFollow s).regs = s.regs := rfl

theorem vinFollow_spSame (s : State) : SpSame s (vinFollow s) := by
  refine ⟨fun _ _ _ => rfl, rfl, rfl, rfl, rfl, rfl, rfl, rfl, rfl, rfl, rfl, fun die hd hl => ?_⟩
  unfold vinFollow
  dsimp only
  match die, hd with
  | 0, _ => rw [if_pos hl]; rfl
  | 1, _ => rw [if_pos hl]; rfl

theorem setStatus_spSame (s : State) (hi lo v : Nat) : SpSame s (setFld s aPWR_STATUS hi lo v) :=
  ⟨fun _ h _ => regGet_setFld_other _ _ _ _ _ _ h, rfl, rfl, rfl, rfl, rfl, rfl, rfl, rfl, rfl, rfl, fun _ _ _ => rfl⟩

theorem dvAll_eq (s : State) : dvAll s = vinFollow ((List.range 41).foldl dvOne s) := rfl

theorem dvAll_spSame (s : State) : SpSame s (dvAll s) :=
  (dvEach_spSame (fun d hd => by have := List.mem_range.mp hd; omega) s).trans (vinFollow_spSame _)

/-- R568, R586: the set points that an update leaves. -/
theorem powerFlags_dvAll (s : State) {d : Nat} (hd : d < 41) (hon : domOn (powerFlags (dvAll s)) d = true) :
    fld (powerFlags (dvAll s)) (aPWR_DOM d) 7 0 = spOf (powerFlags (dvAll s)) d := by
  have hne : aPWR_DOM d ≠ aPWR_STATUS := by unfold aPWR_DOM aPWR_STATUS; omega
  have hfld (hi lo : Nat) : fld (powerFlags (dvAll s)) (aPWR_DOM d) hi lo = fld ((List.range 41).foldl dvOne s) (aPWR_DOM d) hi lo := by
    rw [fld, powerFlags, regGet_setFld_other _ _ _ _ _ _ hne, regGet_setFld_other _ _ _ _ _ _ hne, dvAll_eq, regGet_of_regs (vinFollow_regs _), ← fld]
  have hsame : SpSame s (powerFlags (dvAll s)) :=
    (dvAll_spSame s).trans ((setStatus_spSame _ _ _ _).trans (setStatus_spSame _ _ _ _))
  have hon' : domOn s d = true := by
    rw [← domOn_dvEach (List.range 41) s d, ← hon, domOn, domOn, hfld]
  rw [hfld, hsame.spOf_eq]
  exact fld_dvEach (fun d hd => by have := List.mem_range.mp hd; omega) s (List.mem_range.mpr hd) hon'

theorem powerFlags_held {s : State} (h : s.pwr.held = []) : fld (powerFlags (dvAll s)) aPWR_STATUS 3 3 = 0 := by
  have hheld : (dvAll s).pwr.held = [] := (dvAll_spSame s).held.trans h
  unfold powerFlags
  dsimp only
  rw [fld_setFld_same _ _ _ (by decide) (by decide), hheld]
  rfl

end Sys2Proof.Machine
end

section
/-! Junction temperatures (R572, R589): what a set's readings do to its hottest sensor, to the holds and to the trip. -/

namespace Sys2Proof.Machine

/-- What the readings decide on: the hottest sensors, the holds and the trip. -/
def heatSide (s : State) : Map Nat × List Nat × Bool := (s.pwr.tj, s.pwr.therm, s.pins.trip)

theorem setFld_heat (s : State) (off hi lo v : Nat) : heatSide (setFld s off hi lo v) = heatSide s := by simp only [heatSide, setFld_keeps]

theorem report_pwr (s : State) (cls cause part slice unit : Nat) (d : List Nat) : (report s cls cause part slice unit d).pwr = s.pwr :=
  (congrArg State.pwr (report_rest s cls cause part slice unit d) : (rptRest _).pwr = (rptRest _).pwr)

theorem report_heat (s : State) (cls cause part slice unit : Nat) (d : List Nat) : heatSide (report s cls cause part slice unit d) = heatSide s := by
  rw [heatSide, report_pwr, report_pins, heatSide]

theorem dvSet_heat (s : State) (d sp : Nat) : heatSide (dvSet s d sp) = heatSide s := by
  obtain ⟨_, _, hpins, _, _⟩ := dvSet_keeps s d sp
  rw [heatSide, hpins, dvSet_pwr Pwr.tj fun _ => rfl, dvSet_pwr Pwr.therm fun _ => rfl, heatSide]

theorem computeClear_heat (s : State) (sl : Nat) : heatSide (computeClear s sl) = heatSide s := by
  unfold computeClear
  exact foldl_keep heatSide _ (fun _ _ => by rw [setFld_heat, setFld_heat]) _ _

theorem domOff_heat (s : State) (d : Nat) : heatSide (domOff s d) = heatSide s := by
  unfold domOff
  extract_lets a z z₁ p z₂
  have h : heatSide z₂ = heatSide s := by simp only [heatSide, z₂, p, z₁, z, clrBitOf, setFld_keeps]
  clear_value z₂
  split
  · exact (computeClear_heat _ _).trans h
  · simp only [heatSide] at h ⊢
    split
    · exact h
    · split
      · exact h
      · split
        · exact h
        · split <;> exact h

theorem failoverNow_heat (s : State) : heatSide (failoverNow s) = heatSide s := by
  have hsend (z : State) (e : Nat) (pk : Pkt) : heatSide (sendPkt z e pk) = heatSide z := Eq.refl (heatSide z)
  unfold failoverNow
  split
  · refine foldl_keep heatSide _ (fun s p => ?_) _ _
    split
    · exact hsend _ _ _
    · rfl
  · rfl

/-- R572, R656: a trip switches the domains off and asserts its pin. -/
theorem thermalTrip_heat (s : State) (i : Nat) : heatSide (thermalTrip s i) = (s.pwr.tj, s.pwr.therm, true) := by
  unfold thermalTrip
  extract_lets z z₁ z₂
  have h : heatSide z₂ = heatSide s := (foldl_keep heatSide domOff domOff_heat _ _).trans ((report_heat _ _ _ _ _ _ _).trans (failoverNow_heat s))
  have htj : z₂.pwr.tj = s.pwr.tj := congrArg (fun p => p.1) h
  have htherm : z₂.pwr.therm = s.pwr.therm := congrArg (fun p => p.2.1) h
  clear_value z₂
  rw [← htj, ← htherm]
  rfl

/-- R572: the holds after a set's readings. -/
def heldAfter (therm : List Nat) (i : Nat) (hot : Int) : List Nat :=
  if 105 ≤ hot ∧ therm.contains i = false then therm ++ [i] else if hot < 100 then therm.filter (· != i) else therm

theorem mem_heldAfter_hot {therm : List Nat} {i : Nat} {hot : Int} (h : 105 ≤ hot) : i ∈ heldAfter therm i hot := by
  unfold heldAfter
  split
  · exact List.mem_append_right _ (List.mem_singleton.mpr rfl)
  · next hno =>
    rw [if_neg (by omega)]
    by_contra hni
    exact hno ⟨h, by simpa using hni⟩

theorem not_mem_heldAfter_cool {therm : List Nat} {i : Nat} {hot : Int} (h : hot < 100) : i ∉ heldAfter therm i hot := by
  rw [heldAfter, if_neg (by omega), if_pos h, List.mem_filter]
  simp

theorem mem_heldAfter_other (therm : List Nat) {i j : Nat} (hot : Int) (h : j ≠ i) : j ∈ heldAfter therm i hot ↔ j ∈ therm := by
  unfold heldAfter
  split
  · simp [h]
  · split
    · simp [h]
    · rfl

/-- The good readings of a set, first met first. -/
def goodReadings (i : Nat) (temps : List Int) : List Int :=
  ((sensorCheck ((sensorSet i).map fun n => temps.getD n 0)).filter fun x => !x.2).map (·.1)

/-- R589: a set without a good sensor decides nothing; the sensors that disagree are noted. -/
theorem sensorNoted_heat (l : List (Nat × Int × Bool)) (part sl : State → Nat) (s : State) :
    heatSide (l.foldl (fun s x =>
      if x.2.2 && !s.pwr.badSens.contains x.1 then
        report { s with pwr := { s.pwr with badSens := s.pwr.badSens ++ [x.1] } } clCONTAINED 0xF (part s) (sl s) 0xFF [x.1]
      else if x.2.2 then s
      else { s with pwr := { s.pwr with badSens := s.pwr.badSens.filter (· != x.1) } }) s) = heatSide s := by
  refine foldl_keep heatSide _ (fun s x => ?_) _ _
  split
  · exact report_heat _ _ _ _ _ _ _
  · split <;> rfl

/-- R572, R589: what a set's readings decide. -/
theorem sensorStep_heat (s : State) (i : Nat) {temps : List Int} {t : Int} {ts : List Int} (hgood : goodReadings i temps = t :: ts) :
    heatSide (sensorStep s i temps) = (mapIns s.pwr.tj i (toTwos 8 (ts.foldl max t)), heldAfter s.pwr.therm i (ts.foldl max t),
      s.pins.trip || decide (115 ≤ ts.foldl max t)) := by
  unfold sensorStep
  extract_lets ids l sl z
  have hz : heatSide z = heatSide s := sensorNoted_heat _ (fun s => if i < 12 then partByte s i else 0xFF) (fun _ => sl) s
  have hl : (l.filter fun x => !x.2).map (·.1) = t :: ts := hgood
  clear_value z l
  split
  next hnil => rw [hl] at hnil; cases hnil
  next t' ts' hcons =>
  rw [hl] at hcons
  obtain ⟨rfl, rfl⟩ := List.cons.inj hcons
  extract_lets hot z₁ z₂ held w z₃ z₄ z₅
  have h₂ : heatSide z₂ = (mapIns s.pwr.tj i (toTwos 8 hot), s.pwr.therm, s.pins.trip) := by
    have htherm : z.pwr.therm = s.pwr.therm := congrArg (fun p => p.2.1) hz
    have htrip : z.pins.trip = s.pins.trip := congrArg (fun p => p.2.2) hz
    have htj : z.pwr.tj = s.pwr.tj := congrArg (fun p => p.1) hz
    refine (foldl_keep heatSide _ (fun s d => setFld_heat _ _ _ _ _) _ _).trans ?_
    rw [← htj, ← htherm, ← htrip]
    rfl
  have htherm : z₂.pwr.therm = s.pwr.therm := congrArg (fun p => p.2.1) h₂
  have h₅ : heatSide z₅ = (mapIns s.pwr.tj i (toTwos 8 hot), heldAfter s.pwr.therm i hot, s.pins.trip) := by
    refine (setFld_heat _ _ _ _ _).trans ?_
    simp only [z₄, heldAfter, held, htherm, Bool.not_eq_true']
    split
    · refine (foldl_keep heatSide _ (fun s d => ?_) _ _).trans ((report_heat _ _ _ _ _ _ _).trans ?_)
      · split
        · exact dvSet_heat _ _ _
        · rfl
      · exact congrArg (fun p => (p.1, p.2.1 ++ [i], p.2.2)) h₂
    · split
      · exact congrArg (fun p => (p.1, s.pwr.therm.filter (· != i), p.2.2)) h₂
      · exact h₂
  have htrip : z₅.pins.trip = s.pins.trip := congrArg (fun p => p.2.2) h₅
  clear_value z₅
  by_cases h : 115 ≤ hot ∧ (!z₅.pins.trip) = true
  · rw [if_pos h, thermalTrip_heat]
    refine (congrArg (fun p => (p.1, p.2.1, true)) h₅).trans ?_
    rw [decide_eq_true h.1, Bool.or_true]
  · rw [if_neg h, h₅]
    by_cases h115 : 115 ≤ hot
    · have htrue : s.pins.trip = true := by simpa [h115, htrip] using h
      rw [htrue, Bool.true_or]
    · rw [decide_eq_false h115, Bool.or_false]

theorem sensorStep_heat_nil (s : State) (i : Nat) {temps : List Int} (hgood : goodReadings i temps = []) :
    heatSide (sensorStep s i temps) = heatSide s := by
  unfold sensorStep
  extract_lets ids l sl z
  have hz : heatSide z = heatSide s := sensorNoted_heat _ (fun s => if i < 12 then partByte s i else 0xFF) (fun _ => sl) s
  have hl : (l.filter fun x => !x.2).map (·.1) = [] := hgood
  clear_value z l
  split
  next => exact hz
  next t ts hcons =>
  rw [hl] at hcons
  cases hcons

/-! ### The fourteen sets -/

/-- What the readings `hot` of set `i` have decided. -/
def heatShows (s : State) (i : Nat) (hot : Int) : Prop :=
  mapGet 0 s.pwr.tj i = toTwos 8 hot ∧ (105 ≤ hot → i ∈ s.pwr.therm) ∧ (hot < 100 → i ∉ s.pwr.therm) ∧ (115 ≤ hot → s.pins.trip = true)

theorem heatShows_of_heat {s : State} {i : Nat} {hot : Int} {tj : Map Nat} {therm : List Nat} {trip : Bool} (h : heatSide s = (tj, therm, trip))
    (hs : mapGet 0 tj i = toTwos 8 hot ∧ (105 ≤ hot → i ∈ therm) ∧ (hot < 100 → i ∉ therm) ∧ (115 ≤ hot → trip = true)) : heatShows s i hot := by
  obtain ⟨rfl, rfl, rfl⟩ : s.pwr.tj = tj ∧ s.pwr.therm = therm ∧ s.pins.trip = trip := by simpa [heatSide] using h
  exact hs

theorem sensorStep_shows (s : State) (i : Nat) {temps : List Int} {t : Int} {ts : List Int} (hgood : goodReadings i temps = t :: ts) :
    heatShows (sensorStep s i temps) i (ts.foldl max t) := by
  refine heatShows_of_heat (sensorStep_heat s i hgood) ⟨mapGet_mapIns_same _ _ _ _, mem_heldAfter_hot, not_mem_heldAfter_cool, fun h => ?_⟩
  rw [decide_eq_true h, Bool.or_true]

/-- The readings of another set leave what a set's readings decided. -/
theorem sensorStep_shows_other {s : State} {i j : Nat} {hot : Int} (temps : List Int) (hne : i ≠ j) (h : heatShows s i hot) :
    heatShows (sensorStep s j temps) i hot := by
  cases hgood : goodReadings j temps with
  | nil => exact heatShows_of_heat (sensorStep_heat_nil s j hgood) h
  | cons t ts =>
    obtain ⟨htj, hhot, hcool, htrip⟩ := h
    refine heatShows_of_heat (sensorStep_heat s j hgood) ⟨?_, fun h => ?_, fun h => ?_, fun h => ?_⟩
    · rw [mapGet_mapIns_other _ _ _ _ _ hne, htj]
    · rw [mem_heldAfter_other _ _ hne]
      exact hhot h
    · rw [mem_heldAfter_other _ _ hne]
      exact hcool h
    · rw [htrip h, Bool.true_or]

/-- R572: once every set has been read, what each set's good sensors decide stands. -/
theorem sensorSteps_shows {l : List Nat} (s : State) {i : Nat} {temps : List Int} {t : Int} {ts : List Int} (hi : i ∈ l)
    (hgood : goodReadings i temps = t :: ts) : heatShows (l.foldl (fun s i => sensorStep s i temps) s) i (ts.foldl max t) := by
  have hstays (l : List Nat) (s : State) (h : heatShows s i (ts.foldl max t)) :
      heatShows (l.foldl (fun s i => sensorStep s i temps) s) i (ts.foldl max t) := by
    induction l generalizing s with
    | nil => exact h
    | cons j r ih =>
      refine ih _ ?_
      by_cases hj : i = j
      · rw [← hj]
        exact sensorStep_shows s i hgood
      · exact sensorStep_shows_other temps hj h
  induction l generalizing s with
  | nil => exact absurd hi List.not_mem_nil
  | cons j r ih =>
    rcases List.mem_cons.mp hi with rfl | h
    · exact hstays r _ (sensorStep_shows s i hgood)
    · exact ih _ h

end Sys2Proof.Machine
end

section
/-! Power events (R568 to R579, R589, R592, R657). -/

namespace Sys2Proof.Machine

/-- A reading that is due notes its time, and nothing else. -/
theorem periodic_eq {s z : State} {key ns : Nat} (h : periodic s key ns = some z) :
    z = { s with pwr := { s.pwr with lastAt := mapIns s.pwr.lastAt key s.tense.toNat } } := by
  unfold periodic at h
  dsimp only at h
  exact (Option.some.inj (Option.ite_none_right_eq_some.mp h).2).symm

theorem periodic_keeps {s z : State} {key ns : Nat} (h : periodic s key ns = some z) :
    z.regs = s.regs ∧ z.tense = s.tense ∧ z.pwr.moves = s.pwr.moves ∧ z.pwr.corr = s.pwr.corr ∧ z.pwr.est = s.pwr.est ∧ z.pwr.seen = s.pwr.seen ∧
    z.pwr.dip = s.pwr.dip := by
  rw [periodic_eq h]
  exact ⟨rfl, rfl, rfl, rfl, rfl, rfl, rfl⟩

/-- Entries put at the keys of a list all read as put. -/
theorem mapFind_foldl_mapIns {α β : Type} (v : α) (l : List (Nat × β)) (m : Map α) {k : Nat} (h : k ∈ l.map (·.1)) :
    mapFind (l.foldl (fun m x => mapIns m x.1 v) m) k = some v := by
  have hstays (l : List (Nat × β)) (m : Map α) (h : mapFind m k = some v) : mapFind (l.foldl (fun m x => mapIns m x.1 v) m) k = some v := by
    induction l generalizing m with
    | nil => exact h
    | cons x r ih =>
      refine ih _ ?_
      by_cases hx : k = x.1
      · rw [hx, mapFind_mapIns_same]
      · rw [mapFind_mapIns_other _ _ _ _ hx, h]
  induction l generalizing m with
  | nil => exact absurd h List.not_mem_nil
  | cons x r ih =>
    rw [List.map_cons, List.mem_cons] at h
    rcases h with rfl | h
    · exact hstays r _ (mapFind_mapIns_same _ _ _)
    · exact ih _ h

/-! ### Estimates (R570, R576, R578) -/

/-- What an estimate shows: the status register, and the estimates kept. -/
def estSide (s : State) : Nat × List (Nat × List Nat) := (regGet s aPWR_STATUS, s.pwr.est)

theorem setFld_estSide (s : State) {off : Nat} (hi lo v : Nat) (h : aPWR_STATUS ≠ off) : estSide (setFld s off hi lo v) = estSide s := by
  simp only [estSide, regGet_setFld_other _ _ _ _ _ _ h, setFld_keeps]

theorem calShow_estSide (s : State) (sl : Nat) : estSide (calShow s sl) = estSide s := by
  have h : aPWR_STATUS ≠ aPWR_CAL sl := by unfold aPWR_STATUS aPWR_CAL; omega
  unfold calShow
  dsimp only
  rw [setFld_estSide _ _ _ _ h, setFld_estSide _ _ _ _ h, setFld_estSide _ _ _ _ h, setFld_estSide _ _ _ _ h, setFld_estSide _ _ _ _ h]

theorem calPass_estSide (s : State) (sl : Nat) : estSide (calPass s sl) = estSide s := by
  unfold calPass
  refine (calShow_estSide _ _).trans (foldl_keep estSide _ (fun s k => ?_) _ _)
  split
  · split <;> rfl
  · rfl

theorem classStep_estSide (s : State) (sl p : Nat) : estSide (classStep s sl p) = estSide s := by
  have h : aPWR_STATUS ≠ aPWR_CAL sl := by unfold aPWR_STATUS aPWR_CAL; omega
  have hset (z : State) (q : Pwr) (hq : q.est = z.pwr.est) : estSide { z with pwr := q } = estSide z := Prod.ext rfl hq
  unfold classStep
  extract_lets l w z c q z₁
  have hz : estSide z = estSide s := hset s _ rfl
  clear_value z
  split
  · exact hz
  · rw [calPass_estSide, hset, setFld_estSide _ _ _ _ h, hz]
    simp only [q, z₁, setFld_keeps]

/-- R570: the mean of the latest estimates shows. -/
theorem estimate_facts (s : State) (doms : List Nat) (rest : Nat) :
    (estimate s doms rest).pwr.est = ((((doms.take 42).sum + rest : Int) + s.pwr.corr).toNat, doms) :: s.pwr.est.take 9 ∧
    fld (estimate s doms rest) aPWR_STATUS 31 16 =
      min 65535 (((estimate s doms rest).pwr.est.map (·.1)).sum / (estimate s doms rest).pwr.est.length / 10) := by
  unfold estimate
  extract_lets tot est w z n z₁ z₂
  have hfold : estSide ((List.range 12).foldl (fun s sl => classStep s sl (doms.getD sl 0)) z₂) = estSide z₁ := by
    refine (foldl_keep estSide _ (fun s sl => classStep_estSide _ _ _) _ _).trans (foldl_keep estSide _ (fun s d => setFld_estSide _ _ _ _ ?_) _ _)
    unfold aPWR_STATUS aPWR_DOM
    omega
  have hest : z₁.pwr.est = est := by simp only [z₁, setFld_keeps, z]
  have hfld : fld z₁ aPWR_STATUS 31 16 = min 65535 ((est.map (·.1)).sum / est.length / 10) := by
    rw [fld_setFld_same _ _ _ (by decide) (by decide)]
    exact Nat.mod_eq_of_lt (by omega)
  clear_value z₁
  generalize (List.range 12).foldl (fun s sl => classStep s sl (doms.getD sl 0)) z₂ = y at hfold
  have hy : y.pwr.est = est := (congrArg Prod.snd hfold).trans hest
  have hreg : regGet y aPWR_STATUS = regGet z₁ aPWR_STATUS := congrArg Prod.fst hfold
  rw [hy, fld, hreg]
  exact ⟨List.take_succ_cons, hfld⟩

/-! ### Regulators (R657) -/

theorem pmbusResult_pins (s : State) (i : Nat) (ok : Bool) : (pmbusResult s i ok).pins = s.pins := by
  unfold pmbusResult railReport
  split
  · rfl
  · dsimp only
    split
    · rw [report_pins]
    · rfl

/-! ### Rails (R573, R592) -/

/-- R573: the dip that a sample leaves. -/
theorem dipSample_none {s : State} (d v : Nat) (h : s.pwr.dip = none) :
    (dipSample s d v).pwr.dip = (if v < warnLevel s d then some { start := s.tense.toNat, doms := [(d, none)], minV := v, minDom := d } else none) := by
  unfold dipSample
  rw [h]
  dsimp only
  split
  · rfl
  · exact h

theorem dipSample_keeps (s : State) (d v : Nat) : (dipSample s d v).pwr.mism = s.pwr.mism ∧ (dipSample s d v).regs = s.regs := by
  unfold dipSample
  dsimp only
  split
  · split <;> exact ⟨rfl, rfl⟩
  · split
    · exact ⟨rfl, rfl⟩
    · split <;> exact ⟨rfl, rfl⟩

theorem warnLevel_of_same {s t : State} {d : Nat} (hsp : fld t (aPWR_DOM d) 7 0 = fld s (aPWR_DOM d) 7 0) (hmoves : t.pwr.moves = s.pwr.moves)
    (ht : t.tense = s.tense) : warnLevel t d = warnLevel s d := by
  unfold warnLevel
  rw [hsp, hmoves, ht]

theorem railReport_pwr (s : State) (sl : Nat) (detail : List Nat) : (railReport s sl detail).pwr = s.pwr := report_pwr _ _ _ _ _ _ _

/-- The samples in a row below 0.50 V do not bear on the dip. -/
theorem dipSample_low (s : State) (l : Map Nat) (d v : Nat) (h : s.pwr.dip = none) :
    (dipSample { s with pwr := { s.pwr with low := l } } d v).regs = s.regs ∧
    (dipSample { s with pwr := { s.pwr with low := l } } d v).pwr.dip =
      (if v < warnLevel s d then some { start := s.tense.toNat, doms := [(d, none)], minV := v, minDom := d } else none) :=
  ⟨(dipSample_keeps _ _ _).2, dipSample_none d v h⟩

/-- R592: monitors that disagree are noted. -/
theorem railSample_mism (s : State) {d a b : Nat} {tele : Option Nat} (h : (monitorPick a b tele).2 = true) :
    d ∈ (railSample s d a b tele).pwr.mism := by
  unfold railSample
  split
  next v bad hpick =>
  obtain rfl : bad = true := by rw [hpick] at h; exact h
  extract_lets w z₁ z₂ z₃ z₄ p z₅
  have h₃ : d ∈ z₃.pwr.mism := by
    simp only [z₃]
    split
    · rw [dvSet_pwr Pwr.mism fun _ => rfl, railReport_pwr]
      exact List.mem_append_right _ (List.mem_singleton.mpr rfl)
    · next hin => simpa using hin
  have h₄ : d ∈ z₄.pwr.mism := by
    simp only [z₄, setFld_keeps]
    exact h₃
  have h₅ : d ∈ z₅.pwr.mism := by
    simp only [z₅]
    split
    · exact h₄
    · exact h₄
  clear_value z₅
  split
  · exact h₅
  · rw [(dipSample_keeps _ _ _).1]
    exact h₅

/-- R573, R574: a sample of a rail that is monitored. -/
theorem railSample_seen {s : State} {d a b : Nat} {tele : Option Nat} (h : (monitorPick a b tele).2 = false) (hseen : d ∈ s.pwr.seen)
    (hdip : s.pwr.dip = none) :
    fld (railSample s d a b tele) (aPWR_DOM d) 15 8 = min 255 (min a b / 5) ∧
    (railSample s d a b tele).pwr.dip = (if min a b < warnLevel s d then
      some { start := s.tense.toNat, doms := [(d, none)], minV := min a b, minDom := d } else none) := by
  unfold railSample
  split
  next v bad hpick =>
  obtain rfl : bad = false := by rw [hpick] at h; exact h
  obtain rfl : v = min a b := by
    refine (congrArg Prod.fst hpick).symm.trans ?_
    unfold monitorPick at h ⊢
    dsimp only at h ⊢
    rw [h, if_neg (by decide)]
  rw [Bool.false_and, if_neg Bool.false_ne_true]
  have hsee : s.pwr.seen.contains d = true := by simpa using hseen
  extract_lets w z₁ p z₂ n q
  have h₁ : z₁.pwr = s.pwr ∧ z₁.tense = s.tense := by simp only [z₁, w, setFld_keeps, and_self]
  have hsp : fld z₁ (aPWR_DOM d) 7 0 = fld s (aPWR_DOM d) 7 0 := fld_setFld_apart _ _ _ (by decide) (by decide) (.inl (by decide))
  have hshow : fld z₁ (aPWR_DOM d) 15 8 = min 255 (min a b / 5) := by
    rw [fld_setFld_same _ _ _ (by decide) (by decide)]
    exact Nat.mod_eq_of_lt (by omega)
  have hz₂ : z₂ = z₁ := if_pos (by rw [h₁.1, hsee, Bool.true_or])
  obtain ⟨hpwr, htense⟩ := h₁
  rw [← hz₂] at hpwr htense hsp hshow
  clear_value z₂
  rw [hpwr, hsee, if_neg (by decide)]
  obtain ⟨hregs, hdips⟩ := dipSample_low z₂ (mapSet 0 s.pwr.low d n) d (min a b) (by rw [hpwr, hdip])
  rw [fld_of_regs hregs, hdips, warnLevel_of_same (s := s) hsp (by rw [← hpwr]) htense, htense]
  exact ⟨hshow, rfl⟩

/-! ### The end of a dip (R575) -/

/-- A report that names no unit changes no register but RAS_RPT_STATUS. -/
theorem fld_report (s : State) (cls cause part slice unit : Nat) (d : List Nat) {a : Nat} (hi lo : Nat) (hs : 12 ≤ slice) (ha : a ≠ aRAS_RPT_STATUS) :
    fld (report s cls cause part slice unit d) a hi lo = fld s a hi lo := by
  unfold report
  rw [if_neg (by omega), fld, fld]
  exact congrArg (fun x => bits x hi lo) (regGet_postRpt _ _ ha)

/-- R575: a domain of the event is raised and marked. -/
def dipMark (s : State) (d : Nat × Option Nat) : State := dvSet (setBitOf s (aPWR_DOM d.1) 17) d.1 (spOf s d.1)

theorem dipMark_pwr {β : Type} (g : Pwr → β) (hg : ∀ p, g { p with moves := [] } = g p) (s : State) (d : Nat × Option Nat) :
    g (dipMark s d).pwr = g s.pwr := by
  unfold dipMark
  rw [dvSet_pwr g hg]
  simp only [setBitOf, setFld_keeps]

theorem fld_dipMark (s : State) (d : Nat × Option Nat) {a : Nat} (hi lo : Nat) (h : a < 0x30400) : fld (dipMark s d) a hi lo = fld s a hi lo := by
  have hne : a ≠ aPWR_DOM d.1 := by unfold aPWR_DOM; omega
  rw [dipMark, fld_dvSet_other _ _ _ _ _ hne, fld, setBitOf, regGet_setFld_other _ _ _ _ _ _ hne, ← fld]

/-- R575: what an event's end shows and leaves. -/
theorem dipEnd_facts (s : State) (e : Dip) :
    (dipEnd s e).pwr.dip = none ∧
    (dipEnd s e).pwr.raise = e.doms.foldl (fun m d => mapIns m d.1 (s.tense.toNat + 10000000000)) s.pwr.raise ∧
    fld (dipEnd s e) aPWR_DIP 47 0 = e.start % 2 ^ 48 ∧ fld (dipEnd s e) aPWR_STATUS 47 32 = satAdd 16 (fld s aPWR_STATUS 47 32) 1 := by
  have hset (w : State) (q : Pwr) (a hi lo : Nat) : fld { w with pwr := q } a hi lo = fld w a hi lo := Eq.refl (fld w a hi lo)
  unfold dipEnd
  extract_lets now a z₁ z₂ det z₃ dips w z₄ z₅
  have hraise : z₄.pwr.raise = e.doms.foldl (fun m d => mapIns m d.1 (s.tense.toNat + 10000000000)) s.pwr.raise := by
    simp only [z₄, z₃, report_pwr, z₂, z₁, satFld, setFld_keeps, now]
  have hdip : z₄.pwr.dip = none := by simp only [z₄]
  have hstart : fld z₄ aPWR_DIP 47 0 = e.start % 2 ^ 48 := by
    simp only [z₄, hset, z₃]
    rw [fld_report _ _ _ _ _ _ _ _ _ (by decide) (by decide), fld_satFld_other _ _ _ _ _ _ _ _ (by decide),
      fld_setFld_apart _ _ _ (by decide) (by decide) (.inl (by decide)), fld_setFld_apart _ _ _ (by decide) (by decide) (.inl (by decide)),
      fld_setFld_same _ _ _ (by decide) (by decide)]
  have hcount : fld z₄ aPWR_STATUS 47 32 = satAdd 16 (fld s aPWR_STATUS 47 32) 1 := by
    have hne : aPWR_STATUS ≠ aPWR_DIP := by decide
    simp only [z₄, hset, z₃]
    rw [fld_report _ _ _ _ _ _ _ _ _ (by decide) (by decide), fld_satFld_same _ _ _ (by decide) (by decide)]
    simp only [z₁, a, fld, regGet_setFld_other _ _ _ _ _ _ hne]
  clear_value z₄
  have hpwr {β : Type} (g : Pwr → β) (hg : ∀ p, g { p with moves := [] } = g p) : g z₅.pwr = g z₄.pwr :=
    foldl_keep (fun s => g s.pwr) dipMark (fun s d => dipMark_pwr g hg s d) _ _
  have hfld (a hi lo : Nat) (h : a < 0x30400) : fld z₅ a hi lo = fld z₄ a hi lo :=
    foldl_keep (fun s => fld s a hi lo) dipMark (fun s d => fld_dipMark s d hi lo h) _ _
  have h₅ : z₅.pwr.dip = none ∧ z₅.pwr.raise = e.doms.foldl (fun m d => mapIns m d.1 (s.tense.toNat + 10000000000)) s.pwr.raise ∧
      fld z₅ aPWR_DIP 47 0 = e.start % 2 ^ 48 ∧ fld z₅ aPWR_STATUS 47 32 = satAdd 16 (fld s aPWR_STATUS 47 32) 1 := by
    rw [hpwr Pwr.dip fun _ => rfl, hpwr Pwr.raise fun _ => rfl, hfld _ _ _ (by decide), hfld _ _ _ (by decide)]
    exact ⟨hdip, hraise, hstart, hcount⟩
  clear_value z₅
  split
  · obtain ⟨hd, hr, hs, hc⟩ := h₅
    rw [report_pwr, fld_report _ _ _ _ _ _ _ _ _ (by decide) (by decide), fld_report _ _ _ _ _ _ _ _ _ (by decide) (by decide), setBitOf,
      fld_setFld_apart _ _ _ (by decide) (by decide) (.inr (by decide)), fld, regGet_setFld_other _ _ _ _ _ _ (by decide), ← fld]
    simp only [setFld_keeps]
    exact ⟨hd, hr, hs, hc⟩
  · exact h₅

/-! ### Calibration records (R577, R579) -/

theorem calShow_keeps (s : State) (sl : Nat) : (calShow s sl).nvm = s.nvm ∧ (calShow s sl).pwr = s.pwr := by
  simp only [calShow, setFld_keeps, and_self]

theorem loadClass_calShow (s : State) (sl : Nat) : loadClass (calShow s sl) sl = loadClass s sl := by
  unfold calShow loadClass
  dsimp only
  rw [fld_setFld_apart _ _ _ (by decide) (by decide) (.inl (by decide)), fld_setFld_apart _ _ _ (by decide) (by decide) (.inl (by decide)),
    fld_setFld_apart _ _ _ (by decide) (by decide) (.inl (by decide)), fld_setFld_apart _ _ _ (by decide) (by decide) (.inl (by decide)),
    fld_setFld_apart _ _ _ (by decide) (by decide) (.inl (by decide))]

/-- A state with another calibration record. -/
def calPut (s : State) (sl kind : Nat) (r : CalRec) : State := { s with nvm := { s.nvm with cal := mapIns s.nvm.cal (4 * sl + kind) r } }

theorem calRec_calPut (s : State) (sl kind : Nat) (r : CalRec) : calRec (calShow (calPut s sl kind r) sl) sl kind = some r := by
  rw [calRec, (calShow_keeps _ _).1]
  exact mapFind_mapIns_same _ _ _

/-- R579: a slice whose record is made stale is due for calibration. -/
def calStale (s : State) (sl kind : Nat) (r : CalRec) : State :=
  let s := calShow (calPut s sl kind r) sl
  if s.pwr.calDue.contains sl then s else { s with pwr := { s.pwr with calDue := s.pwr.calDue ++ [sl] } }

theorem calStale_facts (s : State) (sl kind : Nat) (r : CalRec) :
    calRec (calStale s sl kind r) sl kind = some r ∧ sl ∈ (calStale s sl kind r).pwr.calDue := by
  have hput := calRec_calPut s sl kind r
  unfold calStale
  extract_lets z p
  have hz : calRec z sl kind = some r := hput
  clear_value z
  split
  · next h => exact ⟨hz, by simpa using h⟩
  · exact ⟨hz, List.mem_append_right _ (List.mem_singleton.mpr rfl)⟩

/-! ### The statement -/

/-- A timed command on a unit that exists that finds nothing to do. -/
theorem idle_of_guarded {i : Instr} {s z : State} {ok : Bool} (hok : ok = true)
    (h : exec i s = guardUnit ok (ran s z)) : exec i s = .next { z with pending := s.pending } := by
  rw [exec_guarded hok h]
  rfl

theorem underQueue_spSame (q t : State) : SpSame t (underQueue q t) :=
  ⟨fun _ _ _ => rfl, rfl, rfl, rfl, rfl, rfl, rfl, rfl, rfl, rfl, rfl, fun _ _ _ => rfl⟩

theorem domOn_underQueue (q t : State) (d : Nat) : domOn (underQueue q t) d = domOn t d := by rw [domOn, fld_underQueue, domOn]

/-- Settles O50: each reading's step decides on the power state alone, and the set points are a function of what no step of theirs changes. -/
theorem powerFollowsReadings : Obligations.PowerFollowsReadings := by
  unfold Obligations.PowerFollowsReadings
  refine ⟨fun s now z z' steps over_ hz hdue => ?points, fun s now z steps over_ hz hdue => ?early, fun s now z z' doms h b hz hdue => ?estimate,
    fun s now z z' rs hz hdue => ?pmbus, fun s words hr => ?alert, fun s now z z' temps i good hz hdue hi hgood hne => ?sensors,
    fun s d a b tele now z z' hd hz hon hdue => ?rail, fun s now z e hz hdip hover => ?dipEnd, fun s d now z u hd hz hu => ?raise,
    fun s sl kind ok data now z r hsl hk hz hr hst hcls hat hdip => ?record⟩
  case points =>
    have hexec : exec (.setPointUpdate now steps over_) s = execSetPointUpdate now steps over_ s := rfl
    unfold execSetPointUpdate at hexec
    rw [← hz] at hexec
    dsimp only at hexec
    rw [hdue] at hexec
    dsimp only at hexec
    refine ⟨_, ran_next hexec, fun d hd hon => ?_, fun hov => ?_⟩
    · rw [domOn_underQueue] at hon
      rw [fld_underQueue, (underQueue_spSame _ _).spOf_eq, powerFlags_dvAll _ hd hon]
    · rw [fld_underQueue, powerFlags_held]
      simp only [hov, Bool.false_eq_true, if_false]
  case early =>
    have hexec : exec (.setPointUpdate now steps over_) s = execSetPointUpdate now steps over_ s := rfl
    unfold execSetPointUpdate at hexec
    rw [← hz] at hexec
    dsimp only at hexec
    rw [hdue] at hexec
    dsimp only at hexec
    exact idle_of_ran hz hexec
  case estimate =>
    have hexec : exec (.powerEstimate now doms h b) s = execPowerEstimate now doms h b s := rfl
    unfold execPowerEstimate at hexec
    rw [← hz] at hexec
    dsimp only at hexec
    rw [hdue] at hexec
    dsimp only at hexec
    obtain ⟨_, _, _, hcorr, hest, _⟩ := periodic_keeps hdue
    obtain ⟨hlist, hmean⟩ := estimate_facts z' doms (h + b)
    rw [hcorr, hest] at hlist
    refine ⟨_, ran_next hexec, ?_, ?_⟩
    · simp only [underQueue_keeps, hlist, Nat.cast_add]
    · simp only [fld_underQueue, underQueue_keeps, hmean]
  case pmbus =>
    have hexec : exec (.pmbusCorrection now rs) s = execPmbusCorrection now rs s := rfl
    unfold execPmbusCorrection at hexec
    rw [← hz] at hexec
    dsimp only at hexec
    rw [hdue] at hexec
    exact ⟨_, ran_next hexec, rfl⟩
  case alert =>
    have hexec : exec (.pmbusAlert words) s = execPmbusAlert words s := rfl
    unfold execPmbusAlert at hexec
    rw [hr, if_neg (by decide)] at hexec
    refine ⟨_, ran_next hexec, ?_⟩
    refine congrArg Pins.alert (foldl_keep State.pins _ (fun s x => ?_) _ _)
    dsimp only
    split
    · exact pmbusResult_pins _ _ _
    · exact pmbusResult_pins _ _ _
  case sensors =>
    have hexec : exec (.junctionSensorRead now temps) s = execJunctionSensorRead now temps s := rfl
    unfold execJunctionSensorRead at hexec
    rw [← hz] at hexec
    dsimp only at hexec
    rw [hdue] at hexec
    dsimp only at hexec
    refine ⟨_, ran_next hexec, ?_⟩
    obtain ⟨t, ts, hts⟩ := List.exists_cons_of_ne_nil hne
    rw [hts] at hgood ⊢
    simp only [underQueue_keeps]
    exact sensorSteps_shows z' (List.mem_range.mpr hi) hgood.symm
  case rail =>
    have hexec : exec (.railMonitorSample d a b tele now) s = ran s (railSample z' d a b tele) := by
      have h : exec (.railMonitorSample d a b tele now) s = execRailMonitorSample d a b tele now s := rfl
      unfold execRailMonitorSample at h
      rw [← hz] at h
      dsimp only at h
      rw [hon, hdue] at h
      exact exec_guarded (decide_eq_true hd) h
    obtain ⟨_, htense, hmoves, _, _, hseen, hdip⟩ := periodic_keeps hdue
    refine ⟨fun hbad => ⟨_, ran_next hexec, ?_⟩, fun hgood hin hnone => ⟨_, ran_next hexec, ?_⟩⟩
    · simp only [underQueue_keeps, railSample_mism z' hbad]
    · obtain ⟨hshow, hdips⟩ := railSample_seen (s := z') hgood (by rw [hseen]; exact hin) (by rw [hdip, hnone])
      have hwarn : warnLevel z' d = warnLevel z d := warnLevel_of_same (fld_of_regs (periodic_keeps hdue).1 _ _ _) hmoves htense
      refine ⟨(fld_underQueue _ _ _ _ _).trans hshow, ?_⟩
      simp only [underQueue_keeps, hdips, hwarn, htense]
  case dipEnd =>
    have hexec : exec (.dipEventEnd now) s = execDipEventEnd now s := rfl
    unfold execDipEventEnd at hexec
    rw [← hz] at hexec
    dsimp only at hexec
    rw [hdip] at hexec
    dsimp only at hexec
    rw [List.all_eq_true] at hover
    have hexec := hexec.trans (congrArg (ran z) (if_pos (List.all_eq_true.mpr fun x hx => (Bool.or_eq_true _ _).mpr (.inr (hover x hx)))))
    obtain ⟨hnone, hraise, hstart, hcount⟩ := dipEnd_facts z e
    refine ⟨_, ran_next hexec, ?_, ?_, ?_, fun d hd => ?_⟩
    · simp only [underQueue_keeps, hnone]
    · rw [fld_underQueue, hstart]
    · rw [fld_underQueue, hcount]
    · simp only [underQueue_keeps, hraise]
      exact mapFind_foldl_mapIns _ _ _ hd
  case raise =>
    have hexec : exec (.dipRaiseExpiry d now) s = execDipRaiseExpiry d now s := rfl
    unfold execDipRaiseExpiry at hexec
    rw [← hz] at hexec
    dsimp only at hexec
    rw [hu] at hexec
    dsimp only at hexec
    refine ⟨fun hwait => ?_, fun hpast => ?_⟩
    · rw [if_pos hwait] at hexec
      exact idle_of_guarded (decide_eq_true hd) hexec
    · rw [if_neg (by omega)] at hexec
      refine ⟨_, ran_next (exec_guarded (decide_eq_true hd) hexec), ?_⟩
      have hset (w : State) (q : Pwr) : fld { w with pwr := q } = fld w := Eq.refl (fld w)
      generalize hw : ({ z with pwr := { z.pwr with raise := mapDel z.pwr.raise d } } : State) = w
      have hwr : mapFind w.pwr.raise d = none := by rw [← hw]; exact mapFind_mapDel_same _ _
      have hclr : (clrBitOf w (aPWR_DOM d) 17).pwr = w.pwr := by simp only [clrBitOf_keeps]
      have h17 : fld (clrBitOf w (aPWR_DOM d) 17) (aPWR_DOM d) 17 17 = 0 := fld_clrBitOf_same _ _ _ (by decide)
      rw [fld_underQueue]
      simp only [underQueue_keeps]
      split
      · rw [dvSet_pwr (fun p => mapFind p.raise d) fun _ => rfl, hclr,
          fld_dvSet_apart _ _ _ (by decide) (by decide) (.inl (by decide)) (.inl (by decide))]
        exact ⟨hwr, h17⟩
      · rw [hclr]
        exact ⟨hwr, h17⟩
  case record =>
    have hexec : exec (.recordRevalidation sl kind ok data now) s = execRecordRevalidation sl kind ok data now s := rfl
    unfold execRecordRevalidation at hexec
    rw [← hz] at hexec
    dsimp only at hexec
    rw [hr] at hexec
    dsimp only at hexec
    rw [hst, decide_eq_true hcls, decide_eq_true hat, hdip, if_neg (by decide)] at hexec
    have hexec := exec_guarded (by simp [hsl, hk]) hexec
    refine ⟨_, ran_next hexec, fun hok => ?_, fun hbad => ?_⟩
    · rw [if_pos hok]
      exact calRec_calPut z sl kind { r with st := 0, cls := loadClass z sl, tense := z.tense.toNat, data := data }
    · rw [if_neg (ne_true_of_eq_false hbad)]
      exact calStale_facts z sl kind { r with st := 2 }

end Sys2Proof.Machine
end

section
/-! Maintenance activities, quick tests and remedies (R595, R599 to R606, R533). -/

namespace Sys2Proof.Machine

open Sys2Proof.Claims

/-! ### What the steps of maintenance leave of activities and descriptors -/

/-- Activities and descriptors. -/
def workSide (s : State) : List Act × Map Desc := (s.acts, s.descs)

theorem setFld_workSide (s : State) (off hi lo v : Nat) : workSide (setFld s off hi lo v) = workSide s := by simp only [workSide, setFld_keeps]

theorem report_workSide (s : State) (cls cause part slice unit : Nat) (d : List Nat) : workSide (report s cls cause part slice unit d) = workSide s :=
  (congrArg workSide (report_rest s cls cause part slice unit d) : workSide (rptRest _) = workSide (rptRest _))

theorem maintReport_workSide (s : State) (a : Act) (r : MaintRes) (e : Nat) : workSide (maintReport s a r e) = workSide s := report_workSide _ _ _ _ _ _ _

theorem unitOos_workSide (s : State) (sl u : Nat) (on : Bool) : workSide (unitOos s sl u on) = workSide s := by
  unfold unitOos
  split
  · exact setFld_workSide _ _ _ _ _
  · rfl

theorem trimSet_workSide (s : State) (sl u t : Nat) : workSide (trimSet s sl u t) = workSide s := by
  unfold trimSet
  dsimp only
  split
  · exact (setFld_workSide _ _ _ _ _).trans (setFld_workSide _ _ _ _ _)
  · exact setFld_workSide _ _ _ _ _

theorem withMoves_workSide (s : State) (m : Map (Nat × Nat)) : workSide (withMoves s m) = workSide s := rfl

theorem dvSet_workSide (s : State) (d sp : Nat) : workSide (dvSet s d sp) = workSide s := by
  obtain ⟨m, hm⟩ := dvSet_eq s d sp
  rw [hm, withMoves_workSide, dvRegs, setFld_workSide, setFld_workSide, setFld_workSide]

theorem domPower_workSide (s : State) (d : Nat) : workSide (domPower s d) = workSide s := (dvSet_workSide _ _ _).trans (setFld_workSide _ _ _ _ _)

theorem slicePower_workSide (s : State) (sl : Nat) : workSide (slicePower s sl) = workSide s :=
  (domPower_workSide _ _).trans ((domPower_workSide _ _).trans (domPower_workSide _ _))

/-- The activity as it begins. -/
def actBorn (s : State) (a : Act) : Act := { a with since := s.tense.toNat }

/-- R600: an activity that begins joins those under way. -/
theorem actBegin_workSide (s : State) (a : Act) : workSide (actBegin s a) = (s.acts ++ [actBorn s a], s.descs) := by
  unfold actBegin
  extract_lets b z
  have hz : workSide z = (s.acts ++ [actBorn s a], s.descs) := maintReport_workSide _ _ _ _
  clear_value z
  split
  · exact (unitOos_workSide _ _ _ _).trans hz
  · split
    · exact (slicePower_workSide _ _).trans hz
    · exact hz

/-- R604: the activity is out of service. -/
theorem actOut_workSide (s : State) (a : Act) : (actOut s a).acts = s.acts.map fun b => if b == a then { b with out := true } else b := by
  have hrun (z : State) (k : Nat) (f : Stack → Stack) : workSide (updStk z k f) = workSide z := Eq.refl (workSide z)
  unfold actOut
  extract_lets sl z z₁ c
  have hz : workSide z₁ = (s.acts.map fun b => if b == a then { b with out := true } else b, s.descs) :=
    foldl_keep workSide _ (fun s u => unitOos_workSide _ _ _ _) _ _
  clear_value z₁
  refine congrArg Prod.fst (?_ : workSide _ = (s.acts.map fun b => if b == a then { b with out := true } else b, s.descs))
  split
  · exact (dvSet_workSide _ _ _).trans ((dvSet_workSide _ _ _).trans hz)
  · split
    · rw [tgStart, setBitOf, setFld_workSide, hrun, setFld_workSide, setFld_workSide, hz]
    · exact hz

/-! ### Starts (R600, R533) -/

theorem maintDesc_facts {s : State} {d fm kind : Nat} {x : Desc} (h : maintDesc s d fm kind = some x) : mapFind s.descs d = some x := by
  unfold maintDesc at h
  split at h
  · next y hy =>
    cases (Option.ite_none_right_eq_some.mp h).2
    exact hy
  · cases h

theorem ran_atTime (s t : State) (now : Nat) : ran (atTime s now) t = ran s t := by rw [ran, atTime_pending, ran]

/-- A MAINT START whose descriptor may start is its start. -/
theorem exec_maintStart {s z : State} {d sl now kind : Nat} {i : Instr} {x : Desc} (hz : z = atTime s now)
    (hi : (kind, i) ∈ [(maSTRESS, Instr.maintStartStress d sl now), (maCALIBRATE, .maintStartCalibrate d sl now),
      (maSTACK_TEST, .maintStartStackTest d sl now), (maSCRUB, .maintStartScrub d now), (maUNIT_TEST, .maintStartUnitTest d now)])
    (hfree : (z.acts.find? fun a => a.kind == kind && a.slice == sl && !a.out) = none) (hx : maintDesc z d 0 kind = some x) :
    exec i s = ran s (maintStart z d kind x) := by
  have hstep : maintStep z d sl kind = maintStart z d kind x := by
    unfold maintStep
    rw [hfree, hx]
  simp only [List.mem_cons, Prod.mk.injEq, List.not_mem_nil, or_false] at hi
  rcases hi with ⟨rfl, rfl⟩ | ⟨rfl, rfl⟩ | ⟨rfl, rfl⟩ | ⟨rfl, rfl⟩ | ⟨rfl, rfl⟩
  · rw [← hstep, hz]; rfl
  · rw [← hstep, hz]; rfl
  · rw [← hstep, hz]; rfl
  · have hexec : exec (.maintStartScrub d now) s = execMaintStartScrub d now s := rfl
    unfold execMaintStartScrub at hexec
    rw [← hz] at hexec
    dsimp only at hexec
    rw [hx] at hexec
    rw [hexec, hz, ran_atTime]
  · have hexec : exec (.maintStartUnitTest d now) s = execMaintStartUnitTest d now s := rfl
    unfold execMaintStartUnitTest at hexec
    rw [← hz] at hexec
    dsimp only at hexec
    rw [hx] at hexec
    rw [hexec, hz, ran_atTime]

theorem maintStart_scope {s : State} {d kind : Nat} {x : Desc} (h : dNat x 0x11 1 ∉ partSlices s x.part) :
    maintStart s d kind x = descEnd s d stMAINT_SCOPE 0 0 := by
  unfold maintStart
  dsimp only
  rw [if_pos (by simpa using h)]

/-- The unit that a MAINT START names. -/
def maintUnit (kind : Nat) (b : List Byte) : Nat := if kind = maUNIT_TEST then bNat b 2 1 else 0xFF

/-- The activity that a MAINT START asks for. -/
def maintAsked (kind : Nat) (x : Desc) (b : List Byte) : Act :=
  { kind := kind, slice := dNat x 0x11 1, unit := maintUnit kind b, part := x.part, result := some (dNat x 0x20 8)
    conj := some (bNat b 0 2 % 2 ^ 14), tg := bNat b 8 8 }

/-- R533: a start whose parameters are read: it takes its share of the slice's token or is refused. -/
theorem maintStart_read {s s₁ : State} {d kind : Nat} {x : Desc} {b : List Byte} (hx : mapFind s.descs d = some x)
    (hs₁ : s₁ = updDesc s d (fun y => { y with st := .running })) (hin : dNat x 0x11 1 ∈ partSlices s x.part) (hpa : arSpad (dNat x 0x18 8) = false)
    (hra : arSpad (dNat x 0x20 8) = false) (hb : auxBytes x = b) (hlen : b.length = 16)
    (harea : areaCheck s₁ (8 * x.part) 48 (dNat x 0x20 8) 64 0 true = none) (hunit : kind = maUNIT_TEST → bNat b 2 1 < 18) :
    maintStart s d kind x =
      if !tokenOk s₁ kind (dNat x 0x11 1) (maintUnit kind b) then descEnd s₁ d stMAINT_BUSY 0 0
      else
        let z := actBegin s₁ (maintAsked kind x b)
        descEnd (if kind = 5 ∧ bit (bNat b 3 1) 7 then trimSet z (dNat x 0x11 1) (maintUnit kind b) (bNat b 3 1 % 16) else z) d stOK 0 0 := by
  have hfind : mapFind s₁.descs d = some { x with st := .running } := by rw [hs₁, mapFind_updDesc_same hx]
  have haux : auxBytes { x with st := .running } = b := hb
  unfold maintStart
  dsimp only
  rw [if_neg (by simpa using hin), if_neg (by rw [hpa, hra]; decide), ← hs₁, gatherParts, hfind]
  dsimp only
  rw [haux, if_neg (by omega)]
  dsimp only
  rw [harea]
  dsimp only
  rw [if_neg]
  · rfl
  · rintro ⟨hk, hu⟩
    rw [if_pos hk] at hu
    exact absurd (hunit hk) (by omega)

/-- R533: a start that is granted. -/
theorem maintGranted {s₁ : State} {d kind : Nat} {x y : Desc} {b : List Byte} (hfind : mapFind s₁.descs d = some y) (trim : State → State)
    (htrim : ∀ z, workSide (trim z) = workSide z) :
    endsAs (descEnd (trim (actBegin s₁ (maintAsked kind x b))) d stOK 0 0) d stOK 0 0 ∧
    (descEnd (trim (actBegin s₁ (maintAsked kind x b))) d stOK 0 0).acts = s₁.acts ++ [actBorn s₁ (maintAsked kind x b)] := by
  have hside : workSide (trim (actBegin s₁ (maintAsked kind x b))) = (s₁.acts ++ [actBorn s₁ (maintAsked kind x b)], s₁.descs) :=
    (htrim _).trans (actBegin_workSide _ _)
  generalize trim (actBegin s₁ (maintAsked kind x b)) = w at hside
  obtain ⟨hacts, hdescs⟩ := Prod.mk.inj hside
  refine ⟨endsAs_descEnd (x := y) (by rw [hdescs]; exact hfind) _ _ _, ?_⟩
  simp only [descEnd_keeps]
  exact hacts

/-! ### Quick tests (R600) -/

/-- A report of a unit leaves its health field. -/
theorem fld_report_unit (s : State) (cls cause part sl u : Nat) (d : List Nat) (v : Nat) {hi lo : Nat} (hv : sl < 12 ∧ v < 18) (h : hi < 16) :
    fld (report s cls cause part sl u d) (aRAS_UNIT sl v) hi lo = fld s (aRAS_UNIT sl v) hi lo := by
  have hne : aRAS_UNIT sl v ≠ aRAS_RPT_STATUS := by unfold aRAS_UNIT aRAS_RPT_STATUS; omega
  have hsave (z : State) (a b : Nat) : fld (unitSave z a b) = fld z := Eq.refl (fld z)
  unfold report
  dsimp only
  rw [fld, regGet_postRpt _ _ hne, ← fld]
  split
  · rw [hsave]
    by_cases huv : v = u
    · rw [huv, satFld, fld_setFld_apart _ _ _ (by decide) (by omega) (.inl h)]
    · exact fld_satFld_other _ _ _ _ _ _ _ _ (by unfold aRAS_UNIT; omega)
  · rfl

theorem fld_unitOos (s : State) (sl u : Nat) (on : Bool) {a : Nat} (hi lo : Nat) (h : a < 0x100000) : fld (unitOos s sl u on) a hi lo = fld s a hi lo := by
  unfold unitOos
  split
  · next b hb => exact fld_setFld_other _ _ _ _ _ _ _ _ (by have := unitStatus_ge hb; omega)
  · rfl

theorem fld_maintReport_unit (s : State) (a : Act) (r : MaintRes) (e v : Nat) {hi lo : Nat} (hv : a.slice < 12 ∧ v < 18) (h : hi < 16) :
    fld (maintReport s a r e) (aRAS_UNIT a.slice v) hi lo = fld s (aRAS_UNIT a.slice v) hi lo :=
  fld_report_unit _ _ _ _ _ _ _ _ hv h

/-- R595: a unit that is retired shows it. -/
theorem fld_unitRetire (s : State) {sl u : Nat} (hsl : sl < 12) (hu : u < 18) : fld (unitRetire s sl u) (aRAS_UNIT sl u) 1 0 = 2 := by
  have hsave (z : State) (a b : Nat) : fld (unitSave z a b) = fld z := Eq.refl (fld z)
  have hlow : aRAS_UNIT sl u < 0x100000 := by unfold aRAS_UNIT; omega
  unfold unitRetire healthNote
  dsimp only
  rw [hsave, fld_report_unit _ _ _ _ _ _ _ _ ⟨hsl, hu⟩ (by decide), fld_unitOos _ _ _ _ _ _ hlow, fld_setFld_same _ _ _ (by decide) (by decide)]
  rfl

theorem aRAS_UNIT_inj (sl : Nat) {u v : Nat} (h : v ≠ u) : aRAS_UNIT sl v ≠ aRAS_UNIT sl u := by unfold aRAS_UNIT; omega

/-- R600: every unit of a list is marked for a test. -/
theorem fld_setBits8 (sl : Nat) (l : List Nat) (s : State) {v : Nat} (h : v ∈ l) :
    fld (l.foldl (fun s v => setBitOf s (aRAS_UNIT sl v) 8) s) (aRAS_UNIT sl v) 8 8 = 1 := by
  have hstays (l : List Nat) (s : State) (h : fld s (aRAS_UNIT sl v) 8 8 = 1) :
      fld (l.foldl (fun s v => setBitOf s (aRAS_UNIT sl v) 8) s) (aRAS_UNIT sl v) 8 8 = 1 := by
    induction l generalizing s with
    | nil => exact h
    | cons x r ih =>
      refine ih _ ?_
      by_cases hx : v = x
      · rw [hx, fld_setBitOf_same _ _ _ (by decide)]
      · exact (fld_setFld_other _ _ _ _ _ _ _ _ (aRAS_UNIT_inj sl hx)).trans h
  induction l generalizing s with
  | nil => exact absurd h List.not_mem_nil
  | cons x r ih =>
    rcases List.mem_cons.mp h with rfl | h
    · exact hstays r _ (fld_setBitOf_same _ _ _ (by decide))
    · exact ih _ h

/-! ### Remedies (R601, R602) -/

theorem stressTest_bounds (fuse : Nat) (r : Remedy) (m : Nat) (ht : r.trim ≤ min 15 (fuse + 3)) (ho : r.off ≤ 2) :
    (stressTest fuse r m).trim ≤ min 15 (fuse + 3) ∧ (stressTest fuse r m).off ≤ 2 := by
  unfold stressTest
  split
  · exact ⟨ht, ho⟩
  · split
    · exact ⟨ht, ho⟩
    · split
      · exact ⟨ht, ho⟩
      · extract_lets longer higher q
        have hq : q.trim ≤ min 15 (fuse + 3) ∧ q.off ≤ 2 := by
          constructor
          · simp only [q]
            split
            · next h =>
              have hl : r.trim < min 15 (fuse + 3) := of_decide_eq_true (Bool.and_eq_true_iff.mp h).2
              exact hl
            · exact ht
          · simp only [q]
            split
            · next h =>
              have hl : r.off < 2 := of_decide_eq_true (Bool.and_eq_true_iff.mp h).2
              exact hl
            · exact ho
        split
        · exact hq
        · exact hq

/-! ### The statement -/

/-- Settles O52: every step of maintenance changes activities and descriptors only as its activity's start and end say. -/
theorem maintenanceRuns : Obligations.MaintenanceRuns := by
  unfold Obligations.MaintenanceRuns
  refine ⟨fun s d sl now z kind i x b s₁ hz hs₁ hi hfree hx => ?start, fun s d sl now z kind i a hz hi ha => ?evacuate,
    fun s d now z x hz hx hst hty hfm => ?stop, fun s kind sl now tests reps data errs z hz => ?ended, fun s sl u now pass z hsl hu hz hq htok hbusy hon => ?quick,
    fun s sl now z hsl hz hready hpwr hdue htok => ?stress, fun fuse r tests ht ho => ?remedy⟩
  case start =>
    have hexec := exec_maintStart hz hi hfree hx
    have hfind := maintDesc_facts hx
    refine ⟨fun hout => ?_, fun hin hpa hra hb hlen harea hunit => ?_⟩
    · rw [maintStart_scope hout] at hexec
      exact ⟨_, ran_next hexec, endsAs_ran_descEnd hfind _ _ _ _⟩
    · have hfind₁ : mapFind s₁.descs d = some { x with st := .running } := by rw [hs₁, mapFind_updDesc_same hfind]
      have hacts : s₁.acts = z.acts := by
        rw [hs₁, updDesc_of_find hfind]
      have htense : s₁.tense = z.tense := by
        rw [hs₁, updDesc_of_find hfind]
      have htoken : tokenOk s₁ kind (dNat x 0x11 1) (maintUnit kind b) = tokenOk z kind (dNat x 0x11 1) (maintUnit kind b) := by
        rw [tokenOk, hacts, tokenOk]
      rw [maintStart_read hfind hs₁ hin hpa hra hb hlen harea hunit, htoken] at hexec
      refine ⟨fun hno => ?_, fun hyes => ?_⟩
      · rw [if_pos (by rw [maintUnit, hno]; rfl)] at hexec
        refine ⟨_, ran_next hexec, endsAs_ran_descEnd hfind₁ _ _ _ _, ?_⟩
        simp only [underQueue_keeps, descEnd_keeps, hacts]
      · rw [if_neg (by rw [maintUnit, hyes]; decide)] at hexec
        obtain ⟨hends, hjoin⟩ := maintGranted (kind := kind) (x := x) (b := b) hfind₁
          (fun w => if kind = 5 ∧ bit (bNat b 3 1) 7 then trimSet w (dNat x 0x11 1) (maintUnit kind b) (bNat b 3 1 % 16) else w)
          (fun w => by
            split
            · exact trimSet_workSide _ _ _ _
            · rfl)
        refine ⟨_, actBorn s₁ (maintAsked kind x b), ran_next hexec, hends, ?_, rfl, rfl, rfl, rfl, ?_, rfl⟩
        · rw [← hacts]
          exact hjoin
        · rw [actBorn, htense]
  case evacuate =>
    have hexec : exec i s = ran s (actEvac z a) := by
      have hstep : maintStep z d sl kind = actEvac z a := by
        unfold maintStep
        rw [ha]
      simp only [List.mem_cons, Prod.mk.injEq, List.not_mem_nil, or_false] at hi
      rcases hi with ⟨rfl, rfl⟩ | ⟨rfl, rfl⟩ | ⟨rfl, rfl⟩
      · rw [← hstep, hz]; rfl
      · rw [← hstep, hz]; rfl
      · rw [← hstep, hz]; rfl
    unfold actEvac at hexec
    refine ⟨fun hwait => ?_, fun y hdone hmem => ?_⟩
    · rw [hwait] at hexec
      rw [hexec, ran]
    · rw [hdone] at hexec
      refine ⟨_, ran_next hexec, ?_⟩
      simp only [underQueue_keeps, actOut_workSide]
      exact List.mem_map.mpr ⟨a, hmem, if_pos (beq_self_eq_true a)⟩
  case stop =>
    have hexec : exec (.maintEnd d now) s = execMaintEnd d now s := rfl
    unfold execMaintEnd at hexec
    rw [← hz] at hexec
    dsimp only at hexec
    rw [hx] at hexec
    dsimp only at hexec
    rw [hst, hty, hfm, if_neg (by decide)] at hexec
    refine ⟨fun hout => ?_, fun hin hnone => ?_, fun a hin ha hk => ?_⟩
    · rw [if_pos (by simpa using hout)] at hexec
      exact ⟨_, ran_next hexec, endsAs_ran_descEnd hx _ _ _ _⟩
    · rw [if_neg (by simpa using hin), hnone] at hexec
      exact ⟨_, ran_next hexec, endsAs_ran_descEnd hx _ _ _ _⟩
    · rw [if_neg (by simpa using hin), ha] at hexec
      dsimp only at hexec
      rw [if_neg (fun h => hk h.1)] at hexec
      rw [hexec, hz, ran_atTime, ran]
  case ended =>
    have hexec : exec (.activityEnd kind sl now tests reps data errs) s = execActivityEnd kind sl now tests reps data errs s := rfl
    unfold execActivityEnd at hexec
    rw [← hz] at hexec
    dsimp only at hexec
    refine ⟨fun hnone => ?_, fun a ha hk herrs => ?_, fun a ha hk hreps => ?_⟩
    · rw [hnone] at hexec
      exact idle_of_ran hz hexec
    · rw [ha, hk, herrs] at hexec
      rw [hk, herrs, hexec, hz, ran_atTime, ran]
      rfl
    · rw [ha, hk] at hexec
      obtain ⟨r, hr, h4⟩ := hreps
      have hany : reps.any (4 ≤ ·) = true := List.any_eq_true.mpr ⟨r, hr, decide_eq_true h4⟩
      have hend : stressEnd z a tests reps = actEnd z a { status := mrDIP_ABANDON, repeats := min 65535 reps.sum } := if_pos hany
      have hexec : exec (.activityEnd 1 sl now tests reps data errs) s = ran z (stressEnd z a tests reps) := hexec
      rw [hk, hexec, hend, hz, ran_atTime, ran]
  case quick =>
    have hexec : exec (.quickTest sl u now pass) s = execQuickTest sl u now pass s := rfl
    unfold execQuickTest at hexec
    rw [← hz] at hexec
    dsimp only at hexec
    rw [if_neg (by simp [hq, htok, hbusy, hon])] at hexec
    refine ⟨_, ran_next (exec_guarded (by simp [hsl, hu]) hexec), fun hfail => ?_, fun hpass v hv => ?_⟩
    · rw [fld_underQueue]
      refine (fld_maintReport_unit _ { kind := 5, slice := sl, unit := u, since := z.tense.toNat - 1000000 } _ _ u ⟨hsl, hu⟩ (by decide)).trans ?_
      rw [if_pos (by rw [hfail]; rfl)]
      exact fld_unitRetire _ hsl hu
    · have hlow : aRAS_UNIT sl v < 0x100000 := by unfold aRAS_UNIT; omega
      rw [fld_underQueue]
      refine (fld_maintReport_unit _ { kind := 5, slice := sl, unit := u, since := z.tense.toNat - 1000000 } _ _ v ⟨hsl, hv⟩ (by decide)).trans ?_
      rw [if_neg (by rw [hpass]; decide), unitReturn, fld_unitOos _ _ _ _ _ _ hlow]
      exact fld_setBits8 _ _ _ (List.mem_range.mpr hv)
  case stress =>
    have hexec : exec (.scheduledStress sl now) s = execScheduledStress sl now s := rfl
    unfold execScheduledStress at hexec
    rw [← hz] at hexec
    dsimp only at hexec
    rw [hready, hpwr, hdue, htok, if_pos (by decide)] at hexec
    refine ⟨_, actBorn z { kind := 1, slice := sl }, ran_next (exec_guarded (decide_eq_true hsl) hexec), ?_, rfl, rfl⟩
    simp only [underQueue_keeps]
    exact congrArg Prod.fst (actBegin_workSide z { kind := 1, slice := sl })
  case remedy =>
    induction tests generalizing r with
    | nil => exact ⟨ht, ho⟩
    | cons m tests ih =>
      obtain ⟨ht', ho'⟩ := stressTest_bounds fuse r m ht ho
      exact ih _ ht' ho'

end Sys2Proof.Machine
end

section
/-! Collective descriptors and groups (R408, R417, R423, R427). -/

namespace Sys2Proof.Machine

open Sys2Proof.Claims

/-- A COLLECTIVE descriptor that may start acts for its context. -/
theorem collCmd_eq {s : State} {d fm c : Nat} {x : Desc} (hx : descReady s d dtCOLLECTIVE fm = some x) (hc : dCtx s x = some c)
    (f : State → Desc → Nat → State) : collCmd s d fm f = f s x c := by
  unfold collCmd
  rw [hx]
  dsimp only
  rw [hc]

theorem withGroup_none {s : State} {d c : Nat} {x : Desc} (h : groupOf s (65536 * c + dNat x 0x18 2) = none) (f : State → Nat → Group → State) :
    withGroup s d x c f = descEnd s d stGROUP_INVALID 0 0 := by
  unfold withGroup
  dsimp only
  rw [h]

theorem withGroup_some {s : State} {d c gk : Nat} {x : Desc} {g : Group} (hk : gk = 65536 * c + dNat x 0x18 2) (h : groupOf s gk = some g)
    (f : State → Nat → Group → State) : withGroup s d x c f = f s gk g := by
  unfold withGroup
  dsimp only
  rw [← hk, h]

theorem auditCore_keeps (s : State) (kind part addr detail value : Nat) :
    (auditCore s kind part addr detail value).groups = s.groups ∧ (auditCore s kind part addr detail value).descs = s.descs ∧
    (auditCore s kind part addr detail value).handles = s.handles := by
  have keep {β : Type} (g : State → β) (hg : ∀ z, g (logRest z) = g z) : g (auditCore s kind part addr detail value) = g s :=
    (hg _).symm.trans ((congrArg g (auditCore_logRest s kind part addr detail value)).trans (hg s))
  exact ⟨keep State.groups fun _ => rfl, keep State.descs fun _ => rfl, keep State.handles fun _ => rfl⟩

/-- R560: what a write of the handle table leaves. -/
theorem handleSet_keeps (s : State) (k h : Nat) (e : HandleEnt) :
    (handleSet s k h e).groups = s.groups ∧ (handleSet s k h e).descs = s.descs ∧
    (handleSet s k h e).handles = mapSet .none s.handles (1024 * k + h) e := by
  unfold handleSet
  rw [(auditCore_keeps _ _ _ _ _ _).1, (auditCore_keeps _ _ _ _ _ _).2.1, (auditCore_keeps _ _ _ _ _ _).2.2]
  exact ⟨rfl, rfl, rfl⟩

theorem mapFind_of_endSide {s t : State} {d : Nat} {x : Desc} (h : endSide t = endSide s) (hx : mapFind s.descs d = some x) :
    ∃ y, mapFind t.descs d = some y := by
  refine Option.isSome_iff_exists.mp ?_
  have hsome : (mapFind t.descs d).isSome = (mapFind s.descs d).isSome := congrFun (congrArg Prod.snd h) d
  rw [hsome, hx]
  rfl

/-- A command whose effect keeps the descriptors that are there ends its own. -/
theorem endsAs_ran_endSide {s t : State} {d : Nat} {x : Desc} (q : State) (h : endSide t = endSide s) (hx : mapFind s.descs d = some x) (st dt r : Nat) :
    endsAs (underQueue q (descEnd t d st dt r)) d st dt r := by
  obtain ⟨y, hy⟩ := mapFind_of_endSide h hx
  exact endsAs_ran_descEnd hy q st dt r

/-! ### The end of a generation (R423) -/

theorem collFail_idle {s : State} {gk : Nat} (cause seg : Nat) {g : Group} (h : groupOf s gk = some g) (hrun : g.run = none) :
    collFail s gk cause seg = s := by
  have habort (rank : Nat) : collAbort s gk cause rank seg none = s := by
    unfold collAbort
    rw [h]
    dsimp only
    rw [hrun]
  unfold collFail
  rw [h]
  exact habort _

/-- R423: a generation that is over leaves its group. -/
theorem groupOf_runOver (s : State) (gk : Nat) (g : Group) (r : RRun) (status acause origin : Nat) (cl : RDone) :
    groupOf (runOver s gk g r status acause origin cl) gk = some { g with run := none, counts := [] } := groupOf_setGroup_same _ _ _

theorem groupOf_collFail {s : State} {gk : Nat} (cause seg : Nat) {g : Group} (h : groupOf s gk = some g) (hrun : g.run.isSome = true) :
    groupOf (collFail s gk cause seg) gk = some { g with run := none, aborted := some g.gen, counts := [] } := by
  obtain ⟨r, hr⟩ := Option.isSome_iff_exists.mp hrun
  have habort (rank : Nat) : groupOf (collAbort s gk cause rank seg none) gk = some { g with run := none, aborted := some g.gen, counts := [] } := by
    unfold collAbort
    rw [h]
    dsimp only
    rw [hr]
    exact groupOf_runOver _ _ _ _ _ _ _ _
  unfold collFail
  rw [h]
  exact habort _

/-! ### The parts of a group's operations -/

theorem noteGroups_keeps (s : State) : (noteGroups s).groups = s.groups ∧ (noteGroups s).descs = s.descs := by
  simp only [noteGroups, setFld_keeps, and_self]

theorem groupOf_groupFree {s : State} {gk : Nat} {g : Group} (h : groupOf s gk = some g) : groupOf (groupFree s gk) gk = none := by
  unfold groupFree
  rw [h]
  dsimp only
  rw [groupOf, (noteGroups_keeps _).1]
  exact mapFind_mapDel_same _ _

/-- R417: what a bound group and its handle show. -/
theorem bindTo_facts (s : State) (gk k h : Nat) (g : Group) (e : HandleEnt) :
    (handleSet (setGroup s gk g) k h e).descs = s.descs ∧ groupOf (handleSet (setGroup s gk g) k h e) gk = some g ∧
    mapGet .none (handleSet (setGroup s gk g) k h e).handles (1024 * k + h) = e := by
  obtain ⟨hgroups, hdescs, hhandles⟩ := handleSet_keeps (setGroup s gk g) k h e
  refine ⟨hdescs, ?_, ?_⟩
  · rw [groupOf, hgroups]
    exact mapFind_mapIns_same _ _ _
  · rw [hhandles, mapGet_mapSet_same]

/-- R408: a SETUP whose record and peer table are read. -/
theorem collSetup_read {s : State} {d c : Nat} {x : Desc} {b p : List Byte} {po hd : Bool} (hb : auxBytes x = b) (hne : b ≠ [])
    (hrsv : arRsv (leNat ((b.drop 0x28).take 8)) = false)
    (hpeers : areaGather s c 48 (leNat ((b.drop 0x28).take 8)) 144 (dKey x) (.desc d) = (s, .done p po hd)) :
    collSetup s d x c = groupSetup s d c b p (dNat x 0x10 8) := by
  have haux : x.aux.isEmpty = false := by
    rw [List.isEmpty_eq_false_iff]
    intro h
    exact hne (by rw [← hb, auxBytes, h]; rfl)
  unfold collSetup
  dsimp only
  rw [haux, if_neg (by decide), hb]
  unfold collSetup.readPeers
  dsimp only
  rw [hrsv, if_neg (by decide), hpeers]

/-! ### The statement -/

/-- Settles O37: each operation of a COLLECTIVE descriptor, by the state of its group. -/
theorem collectiveOperations : Obligations.CollectiveOperations := by
  unfold Obligations.CollectiveOperations
  refine ⟨fun s d now fm i x c hi hx hc hs hg => ?unset, fun s d x c b p po hd g hx hc hb hne hrsv hpeers hg => ?setup,
    fun s d now z x c gk g hz hx hc hgk hg => ?launch, fun s d x c gk g h hx hc hgk hg hh hbound hfree => ?bind,
    fun s d x c gk g hx hc hgk hg hrun => ?unbind, fun s d x c gk g hx hc hgk hg => ?abort, fun s d x c gk g hx hc hgk hg => ?release,
    fun s d x c hx hc => ?route⟩
  case unset =>
    have hfind := mapFind_of_descReady hx
    rw [← hs] at hx hc hfind
    have hexec : exec i s = ran s (descEnd s d stGROUP_INVALID 0 0) := by
      simp only [List.mem_cons, Prod.mk.injEq, List.not_mem_nil, or_false] at hi
      rcases hi with ⟨rfl, rfl⟩ | ⟨rfl, rfl⟩ | ⟨rfl, rfl⟩ | ⟨rfl, rfl⟩ | ⟨rfl, rfl⟩
      · have hexec : exec (.collectiveLaunch d now) s = execCollectiveLaunch d now s := rfl
        rw [hexec, execCollectiveLaunch, ← hs, collCmd_eq hx hc, withGroup_none hg]
      · have hexec : exec (.collectiveBind d) s = execCollectiveBind d s := rfl
        rw [hexec, execCollectiveBind, collCmd_eq hx hc, withGroup_none hg]
      · have hexec : exec (.collectiveUnbind d) s = execCollectiveUnbind d s := rfl
        rw [hexec, execCollectiveUnbind, collCmd_eq hx hc, withGroup_none hg]
      · have hexec : exec (.collectiveAbort d) s = execCollectiveAbort d s := rfl
        rw [hexec, execCollectiveAbort, collCmd_eq hx hc, withGroup_none hg]
      · have hexec : exec (.collectiveRelease d) s = execCollectiveRelease d s := rfl
        rw [hexec, execCollectiveRelease, collCmd_eq hx hc, withGroup_none hg]
    refine ⟨_, ran_next hexec, endsAs_ran_descEnd hfind _ _ _ _, ?_⟩
    simp only [underQueue_keeps, descEnd_keeps]
  case setup =>
    have hfind := mapFind_of_descReady hx
    have hexec : exec (.collectiveSetup d) s = ran s (groupSetup s d c b p (dNat x 0x10 8)) := by
      have hexec : exec (.collectiveSetup d) s = execCollectiveSetup d s := rfl
      rw [hexec, execCollectiveSetup, collCmd_eq hx hc, collSetup_read hb hne hrsv hpeers]
    unfold groupSetup at hexec
    dsimp only at hexec
    rw [← hg] at hexec
    refine ⟨fun hbad => ?_, fun hal hok hnone hroom => ?_⟩
    · rw [if_pos hbad] at hexec
      refine ⟨_, ran_next hexec, endsAs_ran_descEnd hfind _ _ _ _, ?_⟩
      simp only [underQueue_keeps, descEnd_keeps]
    · rw [if_neg (by simp [hal, hok, hnone]), if_neg (by omega)] at hexec
      obtain ⟨hgroups, hdescs⟩ := noteGroups_keeps (setGroup s (gKey g) g)
      refine ⟨_, ran_next hexec, endsAs_ran_descEnd (x := x) (by rw [hdescs]; exact hfind) _ _ _ _, ?_⟩
      simp only [groupOf_underQueue, groupOf_descEnd]
      rw [groupOf, hgroups]
      exact groupOf_setGroup_same _ _ _
  case launch =>
    have hexec : exec (.collectiveLaunch d now) s = execCollectiveLaunch d now s := rfl
    rw [execCollectiveLaunch, ← hz, collCmd_eq hx hc, withGroup_some hgk hg] at hexec
    refine ⟨fun hbusy => ?_, fun hrun hbound => ?_⟩
    · rw [if_pos (by simpa using hbusy)] at hexec
      refine ⟨_, ran_next hexec, endsAs_ran_descEnd (mapFind_of_descReady hx) _ _ _ _, ?_⟩
      simp only [underQueue_keeps, descEnd_keeps, hz, atTime_keeps]
    · rw [hrun, hbound, if_neg (by decide)] at hexec
      exact hexec
  case bind =>
    have hexec : exec (.collectiveBind d) s = execCollectiveBind d s := rfl
    rw [execCollectiveBind, collCmd_eq hx hc, withGroup_some hgk hg] at hexec
    dsimp only at hexec
    rw [hbound, if_neg (by decide), ← hh, hfree] at hexec
    dsimp only at hexec
    obtain ⟨hdescs, hgroup, hhandle⟩ := bindTo_facts s gk x.part h { g with bound := some h, counts := [] } (.cont gk)
    refine ⟨_, ran_next hexec, endsAs_ran_descEnd (x := x) (by rw [hdescs]; exact mapFind_of_descReady hx) _ _ _ _, ?_, ?_⟩
    · rw [groupOf_underQueue, groupOf_descEnd, hgroup]
    · simp only [underQueue_keeps, descEnd_keeps, hhandle]
  case unbind =>
    have hexec : exec (.collectiveUnbind d) s = execCollectiveUnbind d s := rfl
    rw [execCollectiveUnbind, collCmd_eq hx hc, withGroup_some hgk hg, hrun, if_neg (by decide)] at hexec
    refine ⟨fun hbound => ?_, fun hother => ?_⟩
    · rw [if_neg (by rw [hbound]; exact fun h => h rfl), unbind, hbound] at hexec
      dsimp only at hexec
      obtain ⟨hdescs, hgroup, hhandle⟩ := bindTo_facts s gk (g.cid / 8) (dNat x 0x1A 2) { g with bound := none, counts := [] } .none
      refine ⟨_, ran_next hexec, endsAs_ran_descEnd (x := x) (by rw [hdescs]; exact mapFind_of_descReady hx) _ _ _ _, ?_, ?_⟩
      · rw [groupOf_underQueue, groupOf_descEnd, hgroup]
      · simp only [underQueue_keeps, descEnd_keeps, hhandle]
    · rw [if_pos hother] at hexec
      refine ⟨_, ran_next hexec, endsAs_ran_descEnd (mapFind_of_descReady hx) _ _ _ _, ?_⟩
      simp only [underQueue_keeps, descEnd_keeps]
  case abort =>
    have hexec : exec (.collectiveAbort d) s = execCollectiveAbort d s := rfl
    rw [execCollectiveAbort, collCmd_eq hx hc, withGroup_some hgk hg] at hexec
    refine ⟨_, ran_next hexec, endsAs_ran_endSide s (collFail_endSide _ _ _ _) (mapFind_of_descReady hx) _ _ _, fun hrun => ?_, fun hrun => ?_⟩
    · rw [groupOf_underQueue, groupOf_descEnd, collFail_idle _ _ hg hrun, hg]
    · rw [groupOf_underQueue, groupOf_descEnd, groupOf_collFail _ _ hg hrun]
  case release =>
    have hexec : exec (.collectiveRelease d) s = execCollectiveRelease d s := rfl
    rw [execCollectiveRelease, collCmd_eq hx hc, withGroup_some hgk hg] at hexec
    refine ⟨fun hrun => ?_, fun hrun => ?_⟩
    · rw [hrun, if_neg (by decide)] at hexec
      refine ⟨_, ran_next hexec, endsAs_ran_endSide s (groupFree_endSide _ _) (mapFind_of_descReady hx) _ _ _, ?_⟩
      rw [groupOf_underQueue, groupOf_descEnd, groupOf_groupFree hg]
    · rw [if_pos hrun] at hexec
      refine ⟨_, ran_next hexec, endsAs_ran_descEnd (mapFind_of_descReady hx) _ _ _ _, ?_⟩
      simp only [underQueue_keeps, descEnd_keeps]
  case route =>
    have hexec : exec (.collectiveRoute d) s = execCollectiveRoute d s := rfl
    rw [execCollectiveRoute, collCmd_eq hx hc] at hexec
    dsimp only at hexec
    obtain ⟨hgroups, hdescs, hhandles⟩ := handleSet_keeps s x.part (dNat x 0x1A 2) (if bit (dNat x 0x1F 1) 1 then .none else
      .route (dNat x 0x1C 2) (dNat x 0x1E 1) (bit (dNat x 0x1F 1) 0) (dNat x 0x20 2 % 2 ^ 14))
    refine ⟨_, ran_next hexec, endsAs_ran_descEnd (x := x) (by rw [hdescs]; exact mapFind_of_descReady hx) _ _ _ _, ?_, ?_⟩
    · simp only [underQueue_keeps, descEnd_keeps, hgroups]
    · simp only [underQueue_keeps, descEnd_keeps, hhandles]
      exact mapGet_mapSet_same _ _ _ _

end Sys2Proof.Machine
end

section
/-! Tense follows its PPS input and its time master (R322 to R329, R395, R396, R659). -/

namespace Sys2Proof.Machine

open Sys2Proof.Claims

/-- What a measurement's verdict leaves alone: what the servo follows, and the registers but for the shown status. -/
structure TnsKeeps (s t : State) : Prop where
  edge : t.servo.edge = s.servo.edge
  miss : t.servo.miss = s.servo.miss
  t1 : t.servo.t1 = s.servo.t1
  master : t.servo.master = s.servo.master
  regs : ∀ a, a ≠ aTNS_STATUS → a ≠ aAUD_STATUS → regGet t a = regGet s a
  present : fld t aTNS_STATUS 1 1 = fld s aTNS_STATUS 1 1

theorem TnsKeeps.refl (s : State) : TnsKeeps s s := ⟨rfl, rfl, rfl, rfl, fun _ _ _ => rfl, rfl⟩

theorem TnsKeeps.trans {s t u : State} (h : TnsKeeps s t) (h' : TnsKeeps t u) : TnsKeeps s u :=
  ⟨h'.edge.trans h.edge, h'.miss.trans h.miss, h'.t1.trans h.t1, h'.master.trans h.master,
    fun a hs ha => (h'.regs a hs ha).trans (h.regs a hs ha), h'.present.trans h.present⟩

theorem TnsKeeps.fld_eq {s t : State} (h : TnsKeeps s t) {a : Nat} (hi lo : Nat) (hs : a ≠ aTNS_STATUS) (ha : a ≠ aAUD_STATUS) :
    fld t a hi lo = fld s a hi lo := by
  rw [fld, fld, h.regs a hs ha]

theorem setStatus_tnsKeeps (s : State) {hi lo : Nat} (v : Nat) (h : lo ≤ hi) (hne : 1 < lo ∨ hi < 1) : TnsKeeps s (setFld s aTNS_STATUS hi lo v) := by
  refine ⟨?_, ?_, ?_, ?_, fun a hs _ => regGet_setFld_other _ _ _ _ _ _ hs, fld_setFld_apart _ _ _ h (by decide) hne⟩ <;> simp only [setFld_keeps]

theorem tnsUnlock_tnsKeeps (s : State) : TnsKeeps s (tnsUnlock s) := by
  unfold tnsUnlock
  split
  · exact ((setStatus_tnsKeeps s 0 (by decide) (.inr (by decide))).trans (setStatus_tnsKeeps _ 1 (by decide) (.inl (by decide)))).trans
      (setStatus_tnsKeeps _ _ (by decide) (.inl (by decide)))
  · exact TnsKeeps.refl s

theorem updServo_tnsKeeps (s : State) (f : Servo → Servo) (he : (f s.servo).edge = s.servo.edge) (hm : (f s.servo).miss = s.servo.miss)
    (ht : (f s.servo).t1 = s.servo.t1) (hma : (f s.servo).master = s.servo.master) : TnsKeeps s (updServo s f) :=
  ⟨he, hm, ht, hma, fun _ _ _ => rfl, rfl⟩

theorem setTense_tnsKeeps (s : State) (x : W64) : TnsKeeps s { s with tense := x } := ⟨rfl, rfl, rfl, rfl, fun _ _ _ => rfl, rfl⟩

theorem auditCore_tnsKeeps (s : State) (kind part addr detail value : Nat) : TnsKeeps s (auditCore s kind part addr detail value) := by
  have hservo : (auditCore s kind part addr detail value).servo = s.servo :=
    (congrArg State.servo (auditCore_logRest s kind part addr detail value) : (logRest _).servo = (logRest _).servo)
  have hregs (a : Nat) (h : a ≠ aAUD_STATUS) : regGet (auditCore s kind part addr detail value) a = regGet s a := regGet_audit _ _ h
  refine ⟨?_, ?_, ?_, ?_, fun a _ ha => hregs a ha, ?_⟩
  · rw [hservo]
  · rw [hservo]
  · rw [hservo]
  · rw [hservo]
  · rw [fld, fld, hregs _ (by decide)]

/-! ### A measurement (R324) -/

theorem offField_lt (off : Int) : offField off < 2 ^ 32 := by
  unfold offField toTwos
  omega

/-- What a measurement notes at once. -/
def tnsNoted (s : State) (off : Int) : State :=
  updServo (clrBitOf (setFld s aTNS_OFFSET 31 0 (offField off)) aTNS_STATUS 2) fun v => { v with miss := 0 }

/-- R324: the rest of a measurement is its verdict. -/
theorem tnsMeasure_tnsKeeps (s : State) (off : Int) : TnsKeeps (tnsNoted s off) (tnsMeasure s off) := by
  unfold tnsMeasure
  extract_lets z z₁ ns w z₂ z₃ z₄ z₅
  have hz₁ : z₁ = tnsNoted s off := rfl
  have h₂ : TnsKeeps z₁ z₂ := by
    simp only [z₂]
    split
    · refine (((setTense_tnsKeeps z₁ w.tense).trans ?_).trans (setStatus_tnsKeeps _ 1 (by decide) (.inl (by decide)))).trans (auditCore_tnsKeeps _ _ _ _ _ _)
      exact updServo_tnsKeeps w _ rfl rfl rfl rfl
    · exact updServo_tnsKeeps z₁ _ rfl rfl rfl rfl
  have h₃ : TnsKeeps z₂ z₃ := updServo_tnsKeeps z₂ _ rfl rfl rfl rfl
  have h₄ : TnsKeeps z₂ z₄ := updServo_tnsKeeps z₂ _ rfl rfl rfl rfl
  have h₅ : TnsKeeps z₂ z₅ := by
    simp only [z₅]
    split
    · split
      · exact h₃.trans (setStatus_tnsKeeps _ 1 (by decide) (.inr (by decide)))
      · exact h₃
    · split
      · exact h₄.trans (tnsUnlock_tnsKeeps z₄)
      · exact h₄
  rw [← hz₁]
  exact (h₂.trans h₅).trans (setStatus_tnsKeeps _ _ (by decide) (.inl (by decide)))

theorem fld_updServo (s : State) (f : Servo → Servo) (a hi lo : Nat) : fld (updServo s f) a hi lo = fld s a hi lo := rfl
theorem regGet_updServo (s : State) (f : Servo → Servo) (a : Nat) : regGet (updServo s f) a = regGet s a := rfl

theorem tnsNoted_regs (s : State) (off : Int) :
    fld (tnsNoted s off) aTNS_OFFSET 31 0 = offField off ∧ fld (tnsNoted s off) aTNS_OFFSET 47 32 = fld s aTNS_OFFSET 47 32 ∧
    regGet (tnsNoted s off) aTNS_PPS_STAMP = regGet s aTNS_PPS_STAMP ∧ fld (tnsNoted s off) aTNS_STATUS 1 1 = fld s aTNS_STATUS 1 1 := by
  have hne : aTNS_OFFSET ≠ aTNS_STATUS := by decide
  rw [tnsNoted, clrBitOf]
  simp only [fld_updServo, regGet_updServo]
  refine ⟨?_, ?_, ?_, ?_⟩
  · rw [fld_setFld_other _ _ _ _ _ _ _ _ hne, fld_setFld_same _ _ _ (by decide) (by decide)]
    exact Nat.mod_eq_of_lt (offField_lt off)
  · rw [fld_setFld_other _ _ _ _ _ _ _ _ hne, fld_setFld_apart _ _ _ (by decide) (by decide) (.inr (by decide))]
  · rw [regGet_setFld_other _ _ _ _ _ _ (by decide), regGet_setFld_other _ _ _ _ _ _ (by decide)]
  · rw [fld_setFld_apart _ _ _ (by decide) (by decide) (.inl (by decide)), fld_setFld_other _ _ _ _ _ _ _ _ hne.symm]

theorem tnsNoted_servo (s : State) (off : Int) :
    (tnsNoted s off).servo.miss = 0 ∧ (tnsNoted s off).servo.edge = s.servo.edge ∧ (tnsNoted s off).servo.t1 = s.servo.t1 ∧
    (tnsNoted s off).servo.master = s.servo.master := by
  simp only [tnsNoted, updServo, clrBitOf_keeps, setFld_keeps, and_self]

/-- R324, R329: what a measurement shows. -/
theorem tnsMeasure_regs (s : State) (off : Int) :
    fld (tnsMeasure s off) aTNS_OFFSET 31 0 = offField off ∧ fld (tnsMeasure s off) aTNS_OFFSET 47 32 = fld s aTNS_OFFSET 47 32 ∧
    regGet (tnsMeasure s off) aTNS_PPS_STAMP = regGet s aTNS_PPS_STAMP ∧ fld (tnsMeasure s off) aTNS_STATUS 1 1 = fld s aTNS_STATUS 1 1 := by
  have h := tnsMeasure_tnsKeeps s off
  rw [h.fld_eq _ _ (by decide) (by decide), h.fld_eq _ _ (by decide) (by decide), h.regs _ (by decide) (by decide), h.present]
  exact tnsNoted_regs s off

/-- R324: what a measurement leaves of the servo. -/
theorem tnsMeasure_servo (s : State) (off : Int) :
    (tnsMeasure s off).servo.miss = 0 ∧ (tnsMeasure s off).servo.edge = s.servo.edge ∧ (tnsMeasure s off).servo.t1 = s.servo.t1 ∧
    (tnsMeasure s off).servo.master = s.servo.master := by
  have h := tnsMeasure_tnsKeeps s off
  rw [h.miss, h.edge, h.t1, h.master]
  exact tnsNoted_servo s off

/-! ### A missing measurement (R324) -/

theorem tnsUnlock_unlocked (s : State) : fld (tnsUnlock s) aTNS_STATUS 0 0 = 0 := by
  unfold tnsUnlock
  split
  · rw [satFld, fld_setFld_apart _ _ _ (by decide) (by decide) (.inl (by decide)), setBitOf,
      fld_setFld_apart _ _ _ (by decide) (by decide) (.inl (by decide)), fld_clrBitOf_same _ _ _ (by decide)]
  · next h =>
    rcases fld_one_cases s aTNS_STATUS 0 with h0 | h1
    · exact h0
    · exact absurd h1 h

/-- R324: what a missing measurement leaves. -/
theorem tnsMissing_facts (s : State) :
    (tnsMissing s).servo.miss = min 8 (s.servo.miss + 1) ∧ (tnsMissing s).servo.edge = s.servo.edge ∧ (tnsMissing s).servo.t1 = s.servo.t1 ∧
    regGet (tnsMissing s) aTNS_PPS_STAMP = regGet s aTNS_PPS_STAMP ∧ fld (tnsMissing s) aTNS_STATUS 1 1 = fld s aTNS_STATUS 1 1 := by
  unfold tnsMissing
  extract_lets z
  have hz : z.servo.miss = min 8 (s.servo.miss + 1) ∧ z.servo.edge = s.servo.edge ∧ z.servo.t1 = s.servo.t1 ∧
      regGet z aTNS_PPS_STAMP = regGet s aTNS_PPS_STAMP ∧ fld z aTNS_STATUS 1 1 = fld s aTNS_STATUS 1 1 := ⟨rfl, rfl, rfl, rfl, rfl⟩
  clear_value z
  split
  · have h := (tnsUnlock_tnsKeeps z).trans (setStatus_tnsKeeps _ 1 (by decide : 2 ≤ 2) (.inl (by decide)))
    rw [setBitOf, h.miss, h.edge, h.t1, h.regs _ (by decide) (by decide), h.present]
    exact hz
  · exact hz

/-- R324: the eighth in a row begins HOLDOVER. -/
theorem tnsMissing_eighth {s : State} (h : 7 ≤ s.servo.miss) :
    fld (tnsMissing s) aTNS_STATUS 0 0 = 0 ∧ fld (tnsMissing s) aTNS_STATUS 2 2 = 1 := by
  unfold tnsMissing
  extract_lets z
  have hz : z.servo.miss = min 8 (s.servo.miss + 1) := rfl
  clear_value z
  rw [if_pos (by omega)]
  refine ⟨?_, fld_setBitOf_same _ _ _ (by decide)⟩
  rw [setBitOf, fld_setFld_apart _ _ _ (by decide) (by decide) (.inl (by decide)), tnsUnlock_unlocked]

theorem tnsMissing_good (s : State) : (tnsMissing s).servo.good = 0 := by
  have hset (z : State) (off hi lo v : Nat) : (setFld z off hi lo v).servo = z.servo := by simp only [setFld_keeps]
  have hunlock (z : State) : (tnsUnlock z).servo = z.servo := by
    unfold tnsUnlock satFld setBitOf clrBitOf
    split
    · rw [hset, hset, hset]
    · rfl
  unfold tnsMissing
  extract_lets z
  have hz : z.servo.good = 0 := rfl
  clear_value z
  split
  · rw [setBitOf, hset, hunlock, hz]
  · exact hz

/-! ### The PPS input (R328, R659) -/

/-- What an edge that counts notes at once. -/
def ppsNoted (s : State) : State :=
  let z := setBitOf (regSet s aTNS_PPS_STAMP s.tense.toNat) aTNS_STATUS 1
  updServo z fun v => { v with edge := true, due := s.tense.toNat + tnsPeriod z }

theorem tnsSource_noted (s : State) : tnsSource (setBitOf (regSet s aTNS_PPS_STAMP s.tense.toNat) aTNS_STATUS 1) = tnsSource s := by
  rw [tnsSource, setBitOf, fld_setFld_other _ _ _ _ _ _ _ _ (by decide), fld_regSet_other _ _ _ _ _ _ (by decide), tnsSource]

theorem ppsNoted_facts (s : State) : regGet (ppsNoted s) aTNS_PPS_STAMP = s.tense.toNat ∧ fld (ppsNoted s) aTNS_STATUS 1 1 = 1 ∧
    (ppsNoted s).servo.edge = true ∧ tnsSource (ppsNoted s) = tnsSource s := by
  refine ⟨?_, ?_, rfl, ?_⟩
  · rw [ppsNoted, regGet_updServo, setBitOf, regGet_setFld_other _ _ _ _ _ _ (by decide), regGet_regSet_same]
    exact Nat.mod_eq_of_lt s.tense.isLt
  · rw [ppsNoted, fld_updServo, fld_setBitOf_same _ _ _ (by decide)]
  · rw [tnsSource, ppsNoted, fld_updServo, ← tnsSource, tnsSource_noted]

/-- R323, R659: how far an edge stands from the nearest second. -/
def ppsOff (t sub : Nat) : Int :=
  let x : Int := 8 * t + sub % 8
  (x + 4000000000) / 8000000000 * 8000000000 - x

/-- R659: an edge that counts. -/
theorem ppsEdge_counts {s : State} (sub : Nat) (h : ¬(s.servo.edge = true ∧ s.tense.toNat - regGet s aTNS_PPS_STAMP < 999000000)) :
    ppsEdge s sub = if tnsSource (ppsNoted s) ≠ 1 then ppsNoted s
      else if !s.servo.edge || decide (1001000000 < s.tense.toNat - regGet s aTNS_PPS_STAMP) then tnsMissing (ppsNoted s)
      else tnsMeasure (ppsNoted s) (ppsOff s.tense.toNat sub) := by
  have hhalf : (8000000000 : Int) / 2 = 4000000000 := by decide
  unfold ppsEdge
  dsimp only
  rw [if_neg h, hhalf]
  rfl

/-- R328, R659: what an edge that counts shows and leaves. -/
theorem ppsEdge_facts {s : State} (sub : Nat) (h : ¬(s.servo.edge = true ∧ s.tense.toNat - regGet s aTNS_PPS_STAMP < 999000000)) :
    regGet (ppsEdge s sub) aTNS_PPS_STAMP = s.tense.toNat ∧ fld (ppsEdge s sub) aTNS_STATUS 1 1 = 1 ∧ (ppsEdge s sub).servo.edge = true := by
  obtain ⟨hstamp, hpresent, hedge, _⟩ := ppsNoted_facts s
  rw [ppsEdge_counts sub h]
  split
  · exact ⟨hstamp, hpresent, hedge⟩
  · split
    · obtain ⟨_, he, _, hs, hp⟩ := tnsMissing_facts (ppsNoted s)
      rw [hs, hp, he]
      exact ⟨hstamp, hpresent, hedge⟩
    · obtain ⟨_, _, hs, hp⟩ := tnsMeasure_regs (ppsNoted s) (ppsOff s.tense.toNat sub)
      obtain ⟨_, he, _, _⟩ := tnsMeasure_servo (ppsNoted s) (ppsOff s.tense.toNat sub)
      rw [hs, hp, he]
      exact ⟨hstamp, hpresent, hedge⟩

/-! ### The time master (R395, R396) -/

/-- R372: a good link-local beat acts. -/
theorem rxLocal_good {s : State} {p ty : Nat} {bytes : List Byte} (h : beatGood s p ty bytes) (act : State → State) :
    rxLocal s p ty false bytes act = act s := by
  obtain ⟨hup, hdeaf, hhead, hty⟩ := h
  unfold rxLocal
  rw [if_neg (by rw [hup]; decide), if_neg (fun hd => by rw [hdeaf] at hd; exact absurd hd.1 Bool.false_ne_true), if_neg (by rw [hhead]; decide), if_pos hty]

theorem leNat_take_lt (bs : List Byte) (n : Nat) : leNat (bs.take n) < 256 ^ n :=
  (leNat_lt _).trans_le (Nat.pow_le_pow_right (by decide) (List.length_take_le _ _))

/-! ### The statement -/

/-- Settles O29: an edge, a missing measurement and a TSYNC beat change the servo and what TNS_STATUS and TNS_OFFSET show. -/
theorem tenseIsDisciplined : Obligations.TenseIsDisciplined := by
  unfold Obligations.TenseIsDisciplined
  refine ⟨⟨fun s fall now sub z hz hready hfall => ?edge, fun s now z hz hsrc hdue => ?missing, fun s now z hz hpres hlate => ?absence⟩,
    fun s now sub z p hz hp hsrc hup hsent => ?send, fun s p bytes t2 t3 hp hgood hstep => ?request,
    fun s p bytes t4 now z hp hz hgood hstep hsrc hpar ht1 => ?response⟩
  case edge =>
    have hexec : exec (.ppsEdge fall now sub) s = execPpsEdge fall now sub s := rfl
    unfold execPpsEdge at hexec
    rw [← hz, hready, hfall, beq_self_eq_true, if_pos (by decide)] at hexec
    rw [hfall]
    refine ⟨fun he hsoon => ?_, fun hcounts => ?_⟩
    · have hearly : ppsEdge z sub = z := by
        unfold ppsEdge
        exact if_pos ⟨he, hsoon⟩
      rw [hexec, hearly, ran]
    · have hno : ¬(z.servo.edge = true ∧ z.tense.toNat - regGet z aTNS_PPS_STAMP < 999000000) := by
        rintro ⟨he, hlt⟩
        rcases hcounts with h | h
        · rw [he] at h
          cases h
        · omega
      obtain ⟨hstamp, hpresent, hedge⟩ := ppsEdge_facts sub hno
      refine ⟨_, ran_next hexec, ?_, ?_, ?_, fun hsrc he hnear => ?_⟩
      · rw [regGet_underQueue, hstamp]
      · rw [fld_underQueue, hpresent]
      · simp only [underQueue_keeps, hedge]
      · obtain ⟨_, _, _, hnoted⟩ := ppsNoted_facts z
        have hmeas : ppsEdge z sub = tnsMeasure (ppsNoted z) (ppsOff z.tense.toNat sub) := by
          rw [ppsEdge_counts sub hno, if_neg (by rw [hnoted, hsrc]; exact fun h => h rfl), he, if_neg]
          simpa using hnear
        rw [hmeas]
        refine ⟨?_, ?_⟩
        · rw [fld_underQueue, (tnsMeasure_regs _ _).1]
          rfl
        · simp only [underQueue_keeps, tnsMeasure_servo]
  case missing =>
    have hexec : exec (.missingMeasurement now) s = execMissingMeasurement now s := rfl
    unfold execMissingMeasurement at hexec
    rw [← hz] at hexec
    dsimp only at hexec
    rw [if_pos ⟨hsrc, hdue⟩] at hexec
    have hmiss : z.servo.miss = s.servo.miss := by rw [hz]; simp only [atTime_keeps]
    rw [← hmiss]
    obtain ⟨hm, _, ht, _, _⟩ := tnsMissing_facts (updServo z fun v => { v with due := z.tense.toNat + tnsPeriod z, t1 := none })
    refine ⟨_, ran_next hexec, ?_, ?_, ?_, fun h7 => ?_⟩
    · simp only [underQueue_keeps]
      exact hm
    · simp only [underQueue_keeps, tnsMissing_good]
    · simp only [underQueue_keeps]
      exact ht
    · rw [fld_underQueue, fld_underQueue]
      exact tnsMissing_eighth (s := updServo z fun v => { v with due := z.tense.toNat + tnsPeriod z, t1 := none }) h7
  case absence =>
    have hexec : exec (.ppsAbsence now) s = execPpsAbsence now s := rfl
    unfold execPpsAbsence at hexec
    rw [← hz] at hexec
    dsimp only at hexec
    rw [if_pos ⟨hpres, hlate⟩] at hexec
    have hsrc : tnsSource (clrBitOf z aTNS_STATUS 1) = tnsSource z := fld_setFld_other _ _ _ _ _ _ _ _ (by decide)
    have hclr : fld (clrBitOf z aTNS_STATUS 1) aTNS_STATUS 1 1 = 0 := fld_clrBitOf_same _ _ _ (by decide)
    rw [hsrc] at hexec
    refine ⟨_, ran_next hexec, ?_, fun h => ?_⟩
    · rw [fld_underQueue]
      split
      · rw [setBitOf, fld_setFld_apart _ _ _ (by decide) (by decide) (.inl (by decide)), hclr]
      · exact hclr
    · rw [fld_underQueue, if_pos h, fld_setBitOf_same _ _ _ (by decide)]
  case send =>
    have hexec : exec (.tsyncRequestSend now sub) s = execTsyncRequestSend now sub s := rfl
    unfold execTsyncRequestSend at hexec
    rw [← hz] at hexec
    dsimp only at hexec
    rw [hp] at hexec
    dsimp only at hexec
    have hwire : z.wire = s.wire := by rw [hz]; simp only [atTime_keeps]
    have hgo : ¬((decide (tnsSource z < 2) || !portUp z p || (match z.servo.sent with | some t => decide (z.tense.toNat < t + 125000) | none => false)) = true) := by
      rw [Bool.or_eq_true, Bool.or_eq_true, not_or, not_or]
      refine ⟨⟨by rw [decide_eq_true_eq]; omega, by rw [hup]; decide⟩, ?_⟩
      cases ht : z.servo.sent with
      | none => exact Bool.false_ne_true
      | some t =>
        have := hsent t ht
        exact fun h => absurd (of_decide_eq_true h) (by omega)
    refine ⟨_, ran_next (hexec.trans (congrArg (ran s) (if_neg hgo))), rfl, rfl, ?_⟩
    rw [← hwire]
    rfl
  case request =>
    have hexec : exec (.tsyncRequest p false bytes t2 t3) s = execTsyncRequest p false bytes t2 t3 s := rfl
    unfold execTsyncRequest at hexec
    rw [rxLocal_good hgood, hstep, if_neg (fun h => h rfl)] at hexec
    exact ⟨_, ran_next (exec_guarded (by simpa [isPort] using hp) hexec), rfl⟩
  case response =>
    have hexec : exec (.tsyncResponse p false bytes t4 now) s = execTsyncResponse p false bytes t4 now s := rfl
    unfold execTsyncResponse at hexec
    rw [← hz, rxLocal_good hgood] at hexec
    dsimp only at hexec
    rw [if_pos ⟨hstep, hsrc, hpar, ht1⟩] at hexec
    have hsame (f : Servo → Servo) : tnsSource (updServo z f) = tnsSource z := rfl
    rw [hsame] at hexec
    generalize hw : setFld (updServo z fun v => { v with t1 := none, master := leNat ((bytes.drop 2).take 2) }) aTNS_OFFSET 47 32
      (if tnsSource z = 2 then leNat ((bytes.drop 4).take 1) + 1 else 0) = w at hexec
    have hservo : w.servo.t1 = none ∧ w.servo.master = leNat ((bytes.drop 2).take 2) := by
      rw [← hw]
      simp only [setFld_keeps, updServo, and_self]
    have hhops : fld w aTNS_OFFSET 47 32 = if tnsSource z = 2 then leNat ((bytes.drop 4).take 1) + 1 else 0 := by
      have hlt : leNat ((bytes.drop 4).take 1) < 256 := leNat_take_lt _ 1
      rw [← hw, fld_setFld_same _ _ _ (by decide) (by decide)]
      refine Nat.mod_eq_of_lt ?_
      split <;> omega
    obtain ⟨hoff, hkept, _, _⟩ := tnsMeasure_regs w ((((leNat ((bytes.drop 16).take 8) : Int) - leNat ((bytes.drop 8).take 8)) -
      (((t4 % 2 ^ 64 : Nat) : Int) - leNat ((bytes.drop 24).take 8))) / 2)
    obtain ⟨_, _, ht, hm⟩ := tnsMeasure_servo w ((((leNat ((bytes.drop 16).take 8) : Int) - leNat ((bytes.drop 8).take 8)) -
      (((t4 % 2 ^ 64 : Nat) : Int) - leNat ((bytes.drop 24).take 8))) / 2)
    refine ⟨_, ran_next (exec_guarded (by simpa [isPort] using hp) hexec), ?_, ?_, ?_, ?_⟩
    · simp only [underQueue_keeps, ht, hservo]
    · simp only [underQueue_keeps, hm, hservo]
    · rw [fld_underQueue, hkept, hhops]
    · rw [fld_underQueue, hoff]

end Sys2Proof.Machine
end

section
/-! Acceptance of work (R139, R667): whatever the checks decide, one piece of work is taken in under the next number. -/

namespace Sys2Proof.Machine

/-- What an acceptance advances: the number, the work and the queues. -/
def workFront (s : State) : Nat × Map Prog × Map IQueue := (s.nextProg, s.progs, s.queues)

/-- Two pieces of work have the same origin: only what acceptance reads of the work's own memory differs. -/
def sameWork (p q : Prog) : Prop :=
  q.kind = p.kind ∧ q.cid = p.cid ∧ q.owner = p.owner ∧ q.seq = p.seq ∧ q.issue = p.issue ∧ q.desc = p.desc

theorem sameWork.refl (p : Prog) : sameWork p p := ⟨rfl, rfl, rfl, rfl, rfl, rfl⟩

/-- Work of the origin of `p` is taken in under the next number. -/
def taken (s t : State) (p : Prog) : Prop :=
  t.nextProg = s.nextProg + 1 ∧ t.queues = s.queues ∧ ∃ q, progOf t s.nextProg = some q ∧ sameWork p q

theorem addWork_taken {s z : State} {p q : Prog} (hz : workFront z = workFront s) (hq : sameWork p q) : taken s (addWork z q) p := by
  obtain ⟨hnext, _, hqueues⟩ : z.nextProg = s.nextProg ∧ z.progs = s.progs ∧ z.queues = s.queues := by simpa [workFront] using hz
  refine ⟨congrArg (· + 1) hnext, hqueues, q, ?_, hq⟩
  rw [← hnext]
  exact mapFind_mapIns_same _ _ _

theorem refuseWork_taken {s z : State} {p : Prog} (hz : workFront z = workFront s) (status index : Nat) : taken s (refuseWork z p status index) p :=
  addWork_taken hz ⟨rfl, rfl, rfl, rfl, rfl, rfl⟩

theorem acceptN_front (s : State) (cid : Nat) (n : Bool) : workFront (acceptN s cid n) = workFront s := by
  unfold acceptN
  split <;> rfl

theorem xFault_front (s : State) (k ckey dva cause lvl : Nat) (w : Bool) : workFront (xFault s k ckey dva cause lvl w) = workFront s := by
  have hpost (z : State) (k code source ckey d0 d1 : Nat) : workFront (postEvent z k code source ckey d0 d1) = workFront z :=
    (congrArg workFront (postEvent_rest z k code source ckey d0 d1) : workFront (eventRest _) = workFront (eventRest _))
  cases h : s.xseen.contains (k, dva % 2 ^ 48, w)
  · rw [xFault_of_new h, hpost]
    simp only [workFront, regSet_keeps]
  · rw [xFault, if_pos h]
    rfl

theorem areasFault_front (s : State) (cid sl : Nat) (l : List (Nat × Nat × Nat × Bool)) : workFront (areasFault s cid sl l) = workFront s := by
  unfold areasFault
  split
  · exact xFault_front _ _ _ _ _ _ _
  · rfl

theorem acceptTile_taken (s : State) (p : Prog) : taken s (acceptTile s p) p := by
  unfold acceptTile
  dsimp only
  split
  · exact refuseWork_taken rfl _ _
  · split
    · exact refuseWork_taken rfl _ _
    · exact addWork_taken (acceptN_front _ _ _) ⟨rfl, rfl, rfl, rfl, rfl, rfl⟩

theorem acceptElement_taken (s : State) (p : Prog) : taken s (acceptElement s p) p := by
  unfold acceptElement
  dsimp only
  split
  · exact refuseWork_taken rfl _ _
  · split
    · exact refuseWork_taken rfl _ _
    · split
      · exact refuseWork_taken (acceptN_front _ _ _) _ _
      · exact addWork_taken (acceptN_front _ _ _) ⟨rfl, rfl, rfl, rfl, rfl, rfl⟩

theorem acceptSolve_taken (s : State) (p : Prog) (b : List Byte) : taken s (acceptSolve s p b) p := by
  unfold acceptSolve
  dsimp only
  split
  · exact refuseWork_taken rfl _ _
  · split
    · refine refuseWork_taken ?_ _ _
      split
      · exact (areasFault_front _ _ _ _).trans (acceptN_front _ _ _)
      · exact acceptN_front _ _ _
    · exact addWork_taken (acceptN_front _ _ _) ⟨rfl, rfl, rfl, rfl, rfl, rfl⟩

theorem acceptAssembly_taken (s : State) (p : Prog) (b : List Byte) : taken s (acceptAssembly s p b) p := by
  unfold acceptAssembly
  dsimp only
  split
  · exact refuseWork_taken rfl _ _
  · split
    · refine refuseWork_taken ?_ _ _
      split
      · exact (areasFault_front _ _ _ _).trans (acceptN_front _ _ _)
      · exact acceptN_front _ _ _
    · exact addWork_taken (acceptN_front _ _ _) ⟨rfl, rfl, rfl, rfl, rfl, rfl⟩

/-- R667: a record's work is taken in, accepted or refused. -/
theorem acceptWork_taken (s : State) (p : Prog) : taken s (acceptWork s p) p := by
  unfold acceptWork
  dsimp only
  split
  · exact refuseWork_taken rfl _ _
  · split
    · exact refuseWork_taken rfl _ _
    · split
      · exact acceptTile_taken s p
      · exact acceptElement_taken s p
      · split
        · exact acceptSolve_taken s p _
        · exact refuseWork_taken rfl _ _
      · split
        · exact acceptAssembly_taken s p _
        · exact refuseWork_taken rfl _ _

end Sys2Proof.Machine
end
section
/-! LAUNCH descriptors (R283 to R285, R526). -/

namespace Sys2Proof.Machine

open Sys2Proof.Claims

/-! ### Notices to a context's Particles -/

/-- The state but for the Particles. -/
def partRest (s : State) : State := { s with particles := [] }

theorem notice_rest (s : State) (p code t : Nat) : partRest (notice s p code t) = partRest s := rfl

theorem noticeAll_rest (s : State) (cid code t : Nat) : partRest (noticeAll s cid code t) = partRest s := by
  unfold noticeAll
  exact foldl_keep partRest _ (fun s p => notice_rest s p _ _) _ _

/-- What a decision to switch leaves alone. -/
def launchSide (s : State) : Map Desc × Map Ctx × Map Conj := (s.descs, s.ctxs, s.conj)

theorem noticeAll_side (s : State) (cid code t : Nat) : launchSide (noticeAll s cid code t) = launchSide s :=
  (congrArg launchSide (noticeAll_rest s cid code t) : launchSide (partRest _) = launchSide (partRest _))

theorem decideSwitch_side (s : State) (c : Nat) : launchSide (decideSwitch s c) = launchSide s := by
  have hrun (z : State) (c : Nat) (f : CtxRun → CtxRun) : launchSide (updRun z c f) = launchSide z := Eq.refl (launchSide z)
  unfold decideSwitch
  split
  · rfl
  · rw [noticeAll_side, hrun]

theorem ctxArrives_side (s : State) (c : Nat) : launchSide (ctxArrives s c) = launchSide s := by
  unfold ctxArrives
  split
  · split
    · exact decideSwitch_side _ _
    · rfl
  · rfl

theorem audit_side (s : State) (e : AudEnt) : launchSide (audit s e) = launchSide s :=
  (congrArg launchSide (audit_logRest s e) : launchSide (logRest _) = launchSide (logRest _))

/-! ### CREATE (R283 to R285) -/

/-- A CREATE that is refused makes no context. -/
theorem createRefuse_facts {s : State} {d k key status : Nat} {x : Desc} (hx : mapFind s.descs d = some x) :
    endsAs (createRefuse s d k key status) d status 0 0 ∧ (createRefuse s d k key status).ctxs = s.ctxs ∧
    (createRefuse s d k key status).conj = s.conj := by
  have hside : launchSide (createRefuse s d k key status) = launchSide (descEnd s d status 0 0) := audit_side _ _
  obtain ⟨hdescs, hctxs, hconj⟩ : (createRefuse s d k key status).descs = (descEnd s d status 0 0).descs ∧
      (createRefuse s d k key status).ctxs = (descEnd s d status 0 0).ctxs ∧
      (createRefuse s d k key status).conj = (descEnd s d status 0 0).conj := by simpa only [launchSide, Prod.mk.injEq] using hside
  refine ⟨?_, by rw [hctxs]; simp only [descEnd_keeps], by rw [hconj]; simp only [descEnd_keeps]⟩
  rw [endsAs, hdescs]
  exact endsAs_descEnd hx _ _ _

/-- R285: the Conjunctions of a new context are in their reset state under its key. -/
theorem conjGive_mem (s : State) (x : Ctx) {j : Nat} (h : x.conjBase ≤ j) (hj : j < x.conjBase + x.conjCount) :
    conjOf (conjGive s x) j = { key := x.ckey } := by
  have hin : j ∈ conjRange x.conjBase x.conjCount := by
    unfold conjRange
    exact List.mem_map.mpr ⟨j - x.conjBase, List.mem_range.mpr (by omega), by omega⟩
  have hstays (l : List Nat) (m : Map Conj) (h : mapGet {} m j = { key := x.ckey }) :
      mapGet {} (l.foldl (fun m j => mapIns m j { key := x.ckey }) m) j = ({ key := x.ckey } : Conj) := by
    induction l generalizing m with
    | nil => exact h
    | cons y r ih =>
      refine ih _ ?_
      by_cases hy : j = y
      · rw [hy, mapGet_mapIns_same]
      · rw [mapGet_mapIns_other _ _ _ _ _ hy, h]
  unfold conjGive conjOf
  dsimp only
  generalize s.conj = m
  generalize conjRange x.conjBase x.conjCount = l at hin
  induction l generalizing m with
  | nil => exact absurd hin List.not_mem_nil
  | cons y r ih =>
    rcases List.mem_cons.mp hin with rfl | h
    · exact hstays r _ (mapGet_mapIns_same _ _ _ _)
    · exact ih _ h

/-- R284: a descriptor that passes leaves fewer than eight contexts in its partition. -/
theorem room_of_cdCheck {s : State} {k : Nat} {b h : List Byte} (hok : cdCheck s k b h = none) : (liveCtxs s k).length < 8 := by
  unfold cdCheck at hok
  dsimp only at hok
  rw [firstErr] at hok
  split at hok
  · cases hok
  · rw [firstErr] at hok
    split at hok
    · cases hok
    · next hlen => simpa using hlen

/-- R285: a partition with room has a context that is free. -/
theorem exists_freeCtx {s : State} {k : Nat} (h : (liveCtxs s k).length < 8) :
    ∃ c, ((List.range 8).map (8 * k + ·)).find? (fun c => !(ctxOf s c).live) = some c ∧ c / 8 = k ∧ (ctxOf s c).live = false := by
  cases hfind : ((List.range 8).map (8 * k + ·)).find? (fun c => !(ctxOf s c).live) with
  | none =>
    exfalso
    rw [List.find?_eq_none] at hfind
    have hall : liveCtxs s k = (List.range 8).map (8 * k + ·) := by
      unfold liveCtxs
      exact List.filter_eq_self.mpr fun c hc => by simpa using hfind c hc
    rw [hall, List.length_map, List.length_range] at h
    exact absurd h (by decide)
  | some c =>
    obtain ⟨i, hi, rfl⟩ := List.mem_map.mp (List.mem_of_find?_eq_some hfind)
    have := List.mem_range.mp hi
    exact ⟨_, rfl, by omega, by simpa using List.find?_some hfind⟩

/-- R284, R285: a context descriptor that fails a check. -/
theorem ctxCreate_refused {s : State} {d k st : Nat} {b h : List Byte} (hbad : cdCheck s k b h = some st) :
    ctxCreate s d k b h = createRefuse s d k (bNat b 4 2) st := by
  unfold ctxCreate
  dsimp only
  rw [hbad]

/-- R285: a context descriptor that passes makes a context. -/
theorem ctxCreate_made {s : State} {d k : Nat} {b h : List Byte} {x : Desc} (hx : mapFind s.descs d = some x) (hok : cdCheck s k b h = none) :
    ∃ c, c / 8 = k ∧ (ctxOf s c).live = false ∧ endsAs (ctxCreate s d k b h) d stOK 0 (bNat b 4 2) ∧
      ctxOf (ctxCreate s d k b h) c = ctxFrom b h ∧
      ∀ j, (ctxFrom b h).conjBase ≤ j → j < (ctxFrom b h).conjBase + (ctxFrom b h).conjCount →
        conjOf (ctxCreate s d k b h) j = { key := (ctxFrom b h).ckey } := by
  obtain ⟨c, hfind, hk, hdead⟩ := exists_freeCtx (room_of_cdCheck hok)
  refine ⟨c, hk, hdead, ?_⟩
  unfold ctxCreate
  dsimp only
  rw [hok]
  dsimp only
  rw [hfind]
  dsimp only
  generalize hw : conjGive { s with ctxs := mapIns s.ctxs c (ctxFrom b h), runs := mapIns s.runs c {} } (ctxFrom b h) = w
  have hwd : w.descs = s.descs := by rw [← hw]; rfl
  have hwc : ctxOf w c = ctxFrom b h := by rw [← hw]; exact mapGet_mapIns_same _ _ _ _
  have hwj (j : Nat) (h1 : (ctxFrom b h).conjBase ≤ j) (h2 : j < (ctxFrom b h).conjBase + (ctxFrom b h).conjCount) :
      conjOf w j = { key := (ctxFrom b h).ckey } := by rw [← hw]; exact conjGive_mem _ _ h1 h2
  have haud : launchSide (auditCore w 4 k (bNat b 4 2) 0 0) = launchSide w := audit_side _ _
  generalize auditCore w 4 k (bNat b 4 2) 0 0 = v at haud
  have hend := ctxArrives_side (descEnd v d stOK 0 (bNat b 4 2)) c
  generalize ctxArrives (descEnd v d stOK 0 (bNat b 4 2)) c = t at hend
  obtain ⟨hvd, hvc, hvj⟩ : v.descs = w.descs ∧ v.ctxs = w.ctxs ∧ v.conj = w.conj := by simpa [launchSide] using haud
  obtain ⟨htd, htc, htj⟩ : t.descs = (descEnd v d stOK 0 (bNat b 4 2)).descs ∧ t.ctxs = (descEnd v d stOK 0 (bNat b 4 2)).ctxs ∧
      t.conj = (descEnd v d stOK 0 (bNat b 4 2)).conj := by simpa only [launchSide, Prod.mk.injEq] using hend
  have hctxs : t.ctxs = w.ctxs := htc.trans (by simp only [descEnd_keeps, hvc])
  have hconj : t.conj = w.conj := htj.trans (by simp only [descEnd_keeps, hvj])
  refine ⟨?_, ?_, fun j h1 h2 => ?_⟩
  · rw [endsAs, htd]
    exact endsAs_descEnd (x := x) (by rw [hvd, hwd, hx]) _ _ _
  · rw [ctxOf, hctxs]
    exact hwc
  · rw [conjOf, hconj]
    exact hwj j h1 h2

/-- R526: a CREATE whose descriptor has been read. -/
theorem launchCreate_read {s z s₁ : State} {d now : Nat} {x : Desc} {b : List Byte} (hz : z = atTime s now) (hx : descLive z d dtLAUNCH 0 = some x)
    (hact : partActive z x.part = true) (hon : ((partSlices z x.part).any fun sl => !stackOnline z sl) = false) (hsp : arSpad (dNat x 0x10 8) = false)
    (hal : dNat x 0x10 8 % 64 = 0) (hb : auxBytes x = b) (hlen : b.length = 128) (hhint : bNat b 0x34 2 = 0)
    (hs₁ : s₁ = updDesc z d (fun y => { y with st := .running })) : exec (.launchCreate d now) s = ran s (ctxCreate s₁ d x.part b []) := by
  have hexec : exec (.launchCreate d now) s = execLaunchCreate d now s := rfl
  have hfind : mapFind s₁.descs d = some { x with st := .running } := by rw [hs₁, mapFind_updDesc_same (mapFind_of_descLive hx)]
  have haux : auxBytes { x with st := .running } = b := hb
  unfold execLaunchCreate at hexec
  rw [← hz] at hexec
  dsimp only at hexec
  rw [hx] at hexec
  dsimp only at hexec
  rw [hact, if_neg (by decide), hon, if_neg (by decide), hsp, hal, if_neg (by decide), ← hs₁, gatherParts, hfind] at hexec
  dsimp only at hexec
  rw [haux, if_neg (by omega), if_neg (fun h => h.2.1 hhint)] at hexec
  dsimp only at hexec
  rw [List.take_of_length_le (by omega), List.drop_of_length_le (by omega)] at hexec
  rw [hexec, hz, ran_atTime]

/-! ### The statement -/

/-- Settles O30: CREATE by its first failing check, PROGRAM by the acceptance of its work, END by the end of its context. -/
theorem launchDescriptors : Obligations.LaunchDescriptors := by
  unfold Obligations.LaunchDescriptors
  refine ⟨fun s d now z x b s₁ hz hx hact hon hsp hal hb hlen hhint hs₁ => ?create, fun s d now z x hz hx => ?refuse,
    fun s d x c hx hc hacc => ?program, fun s d now z x c hz hx hc => ?endOf⟩
  case create =>
    have hexec := launchCreate_read hz hx hact hon hsp hal hb hlen hhint hs₁
    have hfind : mapFind s₁.descs d = some { x with st := .running } := by rw [hs₁, mapFind_updDesc_same (mapFind_of_descLive hx)]
    have hctxs : s₁.ctxs = s.ctxs := by
      rw [hs₁, updDesc_of_find (mapFind_of_descLive hx), hz]
      simp only [atTime_keeps]
    have hconj : s₁.conj = s.conj := by
      rw [hs₁, updDesc_of_find (mapFind_of_descLive hx), hz]
      simp only [atTime_keeps]
    refine ⟨fun st hbad => ?_, fun hok => ?_⟩
    · rw [ctxCreate_refused hbad] at hexec
      obtain ⟨hends, hc, hj⟩ := createRefuse_facts (k := x.part) (key := bNat b 4 2) (status := st) hfind
      refine ⟨_, ran_next hexec, hends, ?_, ?_⟩
      · simp only [underQueue_keeps, hc, hctxs]
      · simp only [underQueue_keeps, hj, hconj]
    · obtain ⟨c, hk, hdead, hends, hnew, hconjs⟩ := ctxCreate_made (k := x.part) (b := b) (h := []) hfind hok
      refine ⟨_, c, ran_next hexec, hends, hk, ?_, ?_, ?_, fun j h1 h2 => ?_⟩
      · rw [ctxOf, ← hctxs]
        exact hdead
      · rw [ctxOf_underQueue, hnew]
      · rw [ctxOf_underQueue, hnew]
        rfl
      · rw [conjOf_underQueue, hconjs j h1 h2]
  case refuse =>
    have hexec : exec (.launchCreate d now) s = execLaunchCreate d now s := rfl
    have hfind := mapFind_of_descLive hx
    unfold execLaunchCreate at hexec
    rw [← hz] at hexec
    dsimp only at hexec
    rw [hx] at hexec
    dsimp only at hexec
    have hctxs : z.ctxs = s.ctxs := by
      rw [hz]
      simp only [atTime_keeps]
    refine ⟨fun hoff => ?_, fun hact hdown => ?_⟩
    · rw [hoff, if_pos (by decide)] at hexec
      obtain ⟨hends, hc, _⟩ := createRefuse_facts (k := x.part) (key := 0) (status := stCONTEXT_INVALID) hfind
      refine ⟨_, ran_next hexec, hends, ?_⟩
      simp only [underQueue_keeps, hc, hctxs]
    · rw [hact, if_neg (by decide), if_pos hdown] at hexec
      obtain ⟨hends, hc, _⟩ := createRefuse_facts (k := x.part) (key := 0) (status := stSTACK_OFFLINE) hfind
      refine ⟨_, ran_next hexec, hends, ?_⟩
      simp only [underQueue_keeps, hc, hctxs]
  case program =>
    have hexec : exec (.launchProgram d) s = execLaunchProgram d s := rfl
    unfold execLaunchProgram at hexec
    rw [hx] at hexec
    dsimp only at hexec
    rw [hc] at hexec
    dsimp only at hexec
    rw [hacc, if_neg (by decide)] at hexec
    have hnext : (updDesc s d fun y => { y with st := .running }).nextProg = s.nextProg := by rw [updDesc_of_find (mapFind_of_descReady hx)]
    obtain ⟨hadv, _, q, hq, hkind, hcid, howner, _, hissue, hdesc⟩ := acceptWork_taken (updDesc s d fun y => { y with st := .running })
      { kind := if dNat x 0x18 1 = 0 then .tile else .element, cid := c, owner := 6144, seq := 0, issue := launchIssue x
        noStatus := (launchIssue x).statusAddr % 32 != 0 || !inSpace s (c / 8) (launchIssue x).statusAddr 32, noSignal := true
        deferrable := dDefer x, desc := some d }
    rw [hnext] at hadv hq
    refine ⟨_, q, ran_next hexec, ?_, ?_, hcid, howner, hdesc, hkind, hissue⟩
    · simp only [underQueue_keeps]
      exact hadv
    · rw [progOf_underQueue]
      exact hq
  case endOf =>
    have hexec : exec (.launchEnd d now) s = execLaunchEnd d now s := rfl
    unfold execLaunchEnd at hexec
    rw [← hz] at hexec
    dsimp only at hexec
    rw [hx] at hexec
    dsimp only at hexec
    rw [hc] at hexec
    refine ⟨_, ran_next hexec, ?_, endsAs_ran_endSide _ (ctxEnd_endSide _ _ _ _) (mapFind_of_descReady hx) _ _ _⟩
    rw [ctxOf_underQueue, ctxOf_descEnd, ctxEnd_dead]

end Sys2Proof.Machine
end

section
/-! What the stack controller decides of accesses, repairs and remaps (R342 to R353). -/

namespace Sys2Proof.Machine

/-! ### Poison -/

theorem mem_mapIns_self {α : Type} (m : Map α) (k : Nat) (v : α) : (k, v) ∈ mapIns m k v := by
  induction m with
  | nil => exact List.mem_singleton.mpr rfl
  | cons x r ih =>
    obtain ⟨j, w⟩ := x
    rw [mapIns]
    split
    · exact List.mem_cons_self
    · split
      · exact List.mem_cons_self
      · exact List.mem_cons_of_mem _ ih

theorem mem_mapIns_of_mem {α : Type} {m : Map α} {k j : Nat} {v w : α} (h : (j, w) ∈ m) : (j, w) ∈ mapIns m k v ∨ j = k := by
  induction m with
  | nil => exact absurd h List.not_mem_nil
  | cons x r ih =>
    obtain ⟨i, u⟩ := x
    rw [mapIns]
    split
    · exact .inl (List.mem_cons_of_mem _ h)
    · split
      · next hk =>
        rcases List.mem_cons.mp h with he | h
        · right
          rw [(Prod.mk.inj he).1, hk]
        · exact .inl (List.mem_cons_of_mem _ h)
      · rcases List.mem_cons.mp h with he | h
        · exact .inl (by rw [he]; exact List.mem_cons_self)
        · exact (ih h).imp_left (List.mem_cons_of_mem _)

/-- R347: the granule of an address is marked. -/
theorem memPoison_marked (m : Mem) (a : Nat) : memPoison { m with poison := mapIns m.poison (a / 32) true } a 1 = true := by
  refine List.any_eq_true.mpr ⟨(a / 32, true), mem_mapIns_self _ _ _, ?_⟩
  simp only [Bool.true_and, Bool.and_eq_true, decide_eq_true_eq]
  omega

/-- A mark stays when another is set. -/
theorem memPoison_mark_mono {m : Mem} {a n : Nat} (u : Nat) (h : memPoison m a n = true) :
    memPoison { m with poison := mapIns m.poison u true } a n = true := by
  obtain ⟨⟨j, w⟩, hin, hj⟩ := List.any_eq_true.mp h
  rcases mem_mapIns_of_mem (k := u) (v := true) hin with hin | rfl
  · exact List.any_eq_true.mpr ⟨(j, w), hin, hj⟩
  · refine List.any_eq_true.mpr ⟨(j, true), mem_mapIns_self _ _ _, ?_⟩
    simp only [Bool.true_and, Bool.and_eq_true, decide_eq_true_eq] at hj ⊢
    omega

theorem memPoison_memZero_inside (m : Mem) {a n i : Nat} (h1 : a ≤ i) (h2 : i < a + n) : memPoison (memZero m a n) i 1 = false := by
  unfold memPoison memZero
  rw [List.any_eq_false]
  rintro ⟨j, w⟩ hj
  obtain ⟨_, hout⟩ := List.mem_filter.mp hj
  simp only [Bool.or_eq_true, decide_eq_true_eq] at hout
  simp only [Bool.and_eq_true, decide_eq_true_eq]
  omega

/-! ### What outcomes and repairs leave alone -/

/-- Both memories and the stack controllers. -/
def memSide (s : State) : Mem × Mem × Map Stack := (s.hbm, s.spm, s.hstk)

theorem setFld_memSide (s : State) (off hi lo v : Nat) : memSide (setFld s off hi lo v) = memSide s := by simp only [memSide, setFld_keeps]

theorem setFld_hstk (s : State) (off hi lo v : Nat) : (setFld s off hi lo v).hstk = s.hstk := by simp only [setFld_keeps]

theorem stkOf_setFld (s : State) (off hi lo v k : Nat) : stkOf (setFld s off hi lo v) k = stkOf s k := by
  rw [stkOf, setFld_hstk, stkOf]

theorem satFld_hstk (s : State) (off hi lo d : Nat) : (satFld s off hi lo d).hstk = s.hstk := by simp only [satFld_keeps]

theorem report_memSide (s : State) (cls cause part slice unit : Nat) (d : List Nat) : memSide (report s cls cause part slice unit d) = memSide s :=
  (congrArg memSide (report_rest s cls cause part slice unit d) : memSide (rptRest _) = memSide (rptRest _))

theorem noteRepair_memSide (s : State) (k : Nat) : memSide (noteRepair s k) = memSide s := (setFld_memSide _ _ _ _ _).trans (setFld_memSide _ _ _ _ _)

theorem reportRepair_memSide (s : State) (k : Nat) : memSide (reportRepair s k) = memSide s := (report_memSide _ _ _ _ _ _ _).trans (noteRepair_memSide _ _)

/-- What a reading of a stack controller says of the memories and of the fields `g` of stack `k`. -/
def stkSide {β : Type} (g : Stack → β) (k : Nat) (s : State) : Mem × Mem × β := (s.hbm, s.spm, g (stkOf s k))

/-- A reading of a stack controller that candidates and the list of pending rows do not bear on. -/
def leavesRepair {β : Type} (g : Stack → β) : Prop := ∀ x pend dropped cands fixes,
  g { x with pend := pend, dropped := dropped, cands := cands, fixes := fixes } = g x

section
variable {β : Type} (g : Stack → β) (k : Nat)

theorem stkSide_of_mem {s t : State} (h : memSide t = memSide s) : stkSide g k t = stkSide g k s :=
  congrArg (fun p => (p.1, p.2.1, g (mapGet {} p.2.2 k))) h

theorem stkSide_updStk (s : State) {f : Stack → Stack} (hf : ∀ x, g (f x) = g x) : stkSide g k (updStk s k f) = stkSide g k s := by
  rw [stkSide, stkOf_updStk_same, hf]
  rfl

theorem pendRow_stkSide (hg : ∀ x l n, g { x with pend := l, dropped := n } = g x) (s : State) (r : HRow) : stkSide g k (pendRow s k r) = stkSide g k s := by
  unfold pendRow
  dsimp only
  split
  · rfl
  · split
    · exact (stkSide_of_mem g k (noteRepair_memSide _ _)).trans (stkSide_updStk g k s fun x => hg x x.pend _)
    · exact (stkSide_of_mem g k (reportRepair_memSide _ _)).trans (stkSide_updStk g k s fun x => hg x _ x.dropped)

variable (hg : leavesRepair g)
include hg

theorem candidate_stkSide (s : State) (r : HRow) : stkSide g k (candidate s k r) = stkSide g k s := by
  unfold candidate
  dsimp only
  split
  · rfl
  · split
    · exact (stkSide_of_mem g k (setFld_memSide _ _ _ _ _)).trans (stkSide_updStk g k s fun x => hg x x.pend x.dropped _ x.fixes)
    · exact pendRow_stkSide g k (fun x l n => hg x l n x.cands x.fixes) s r

theorem rowFixed_stkSide (s : State) (r : HRow) : stkSide g k (rowFixed s k r) = stkSide g k s := by
  unfold rowFixed
  dsimp only
  split
  · exact (candidate_stkSide g k hg _ r).trans (stkSide_updStk g k s fun x => hg x x.pend x.dropped x.cands _)
  · exact stkSide_updStk g k s fun x => hg x x.pend x.dropped x.cands _

/-- R345: a beat that is not found uncorrectable changes no byte and no mark. -/
theorem beatCheck_stkSide (s : State) {pc l beat out : Nat} (h : out ≠ 3) : stkSide g k (beatCheck s k pc l beat out) = stkSide g k s := by
  have hnote (z : State) (a b c : Nat) : memSide (corrNote z a b c) = memSide z := Eq.refl (memSide z)
  unfold beatCheck
  dsimp only
  split
  · exact stkSide_of_mem g k (setFld_memSide _ _ _ _ _)
  · refine (stkSide_of_mem g k (hnote _ _ _ _)).trans ((rowFixed_stkSide g k hg _ _).trans ?_)
    exact stkSide_of_mem g k (setFld_memSide _ _ _ _ _)
  · exact absurd rfl h
  · split
    · exact stkSide_of_mem g k (setFld_memSide _ _ _ _ _)
    · rfl

/-- R345: an uncorrectable beat is marked. -/
theorem beatCheck_marked (s : State) (pc l beat : Nat) : stkSide g k (beatCheck s k pc l beat 3) =
    ({ s.hbm with poison := mapIns s.hbm.poison (hbmIx k pc l (32 * beat) / 32) true }, s.spm, g (stkOf s k)) := by
  unfold beatCheck
  dsimp only
  refine (stkSide_of_mem g k (report_memSide _ _ _ _ _ _ _)).trans ((candidate_stkSide g k hg _ _).trans ?_)
  exact (stkSide_of_mem g k (setFld_memSide _ _ _ _ _)).trans rfl

end

/-- The patrol's place. -/
theorem beatCheck_patrol (s : State) (k pc l beat out : Nat) :
    (beatCheck s k pc l beat out).spm = s.spm ∧ (stkOf (beatCheck s k pc l beat out) k).patrol = (stkOf s k).patrol ∧
    (beatCheck s k pc l beat out).hbm.cells = s.hbm.cells ∧
    (out ≠ 3 → (beatCheck s k pc l beat out).hbm = s.hbm) ∧
    (out = 3 → (beatCheck s k pc l beat out).hbm = { s.hbm with poison := mapIns s.hbm.poison (hbmIx k pc l (32 * beat) / 32) true }) := by
  by_cases h : out = 3
  · have hside := beatCheck_marked Stack.patrol k (fun _ _ _ _ _ => rfl) s pc l beat
    rw [h]
    obtain ⟨hhbm, hspm, hpat⟩ := (by simpa only [stkSide, Prod.mk.injEq] using hside : _ ∧ _ ∧ _)
    exact ⟨hspm, hpat, by rw [hhbm], fun h => absurd rfl h, fun _ => hhbm⟩
  · have hside := beatCheck_stkSide Stack.patrol k (fun _ _ _ _ _ => rfl) s (pc := pc) (l := l) (beat := beat) h
    obtain ⟨hhbm, hspm, hpat⟩ := (by simpa only [stkSide, Prod.mk.injEq] using hside : _ ∧ _ ∧ _)
    exact ⟨hspm, hpat, by rw [hhbm], fun _ => hhbm, fun h' => absurd h' h⟩

/-! ### The scheduler (R343) -/

theorem queue_updHq (s : State) (k pc : Nat) (f : HQueue → HQueue) :
    mapGet {} (stkOf (updHq s k pc f) k).queues pc = f (mapGet {} (stkOf s k).queues pc) := by
  rw [updHq, stkOf_updStk_same]
  exact mapGet_mapUpd_same _ _ _ _

theorem cands_updHq (s : State) (k pc : Nat) (f : HQueue → HQueue) : (stkOf (updHq s k pc f) k).cands = (stkOf s k).cands := by
  rw [updHq, stkOf_updStk_same]

/-- What an outcome that finds nothing leaves of a pseudo-channel's queue. -/
theorem queue_beatCheck (s : State) (k pc l beat : Nat) :
    mapGet {} (stkOf (beatCheck s k pc l beat 0) k).queues pc = mapGet {} (stkOf s k).queues pc := by
  have hside := beatCheck_stkSide (fun x => mapGet {} x.queues pc) k (fun _ _ _ _ _ => rfl) s (pc := pc) (l := l) (beat := beat) (out := 0) (by decide)
  obtain ⟨_, _, hq⟩ := (by simpa only [stkSide, Prod.mk.injEq] using hside : _ ∧ _ ∧ _)
  exact hq

theorem queue_hbmStarved (s : State) (k pc : Nat) (r : HReq) :
    mapGet {} (stkOf (hbmStarved s k r) k).queues pc = mapGet {} (stkOf s k).queues pc := by
  unfold hbmStarved
  split
  · rw [stkOf, satFld_hstk]
    rfl
  · rfl

/-- A queue whose row of an access is open. -/
def rowOpened (q : HQueue) (l : Nat) : HQueue := { q with openRow := mapIns q.openRow (bits l 7 2) (bits l 21 8) }

section
variable {s : State} {k pc : Nat} {q : HQueue} (hq : mapGet {} (stkOf s k).queues pc = q)
include hq

/-- R343: a locked sequence's write goes first. -/
theorem hbmGrant_lock {l b : Nat} (pass : Bool) (out : Nat) (hl : q.lock = some (l, b)) :
    mapGet {} (stkOf (hbmGrant s k pc pass out) k).queues pc = rowOpened { q with lock := none, heldFor := 0 } l := by
  unfold hbmGrant
  dsimp only
  rw [hq, hl]
  dsimp only
  rw [queue_updHq, hq]
  rfl

variable (hc : (stkOf s k).cands = [])
include hc

/-- R343: the write queue drains. -/
theorem hbmGrant_drain {w : HReq} {ws : List HReq} (pass : Bool) (hl : q.lock = none) (hw : q.writes = w :: ws)
    (hd : 32 ≤ q.writes.length ∨ q.reads = [] ∨ q.drain = true ∧ 8 < q.writes.length) :
    mapGet {} (stkOf (hbmGrant s k pc pass 0) k).queues pc =
      rowOpened { q with writes := ws, drain := true, lock := if w.part then some (w.l, w.beat) else none } w.l := by
  have hkeep (rs : List HReq) : (rs.filter fun r => !([] : List HRow).contains (rowOf pc r.l)) = rs := List.filter_eq_self.mpr fun _ _ => rfl
  unfold hbmGrant
  dsimp only
  rw [hq, hl]
  dsimp only
  rw [hc, hkeep, hkeep]
  have hdrain : (!q.writes.isEmpty && (decide (32 ≤ q.writes.length) || q.reads.isEmpty || (q.drain && decide (8 < q.writes.length)))) = true := by
    rw [hw] at hd ⊢
    simp only [List.isEmpty_cons, Bool.not_false, Bool.true_and, Bool.or_eq_true, decide_eq_true_eq, List.isEmpty_iff, Bool.and_eq_true]
    tauto
  rw [if_pos hdrain, hw]
  dsimp only
  rw [List.erase_cons_head]
  split
  · next hp =>
    rw [queue_beatCheck, queue_updHq]
    rfl
  · next hp =>
    rw [queue_updHq]
    rfl

/-- R343: class 0 goes before the shares of classes 1 to 3. -/
theorem hbmGrant_read {r : HReq} {sh : List Nat} (pass : Bool) (hl : q.lock = none) (hdr : q.drain = false) (hw : q.writes.length < 32)
    (hr : q.reads ≠ []) (hpick : pickRead q 0 pass = some r ∧ sh = q.share ∨
      pickRead q 0 pass = none ∧ ∃ c, pickClass q.share q.reads = some (c, sh) ∧ pickRead q c pass = some r) :
    mapGet {} (stkOf (hbmGrant s k pc pass 0) k).queues pc = rowOpened { q with reads := q.reads.erase r, share := sh } r.l := by
  have hkeep (rs : List HReq) : (rs.filter fun r => !([] : List HRow).contains (rowOf pc r.l)) = rs := List.filter_eq_self.mpr fun _ _ => rfl
  obtain ⟨reads, writes, drain, share, openRow, lock, heldFor⟩ := q
  obtain rfl : lock = none := hl
  obtain rfl : drain = false := hdr
  dsimp only at hw hr
  unfold hbmGrant
  dsimp only
  rw [hq]
  dsimp only
  rw [hc, hkeep, hkeep, if_neg]
  · rcases hpick with ⟨hp, rfl⟩ | ⟨hp, c, hcl, hpc⟩
    · rw [hp]
      dsimp only
      rw [queue_beatCheck, queue_hbmStarved, queue_updHq, if_neg (by decide)]
      rfl
    · rw [hp]
      dsimp only
      rw [hcl]
      dsimp only
      rw [hpc]
      dsimp only
      rw [queue_beatCheck, queue_hbmStarved, queue_updHq, if_neg (by decide)]
      rfl
  · rw [decide_eq_false (by omega)]
    simp [hr]

end

/-! ### The patrol (R346) and the remaps (R348) -/

/-- The beats of a granule, as the patrol reads them. -/
def patrolBeats (k n : Nat) (outs : List Nat) (s : State) (bs : List Nat) : State :=
  bs.foldl (fun s b => beatCheck s k (n % 64) (n / 64) b (outs.getD b 0)) s

/-- A mark stays while the patrol goes on. -/
theorem memPoison_patrolBeats {k n a m : Nat} {outs : List Nat} (bs : List Nat) (s : State) (h : memPoison s.hbm a m = true) :
    memPoison (patrolBeats k n outs s bs).hbm a m = true := by
  induction bs generalizing s with
  | nil => exact h
  | cons b bs ih =>
    refine ih _ ?_
    obtain ⟨_, _, _, hsame, hmark⟩ := beatCheck_patrol s k (n % 64) (n / 64) b (outs.getD b 0)
    by_cases h3 : outs.getD b 0 = 3
    · rw [hmark h3]
      exact memPoison_mark_mono _ h
    · rw [hsame h3]
      exact h

theorem patrolBeats_keeps (k n : Nat) (outs bs : List Nat) (s : State) : (patrolBeats k n outs s bs).spm = s.spm ∧
    (patrolBeats k n outs s bs).hbm.cells = s.hbm.cells := by
  induction bs generalizing s with
  | nil => exact ⟨rfl, rfl⟩
  | cons b bs ih =>
    obtain ⟨hspm, _, hcells, _⟩ := beatCheck_patrol s k (n % 64) (n / 64) b (outs.getD b 0)
    obtain ⟨ihspm, ihcells⟩ := ih (beatCheck s k (n % 64) (n / 64) b (outs.getD b 0))
    exact ⟨ihspm.trans hspm, ihcells.trans hcells⟩

/-- R346: the beats that the patrol finds uncorrectable are marked, and no others. -/
theorem patrolBeats_poison {k n : Nat} {outs : List Nat} (bs : List Nat) (s : State) :
    (∀ b ∈ bs, outs.getD b 0 = 3 → memPoison (patrolBeats k n outs s bs).hbm (hbmIx k (n % 64) (n / 64) (32 * b)) 1 = true) ∧
    ((∀ b ∈ bs, outs.getD b 0 ≠ 3) → (patrolBeats k n outs s bs).hbm = s.hbm) := by
  induction bs generalizing s with
  | nil => exact ⟨nofun, fun _ => rfl⟩
  | cons b bs ih =>
    obtain ⟨_, _, _, hsame, hmark⟩ := beatCheck_patrol s k (n % 64) (n / 64) b (outs.getD b 0)
    obtain ⟨ihmark, ihsame⟩ := ih (beatCheck s k (n % 64) (n / 64) b (outs.getD b 0))
    refine ⟨fun c hc h3 => ?_, fun hnone => ?_⟩
    · rcases List.mem_cons.mp hc with rfl | hc
      · refine memPoison_patrolBeats bs _ ?_
        rw [hmark h3]
        exact memPoison_marked _ _
      · exact ihmark c hc h3
    · exact (ihsame fun c hc => hnone c (List.mem_cons_of_mem _ hc)).trans (hsame (hnone b List.mem_cons_self))

/-- The guards do not hang on the status. -/
theorem guarded_statusSet (s : State) (k pc i v : Nat) : guarded (setFld s (aHBM_STATUS k) i i v) k pc = guarded s k pc := by
  have h : aHBM_GUARD k ≠ aHBM_STATUS k := by
    rw [aHBM_GUARD, aHBM_STATUS]
    omega
  unfold guarded
  simp only [regGet_setFld_other _ _ _ _ _ _ h, fld_setFld_other _ _ _ _ _ _ _ _ h]

/-- Settles O32: a grant is the scheduler's choice on the pseudo-channel's queue, the outcomes of the beats touch only the marks, and a remap only the table. -/
theorem stackControllerDecisions : Obligations.StackControllerDecisions := by
  unfold Obligations.StackControllerDecisions
  refine ⟨fun s k pc now arrivals pass out z q hk hpc hz hlive hcands hq => ?grant, fun s k r rest hk hcands => ?remap,
    fun s k now outs z hk hz hlive hctl => ?patrol, fun s k hk hlive => ?refresh⟩
  case grant =>
    let w := updHq z k pc fun x => hbmArrive x z.tense.toNat (arrivals.map fun x =>
      { l := x.1 % 2 ^ 22, beat := x.2.1 % 8, cls := x.2.2.1 % 4, write := x.2.2.2.1, part := x.2.2.2.2 })
    have hexec (o : Nat) : exec (.pseudoChannelGrant k pc now arrivals pass false o) s = ran s (hbmGrant w k pc pass o) := by
      have hexec : exec (.pseudoChannelGrant k pc now arrivals pass false o) s = execPseudoChannelGrant k pc now arrivals pass false o s := rfl
      unfold execPseudoChannelGrant at hexec
      rw [← hz] at hexec
      dsimp only at hexec
      rw [hlive, if_neg (by decide), Bool.false_and, if_neg (by decide)] at hexec
      exact exec_guarded (by simp [hk, hpc]) hexec
    have hwq : mapGet {} (stkOf w k).queues pc = q := (queue_updHq _ _ _ _).trans hq.symm
    have hwc : (stkOf w k).cands = [] := (cands_updHq _ _ _ _).trans hcands
    clear_value w
    refine ⟨fun l b hl => ⟨_, ran_next (hexec _), ?_⟩, fun x ws hl hw hd => ⟨_, ran_next (hexec _), ?_⟩,
      fun r c sh hl hdr hw hr hpick => ⟨_, ran_next (hexec _), ?_⟩⟩
    · rw [stkOf_underQueue, hbmGrant_lock hwq pass out hl]
      rfl
    · rw [stkOf_underQueue, hbmGrant_drain hwq hwc pass hl hw hd]
      rfl
    · rw [stkOf_underQueue, hbmGrant_read hwq hwc pass hl hdr hw hr (hpick.imp_right fun ⟨h0, hc⟩ => ⟨h0, c, hc⟩)]
      rfl
  case remap =>
    have hexec : exec (.rowRemap k) s = execRowRemap k s := rfl
    unfold execRowRemap at hexec
    rw [hcands] at hexec
    dsimp only at hexec
    generalize hw : (if rest.isEmpty = true then clrBitOf (updStk s k fun x => { x with cands := rest }) (aHBM_STATUS k) 13
      else updStk s k fun x => { x with cands := rest }) = w at hexec
    have hstk : stkOf w k = { stkOf s k with cands := rest } ∧ w.hbm = s.hbm ∧ ∀ p, guarded w k p = guarded s k p := by
      rw [← hw]
      split
      · refine ⟨?_, by simp only [clrBitOf_keeps, updStk_keeps], fun p => guarded_statusSet _ k p 13 0⟩
        rw [clrBitOf, stkOf_setFld]
        exact stkOf_updStk_same _ _ _
      · exact ⟨stkOf_updStk_same _ _ _, by simp only [updStk_keeps], fun _ => rfl⟩
    clear hw
    obtain ⟨hstk, hhbm, hguard⟩ := hstk
    have hpend : stkSide Stack.cands k (pendRow w k r) = stkSide Stack.cands k w := pendRow_stkSide _ k (fun _ _ _ => rfl) w r
    have hmade (n : Nat) : stkSide (fun x => (x.cands, x.remap)) k (reportRepair (updStk w k fun x => { x with remap := x.remap ++ [⟨r, n⟩] }) k) =
        (w.hbm, w.spm, (stkOf w k).cands, (stkOf w k).remap ++ [⟨r, n⟩]) :=
      (stkSide_of_mem _ k (reportRepair_memSide _ k)).trans (by rw [stkSide, stkOf_updStk_same]; rfl)
    simp only [stkSide, Prod.mk.injEq] at hpend hmade
    rw [hguard, hstk] at hexec
    rw [hhbm, hstk] at hpend hmade
    change exec (.rowRemap k) s = guardUnit (decide (k < 12)) (ran s (match freeSpare (stkOf s k) r with
      | some n => if guarded s k r.pc then reportRepair (updStk w k fun x => { x with remap := x.remap ++ [⟨r, n⟩] }) k else pendRow w k r
      | none => pendRow w k r)) at hexec
    refine ⟨_, ran_next (exec_guarded (decide_eq_true hk) hexec), ?_⟩
    rw [stkOf_underQueue, hbm_underQueue]
    cases hf : freeSpare (stkOf s k) r with
    | none => exact ⟨hpend.2.2, hpend.1, nofun⟩
    | some n =>
      dsimp only
      split
      · obtain ⟨hb, _, hc, hr⟩ := hmade n
        exact ⟨hc, hb, fun m hm _ => by rw [hr, Option.some.inj hm]⟩
      · next hg => exact ⟨hpend.2.2, hpend.1, fun _ _ h => absurd h hg⟩
  case patrol =>
    have hexec : exec (.patrolScrub k now outs) s = execPatrolScrub k now outs s := rfl
    unfold execPatrolScrub at hexec
    rw [← hz] at hexec
    dsimp only at hexec
    rw [hlive, hctl, if_neg (by decide)] at hexec
    change exec (.patrolScrub k now outs) s = guardUnit (decide (k < 12)) (ran s (updStk (patrolBeats k (stkOf z k).patrol outs z (List.range 8)) k
      fun x => { x with patrol := ((stkOf z k).patrol + 1) % (64 * 4192256) })) at hexec
    obtain ⟨hspm, hcells⟩ := patrolBeats_keeps k (stkOf z k).patrol outs (List.range 8) z
    obtain ⟨hmarks, hnone⟩ := patrolBeats_poison (k := k) (n := (stkOf z k).patrol) (outs := outs) (List.range 8) z
    have hzmem : z.hbm = s.hbm ∧ z.spm = s.spm := by
      rw [hz]
      simp only [atTime_keeps, and_self]
    rw [hzmem.1] at hcells hnone
    rw [hzmem.2] at hspm
    generalize patrolBeats k (stkOf z k).patrol outs z (List.range 8) = w at hexec hspm hcells hmarks hnone
    refine ⟨_, ran_next (exec_guarded (decide_eq_true hk) hexec), ?_, ?_, ?_, fun b hb h3 => ?_, fun h => ?_⟩
    · rw [stkOf_underQueue, stkOf_updStk_same]
    · simp only [underQueue_keeps, updStk_keeps, hcells]
    · simp only [underQueue_keeps, updStk_keeps, hspm]
    · simp only [underQueue_keeps, updStk_keeps, hmarks b (List.mem_range.mpr hb) h3]
    · simp only [underQueue_keeps, updStk_keeps, hnone fun b hb => h b (List.mem_range.mp hb)]
  case refresh =>
    have hexec : exec (.refresh k) s = execRefresh k s := rfl
    unfold execRefresh at hexec
    rw [if_pos hlive] at hexec
    refine ⟨_, ran_next (exec_guarded (decide_eq_true hk) hexec), ?_, ?_, ?_⟩
    · rw [stkOf_underQueue, stkOf_updStk_same]
    · simp only [underQueue_keeps, updStk_keeps]
    · simp only [underQueue_keeps, updStk_keeps]

end Sys2Proof.Machine
end

section
/-! Stack temperatures and the traffic generator (R352 to R358). -/

namespace Sys2Proof.Machine

/-! ### A stack as its registers and its controller show it -/

/-- The status and result registers of stack `k`, the stacked memory and the controllers. -/
def stackView (k : Nat) (s : State) : Nat × Nat × Mem × Map Stack :=
  (regGet s (aHBM_STATUS k), regGet s (aHBM_TG_RESULT k), s.hbm, s.hstk)

section
variable {k : Nat} {s t : State} (h : stackView k t = stackView k s)
include h

theorem status_of_view (hi lo : Nat) : fld t (aHBM_STATUS k) hi lo = fld s (aHBM_STATUS k) hi lo := by
  simp only [stackView, Prod.mk.injEq] at h
  rw [fld, h.1, fld]

theorem hbm_of_view : t.hbm = s.hbm := congrArg (fun v => v.2.2.1) h

theorem stkOf_of_view : stkOf t k = stkOf s k := by
  simp only [stackView, Prod.mk.injEq] at h
  rw [stkOf, h.2.2.2, stkOf]

end

/-- A step that keeps the registers of the slices, the stacked memory and the controllers keeps what a stack shows. -/
theorem stackView_of_keep {s t : State} (k : Nat) (hr : ∀ a, 0x100000 ≤ a → a < 0x500000 → regGet t a = regGet s a) (hm : t.hbm = s.hbm)
    (hk : t.hstk = s.hstk) (h12 : k < 12) : stackView k t = stackView k s := by
  rw [stackView, hr _ (by unfold aHBM_STATUS aSlice; omega) (by unfold aHBM_STATUS aSlice; omega),
    hr _ (by unfold aHBM_TG_RESULT aSlice; omega) (by unfold aHBM_TG_RESULT aSlice; omega), hm, hk, stackView]

/-- A report writes no register of a slice, a port or a partition. -/
theorem regGet_report (s : State) (cls cause part slice unit : Nat) (d : List Nat) {a : Nat} (h : 0x100000 ≤ a) :
    regGet (report s cls cause part slice unit d) a = regGet s a := by
  have hsave (z : State) (b c : Nat) : regGet (unitSave z b c) = regGet z := Eq.refl (regGet z)
  unfold report
  dsimp only
  rw [regGet_postRpt _ _ (by unfold aRAS_RPT_STATUS; omega)]
  split
  · rw [hsave, satFld, regGet_setFld_other _ _ _ _ _ _ (by unfold aRAS_UNIT; omega)]
  · rfl

section
variable {k : Nat} (hk : k < 12) (s : State)
include hk

theorem report_stackView (cls cause part slice unit : Nat) (d : List Nat) :
    stackView k (report s cls cause part slice unit d) = stackView k s := by
  have hm := report_memSide s cls cause part slice unit d
  simp only [memSide, Prod.mk.injEq] at hm
  obtain ⟨hhbm, _, hstk⟩ := hm
  exact stackView_of_keep k (fun a h _ => regGet_report _ _ _ _ _ _ _ h) hhbm hstk hk

theorem reportStack_stackView (j : Nat) : stackView k (reportStack s j) = stackView k s := report_stackView hk _ _ _ _ _ _ _

theorem auditCore_stackView (kind part addr detail value : Nat) : stackView k (auditCore s kind part addr detail value) = stackView k s := by
  have keep {β : Type} (g : State → β) (hg : ∀ z, g (logRest z) = g z) : g (auditCore s kind part addr detail value) = g s :=
    (hg _).symm.trans ((congrArg g (auditCore_logRest s kind part addr detail value)).trans (hg s))
  exact stackView_of_keep k (fun a h _ => regGet_audit _ _ (by unfold aAUD_STATUS; omega)) (keep State.hbm fun _ => rfl) (keep State.hstk fun _ => rfl) hk

theorem postEvent_stackView (p code source ckey d0 d1 : Nat) : stackView k (postEvent s p code source ckey d0 d1) = stackView k s :=
  stackView_of_keep k (fun a _ h => regGet_postEvent _ _ _ _ _ _ _ (by unfold aPART_CQ_STATE aPart; omega))
    (by simp only [postEvent_keeps]) (by simp only [postEvent_keeps]) hk

theorem guaranteeYield_stackView (p yields prevails : Nat) : stackView k (guaranteeYield s p yields prevails) = stackView k s := by
  unfold guaranteeYield
  refine (stackView_of_keep k (fun a _ h => regGet_setFld_other _ _ _ _ _ _ ?_) ?_ (setFld_hstk _ _ _ _ _) hk).trans
    ((report_stackView hk _ _ _ _ _ _ _).trans (postEvent_stackView hk _ _ _ _ _ _ _))
  · unfold aPART_CFG aPart
    omega
  · simp only [setFld_keeps]

end

/-! ### The owner of a slice -/

theorem sliceOwner_of_cfg {s t : State} (h : ∀ p, regGet t (aPART_CFG p) = regGet s (aPART_CFG p)) (k : Nat) : sliceOwner t k = sliceOwner s k := by
  have hslices (p : Nat) : partSlices t p = partSlices s p := by
    rw [partSlices, partState, fld, fld, h, partSlices, partState, fld, fld]
  simp only [sliceOwner, hslices]

theorem liveCtxs_of_ctxs {s t : State} (h : t.ctxs = s.ctxs) (p : Nat) : liveCtxs t p = liveCtxs s p := by
  simp only [liveCtxs, ctxOf, h]

/-- What says which contexts work on a stack: its owner and the contexts. -/
def ownerPart (s : State) : (Nat → Nat) × Map Ctx := (fun p => regGet s (aPART_CFG p), s.ctxs)

section
variable {s t : State} (h : ownerPart t = ownerPart s)
include h

theorem sliceOwner_of_ownerPart (k : Nat) : sliceOwner t k = sliceOwner s k := sliceOwner_of_cfg (fun p => congrFun (congrArg Prod.fst h) p) k

theorem liveCtxs_of_ownerPart (p : Nat) : liveCtxs t p = liveCtxs s p := liveCtxs_of_ctxs (congrArg Prod.snd h) p

end

/-- No context works on a stack. -/
def idleStack (s : State) (k : Nat) : Prop := ∀ p, sliceOwner s k = some p → liveCtxs s p = []

theorem idleStack_of_ownerPart {s t : State} (h : ownerPart t = ownerPart s) {k : Nat} (hn : idleStack s k) : idleStack t k := fun p hp => by
  rw [liveCtxs_of_ownerPart h]
  exact hn p ((sliceOwner_of_ownerPart h k).symm.trans hp)

theorem ownerPart_setFld (s : State) {a : Nat} (hi lo v : Nat) (h : a < 0x500000) : ownerPart (setFld s a hi lo v) = ownerPart s := by
  have hctxs : (setFld s a hi lo v).ctxs = s.ctxs := by simp only [setFld_keeps]
  have hcfg (p : Nat) : regGet (setFld s a hi lo v) (aPART_CFG p) = regGet s (aPART_CFG p) :=
    regGet_setFld_other _ _ _ _ _ _ (by unfold aPART_CFG aPart; omega)
  simp only [ownerPart, hctxs, hcfg]

theorem report_ctxs (s : State) (cls cause part slice unit : Nat) (d : List Nat) : (report s cls cause part slice unit d).ctxs = s.ctxs :=
  (congrArg State.ctxs (report_rest s cls cause part slice unit d) : (rptRest _).ctxs = (rptRest _).ctxs)

theorem guaranteeYield_ctxs (s : State) (k yields prevails : Nat) : (guaranteeYield s k yields prevails).ctxs = s.ctxs := by
  rw [guaranteeYield, satFld]
  simp only [setFld_keeps, report_ctxs, postEvent_keeps]

theorem ownerPart_report (s : State) (cls cause part slice unit : Nat) (d : List Nat) : ownerPart (report s cls cause part slice unit d) = ownerPart s := by
  have hctxs := report_ctxs s cls cause part slice unit d
  have hcfg (p : Nat) : regGet (report s cls cause part slice unit d) (aPART_CFG p) = regGet s (aPART_CFG p) :=
    regGet_report _ _ _ _ _ _ _ (by unfold aPART_CFG aPart; omega)
  simp only [ownerPart, hctxs, hcfg]

/-! ### A stack that goes offline (R354) -/

section
variable {s : State} {k : Nat} (hk : k < 12)
include hk

theorem status_lt : aHBM_STATUS k < 0x500000 ∧ aHBM_STARVE k < 0x500000 ∧ aHBM_TG_RESULT k < 0x500000 := by
  unfold aHBM_STATUS aHBM_STARVE aHBM_TG_RESULT aSlice
  omega

/-- R354: what becomes of the work of a stack that goes offline. -/
def workOff (s : State) (k locks : Nat) : State :=
  match sliceOwner s k with
  | none => s
  | some p =>
    let z := postEvent ((List.range locks).foldl (fun s _ => guaranteeYield s p 5 2) s) p 7 (0x3000 + k) 0 k 0
    (liveCtxs z p).foldl (fun s c => ctxEnd s c stSTACK_OFFLINE none) z

theorem workOff_stackView (locks : Nat) (hidle : idleStack s k) : stackView k (workOff s k locks) = stackView k s := by
  unfold workOff
  split
  · rfl
  · next p hp =>
    extract_lets z
    have hctxs : z.ctxs = s.ctxs := by
      simp only [z, postEvent_keeps]
      exact foldl_keep State.ctxs _ (fun s _ => guaranteeYield_ctxs s p 5 2) _ _
    rw [liveCtxs_of_ctxs hctxs, hidle p hp]
    exact (postEvent_stackView hk _ _ _ _ _ _ _).trans (foldl_keep (stackView k) _ (fun s _ => guaranteeYield_stackView hk s p 5 2) _ _)

/-- R354: what an offline stack without contexts shows. -/
theorem stackOffline_facts (hon : stackOnline s k = true) (hidle : idleStack s k) :
    fld (stackOffline s k) (aHBM_STATUS k) 9 8 = fld s (aHBM_STATUS k) 9 8 ∧ stackOnline (stackOffline s k) k = false ∧
    fld (stackOffline s k) (aHBM_STATUS k) 11 11 = 1 ∧ stkOf (stackOffline s k) k = { stkOf s k with queues := [], run := none } := by
  unfold stackOffline
  rw [hon, if_neg (by decide)]
  extract_lets locks z₁ z₂ z₃ z₄
  have h₂ : fld z₂ (aHBM_STATUS k) 9 8 = fld s (aHBM_STATUS k) 9 8 ∧ stkOf z₂ k = { stkOf s k with queues := [], run := none } :=
    ⟨fld_setFld_other _ _ _ _ _ _ _ _ (by unfold aHBM_STATUS aHBM_TG_RESULT; omega), (stkOf_setFld _ _ _ _ _ _).trans (stkOf_updStk_same _ _ _)⟩
  have hown₂ : ownerPart z₂ = ownerPart s := ownerPart_setFld z₁ _ _ _ (status_lt hk).2.2
  clear_value z₂
  have hown : ownerPart z₃ = ownerPart s :=
    (ownerPart_setFld _ _ _ _ (status_lt hk).1).trans ((ownerPart_setFld _ _ _ _ (status_lt hk).1).trans hown₂)
  have h₃ : fld z₃ (aHBM_STATUS k) 9 8 = fld s (aHBM_STATUS k) 9 8 ∧ fld z₃ (aHBM_STATUS k) 10 10 = 0 ∧ fld z₃ (aHBM_STATUS k) 11 11 = 1 ∧
      stkOf z₃ k = { stkOf s k with queues := [], run := none } := by
    refine ⟨?_, ?_, fld_setBitOf_same _ _ _ (by decide), (stkOf_setFld _ _ _ _ _ _).trans ((stkOf_setFld _ _ _ _ _ _).trans h₂.2)⟩
    · rw [← h₂.1]
      exact (fld_setFld_apart _ _ _ (by decide) (by decide) (by decide)).trans (fld_setFld_apart _ _ _ (by decide) (by decide) (by decide))
    · exact (fld_setFld_apart _ _ _ (by decide) (by decide) (by decide)).trans (fld_clrBitOf_same _ _ _ (by decide))
  clear_value z₃
  have hidle₃ := idleStack_of_ownerPart hown hidle
  have hview : stackView k (auditCore (reportStack (workOff z₃ k locks) k) 0xB (partByte (workOff z₃ k locks) k) k 0 0) = stackView k z₃ :=
    (auditCore_stackView hk _ _ _ _ _ _).trans ((reportStack_stackView hk _ _).trans (workOff_stackView hk locks (idleStack_of_ownerPart hown hidle)))
  obtain ⟨hlevel, hoff, hrefresh, hstk⟩ := h₃
  refine ⟨(status_of_view hview _ _).trans hlevel, ?_, (status_of_view hview _ _).trans hrefresh, (stkOf_of_view hview).trans hstk⟩
  refine (congrArg (· == 1) ((status_of_view hview _ _).trans hoff)).trans rfl

end

/-! ### A temperature reading (R352, R353) -/

/-- What every reading writes, before it decides a level. -/
def readingNoted (s : State) (k : Nat) (t : Int) : State :=
  let st := aHBM_STATUS k
  let now := s.tense.toNat
  let x := stkOf s k
  let lv := fld s st 9 8
  let ns := if lv = 2 then x.hotNs + (now - x.readAt) else x.hotNs
  let s := satFld s (aHBM_STARVE k) 63 48 (ns / 1000000)
  let cool := if lv ≠ 0 ∧ t < levelAt lv - 3 then x.cool + 1 else 0
  let s := updStk s k fun x => { x with
    hotNs := ns % 1000000, readAt := now, cool := cool
    coolSince := if t < 95 then (match x.coolSince with | some a => some a | none => some now) else none }
  setFld s st 7 0 (toTwos 8 t)

/-- R353: the readings in a row below the level's threshold, this one with them. -/
def coolRun (s : State) (k : Nat) (t : Int) : Nat :=
  if fld s (aHBM_STATUS k) 9 8 ≠ 0 ∧ t < levelAt (fld s (aHBM_STATUS k) 9 8) - 3 then (stkOf s k).cool + 1 else 0

/-- R353: the level goes to `lv` and the count of cool readings starts again. -/
def levelSet (s : State) (k lv : Nat) : State :=
  reportStack (updStk (setFld s (aHBM_STATUS k) 9 8 lv) k fun x => { x with cool := 0 }) k

theorem stackReading_eq (s : State) (k : Nat) (t : Int) : stackReading s k t =
    if fld s (aHBM_STATUS k) 9 8 < levelOf t then
      if levelOf t = 3 then stackOffline (levelSet (readingNoted s k t) k 3) k else levelSet (readingNoted s k t) k (levelOf t)
    else if coolRun s k t = 16 ∧ fld s (aHBM_STATUS k) 9 8 ≠ 3 then levelSet (readingNoted s k t) k (fld s (aHBM_STATUS k) 9 8 - 1)
    else readingNoted s k t := by
  unfold stackReading
  dsimp only
  split
  · split
    · next h => rw [h]; rfl
    · rfl
  · rfl

theorem toTwos_lt (w : Nat) (i : Int) : toTwos w i < 2 ^ w := by
  have h : ((2 ^ w : Nat) : Int) ≠ 0 := by positivity
  have h1 := Int.emod_nonneg i h
  have h2 := Int.emod_lt_of_pos i (show (0 : Int) < ((2 ^ w : Nat) : Int) by positivity)
  rw [toTwos]
  omega

theorem levelOf_lt (t : Int) : levelOf t < 4 := by
  unfold levelOf
  split <;> [omega; split <;> [omega; split <;> omega]]

section
variable {s : State} {k : Nat} (hk : k < 12) (t : Int)
include hk

theorem readingNoted_facts : fld (readingNoted s k t) (aHBM_STATUS k) 9 8 = fld s (aHBM_STATUS k) 9 8 ∧
    fld (readingNoted s k t) (aHBM_STATUS k) 7 0 = toTwos 8 t ∧ stackOnline (readingNoted s k t) k = stackOnline s k ∧
    (readingNoted s k t).hbm = s.hbm ∧ ownerPart (readingNoted s k t) = ownerPart s := by
  have hupd (z : State) (f : Stack → Stack) (a hi lo : Nat) : fld (updStk z k f) a hi lo = fld z a hi lo := Eq.refl (fld z a hi lo)
  have hown (z : State) (f : Stack → Stack) : ownerPart (updStk z k f) = ownerPart z := Eq.refl (ownerPart z)
  have hne : aHBM_STATUS k ≠ aHBM_STARVE k := by
    unfold aHBM_STATUS aHBM_STARVE
    omega
  unfold readingNoted
  dsimp only
  refine ⟨?_, ?_, ?_, ?_, ?_⟩
  · rw [fld_setFld_apart _ _ _ (by decide) (by decide) (by decide), hupd, fld_satFld_other _ _ _ _ _ _ _ _ hne]
  · rw [fld_setFld_same _ _ _ (by decide) (by decide)]
    exact Nat.mod_eq_of_lt (toTwos_lt 8 t)
  · rw [stackOnline, fld_setFld_apart _ _ _ (by decide) (by decide) (by decide), hupd, fld_satFld_other _ _ _ _ _ _ _ _ hne, stackOnline]
  · simp only [setFld_keeps, updStk_keeps, satFld_keeps]
  · rw [ownerPart_setFld _ _ _ _ (status_lt hk).1, hown, satFld, ownerPart_setFld _ _ _ _ (status_lt hk).2.1]

theorem levelSet_facts (lv : Nat) (h : lv < 4) : fld (levelSet s k lv) (aHBM_STATUS k) 9 8 = lv ∧
    fld (levelSet s k lv) (aHBM_STATUS k) 7 0 = fld s (aHBM_STATUS k) 7 0 ∧ stackOnline (levelSet s k lv) k = stackOnline s k ∧
    (levelSet s k lv).hbm = s.hbm ∧ (stkOf (levelSet s k lv) k).cool = 0 ∧ ownerPart (levelSet s k lv) = ownerPart s := by
  have hupd (z : State) (f : Stack → Stack) (a hi lo : Nat) : fld (updStk z k f) a hi lo = fld z a hi lo := Eq.refl (fld z a hi lo)
  have hown (z : State) (f : Stack → Stack) : ownerPart (updStk z k f) = ownerPart z := Eq.refl (ownerPart z)
  have hview : stackView k (levelSet s k lv) = _ := reportStack_stackView hk _ k
  refine ⟨?_, ?_, ?_, ?_, ?_, ?_⟩
  · rw [status_of_view hview, hupd, fld_setFld_same _ _ _ (by decide) (by decide)]
    exact Nat.mod_eq_of_lt h
  · rw [status_of_view hview, hupd, fld_setFld_apart _ _ _ (by decide) (by decide) (by decide)]
  · rw [stackOnline, status_of_view hview, hupd, fld_setFld_apart _ _ _ (by decide) (by decide) (by decide), stackOnline]
  · rw [hbm_of_view hview]
    simp only [updStk_keeps, setFld_keeps]
  · rw [stkOf_of_view hview, stkOf_updStk_same]
  · rw [levelSet, reportStack, ownerPart_report, hown, ownerPart_setFld _ _ _ _ (status_lt hk).1]

/-! ### A stack that comes online (R354) -/

omit hk in
theorem stackTrain_facts (unrep : List (Nat × Nat × Nat)) : fld (stackTrain s k unrep) (aHBM_STATUS k) 10 10 = 1 ∧
    fld (stackTrain s k unrep) (aHBM_STATUS k) 11 11 = 0 ∧ (stackTrain s k unrep).hbm = s.hbm := by
  unfold stackTrain
  refine ⟨fld_setBitOf_same _ _ _ (by decide), (fld_setFld_apart _ _ _ (by decide) (by decide) (by decide)).trans (fld_clrBitOf_same _ _ _ (by decide)), ?_⟩
  simp only [setBitOf_keeps, clrBitOf_keeps]
  unfold stackRepair
  dsimp only
  have hrep (z : State) : (reportRepair z k).hbm = z.hbm := congrArg (fun p => p.1) (reportRepair_memSide z k)
  split
  · rfl
  · rw [hrep]
    split
    · simp only [updStk_keeps]
    · simp only [setBitOf_keeps, updStk_keeps]

theorem stackOnlined_facts (unrep : List (Nat × Nat × Nat)) {lv : Nat} (hlv : lv < 4) (kind part addr detail value : Nat)
    {w : State} (hw : w = auditCore (reportStack (updStk (setFld (stackWipe (stackTrain s k unrep) k) (aHBM_STATUS k) 9 8 lv) k
      fun x => { x with cool := 0 }) k) kind part addr detail value) :
    stackOnline w k = true ∧ fld w (aHBM_STATUS k) 11 11 = 0 ∧ fld w (aHBM_STATUS k) 9 8 = lv ∧
    w.hbm = memZero s.hbm (hbmIx k 0 0 0) (2 ^ 36) := by
  have hupd (z : State) (f : Stack → Stack) (a hi lo : Nat) : fld (updStk z k f) a hi lo = fld z a hi lo := Eq.refl (fld z a hi lo)
  have hwipe (z : State) (a hi lo : Nat) : fld (stackWipe z k) a hi lo = fld z a hi lo := Eq.refl (fld z a hi lo)
  have hzero (z : State) : (stackWipe z k).hbm = memZero z.hbm (hbmIx k 0 0 0) (2 ^ 36) := Eq.refl (stackWipe z k).hbm
  obtain ⟨hon, hself, hhbm⟩ := stackTrain_facts (s := s) (k := k) unrep
  have hview := (congrArg (stackView k) hw).trans ((auditCore_stackView hk _ _ _ _ _ _).trans (reportStack_stackView hk _ _))
  refine ⟨?_, ?_, ?_, ?_⟩
  · rw [stackOnline, status_of_view hview, hupd, fld_setFld_apart _ _ _ (by decide) (by decide) (by decide), hwipe, hon]
    rfl
  · rw [status_of_view hview, hupd, fld_setFld_apart _ _ _ (by decide) (by decide) (by decide), hwipe, hself]
  · rw [status_of_view hview, hupd, fld_setFld_same _ _ _ (by decide) (by decide)]
    exact Nat.mod_eq_of_lt hlv
  · rw [hbm_of_view hview]
    simp only [updStk_keeps, setFld_keeps]
    rw [hzero, hhbm]

end

/-! ### The traffic generator (R356, R357) -/

/-- A beat that fails changes no byte and no run of the generator. -/
theorem tgFail_keeps (s : State) (k pc l kind : Nat) : ((tgFail s k pc l kind).hbm, (stkOf (tgFail s k pc l kind) k).run) = (s.hbm, (stkOf s k).run) := by
  have keep {u v : State} (h : memSide v = memSide u) : (v.hbm, (stkOf v k).run) = (u.hbm, (stkOf u k).run) :=
    congrArg (fun p : _ × _ × _ => (p.1, p.2.2)) (stkSide_of_mem Stack.run k h)
  have hcand (z : State) (r : HRow) : ((candidate z k r).hbm, (stkOf (candidate z k r) k).run) = (z.hbm, (stkOf z k).run) :=
    congrArg (fun p : _ × _ × _ => (p.1, p.2.2)) (candidate_stkSide Stack.run k (fun _ _ _ _ _ => rfl) z r)
  have hcount (v : State) (hi lo : Nat) : memSide (satFld v (aHBM_ERRCNT k) hi lo 1) = memSide v := setFld_memSide _ _ _ _ _
  unfold tgFail
  extract_lets e z z₁ z₂
  have hz : (z₁.hbm, (stkOf z₁ k).run) = (s.hbm, (stkOf s k).run) := by
    refine (hcand z _).trans (keep ?_)
    unfold z
    split
    · exact hcount _ _ _
    · split
      · exact hcount _ _ _
      · rfl
  clear_value z₁
  split
  · split
    · exact (keep (report_memSide _ _ _ _ _ _ _)).trans hz
    · have hesc (u : State) (l : List Nat) : (({ u with escaped := l } : State).hbm, (stkOf { u with escaped := l } k).run) = (u.hbm, (stkOf u k).run) := rfl
      exact (hesc _ _).trans ((keep (report_memSide _ _ _ _ _ _ _)).trans hz)
  · exact hz

/-- R357: what the end of a run shows, but for the memory of a destructive one. -/
def runShown (s : State) (k : Nat) (fails : List (Nat × Nat × Nat)) : State :=
  let a := aHBM_TG_RESULT k
  let f0 := fails.headD (0, 0, 0)
  let z := fails.foldl (fun s f => tgFail s k (f.1 % 64) (f.2.1 % 2 ^ 22) f.2.2) s
  let z := setFld (setFld (setFld (setFld z a 31 16 (min 65535 fails.length)) a 37 32 f0.1) a 59 38 f0.2.1) a 63 60 f0.2.2
  setBitOf (clrBitOf (updStk z k fun x => { x with run := none }) a 0) a 1

theorem runShown_facts (s : State) (k : Nat) (fails : List (Nat × Nat × Nat)) : (stkOf (runShown s k fails) k).run = none ∧
    fld (runShown s k fails) (aHBM_TG_RESULT k) 0 0 = 0 ∧ fld (runShown s k fails) (aHBM_TG_RESULT k) 1 1 = 1 ∧
    fld (runShown s k fails) (aHBM_TG_RESULT k) 31 16 = min 65535 fails.length ∧ (runShown s k fails).hbm = s.hbm := by
  have hfold := foldl_keep (fun z : State => (z.hbm, (stkOf z k).run)) (fun s f => tgFail s k (f.1 % 64) (f.2.1 % 2 ^ 22) f.2.2)
    (fun z f => tgFail_keeps z k _ _ _) fails s
  have hupd (z : State) (f : Stack → Stack) (a hi lo : Nat) : fld (updStk z k f) a hi lo = fld z a hi lo := Eq.refl (fld z a hi lo)
  unfold runShown
  extract_lets a f0 z z₁
  have hz : z.hbm = s.hbm := congrArg Prod.fst hfold
  clear_value z
  refine ⟨?_, ?_, fld_setBitOf_same _ _ _ (by decide), ?_, ?_⟩
  · rw [setBitOf, stkOf_setFld, clrBitOf, stkOf_setFld, stkOf_updStk_same]
  · exact (fld_setFld_apart _ _ _ (by decide) (by decide) (by decide)).trans (fld_clrBitOf_same _ _ _ (by decide))
  · rw [setBitOf, fld_setFld_apart _ _ _ (by decide) (by decide) (by decide), clrBitOf, fld_setFld_apart _ _ _ (by decide) (by decide) (by decide), hupd]
    unfold z₁
    rw [fld_setFld_apart _ _ _ (by decide) (by decide) (by decide), fld_setFld_apart _ _ _ (by decide) (by decide) (by decide),
      fld_setFld_apart _ _ _ (by decide) (by decide) (by decide), fld_setFld_same _ _ _ (by decide) (by decide)]
    exact Nat.mod_eq_of_lt (by omega)
  · simp only [setBitOf_keeps, clrBitOf_keeps, updStk_keeps, z₁, setFld_keeps, hz]

/-- A strobe that is dropped leaves what a run of the generator hangs on. -/
theorem strobeClr_facts (s : State) (k : Nat) : bit (regGet (strobeClr s (aHBM_TG_CTL k) 0) (aHBM_TG_CTL k)) 2 = bit (regGet s (aHBM_TG_CTL k)) 2 ∧
    actOn (strobeClr s (aHBM_TG_CTL k) 0) 4 k = actOn s 4 k ∧ stkOf (strobeClr s (aHBM_TG_CTL k) 0) k = stkOf s k ∧
    stackLive (strobeClr s (aHBM_TG_CTL k) 0) k = stackLive s k ∧ strobeOf (strobeClr s (aHBM_TG_CTL k) 0) (aHBM_TG_CTL k) 0 = none :=
  ⟨rfl, rfl, rfl, rfl, strobeOf_strobeClr_same _ _ _⟩

theorem fld_atTime (s : State) (now a hi lo : Nat) : fld (atTime s now) a hi lo = fld s a hi lo := fld_of_regs (by simp only [atTime_keeps]) _ _ _

/-- Settles O33: a reading's level is decided from what it notes, a stack goes on and off line as its status says, and a run ends with what it shows. -/
theorem stackTemperatureAndTraffic : Obligations.StackTemperatureAndTraffic := by
  unfold Obligations.StackTemperatureAndTraffic
  refine ⟨⟨fun s k temp now z lv hk hz hrun hlv hup h3 => ?up, fun s k temp now z lv hk hz hrun hlv h0 h3 hcool h15 => ?down,
    fun s k temp now z hk hz hrun hlv hhot hon hidle => ?off, fun s k now unrep z a hk hz hoff hidle hsince ha hready hpwr hdom => ?online⟩,
    fun s k v hk hv hnone hlive => ⟨fun hok => ?start, fun hdestr hact => ?refused⟩, fun s k v r hk hv hr => ?stop,
    fun s k now fails r hk hr hexp => ?runEnd⟩
  case up =>
    have hexec : exec (.stackTemperatureReading k temp now) s = execStackTemperatureReading k temp now s := rfl
    unfold execStackTemperatureReading at hexec
    rw [if_pos hrun, ← hz, stackReading_eq, ← hlv, if_pos hup, if_neg (by omega)] at hexec
    obtain ⟨_, htemp, hon, hhbm, _⟩ := readingNoted_facts (s := z) hk temp
    obtain ⟨hl, hl0, hlon, hlhbm, hlc, _⟩ := levelSet_facts (s := readingNoted z k temp) hk (levelOf temp) (levelOf_lt temp)
    have hzon : stackOnline z k = stackOnline s k := by
      rw [hz, stackOnline, fld_atTime, stackOnline]
    have hzhbm : z.hbm = s.hbm := by rw [hz]; simp only [atTime_keeps]
    refine ⟨_, ran_next (exec_guarded (decide_eq_true hk) hexec), ?_, ?_, ?_, ?_, ?_⟩
    · rw [fld_underQueue, hl]
    · rw [fld_underQueue, hl0, htemp]
    · rw [stkOf_underQueue, hlc]
    · rw [stackOnline, fld_underQueue, ← hzon, ← hon, ← hlon, stackOnline]
    · simp only [underQueue_keeps, hlhbm, hhbm, hzhbm]
  case down =>
    have hexec : exec (.stackTemperatureReading k temp now) s = execStackTemperatureReading k temp now s := rfl
    have hlv4 : lv < 4 := hlv ▸ fld_lt _ _ _ _
    have hnup : ¬lv < levelOf temp := by
      obtain rfl | rfl : lv = 1 ∨ lv = 2 := by omega
      · have h1 : levelAt 1 = 85 := rfl
        rw [levelOf, if_neg (by omega), if_neg (by omega), if_neg (by omega)]
        decide
      · have h2 : levelAt 2 = 95 := rfl
        rw [levelOf, if_neg (by omega), if_neg (by omega)]
        split <;> decide
    unfold execStackTemperatureReading at hexec
    have hcr : coolRun z k temp = 16 := by rw [coolRun, ← hlv, if_pos ⟨h0, hcool⟩, h15]
    rw [if_pos hrun, ← hz, stackReading_eq, hcr, ← hlv, if_neg hnup, if_pos ⟨rfl, h3⟩] at hexec
    obtain ⟨_, htemp, _, hhbm, _⟩ := readingNoted_facts (s := z) hk temp
    obtain ⟨hl, hl0, _, hlhbm, hlc, _⟩ := levelSet_facts (s := readingNoted z k temp) hk (lv - 1) (by omega)
    have hzhbm : z.hbm = s.hbm := by rw [hz]; simp only [atTime_keeps]
    refine ⟨_, ran_next (exec_guarded (decide_eq_true hk) hexec), ?_, ?_, ?_, ?_⟩
    · rw [fld_underQueue, hl]
    · rw [fld_underQueue, hl0, htemp]
    · rw [stkOf_underQueue, hlc]
    · simp only [underQueue_keeps, hlhbm, hhbm, hzhbm]
  case off =>
    have hexec : exec (.stackTemperatureReading k temp now) s = execStackTemperatureReading k temp now s := rfl
    have hlev : levelOf temp = 3 := if_pos hhot
    unfold execStackTemperatureReading at hexec
    rw [if_pos hrun, ← hz, stackReading_eq, hlev, if_pos hlv, if_pos rfl] at hexec
    obtain ⟨_, _, hnon, _, hnown⟩ := readingNoted_facts (s := z) hk temp
    obtain ⟨hl, _, hlon, _, _, hlown⟩ := levelSet_facts (s := readingNoted z k temp) hk 3 (by decide)
    obtain ⟨h98, hoff, href, hstk⟩ := stackOffline_facts hk (hlon.trans (hnon.trans hon)) (idleStack_of_ownerPart (hlown.trans hnown) hidle)
    refine ⟨_, ran_next (exec_guarded (decide_eq_true hk) hexec), ?_, ?_, ?_, ?_, ?_⟩
    · rw [fld_underQueue, h98, hl]
    · rw [stackOnline, fld_underQueue]
      exact hoff
    · rw [fld_underQueue, href]
    · rw [stkOf_underQueue, hstk]
    · rw [stkOf_underQueue, hstk]
  case online =>
    have hexec : exec (.stackOnline k now unrep) s = execStackOnline k now unrep s := rfl
    unfold execStackOnline at hexec
    rw [← hz] at hexec
    dsimp only at hexec
    rw [if_neg] at hexec
    · obtain ⟨hon, hself, hlv, hhbm⟩ := stackOnlined_facts (s := z) hk unrep (levelOf_lt (sext 8 (fld z (aHBM_STATUS k) 7 0))) _ _ _ _ _ rfl
      have hzhbm : z.hbm = s.hbm := by rw [hz]; simp only [atTime_keeps]
      refine ⟨_, ran_next (exec_guarded (decide_eq_true hk) hexec), ?_, ?_, ?_, fun b hb => ?_, fun b hb => ?_⟩
      · rw [stackOnline, fld_underQueue]
        exact hon
      · rw [fld_underQueue]
        exact hself
      · rw [fld_underQueue]
        exact hlv
      · rw [hbm_underQueue, hhbm]
        exact ⟨memByte_memZero_inside _ _ _ _ (by omega) (by omega), memPoison_memZero_inside _ (by omega) (by omega)⟩
      · rw [hbm_underQueue, hhbm, memByte_memZero_outside _ _ _ _ hb, hzhbm]
    · cases hp : sliceOwner z k with
      | none => simp [hoff, hsince, ha, hready, hpwr, hdom]
      | some p => simp [hoff, hsince, ha, hready, hpwr, hdom, hidle p hp]
  case start =>
    have hexec : exec (.hbmTgStart k) s = execHbmTgStart k s := rfl
    obtain ⟨hbit, hact, hstk, hzlive, hstrobe⟩ := strobeClr_facts s k
    unfold execHbmTgStart at hexec
    dsimp only at hexec
    rw [hv] at hexec
    dsimp only at hexec
    generalize strobeClr s (aHBM_TG_CTL k) 0 = z at hexec hbit hact hstk hzlive hstrobe
    have hrefuse : ¬(bit (regGet s (aHBM_TG_CTL k)) 2 && !actOn s 4 k) = true := by
      rcases hok with h | h <;> simp [h]
    rw [hbit, hact, hstk, hnone, hzlive, hlive, if_neg (by decide), if_neg hrefuse, if_neg (by decide)] at hexec
    refine ⟨_, ran_next (exec_guarded (decide_eq_true hk) hexec), ?_, ?_, ?_⟩
    · rw [stkOf_underQueue, tgStart, setBitOf, stkOf_setFld, stkOf_updStk_same]
    · rw [fld_underQueue]
      exact fld_setBitOf_same _ _ _ (by decide)
    · rw [← hstrobe]
      exact strobeOf_of_strobes (by simp only [underQueue_keeps, tgStart, setBitOf_keeps, updStk_keeps]) _ _
  case refused =>
    have hexec : exec (.hbmTgStart k) s = execHbmTgStart k s := rfl
    obtain ⟨hbit, hzact, hstk, -, -⟩ := strobeClr_facts s k
    unfold execHbmTgStart at hexec
    dsimp only at hexec
    rw [hv] at hexec
    dsimp only at hexec
    generalize strobeClr s (aHBM_TG_CTL k) 0 = z at hexec hbit hzact hstk
    rw [hbit, hzact, hstk, hnone, hdestr, hact, if_neg (by decide), if_pos (by decide)] at hexec
    refine ⟨_, ran_next (exec_guarded (decide_eq_true hk) hexec), ?_, ?_⟩
    · rw [stkOf_underQueue, setBitOf, stkOf_setFld, hstk, hnone]
    · rw [fld_underQueue]
      exact fld_setBitOf_same _ _ _ (by decide)
  case stop =>
    have hexec : exec (.hbmTgStop k) s = execHbmTgStop k s := rfl
    unfold execHbmTgStop at hexec
    dsimp only at hexec
    rw [hv] at hexec
    refine ⟨_, ran_next (exec_guarded (decide_eq_true hk) hexec), ?_, ?_⟩
    · have hstk : stkOf (strobeClr s (aHBM_TG_CTL k) 1) k = stkOf s k := rfl
      rw [stkOf_underQueue, stkOf_updStk_same, hstk, hr]
      rfl
    · exact strobeOf_strobeClr_same _ _ _
  case runEnd =>
    have hexec : exec (.trafficGeneratorRunEnd k now fails) s = execTrafficGeneratorRunEnd k now fails s := rfl
    have hz : (stkOf (atTime s now) k).run = some r ∧ (atTime s now).hbm = s.hbm ∧ fld (atTime s now) (aHBM_TG_CTL k) 10 9 = 0 := by
      rw [stkOf, fld_atTime]
      simp only [atTime_keeps, hexp, and_true]
      exact hr
    obtain ⟨hr, hhbm, hexp⟩ := hz
    unfold execTrafficGeneratorRunEnd at hexec
    dsimp only at hexec
    rw [hr] at hexec
    dsimp only at hexec
    rw [hexp, if_pos rfl] at hexec
    obtain ⟨hrun, h0, h1, hcount, hmem⟩ := runShown_facts (atTime s now) k fails
    change exec (.trafficGeneratorRunEnd k now fails) s = guardUnit (decide (k < 12)) (ran s
      (if r.destr = true then stackWipe (runShown (atTime s now) k fails) k else runShown (atTime s now) k fails)) at hexec
    generalize runShown (atTime s now) k fails = z at hexec hrun h0 h1 hcount hmem
    refine ⟨_, ran_next (exec_guarded (decide_eq_true hk) hexec), ?_⟩
    cases r.destr with
    | false =>
      rw [if_neg (by decide), stkOf_underQueue, fld_underQueue, fld_underQueue, fld_underQueue]
      exact ⟨hrun, h0, h1, hcount, fun _ => hmem.trans hhbm, nofun⟩
    | true =>
      rw [if_pos rfl, stkOf_underQueue, fld_underQueue, fld_underQueue, fld_underQueue]
      exact ⟨hrun, h0, h1, hcount, nofun, fun _ b hb => memByte_memZero_inside z.hbm _ _ _ (by omega) (by omega)⟩

end Sys2Proof.Machine
end

section
/-! Work taken in and compounds placed (R667, R289, R294). -/

namespace Sys2Proof.Machine

/-! ### What a placement leaves of a program -/

/-- Where a program stands. -/
def ipAt (s : State) (id : Nat) : Option Nat := (progOf s id).map (·.ip)

theorem ipAt_of_progs {s t : State} (h : t.progs = s.progs) (id : Nat) : ipAt t id = ipAt s id := by rw [ipAt, progOf, h, ipAt, progOf]

/-- A program record put back with its place leaves every program where it stood. -/
theorem ipAt_setProg {s : State} {o : Nat} {p q : Prog} (h : progOf s o = some p) (hip : q.ip = p.ip) (id : Nat) : ipAt (setProg s o q) id = ipAt s id := by
  by_cases hid : id = o
  · rw [hid, ipAt, progOf_setProg, ipAt, h, Option.map_some, Option.map_some, hip]
  · rw [ipAt, progOf_setProg_other _ _ _ _ hid, ipAt]

theorem ipAt_updProg (s : State) (o : Nat) {f : Prog → Prog} (hip : ∀ p, (f p).ip = p.ip) (id : Nat) : ipAt (updProg s o f) id = ipAt s id := by
  unfold updProg
  split
  · next p hp => exact ipAt_setProg hp (hip p) id
  · rfl

theorem dvaWrite_progs (s : State) (k sl a : Nat) (bs : List Byte) (po : Bool) : (dvaWrite s k sl a bs po).progs = s.progs :=
  (congrArg State.progs (dvaWrite_rest s k sl a bs po) : (memRest _).progs = (memRest _).progs)

theorem spillSpace_ipAt (s : State) (o id : Nat) : ipAt (spillSpace s o) id = ipAt s id := by
  unfold spillSpace
  split
  · rfl
  · next p hp =>
    dsimp only
    split
    · next v n _ _ =>
      generalize hz : dvaWrite _ _ _ _ (natLe 32 _) _ = z
      have hprogs : z.progs = s.progs := by
        rw [← hz, dvaWrite_progs, dvaWrite_progs]
        exact foldl_keep State.progs _ (fun _ _ => dvaWrite_progs _ _ _ _ _ _) _ _
      have hp' : progOf z o = some p := by rw [progOf, hprogs]; exact hp
      have htail (q : Prog) (f : CtxRun → CtxRun) : ipAt (updRun (dropSpace (setProg z o q) o) p.cid f) id = ipAt (setProg z o q) id := ipAt_of_progs rfl id
      rw [htail]
      exact (ipAt_setProg hp' (by rfl) id).trans (ipAt_of_progs hprogs id)
    · rfl

theorem unspill_ipAt (s : State) (o v id : Nat) : ipAt (unspill s o v) id = ipAt s id := by
  unfold unspill
  split
  · rfl
  · next p hp =>
    split
    · refine ipAt_setProg hp ?_ id
      rw [foldl_keep Prog.ip _ (fun _ _ => ?_)]
      rfl
    · rfl

theorem vrbPerf_progs (s : State) (v j n : Nat) : (vrbPerf s v j n).progs = s.progs := by
  rw [vrbPerf]
  simp only [satFld_keeps]

theorem bringSpace_ipAt (s : State) (o v id : Nat) : ipAt (bringSpace s o v) id = ipAt s id := by
  unfold bringSpace
  split
  · rfl
  · split
    · rfl
    · dsimp only
      have hverb (z : State) (f : Verb → Verb) : ipAt (updVerb z v f) id = ipAt z id := ipAt_of_progs rfl id
      have hdrop (z : State) : ipAt (dropSpace z o) id = ipAt z id := ipAt_of_progs rfl id
      have hmoved (z : State) (x : SpaceAt) : ipAt (updProg z o fun p => { p with space := x }) id = ipAt z id := ipAt_updProg z o (fun _ => by rfl) id
      rw [hverb, hmoved, hdrop]
      have hspill : ipAt (match (verbOf s v).space with | some o => spillSpace s o | none => s) id = ipAt s id := by
        split
        · exact spillSpace_ipAt _ _ _
        · rfl
      split
      · exact hspill
      · exact (ipAt_of_progs (vrbPerf_progs _ _ _ _) id).trans ((unspill_ipAt _ _ _ _).trans hspill)

/-! ### The choice of a Verb -/

/-- A choice that takes each of a list or keeps what it has ends on one of the list. -/
theorem foldl_choice_mem {α : Type} {f : Option α → α → Option α} (hf : ∀ b v, f b v = some v ∨ f b v = b ∧ b.isSome = true) (l : List α) (b : Option α) :
    (∃ v ∈ l, l.foldl f b = some v) ∨ l.foldl f b = b ∧ (l = [] ∨ b.isSome = true) := by
  induction l generalizing b with
  | nil => exact .inr ⟨rfl, .inl rfl⟩
  | cons x l ih =>
    rw [List.foldl_cons]
    rcases ih (f b x) with ⟨v, hv, h⟩ | ⟨h, _⟩
    · exact .inl ⟨v, List.mem_cons_of_mem _ hv, h⟩
    · rcases hf b x with hx | ⟨hx, hb⟩
      · exact .inl ⟨x, List.mem_cons_self, h.trans hx⟩
      · exact .inr ⟨h.trans hx, .inr hb⟩

/-- R289: some free Verb is chosen where there is one. -/
theorem chooseVerb_mem (s : State) (id : Nat) (p : Prog) {free : List Nat} (h : free ≠ []) : ∃ v ∈ free, chooseVerb s id p free = some v := by
  unfold chooseVerb
  extract_lets rs key
  refine (foldl_choice_mem (fun b v => ?_) free none).resolve_right fun ⟨_, hnil⟩ => hnil.elim h nofun
  cases b with
  | none => exact .inl rfl
  | some u =>
    dsimp only
    split
    · exact .inl rfl
    · exact .inr ⟨rfl, rfl⟩

/-- R294: the spill slot that a placed program takes where it has none. -/
def slotTaken (s : State) (cid id : Nat) : State :=
  match slotOf s cid id, freeSlot s cid with
  | none, some n => updRun s cid fun r => { r with slots := mapIns r.slots n id }
  | _, _ => s

/-- R289, R107: the compound that program `id` begins on Verb `v`. -/
def compoundBegun (s : State) (id v cid : Nat) : State :=
  let y := updProg s id fun p => { p with comp := some { verb := v, first := p.ip } }
  let z := updVerb y v fun x => { x with prog := some id, busyFrom := y.tense.toNat }
  setBitOf (regSet z (aVRB_MODE (v / 8) (v % 8)) (ctxOf z cid).vmode) (vrbStatus v) 8

theorem slotTaken_ipAt (s : State) (cid id : Nat) : ipAt (slotTaken s cid id) id = ipAt s id := by
  unfold slotTaken
  split <;> rfl

theorem compoundBegun_facts {s : State} {id : Nat} {p : Prog} (h : progOf s id = some p) (v cid : Nat) :
    progOf (compoundBegun s id v cid) id = some { p with comp := some { verb := v, first := p.ip } } ∧
    (verbOf (compoundBegun s id v cid) v).prog = some id ∧ fld (compoundBegun s id v cid) (vrbStatus v) 8 8 = 1 := by
  unfold compoundBegun
  extract_lets y z
  have hz : progOf z id = some { p with comp := some { verb := v, first := p.ip } } := progOf_updProg_same h _
  have hverb : (verbOf z v).prog = some id := by
    unfold z
    rw [verbOf, updVerb, mapGet_mapUpd_same]
  clear_value z
  refine ⟨?_, ?_, fld_setBitOf_same _ _ _ (by decide)⟩
  · rw [← hz, progOf, progOf]
    simp only [setBitOf_keeps, regSet_keeps]
  · rw [← hverb, verbOf, verbOf]
    simp only [setBitOf_keeps, regSet_keeps]

theorem qspace_progs (s : State) (lp q n : Nat) : (qspace s lp q n).progs = s.progs := by
  unfold qspace
  split
  · split <;> rfl
  · rfl

/-- Settles O10: an accepted record leaves its queue as work of the next number, and a compound goes to a free Verb with its program where it stood. -/
theorem workIsTakenAndPlaced : Obligations.WorkIsTakenAndPlaced := by
  unfold Obligations.WorkIsTakenAndPlaced
  refine ⟨fun s lp queue r rest hq hlp hrecs hrun hacc => ?accept, fun s prog p hp hwants hspace htarget hfree => ?place⟩
  case accept =>
    have hexec : exec (.dispatcherAccept lp queue) s = execDispatcherAccept lp queue s := rfl
    unfold execDispatcherAccept dispatchAccept at hexec
    dsimp only at hexec
    rw [hrecs] at hexec
    dsimp only at hexec
    rw [hrun, hacc, if_neg (by decide)] at hexec
    obtain ⟨hnext, hqueues, q, hq', hkind, hcid, howner, hseq, hissue, _⟩ := acceptWork_taken (updQueue s lp queue fun x => { x with recs := rest })
      { newWork (updQueue s lp queue fun x => { x with recs := rest }) (queueKind queue) (lp / 64) lp r.seq r.bytes with deferrable := r.deferrable }
    generalize acceptWork (updQueue s lp queue fun x => { x with recs := rest }) _ = z at hexec hnext hqueues hq'
    obtain ⟨hkq, hkn⟩ := qspace_keeps z lp queue (r :: rest).length
    have hkp := qspace_progs z lp queue (r :: rest).length
    refine ⟨_, q, ran_next (exec_guarded (by simp [hq, hlp]) hexec), ?_, ?_, ?_, howner, hseq, hcid, hkind, hissue⟩
    · rw [queueOf, queues_underQueue, hkq, hqueues]
      rw [updQueue, mapGet_mapUpd_same]
    · simp only [underQueue_keeps, hkn, hnext]
      rfl
    · rw [progOf_underQueue, progOf, hkp]
      exact hq'
  case place =>
    have hexec : exec (.compoundPlacement prog) s = execCompoundPlacement prog s := rfl
    obtain ⟨v, hv, hchoose⟩ := chooseVerb_mem s prog p (free := freeVerbs s (p.cid / 8)) (fun h => by rw [h] at hfree; exact absurd hfree (Nat.not_lt_zero _))
    unfold execCompoundPlacement placeCompound at hexec
    rw [hp] at hexec
    dsimp only at hexec
    rw [hwants, hspace, htarget, if_neg (by decide), if_neg (by decide)] at hexec
    dsimp only at hexec
    rw [if_neg (by omega), hchoose] at hexec
    change exec (.compoundPlacement prog) s = ran s (compoundBegun (bringSpace (slotTaken s p.cid prog) prog v) prog v p.cid) at hexec
    have hip : ipAt (bringSpace (slotTaken s p.cid prog) prog v) prog = some p.ip := by
      rw [bringSpace_ipAt, slotTaken_ipAt, ipAt, hp]
      rfl
    obtain ⟨q, hq, hqip⟩ := Option.map_eq_some_iff.mp hip
    obtain ⟨hprog, hverb, hbusy⟩ := compoundBegun_facts hq v p.cid
    exact ⟨_, v, _, _, ran_next hexec, hv, hprog, rfl, rfl, hqip, hverb, hbusy⟩

end Sys2Proof.Machine
end

section
/-! Context switches, saves and restores (R296 to R299). -/

namespace Sys2Proof.Machine

/-! ### Pages stay out of a context that does not run -/

/-- Context `c` is out, and none of its pages has a physical place. -/
def pagesOut (c : Nat) (s : State) : Prop := (runOf s c).st = .ready ∧ ∀ pg, (pageOf s c pg).phys = none

theorem pagesOut_of_same {s t : State} {c : Nat} (h : pagesOut c s) (hc : t.ctxs = s.ctxs) (hr : t.runs = s.runs) : pagesOut c t := by
  unfold pagesOut pageOf ctxOf runOf at h ⊢
  rw [hc, hr]
  exact h

theorem pagesOut_updCtx {s : State} {c d : Nat} (h : pagesOut c s) {f : Ctx → Ctx}
    (hf : d = c → ∀ pg, (mapGet {} (f (ctxOf s d)).pages pg).phys = none) : pagesOut c (updCtx s d f) := by
  refine ⟨h.1, fun pg => ?_⟩
  by_cases hd : d = c
  · subst hd
    rw [pageOf, ctxOf_updCtx_same]
    exact hf rfl pg
  · rw [pageOf, ctxOf_updCtx_other _ _ _ _ (Ne.symm hd)]
    exact h.2 pg

theorem pagesOut_mapIns {s : State} {c d pg : Nat} {p : Page} (h : pagesOut c s) (hp : d = c → p.phys = none) :
    pagesOut c (updCtx s d fun x => { x with pages := mapIns x.pages pg p }) := by
  refine pagesOut_updCtx h fun hd g => ?_
  by_cases hg : g = pg
  · rw [hg, mapGet_mapIns_same]
    exact hp hd
  · rw [mapGet_mapIns_other _ _ _ _ _ hg]
    exact hd ▸ h.2 g

theorem not_ctxRunning_of_pagesOut {s : State} {c : Nat} (h : pagesOut c s) : ctxRunning s c = false := by
  rw [ctxRunning, h.1, Bool.and_eq_false_iff]
  exact .inr rfl

theorem dvaPut_keeps (s : State) (k sl a : Nat) (bs : List Byte) (po : Bool) : (dvaPut s k sl a bs po).ctxs = s.ctxs ∧ (dvaPut s k sl a bs po).runs = s.runs := by
  have hpm (z : State) (x : Nat) (b : List Byte) : (fun u : State => (u.ctxs, u.runs)) (pmWrite z k x b po) = (z.ctxs, z.runs) := by
    unfold pmWrite
    refine foldl_keep (fun u : State => (u.ctxs, u.runs)) _ (fun s p => ?_) _ _
    split <;> rfl
  have h : (fun u : State => (u.ctxs, u.runs)) (dvaPut s k sl a bs po) = (s.ctxs, s.runs) := by
    unfold dvaPut
    refine foldl_keep (fun u : State => (u.ctxs, u.runs)) _ (fun s p => ?_) _ _
    split
    · exact hpm _ _ _
    · rfl
  exact Prod.mk.inj h

theorem dvaPut_pagesOut {s : State} {c : Nat} (h : pagesOut c s) (k sl a : Nat) (bs : List Byte) (po : Bool) : pagesOut c (dvaPut s k sl a bs po) :=
  pagesOut_of_same h (dvaPut_keeps s k sl a bs po).1 (dvaPut_keeps s k sl a bs po).2

theorem dvaZero_pagesOut {s : State} {c : Nat} (h : pagesOut c s) (k a n : Nat) : pagesOut c (dvaZero s k a n) :=
  List.foldlRecOn _ _ h fun _ hb _ _ => dvaPut_pagesOut hb _ _ _ _ _

/-- R290: only a running context's pages take physical places. -/
theorem spAlloc_pagesOut {s : State} {c : Nat} (h : pagesOut c s) (d w a n : Nat) : pagesOut c (spAlloc s d w a n) := by
  unfold spAlloc
  split
  · exact h
  · refine List.foldlRecOn _ _ h fun z hz pg _ => ?_
    extract_lets p z₁
    have h₁ : pagesOut c z₁ := by
      unfold z₁
      split
      · next hnone _ =>
        split
        · exact pagesOut_mapIns hz fun _ => hnone
        · next hrun =>
          have hd : d ≠ c := by
            rintro rfl
            exact hrun (by rw [not_ctxRunning_of_pagesOut hz]; rfl)
          split
          · exact pagesOut_mapIns (pagesOut_of_same hz rfl rfl) fun he => absurd he hd
          · exact hz
      · exact hz
    clear_value z₁
    exact pagesOut_mapIns h₁ fun he => by subst he; exact h₁.2 pg

theorem spPut_pagesOut {s : State} {c : Nat} (h : pagesOut c s) (d w a : Nat) (bs : List Byte) (po : Bool) : pagesOut c (spPut s d w a bs po) := by
  have hresv {z : State} (hz : pagesOut c z) (n : Nat) : pagesOut c (breakResv z d a n) := by
    unfold breakResv
    split
    · exact pagesOut_of_same hz rfl rfl
    · exact hz
  unfold spPut
  refine List.foldlRecOn _ _ (hresv (spAlloc_pagesOut h d w a _) _) fun z hz p _ => ?_
  dsimp only
  split
  · exact pagesOut_of_same hz rfl rfl
  · split
    · refine dvaPut_pagesOut ?_ _ _ _ _ _
      split
      · exact hz
      · exact pagesOut_mapIns (dvaZero_pagesOut hz _ _ _) fun he => he ▸ hz.2 _
    · exact hz

/-- R298: a write of device virtual space gives a context that is out no page. -/
theorem dvaWrite_pagesOut {s : State} {c : Nat} (h : pagesOut c s) (k sl a : Nat) (bs : List Byte) (po : Bool) : pagesOut c (dvaWrite s k sl a bs po) := by
  have hmark {z : State} (hz : pagesOut c z) (d w : Nat) (v : View) (x : Nat) : pagesOut c (carryMark z d w v x) := by
    unfold carryMark
    split
    · dsimp only
      unfold areaPut
      split
      · exact spPut_pagesOut hz _ _ _ _ _
      · exact dvaPut_pagesOut hz _ _ _ _ _
    · exact hz
  have hnote {z : State} (hz : pagesOut c z) (d x : Nat) (b : List Byte) : pagesOut c (mirrorNote z d x b po) := by
    unfold mirrorNote
    split
    · exact pagesOut_of_same hz rfl rfl
    · exact hz
  unfold dvaWrite
  split
  · unfold viewWrite
    refine List.foldlRecOn _ _ h fun z hz p _ => ?_
    dsimp only
    split
    · exact pagesOut_updCtx hz fun he pg => he ▸ hz.2 pg
    · exact hnote (hmark (dvaPut_pagesOut hz _ _ _ _ _) _ _ _ _) _ _ _
    · exact dvaPut_pagesOut hz _ _ _ _ _
  · exact dvaPut_pagesOut h _ _ _ _ _

/-! ### The pages that a save takes out -/

/-- The pages of a context that have a physical place are among those still to save. -/
def pagesAmong (c : Nat) (l : List (Nat × Page)) (s : State) : Prop := ∀ pg, (pageOf s c pg).phys ≠ none → (pg, pageOf s c pg) ∈ l

theorem mem_of_mapGet_ne {α : Type} {d : α} {m : Map α} {k : Nat} (h : mapGet d m k ≠ d) : (k, mapGet d m k) ∈ m := by
  induction m with
  | nil => exact absurd rfl h
  | cons x r ih =>
    obtain ⟨j, w⟩ := x
    rw [mapGet] at h ⊢
    split
    · next hk => rw [hk]; exact List.mem_cons_self
    · next hk =>
      rw [if_neg hk] at h
      exact List.mem_cons_of_mem _ (ih h)

theorem savePage_among {s : State} {c pg : Nat} {p : Page} {l : List (Nat × Page)} (h : pagesAmong c ((pg, p) :: l) s) :
    pagesAmong c l (savePage s c pg p) := by
  unfold savePage
  split
  · next hnone =>
    intro g hg
    rcases List.mem_cons.mp (h g hg) with he | hm
    · exact absurd ((congrArg Page.phys (Prod.mk.inj he).2).trans hnone) hg
    · exact hm
  · extract_lets z q
    have hz : z.ctxs = s.ctxs := by
      unfold z
      split
      · exact foldl_keep (fun a : State × Nat => a.1.ctxs) _ (fun a r => (dvaPut_keeps a.1 _ _ _ _ _).1) _ _
      · rfl
    clear_value z
    intro g hg
    by_cases he : g = pg
    · subst he
      rw [pageOf, ctxOf_updCtx_same, mapGet_mapIns_same] at hg
      exact absurd rfl hg
    · have hsame : pageOf (updCtx z c fun x => { x with pages := mapIns x.pages pg q }) c g = pageOf s c g := by
        rw [pageOf, ctxOf_updCtx_same, mapGet_mapIns_other _ _ _ _ _ he, ctxOf, hz]
        rfl
      rw [hsame] at hg ⊢
      rcases List.mem_cons.mp (h g hg) with hx | hm
      · exact absurd (Prod.mk.inj hx).1 he
      · exact hm

theorem savePages_out (c : Nat) (l : List (Nat × Page)) (s : State) (h : pagesAmong c l s) (pg : Nat) :
    (pageOf (l.foldl (fun s p => savePage s c p.1 p.2) s) c pg).phys = none := by
  induction l generalizing s with
  | nil => exact Classical.byContradiction fun hne => List.not_mem_nil (h pg hne)
  | cons x l ih => exact ih _ (savePage_among h)

/-- R298: after the save of its pages a context has no physical page. -/
theorem savePages_none (s : State) (c pg : Nat) :
    (pageOf ((ctxOf s c).pages.foldl (fun s p => savePage s c p.1 p.2) s) c pg).phys = none :=
  savePages_out c _ s (fun g hg => mem_of_mapGet_ne fun he => hg (by rw [pageOf, he])) pg

/-! ### How often a context has been switched out -/

/-- The switches of context `c`. -/
def switchesOf (c : Nat) (s : State) : Nat := (runOf s c).switches

theorem switchesOf_of_runs {s t : State} (h : t.runs = s.runs) (c : Nat) : switchesOf c t = switchesOf c s := by
  rw [switchesOf, runOf, h, switchesOf, runOf]

theorem switchesOf_updRun (s : State) (c d : Nat) {f : CtxRun → CtxRun} (hf : ∀ r, (f r).switches = r.switches) :
    switchesOf c (updRun s d f) = switchesOf c s := by
  by_cases hd : c = d
  · subst hd
    rw [switchesOf, runOf_updRun_same, hf, switchesOf]
  · rw [switchesOf, runOf_updRun_other _ _ _ _ hd, switchesOf]

theorem dvaWrite_runs (s : State) (k sl a : Nat) (bs : List Byte) (po : Bool) : (dvaWrite s k sl a bs po).runs = s.runs :=
  (congrArg State.runs (dvaWrite_rest s k sl a bs po) : (memRest _).runs = (memRest _).runs)

theorem freeParticles_runs (s : State) (c : Nat) : (freeParticles s c).runs = s.runs := by
  unfold freeParticles
  refine foldl_keep State.runs _ (fun s p => ?_) _ _
  rfl

theorem saveCoreImage_switches (s : State) (c n d : Nat) : switchesOf d (saveCoreImage s c n) = switchesOf d s := by
  unfold saveCoreImage
  refine (switchesOf_updRun _ d c fun r => ?_).trans (switchesOf_of_runs ?_ d)
  · rfl
  · exact (dvaPut_keeps s _ _ _ _ _).2

theorem spillSpace_switches (s : State) (o d : Nat) : switchesOf d (spillSpace s o) = switchesOf d s := by
  unfold spillSpace
  split
  · rfl
  · next p hp =>
    dsimp only
    split
    · next v n _ _ =>
      generalize hz : dvaWrite _ _ _ _ (natLe 32 _) _ = z
      have hruns : z.runs = s.runs := by
        rw [← hz, dvaWrite_runs, dvaWrite_runs]
        exact foldl_keep State.runs _ (fun _ _ => dvaWrite_runs _ _ _ _ _ _) _ _
      refine (switchesOf_updRun _ d _ fun r => ?_).trans (switchesOf_of_runs hruns d)
      rfl
    · rfl

theorem unitsDrop_runs (s : State) (id : Nat) : (unitsDrop s id).runs = s.runs := by
  have hinf (z : State) (u : Nat) : (infRelease z u).runs = z.runs := by simp only [infRelease, clrBitOf_keeps]
  have hprs (z : State) (sl : Nat) : (prsRelease z sl).runs = z.runs := by simp only [prsRelease, clrBitOf_keeps]
  have hlex (z : State) (sl : Nat) : (lexRelease z sl).runs = z.runs := by simp only [lexRelease, clrBitOf_keeps]
  unfold unitsDrop
  dsimp only
  rw [foldl_keep State.runs _ (fun s sl => hlex s sl), foldl_keep State.runs _ (fun s sl => hprs s sl), foldl_keep State.runs _ (fun s u => hinf s u)]
  exact foldl_keep State.runs _ (fun s v => by simp only [clrBitOf_keeps, updVerb_keeps]) _ _

theorem unitsLeave_runs (s : State) (c : Nat) : (unitsLeave s c).runs = s.runs := by
  unfold unitsLeave
  refine foldl_keep State.runs _ (fun s id => ?_) _ _
  split
  · simp only [updProg_keeps, unitsDrop_runs]
  · rfl

theorem savePage_runs (s : State) (c pg : Nat) (p : Page) : (savePage s c pg p).runs = s.runs := by
  have hupd (z : State) (f : Ctx → Ctx) : (updCtx z c f).runs = z.runs := Eq.refl z.runs
  unfold savePage
  split
  · rfl
  · dsimp only
    rw [hupd]
    split
    · exact foldl_keep (fun a : State × Nat => a.1.runs) _ (fun a r => (dvaPut_keeps a.1 _ _ _ _ _).2) _ _
    · rfl

/-- A field that every record keeps reads the same in a map of records changed key by key. -/
theorem mapGet_map_keep {α β : Type} {d : α} {f : Nat × α → Nat × α} (g : α → β) (hk : ∀ x, (f x).1 = x.1) (hg : ∀ x, g (f x).2 = g x.2)
    (m : Map α) (k : Nat) : g (mapGet d (m.map f) k) = g (mapGet d m k) := by
  induction m with
  | nil => rfl
  | cons x r ih =>
    rw [List.map_cons, mapGet, mapGet, hk]
    split
    · exact hg x
    · exact ih

/-- R298 sequence 4: what a save leaves. -/
theorem ctxSave_facts (s : State) (c : Nat) : (runOf (ctxSave s c) c).st = .ready ∧ (runOf (ctxSave s c) c).out = false ∧
    (runOf (ctxSave s c) c).switches = satAdd 32 (runOf s c).switches 1 ∧ ∀ pg, (pageOf (ctxSave s c) c pg).phys = none := by
  unfold ctxSave
  extract_lets k ps held written bytes cores z₁ z₂ z₃ z₄ z₅ z₆ z₇ z₈ now z₉
  have h₅ : switchesOf c z₅ = switchesOf c s := by
    refine (switchesOf_of_runs (unitsLeave_runs _ _) c).trans ?_
    refine (foldl_keep (switchesOf c) _ (fun s (p : Nat × Prog) => spillSpace_switches s p.1 c) _ _).trans ?_
    refine (saveCoreImage_switches _ _ _ _).trans ?_
    exact switchesOf_of_runs (freeParticles_runs z₁ c) c
  clear_value z₅
  have h₆ : switchesOf c z₆ = switchesOf c s := h₅
  clear_value z₆
  have h₇ : switchesOf c z₇ = switchesOf c s := (switchesOf_of_runs (foldl_keep State.runs _ (fun s (p : Nat × Page) => savePage_runs s c p.1 p.2) _ _) c).trans h₆
  have hpages : ∀ pg, (pageOf z₇ c pg).phys = none := savePages_none z₆ c
  clear_value z₇
  have h₈ : switchesOf c z₈ = switchesOf c s := by
    refine Eq.trans (mapGet_map_keep CtxRun.switches (fun x => ?_) (fun x => ?_) z₇.runs c) h₇
    · split <;> rfl
    · split <;> rfl
  have hpages₈ : ∀ pg, (pageOf z₈ c pg).phys = none := hpages
  clear_value z₈
  have hrun : runOf z₉ c = _ := runOf_updRun_same z₈ c _
  have hout : pagesOut c z₉ := ⟨congrArg CtxRun.st hrun, hpages₈⟩
  have hkeep : runOf (cstatusWrite z₉ c) c = runOf z₉ c := by rw [runOf, cstatusWrite, dvaWrite_runs, runOf]
  refine ⟨?_, ?_, ?_, (dvaWrite_pagesOut hout _ _ _ _ _).2⟩
  · rw [hkeep, hrun]
  · rw [hkeep, hrun]
  · rw [hkeep, hrun]
    exact congrArg (satAdd 32 · 1) h₈

/-! ### A restore -/

theorem restorePage_runs (s : State) (c pg : Nat) (p : Page) : (restorePage s c pg p).runs = s.runs := by
  unfold restorePage
  split
  · rfl
  · split
    · rfl
    · split <;> rfl

theorem seatAll_runs (s : State) (c : Nat) : (seatAll s c).runs = s.runs := by
  unfold seatAll
  split
  · unfold seatSaved
    refine foldl_keep State.runs _ (fun s x => ?_) _ _
    split
    · rfl
    · dsimp only
      split <;> rfl
  · refine foldl_keep State.runs _ (fun s i => ?_) _ _
    split <;> rfl

theorem unitBack_runs (s : State) (c id : Nat) : (unitBack s c id).runs = s.runs := by
  unfold unitBack
  split
  · rfl
  · split
    · rfl
    · dsimp only
      split <;> simp only [setBitOf_keeps, setFld_keeps, updProg_keeps]

/-- R298 sequence 6: a context that is restored runs. -/
theorem ctxRestore_runs {s : State} {c : Nat} (h : coreIntact s c = true) : (runOf (ctxRestore s c) c).st = .running ∧
    (runOf (ctxRestore s c) c).accepting = true ∧ (runOf (ctxRestore s c) c).begun = true := by
  unfold ctxRestore
  rw [h, if_neg (by decide)]
  extract_lets z₁ z₂ z₃ z₄
  have hrun : runOf z₁ c = _ := runOf_updRun_same s c _
  have h₄ : runOf z₄ c = runOf z₁ c := by
    rw [runOf, runOf]
    refine congrArg (mapGet _ · c) ?_
    exact (foldl_keep State.runs _ (fun s id => unitBack_runs s c id) _ _).trans
      ((seatAll_runs _ _).trans (foldl_keep State.runs _ (fun s (p : Nat × Page) => restorePage_runs s c p.1 p.2) _ _))
  rw [runOf_updRun_same, h₄, hrun]
  exact ⟨rfl, rfl, rfl⟩

/-- R298 sequence 1: what a decided switch leaves. -/
theorem decideSwitch_facts {s : State} {c : Nat} (ho : (runOf s c).out = false) (hst : (runOf s c).st = .running) :
    (runOf (decideSwitch s c) c).out = true ∧ (runOf (decideSwitch s c) c).t0 = s.tense.toNat ∧ (runOf (decideSwitch s c) c).st = .running ∧
    (decideSwitch s c).spm = s.spm ∧ (decideSwitch s c).hbm = s.hbm ∧ (decideSwitch s c).conj = s.conj := by
  unfold decideSwitch
  rw [ho, hst, if_neg (by decide)]
  generalize hz : updRun s c _ = z
  have keep {β : Type} (g : State → β) (hg : ∀ z, g (partRest z) = g z) (n : Nat) : g (noticeAll z c 1 n) = g z :=
    (hg _).symm.trans ((congrArg g (noticeAll_rest z c 1 n)).trans (hg z))
  have hrun : runOf z c = _ := hz ▸ runOf_updRun_same s c _
  rw [keep (runOf · c) (fun _ => rfl), hrun, keep State.spm (fun _ => rfl), keep State.hbm (fun _ => rfl), keep State.conj (fun _ => rfl), ← hz]
  exact ⟨rfl, rfl, hst, rfl, rfl, rfl⟩

/-- Settles O26: a switch is decided, stops acceptance, saves and restores, each on the context that runs. -/
theorem contextsSwitchSaveAndRestore : Obligations.ContextsSwitchSaveAndRestore := by
  unfold Obligations.ContextsSwitchSaveAndRestore
  have hmem {s z : State} {now : Nat} (hz : z = atTime s now) : z.spm = s.spm ∧ z.hbm = s.hbm ∧ z.conj = s.conj ∧ z.ctxs = s.ctxs := by
    rw [hz]
    simp only [atTime_keeps, and_self]
  refine ⟨⟨fun s k now c z hk hz hc hout hst => ⟨fun hq hother => ?quantum, fun hidle hwork hother => ?idle⟩,
    fun s k now c z hk hz hc hout hst ht0 => ?stop⟩, fun s k now c z hk hz hc hst hb => ?save,
    fun s k now c z hk hz hnone hact hpwr hnext => ⟨fun hcore => ?restore, fun hcore => ?corrupt⟩⟩
  case quantum =>
    have hexec : exec (.quantumExpiry k now) s = execQuantumExpiry k now s := rfl
    unfold execQuantumExpiry at hexec
    rw [← hz] at hexec
    dsimp only at hexec
    rw [hc] at hexec
    dsimp only at hexec
    obtain ⟨d, hd, hne, hprio⟩ := hother
    rw [if_pos ⟨hq, List.any_eq_true.mpr ⟨d, hd, by simp [hne, hprio]⟩⟩] at hexec
    obtain ⟨hspm, hhbm, hconj, _⟩ := hmem hz
    obtain ⟨h1, h2, h3, h4, h5, h6⟩ := decideSwitch_facts hout hst
    refine ⟨_, ran_next (exec_guarded (decide_eq_true hk) hexec), ?_⟩
    simp only [runOf_underQueue, underQueue_keeps, h1, h2, h3, h4, h5, h6, hspm, hhbm, hconj, and_self]
  case idle =>
    have hexec : exec (.contextIdleSwitch k now) s = execContextIdleSwitch k now s := rfl
    unfold execContextIdleSwitch at hexec
    rw [← hz] at hexec
    dsimp only at hexec
    rw [hc] at hexec
    dsimp only at hexec
    obtain ⟨d, hd, hne⟩ := hother
    rw [if_pos ⟨List.all_eq_true.mpr hidle, hwork, List.any_eq_true.mpr ⟨d, hd, by simp [hne]⟩⟩] at hexec
    obtain ⟨hspm, hhbm, hconj, _⟩ := hmem hz
    obtain ⟨h1, h2, h3, h4, h5, h6⟩ := decideSwitch_facts hout hst
    refine ⟨_, ran_next (exec_guarded (decide_eq_true hk) hexec), ?_⟩
    simp only [runOf_underQueue, underQueue_keeps, h1, h2, h3, h4, h5, h6, hspm, hhbm, hconj, and_self]
  case stop =>
    have hexec : exec (.acceptanceStop k now) s = execAcceptanceStop k now s := rfl
    unfold execAcceptanceStop at hexec
    rw [← hz] at hexec
    dsimp only at hexec
    rw [hc] at hexec
    dsimp only at hexec
    rw [if_pos ⟨hout, hst, ht0⟩] at hexec
    obtain ⟨hspm, _, _, hctxs⟩ := hmem hz
    refine ⟨_, ran_next (exec_guarded (decide_eq_true hk) hexec), ?_, ?_, ?_, ?_⟩
    · rw [runOf_underQueue, runOf_updRun_same]
    · rw [runOf_underQueue, runOf_updRun_same]
    · exact hctxs
    · exact hspm
  case save =>
    have hexec : exec (.contextSave k now) s = execContextSave k now s := rfl
    unfold execContextSave at hexec
    rw [← hz] at hexec
    dsimp only at hexec
    rw [hc] at hexec
    dsimp only at hexec
    rw [if_pos ⟨hst, hb⟩] at hexec
    obtain ⟨h1, h2, h3, h4⟩ := ctxSave_facts z c
    refine ⟨_, ran_next (exec_guarded (decide_eq_true hk) hexec), ?_, ?_, ?_, fun pg => ?_⟩
    · rw [runOf_underQueue, h1]
    · rw [runOf_underQueue, h2]
    · rw [runOf_underQueue, h3]
    · rw [pageOf, ctxOf_underQueue]
      exact h4 pg
  case restore =>
    have hexec : exec (.contextRestore k now) s = execContextRestore k now s := rfl
    unfold execContextRestore at hexec
    rw [← hz] at hexec
    dsimp only at hexec
    rw [hnone, hact, hpwr, if_neg (by decide), hnext] at hexec
    obtain ⟨h1, h2, h3⟩ := ctxRestore_runs hcore
    refine ⟨_, ran_next (exec_guarded (decide_eq_true hk) hexec), ?_⟩
    simp only [runOf_underQueue, h1, h2, h3, and_self]
  case corrupt =>
    have hexec : exec (.contextRestore k now) s = execContextRestore k now s := rfl
    unfold execContextRestore at hexec
    rw [← hz] at hexec
    dsimp only at hexec
    rw [hnone, hact, hpwr, if_neg (by decide), hnext] at hexec
    dsimp only at hexec
    unfold ctxRestore at hexec
    rw [hcore, if_pos (by decide)] at hexec
    refine ⟨_, ran_next (exec_guarded (decide_eq_true hk) hexec), ?_⟩
    rw [ctxOf_underQueue, ctxEnd_dead]

end Sys2Proof.Machine
end

section
/-! Port states, egress and cancellation (R362, R363, R367 to R378). -/

namespace Sys2Proof.Machine

/-! ### A port as its status and its record show it -/

/-- The status and the record of port `p`. -/
def portView (p : Nat) (s : State) : Nat × Port := (regGet s (aYLV_PORT_STATUS p), portOf s p)

section
variable {p : Nat} {s t : State} (h : portView p t = portView p s)
include h

theorem statusFld_of_view (hi lo : Nat) : fld t (aYLV_PORT_STATUS p) hi lo = fld s (aYLV_PORT_STATUS p) hi lo := by
  rw [fld, fld, (Prod.mk.inj h).1]

theorem portState_of_view : portState t p = portState s p := statusFld_of_view h 2 0

theorem portOf_of_view : portOf t p = portOf s p := congrArg Prod.snd h

end

theorem portOf_of_ports {s t : State} (h : t.ports = s.ports) (p : Nat) : portOf t p = portOf s p := by rw [portOf, h, portOf]

theorem report_ports (s : State) (cls cause part slice unit : Nat) (d : List Nat) : (report s cls cause part slice unit d).ports = s.ports :=
  (congrArg State.ports (report_rest s cls cause part slice unit d) : (rptRest _).ports = (rptRest _).ports)

theorem reportLink_strobes (s : State) (p : Nat) : (reportLink s p).strobes = s.strobes :=
  (congrArg State.strobes (report_rest s _ _ _ _ _ _) : (rptRest _).strobes = (rptRest _).strobes)

/-- A link's report shows in no port. -/
theorem reportLink_portView (s : State) (p j : Nat) : portView j (reportLink s p) = portView j s := by
  refine Prod.ext ?_ (portOf_of_ports (report_ports _ _ _ _ _ _ _) j)
  exact regGet_report _ _ _ _ _ _ _ (by unfold aYLV_PORT_STATUS aPort; omega)

theorem portState_updPort (s : State) (p j : Nat) (f : Port → Port) : portState (updPort s p f) j = portState s j := rfl

theorem fld_updPort (s : State) (p : Nat) (f : Port → Port) (a hi lo : Nat) : fld (updPort s p f) a hi lo = fld s a hi lo := rfl

theorem portOf_setFld (s : State) (a hi lo v p : Nat) : portOf (setFld s a hi lo v) p = portOf s p := portOf_of_ports (by simp only [setFld_keeps]) p

/-! ### Retraining (R363, R377) -/

/-- R363: what a port that goes to RETRAIN shows. -/
theorem retrain_facts (s : State) (p : Nat) : portState (retrain s p) p = 3 ∧ (portOf (retrain s p) p).replay = (portOf s p).replay ∧
    (retrain s p).strobes = s.strobes := by
  have hne : aYLV_PORT_STATUS p ≠ aYLV_LINK_CNT p := by
    unfold aYLV_PORT_STATUS aYLV_LINK_CNT
    omega
  unfold retrain
  extract_lets z
  have hview := reportLink_portView (updPort (satFld z (aYLV_LINK_CNT p) 63 56 1) p fun q => { q with hits := q.hits + 1, fruitless := 0 }) p p
  refine ⟨?_, ?_, ?_⟩
  · rw [portState_of_view hview, portState_updPort, portState, fld_satFld_other _ _ _ _ _ _ _ _ hne]
    exact fld_setFld_same _ _ _ (by decide) (by decide)
  · have hz : portOf z p = portOf s p := portOf_setFld _ _ _ _ _ _
    rw [portOf_of_view hview, portOf_updPort_same, satFld, portOf_setFld, hz]
  · rw [reportLink_strobes]
    simp only [updPort_keeps, satFld_keeps, z, setFld_keeps]

/-! ### Requests that are pushed and sent back -/

/-- What a request that waits at some port leaves of port `p`: its status and its record but for the requests. -/
def portBuffered (p : Nat) (s : State) : Nat × Port := (regGet s (aYLV_PORT_STATUS p), { portOf s p with wait := [] })

theorem egressPush_buffered (s : State) (e src : Nat) (pk : Pkt) (lock : Bool) (p : Nat) : portBuffered p (egressPush s e src pk lock) = portBuffered p s := by
  have hport : portOf (egressPush s e src pk lock) p = portOf (updPort s e fun q =>
      { q with wait := q.wait ++ [{ id := s.nextReq, from_ := src, pkt := pk, lock := lock, since := s.tense.toNat }] }) p := rfl
  refine Prod.ext rfl ?_
  rw [portBuffered, hport, portBuffered]
  by_cases h : p = e
  · rw [h, portOf_updPort_same]
  · rw [portOf_updPort_other _ _ _ _ h]

theorem inject_buffered (s : State) (src : Nat) (pk : Pkt) (lock : Bool) (p : Nat) : portBuffered p (inject s src pk lock) = portBuffered p s := by
  unfold inject
  split
  · rfl
  · exact egressPush_buffered _ _ _ _ _ _
  · split <;> rfl

theorem undeliverable_buffered (s : State) (q : Nat) (pk : Pkt) (cause p : Nat) : portBuffered p (undeliverable s q pk cause) = portBuffered p s := by
  have hdrop : portBuffered p (satFld s (aYLV_DROP q) 47 32 1) = portBuffered p s := by
    refine Prod.ext (regGet_setFld_other _ _ _ _ _ _ ?_) ?_
    · unfold aYLV_PORT_STATUS aYLV_DROP aPort
      omega
    · exact congrArg (fun x : Port => { x with wait := [] }) (portOf_setFld _ _ _ _ _ _)
  have hpick : portBuffered p (if q < 14 then satFld s (aYLV_DROP q) 47 32 1 else s) = portBuffered p s := by
    split
    · exact hdrop
    · rfl
  unfold undeliverable sendUndel
  split
  · exact hpick
  · exact (inject_buffered _ _ _ _ _).trans hpick

theorem rerouteWaiting_buffered (s : State) (p : Nat) : regGet (rerouteWaiting s p) (aYLV_PORT_STATUS p) = regGet s (aYLV_PORT_STATUS p) ∧
    (portOf (rerouteWaiting s p) p).downAt = (portOf s p).downAt := by
  unfold rerouteWaiting
  extract_lets ws z
  have hfold := foldl_keep (portBuffered p) (fun (s : State) (r : EReq) =>
    if pkCkt r.pkt ∧ r.from_ < 14 then undeliverable s r.from_ r.pkt 3
    else
      match routeOf s r.pkt with
      | .port e => egressPush s e r.from_ r.pkt r.lock
      | .none c => undeliverable s r.from_ r.pkt c
      | .here => s) (fun s r => by
    split
    · exact undeliverable_buffered _ _ _ _ _
    · split
      · exact egressPush_buffered _ _ _ _ _ _
      · exact undeliverable_buffered _ _ _ _ _
      · rfl) ws z
  have hz : (portOf z p).downAt = (portOf s p).downAt := by
    unfold z
    rw [portOf_updPort_same]
  refine ⟨congrArg Prod.fst hfold, ?_⟩
  rw [← hz]
  exact congrArg (fun x : Nat × Port => x.2.downAt) hfold

/-! ### Trainings and losses -/

/-- R363: what a port that comes up in all its lanes shows. -/
theorem portComesUp_facts {s : State} {p : Nat} (he : (portOf s p).peerE = none) : portState (portComesUp s p false) p = 2 ∧
    fld (portComesUp s p false) (aYLV_PORT_STATUS p) 3 3 = 0 ∧ (portOf (portComesUp s p false) p).fails = 0 ∧
    (portState s p = 1 → (portOf (portComesUp s p false) p).replay = [] ∧ (portOf (portComesUp s p false) p).exp = 0 ∧
      (portOf (portComesUp s p false) p).next = 0 ∧ (portOf (portComesUp s p false) p).cred = [1536, 1536, 256, 256]) := by
  unfold portComesUp
  extract_lets first a z₁ z₂ z₃ z₄ z₅
  have h₁ : portState z₁ p = 2 ∧ fld z₁ a 3 3 = 0 ∧ portOf z₁ p = portOf s p := by
    refine ⟨?_, fld_setFld_same _ _ _ (by decide) (by decide), (portOf_setFld _ _ _ _ _ _).trans (portOf_setFld _ _ _ _ _ _)⟩
    exact (fld_setFld_apart _ _ _ (by decide) (by decide) (by decide)).trans (fld_setFld_same _ _ _ (by decide) (by decide))
  clear_value z₁
  obtain ⟨hst, h33, hport⟩ := h₁
  have h₂ : portOf z₂ p = { portOf z₁ p with fails := 0, deaf := false, nakSent := false, fruitless := 0, ctlAt := z₁.tense.toNat, waitFrom := z₁.tense.toNat } :=
    portOf_updPort_same _ _ _
  have hst₂ : portState z₂ p = 2 ∧ fld z₂ a 3 3 = 0 := ⟨hst, h33⟩
  clear_value z₂
  have h₃ : portState z₃ p = 2 ∧ fld z₃ a 3 3 = 0 ∧ (portOf z₃ p).fails = 0 ∧ (portOf z₃ p).peerE = none ∧
      (portState s p = 1 → (portOf z₃ p).replay = [] ∧ (portOf z₃ p).exp = 0 ∧ (portOf z₃ p).next = 0 ∧ (portOf z₃ p).cred = [1536, 1536, 256, 256]) := by
    unfold z₃
    split
    · rw [portOf_updPort_same, h₂]
      exact ⟨hst₂.1, hst₂.2, rfl, by rw [hport]; exact he, fun _ => ⟨rfl, rfl, rfl, rfl⟩⟩
    · next hfirst =>
      rw [h₂]
      exact ⟨hst₂.1, hst₂.2, rfl, by rw [hport]; exact he, fun h1 => absurd (by simp [first, h1]) hfirst⟩
  clear_value z₃
  have h₅ : z₅ = z₄ := by
    have h₄ : (portOf z₄ p).peerE = none := h₃.2.2.2.1
    unfold z₅
    rw [h₄]
  rw [h₅]
  obtain ⟨hst₃, h33₃, hfails, _, hfirst⟩ := h₃
  exact ⟨hst₃, h33₃, hfails, hfirst⟩

/-- R363: what a port that goes down shows. -/
theorem portGoesDown_facts (s : State) (p : Nat) : portState (portGoesDown s p) p = 4 ∧ (portOf (portGoesDown s p) p).downAt = some s.tense.toNat := by
  unfold portGoesDown
  extract_lets z₁ z₂ others z₃
  have h₁ : portState z₁ p = 4 := (portState_of_view (reportLink_portView _ _ _)).trans (fld_setFld_same _ _ _ (by decide) (by decide))
  have htense : z₁.tense = s.tense := by
    have hrep (z : State) : (reportLink z p).tense = z.tense := (congrArg State.tense (report_rest z _ _ _ _ _ _) : (rptRest _).tense = (rptRest _).tense)
    unfold z₁
    rw [hrep]
    simp only [setFld_keeps]
  clear_value z₁
  have h₂ : portState z₂ p = 4 ∧ (portOf z₂ p).downAt = some s.tense.toNat := by
    refine ⟨h₁, ?_⟩
    unfold z₂
    rw [portOf_updPort_same, htense]
  clear_value z₂
  have h₃ : portView p z₃ = portView p z₂ := by
    unfold z₃
    clear_value others
    cases others <;> rfl
  obtain ⟨hstatus, hdown⟩ := rerouteWaiting_buffered z₃ p
  refine ⟨?_, ?_⟩
  · rw [portState, fld, hstatus, ← fld, ← portState, portState_of_view h₃, h₂.1]
  · rw [hdown, portOf_of_view h₃, h₂.2]

theorem peerWanted_of_topo {s t : State} (h : ∀ hi lo, fld t aYLV_TOPO hi lo = fld s aYLV_TOPO hi lo) (p : Nat) : peerWanted t p = peerWanted s p := by
  simp only [peerWanted, dirPorts, portDir, dimSize, ownDev, h]

/-- R364: the peer that a LINK_STATE names, as the status shows it. -/
def peerNoted (s : State) (p devid port : Nat) : State :=
  setFld (setFld s (aYLV_PORT_STATUS p) 31 16 devid) (aYLV_PORT_STATUS p) 35 32 port

theorem peerNoted_facts (s : State) (p devid port : Nat) : fld (peerNoted s p devid port) (aYLV_PORT_STATUS p) 31 16 = devid % 65536 ∧
    fld (peerNoted s p devid port) (aYLV_PORT_STATUS p) 35 32 = port % 16 ∧ portState (peerNoted s p devid port) p = portState s p ∧
    peerWanted (peerNoted s p devid port) p = peerWanted s p := by
  have hne : aYLV_TOPO ≠ aYLV_PORT_STATUS p := by
    unfold aYLV_TOPO aYLV_PORT_STATUS aPort
    omega
  refine ⟨?_, ?_, ?_, ?_⟩
  · exact (fld_setFld_apart _ _ _ (by decide) (by decide) (by decide)).trans (fld_setFld_same _ _ _ (by decide) (by decide))
  · exact fld_setFld_same _ _ _ (by decide) (by decide)
  · exact (fld_setFld_apart _ _ _ (by decide) (by decide) (by decide)).trans (fld_setFld_apart _ _ _ (by decide) (by decide) (by decide))
  · exact peerWanted_of_topo (fun hi lo => (fld_setFld_other _ _ _ _ _ _ _ _ hne).trans (fld_setFld_other _ _ _ _ _ _ _ _ hne)) p

/-- R364: does a LINK_STATE name another peer than the torus asks for. -/
def peerWrong (s : State) (p devid port : Nat) : Bool := match peerWanted s p with | some w => w != (devid % 65536, port % 16) | none => false

theorem linkStateIn_eq {s : State} {p : Nat} (devid port e : Nat) (hst : portState s p = 1 ∨ portState s p = 2 ∨ portState s p = 3) :
    (peerWrong s p devid port = true → linkStateIn s p devid port e none = reportLink (setFld (peerNoted s p devid port) (aYLV_PORT_STATUS p) 2 0 5) p) ∧
    (peerWrong s p devid port = false → portState s p ≠ 2 →
      linkStateIn s p devid port e none = updPort (peerNoted s p devid port) p fun q => { q with peerE := some e }) := by
  obtain ⟨_, _, _, hwanted⟩ := peerNoted_facts s p devid port
  have hwrong : peerWrong (peerNoted s p devid port) p devid port = peerWrong s p devid port := by rw [peerWrong, hwanted, peerWrong]
  unfold linkStateIn
  dsimp only
  rw [if_neg (by omega)]
  refine ⟨fun h => if_pos (hwrong.trans h), fun h h2 => ?_⟩
  refine Eq.trans (if_neg fun hc => ?_) (if_neg h2)
  exact Bool.false_ne_true ((hwrong.trans h).symm.trans hc)

/-! ### Sending and cancelling (R367, R369) -/

theorem drainSigs_nil {s : State} (h : s.outSigs = []) : drainSigs s = s := by
  unfold drainSigs
  rw [h]
  change ({ s with outSigs := [] } : State) = s
  rw [← h]

theorem drainMirror_nil {s : State} (h : s.mirror = []) : drainMirror s = s := by
  unfold drainMirror
  rw [h]
  change ({ s with mirror := [] } : State) = s
  rw [← h]

theorem starved_ports (s : State) (e : Nat) (r : EReq) : (starved s e r).ports = s.ports ∧ (starved s e r).wire = s.wire := by
  unfold starved
  split
  · exact ⟨by simp only [satFld_keeps], by simp only [satFld_keeps]⟩
  · exact ⟨rfl, rfl⟩

/-- A grant's lock touches no more than the port's lock. -/
theorem lockNext_facts (s : State) (e : Nat) (r : EReq) : (∃ l, portOf (lockNext s e r) e = { portOf s e with lock := l }) ∧
    (∀ p, p ≠ e → portOf (lockNext s e r) p = portOf s p) ∧ (lockNext s e r).wire = s.wire := by
  unfold lockNext
  extract_lets n
  clear_value n
  split
  · exact ⟨⟨_, portOf_updPort_same _ _ _⟩, fun p h => portOf_updPort_other _ _ _ _ h, by simp only [updPort_keeps]⟩
  · split
    · refine ⟨⟨_, (portOf_setFld _ _ _ _ _ _).trans (portOf_updPort_same _ _ _)⟩, fun p h => ?_, ?_⟩
      · exact (portOf_setFld _ _ _ _ _ _).trans (portOf_updPort_other _ _ _ _ h)
      · simp only [satFld_keeps, updPort_keeps]
    · exact ⟨⟨_, portOf_updPort_same _ _ _⟩, fun p h => portOf_updPort_other _ _ _ _ h, by simp only [updPort_keeps]⟩

/-- What a send leaves on the wire and in the ports. -/
structure Sent (s t : State) (e : Nat) (r : EReq) : Prop where
  wait : (portOf t e).wait = (portOf s e).wait.filter fun x => x.id != r.id
  replay : (portOf t e).replay = (portOf s e).replay ++ [((portOf s e).next, r.pkt)]
  next : (portOf t e).next = ((portOf s e).next + 1) % 4096
  wire : t.wire = s.wire ++ [(e, .beats (pkWire r.pkt (portOf s e).next (portOf s e).exp))]
  others : ∀ p, p ≠ e → portOf t p = portOf s p

/-- The packet of a request that has left the queue `q` of port `e`, whatever was granted. -/
theorem sendPkt_sent {s z : State} {e : Nat} {r : EReq} {f : Port → Port} {l : Option (Nat × Nat)} (hf : ∀ q, ∃ n, f q = { q with wait := q.wait.filter (fun x => x.id != r.id), last := n })
    (hz : portOf z e = { portOf s e with lock := l }) (hothers : ∀ p, p ≠ e → portOf z p = portOf s p) (hwire : z.wire = s.wire) :
    Sent s (sendPkt (updPort z e f) e r.pkt) e r := by
  obtain ⟨n, hn⟩ := hf (portOf z e)
  have hq : portOf (updPort z e f) e = { portOf s e with lock := l, wait := (portOf s e).wait.filter (fun x => x.id != r.id), last := n } := by
    rw [portOf_updPort_same, hn, hz]
  have hw : (updPort z e f).wire = s.wire := by rw [← hwire]; simp only [updPort_keeps]
  have ho (p : Nat) (h : p ≠ e) : portOf (updPort z e f) p = portOf s p := (portOf_updPort_other _ _ _ _ h).trans (hothers p h)
  generalize updPort z e f = y at hq hw ho
  have hport (q : Nat) (w : WireOut) : portOf (wireOut y q w) = portOf y := rfl
  unfold sendPkt
  refine ⟨?_, ?_, ?_, ?_, fun p h => ?_⟩
  · rw [portOf_updPort_same, hport, hq]
  · rw [portOf_updPort_same, hport, hq]
  · rw [portOf_updPort_same, hport, hq]
  · have hout (q : Nat) (w : WireOut) : (wireOut y q w).wire = y.wire ++ [(q, w)] := rfl
    simp only [updPort_keeps]
    rw [hout, hw, hq]
  · rw [portOf_updPort_other _ _ _ _ h, hport, ho p h]

theorem egressCommit_sent {s : State} {e : Nat} {r : EReq} (hsigs : s.outSigs = []) (hpick : egressPick s e = some r) : Sent s (egressCommit s e) e r := by
  unfold egressCommit
  rw [drainSigs_nil hsigs]
  dsimp only
  rw [hpick]
  dsimp only
  split
  · exact sendPkt_sent (l := (portOf s e).lock) (fun q => ⟨q.last, rfl⟩) rfl (fun _ _ => rfl) rfl
  · obtain ⟨hports, hwire⟩ := starved_ports s e r
    obtain ⟨⟨l, hl⟩, hothers, hw⟩ := lockNext_facts (starved s e r) e r
    exact sendPkt_sent (l := l) (fun q => ⟨r.from_, rfl⟩) (hl.trans (by rw [portOf_of_ports hports])) (fun p h => (hothers p h).trans (portOf_of_ports hports p)) (hw.trans hwire)

/-! ### The obligation -/

/-- Settles O35: each port command is one step of its port's state, and what a port sends or drops is read off its own record. -/
theorem portsMoveAndSend : Obligations.PortsMoveAndSend := by
  unfold Obligations.PortsMoveAndSend
  refine ⟨⟨fun s p hp hup => ?lost, fun s p v hp hv hst => ?retrain, fun s p failed now z hp hz hst => ⟨fun h0 he => ?up, fun h1 h2 hf => ?down, fun h1 h2 hf => ?again⟩,
    fun s p devid port e now z w hp hz hst hw hne => ?miscabled, fun s p devid port e now z hp hz hst hw => ?peer, fun s p now z a hp hz ha hlate => ?expiry⟩,
    fun s e now z r he hz hsigs hmirror hpick => ?send, fun s e id he hany => ?cancel, fun s e id he hany => ?none⟩
  case lost =>
    have hexec : exec (.linkLost p) s = execLinkLost p s := rfl
    unfold execLinkLost at hexec
    rw [if_pos hup] at hexec
    obtain ⟨hst, hreplay, _⟩ := retrain_facts s p
    exact ⟨_, ran_next (exec_guarded (decide_eq_true hp) hexec), by rw [portState, fld_underQueue]; exact hst, by rw [portOf_underQueue, hreplay]⟩
  case retrain =>
    have hexec : exec (.portRetrain p) s = execPortRetrain p s := rfl
    unfold execPortRetrain at hexec
    dsimp only at hexec
    rw [hv] at hexec
    dsimp only at hexec
    rw [show portState (strobeClr s (aYLV_PORT_CTL p) 4) p = portState s p from rfl, if_pos hst] at hexec
    generalize hz : updPort (strobeClr s (aYLV_PORT_CTL p) 4) p _ = z at hexec
    have hstrobe : strobeOf z (aYLV_PORT_CTL p) 4 = none := by
      rw [← hz]
      exact strobeOf_strobeClr_same s (aYLV_PORT_CTL p) 4
    obtain ⟨hst, _, hstrobes⟩ := retrain_facts z p
    refine ⟨_, ran_next (exec_guarded (decide_eq_true hp) hexec), by rw [portState, fld_underQueue]; exact hst, ?_⟩
    exact (strobeOf_of_strobes (by simp only [underQueue_keeps, hstrobes]) _ _).trans hstrobe
  case up =>
    have hexec : exec (.linkTrainingComplete p failed now) s = execLinkTrainingComplete p failed now s := rfl
    unfold execLinkTrainingComplete at hexec
    rw [← hz] at hexec
    dsimp only at hexec
    rw [if_neg (by omega), if_pos h0] at hexec
    obtain ⟨hup, h33, hfails, hfirst⟩ := portComesUp_facts he
    refine ⟨_, ran_next (exec_guarded (decide_eq_true hp) hexec), ?_⟩
    rw [portState, fld_underQueue, fld_underQueue, portOf_underQueue]
    exact ⟨hup, h33, hfails, hfirst⟩
  case down =>
    have hexec : exec (.linkTrainingComplete p failed now) s = execLinkTrainingComplete p failed now s := rfl
    unfold execLinkTrainingComplete at hexec
    rw [← hz] at hexec
    dsimp only at hexec
    rw [if_neg (by omega), if_neg (by omega), if_neg (by omega), if_pos hf] at hexec
    obtain ⟨hst, hat⟩ := portGoesDown_facts z p
    exact ⟨_, ran_next (exec_guarded (decide_eq_true hp) hexec), by rw [portState, fld_underQueue]; exact hst, by rw [portOf_underQueue, hat]⟩
  case again =>
    have hexec : exec (.linkTrainingComplete p failed now) s = execLinkTrainingComplete p failed now s := rfl
    unfold execLinkTrainingComplete at hexec
    rw [← hz] at hexec
    dsimp only at hexec
    rw [if_neg (by omega), if_neg (by omega), if_neg (by omega), if_neg (by omega)] at hexec
    exact ⟨_, ran_next (exec_guarded (decide_eq_true hp) hexec), by rw [portState, fld_underQueue]; rfl, by rw [portOf_underQueue, portOf_updPort_same]⟩
  case miscabled =>
    have hexec : exec (.linkState p devid port e none now) s = execLinkState p devid port e none now s := rfl
    unfold execLinkState at hexec
    have hwrong : peerWrong z p devid port = true := by
      rw [peerWrong, hw]
      simpa using hne
    rw [← hz, (linkStateIn_eq devid port e hst).1 hwrong] at hexec
    obtain ⟨hdev, hport, _, _⟩ := peerNoted_facts z p devid port
    have hview := reportLink_portView (setFld (peerNoted z p devid port) (aYLV_PORT_STATUS p) 2 0 5) p p
    refine ⟨_, ran_next (exec_guarded (decide_eq_true hp) hexec), ?_, ?_, ?_⟩
    · rw [portState, fld_underQueue, statusFld_of_view hview]
      exact fld_setFld_same _ _ _ (by decide) (by decide)
    · rw [fld_underQueue, statusFld_of_view hview, fld_setFld_apart _ _ _ (by decide) (by decide) (by decide), hdev]
    · rw [fld_underQueue, statusFld_of_view hview, fld_setFld_apart _ _ _ (by decide) (by decide) (by decide), hport]
  case peer =>
    have hexec : exec (.linkState p devid port e none now) s = execLinkState p devid port e none now s := rfl
    unfold execLinkState at hexec
    have hwrong : peerWrong z p devid port = false := by
      unfold peerWrong
      split
      · next w h =>
        rw [hw w h]
        exact bne_self_eq_false _
      · rfl
    rw [← hz, (linkStateIn_eq devid port e (by omega)).2 hwrong (by omega)] at hexec
    obtain ⟨_, _, hst', _⟩ := peerNoted_facts z p devid port
    refine ⟨_, ran_next (exec_guarded (decide_eq_true hp) hexec), ?_, ?_⟩
    · rw [portState, fld_underQueue, fld_updPort]
      exact hst'
    · rw [portOf_underQueue, portOf_updPort_same]
  case expiry =>
    have hexec : exec (.linkLossWaitExpiry p now) s = execLinkLossWaitExpiry p now s := rfl
    unfold execLinkLossWaitExpiry at hexec
    rw [← hz] at hexec
    dsimp only at hexec
    rw [ha] at hexec
    dsimp only at hexec
    rw [if_pos hlate] at hexec
    generalize hw : updPort z p _ = w at hexec
    have hport : portOf w p = { portOf z p with downAt := none, replay := [], oldest := (portOf z p).next } := by rw [← hw, portOf_updPort_same]
    have hfold := foldl_keep (portBuffered p) (fun (s : State) (r : Nat × Pkt) => undeliverable s p r.2 3) (fun s r => undeliverable_buffered s p r.2 3 p)
      (portOf z p).replay w
    have hbuf := congrArg Prod.snd hfold
    simp only [portBuffered, hport] at hbuf
    refine ⟨_, ran_next (exec_guarded (decide_eq_true hp) hexec), ?_⟩
    rw [portOf_underQueue]
    exact ⟨congrArg Port.downAt hbuf, congrArg Port.replay hbuf, congrArg Port.oldest hbuf⟩
  case send =>
    have hexec : exec (.egressCommit e now) s = execEgressCommit e now s := rfl
    unfold execEgressCommit at hexec
    rw [← hz, drainMirror_nil hmirror, ite_self] at hexec
    obtain ⟨hwait, hreplay, hnext, hwire, hothers⟩ := egressCommit_sent hsigs hpick
    have hports : z.ports = s.ports ∧ z.wire = s.wire := by
      rw [hz]
      simp only [atTime_keeps, and_self]
    rw [hports.2] at hwire
    refine ⟨_, ran_next (exec_guarded (decide_eq_true he) hexec), ?_, ?_, ?_, ?_, fun p h => ?_⟩
    · rw [portOf_underQueue, hwait]
    · rw [portOf_underQueue, hreplay]
    · rw [portOf_underQueue, hnext]
    · simp only [underQueue_keeps, hwire]
    · rw [portOf_underQueue, hothers p h, portOf_of_ports hports.1]
  case cancel =>
    have hexec : exec (.requestCancel e id) s = execRequestCancel e id s := rfl
    unfold execRequestCancel at hexec
    rw [if_pos hany] at hexec
    refine ⟨_, ran_next (exec_guarded (decide_eq_true he) hexec), ?_, rfl, rfl⟩
    exact congrArg Port.wait (portOf_updPort_same s e fun q => { q with wait := q.wait.filter fun r => r.id != id })
  case none =>
    have hexec : exec (.requestCancel e id) s = execRequestCancel e id s := rfl
    unfold execRequestCancel at hexec
    rw [hany, if_neg (by decide)] at hexec
    exact exec_guarded (decide_eq_true he) hexec

end Sys2Proof.Machine
end

section
/-! Packets delivered here (R308, R316, R369, R386, R387). -/

namespace Sys2Proof.Machine

open Sys2Proof.Claims

/-! ### Arrival -/

/-- R386: a packet for this device, with its key and its hops in order, is acted on. -/
theorem ingress_here {s : State} {p : Nat} {pk : Pkt} (hckt : pkCkt pk = false) (hkey : keyFiltered s p (pkKey pk) = true)
    (hhere : 12 ≤ p ∨ 1 < pkNat pk 13 1 ∧ routeOf s pk = .here) (act : State → Pkt → State) : ingress s p pk true act = act s pk := by
  unfold ingress
  dsimp only
  rw [hckt, if_neg (by decide), hkey, if_neg (by decide)]
  rcases hhere with h12 | ⟨hhops, hroute⟩
  · rw [if_pos h12]
    exact if_pos rfl
  · split
    · rfl
    · rw [if_neg (by omega), hroute]
      rfl

/-- What the bytes of a packet give, with a body that came whole. -/
theorem packetRead_eq {bytes : List Byte} {pk : Pkt} (hdata : leNat (bytes.take 1) = ptDATA → pk = (parseData bytes).1 ∧ (parseData bytes).2 = 0)
    (hrest : leNat (bytes.take 1) ≠ ptDATA → pk = { hdr := bytes.take 64 }) :
    (if leNat (bytes.take 1) = ptDATA then parseData bytes else ({ hdr := bytes.take 64 }, 0)) = (pk, 0) := by
  split
  · next h =>
    obtain ⟨h1, h2⟩ := hdata h
    rw [h1, ← h2]
  · next h => rw [hrest h]

/-- R372, R386: what arrives and is the command's is acted on. -/
theorem rxPacket_arrives {s s₁ : State} {p : Nat} {bytes : List Byte} {pk : Pkt} (h : arrives s p bytes pk s₁) {mine : Pkt → Bool} (hmine : mine pk = true)
    (act : State → Pkt → State) : rxPacket s p false bytes mine act = act s₁ pk := by
  rcases h with ⟨rfl, rest, hloop, rfl⟩ | ⟨hp, hup, hdeaf, hhead, hdata, hrest, hty, hack, hseq, hres, hckt, hkey, hhere, rfl⟩
  · unfold rxPacket
    rw [if_pos rfl, hloop]
    exact if_pos hmine
  · have hread := packetRead_eq hdata hrest
    unfold rxPacket
    rw [if_neg (by omega), hup, hdeaf, if_neg (by decide), hhead, if_neg (by decide)]
    rw [hread]
    dsimp only
    rw [if_neg (by rw [hmine]; simpa using hty), hack, if_neg Bool.false_ne_true]
    dsimp only
    rw [if_neg (by decide), if_pos hseq, if_neg (by decide), if_neg (by decide), hres, if_neg Bool.false_ne_true]
    exact ingress_here (s := takeIn s p pk) hckt hkey hhere act

/-- What an arrival leaves alone: all but the port and the packets that the device sent to itself. -/
theorem arrives_keep {β : Type} {g : State → β} {s s₁ : State} {p : Nat} {bytes : List Byte} {pk : Pkt} (h : arrives s p bytes pk s₁)
    (hloop : ∀ z l, g { z with loop := l } = g z) (hport : ∀ z f, g (updPort z p f) = g z) : g s₁ = g s := by
  rcases h with ⟨_, rest, _, rfl⟩ | ⟨_, _, _, _, _, _, _, _, _, _, _, _, _, rfl⟩
  · exact hloop _ _
  · exact hport _ _

theorem isIngress_of_arrives {s s₁ : State} {p : Nat} {bytes : List Byte} {pk : Pkt} (h : arrives s p bytes pk s₁) : isIngress p = true := by
  refine decide_eq_true ?_
  rcases h with ⟨rfl, _⟩ | ⟨hp, _⟩
  · decide
  · omega

section
variable {s s₁ : State} {p : Nat} {bytes : List Byte} {pk : Pkt} (h : arrives s p bytes pk s₁)
include h

theorem devCtx_of_arrives (key : Nat) : devCtx s₁ key = devCtx s key := arrives_keep (g := (devCtx · key)) h (fun _ _ => rfl) fun _ _ => rfl

theorem withCtx_none {key : Nat} (hkey : key = pkKey pk) (hnone : devCtx s key = none) (f : State → Pkt → Nat → State) : withCtx p f s₁ pk = keyDrop s₁ p pk := by
  subst hkey
  rw [withCtx, devCtx_of_arrives h, hnone]

theorem withCtx_some {c : Nat} (hc : devCtx s (pkKey pk) = some c) (f : State → Pkt → Nat → State) : withCtx p f s₁ pk = f s₁ pk c := by
  rw [withCtx, devCtx_of_arrives h, hc]

theorem pwrState_of_arrives : pwrState s₁ = pwrState s := arrives_keep (g := pwrState) h (fun _ _ => rfl) fun _ _ => rfl

/-- A packet command that runs on what arrives. -/
theorem exec_arrives {i : Instr} {mine : Pkt → Bool} {act : State → Pkt → State}
    (hi : exec i s = guardUnit (isIngress p) (ran s (rxPacket s p false bytes mine act))) (hmine : mine pk = true) : exec i s = ran s (act s₁ pk) :=
  exec_guarded_eq (isIngress_of_arrives h) hi (rxPacket_arrives h hmine act)

/-- R386: under a key of no context nothing is done but a count. -/
theorem exec_dropped {i : Instr} {mine : Pkt → Bool} {f : State → Pkt → Nat → State} (hnone : devCtx s (pkKey pk) = none)
    (hi : exec i s = guardUnit (isIngress p) (ran s (rxPacket s p false bytes mine (withCtx p f)))) (hmine : mine pk = true) :
    exec i s = ran s (keyDrop s₁ p pk) :=
  (exec_arrives h hi hmine).trans (congrArg (ran s) (withCtx_none h rfl hnone f))

end

/-! ### What a signal's wake and report leave -/

theorem wakeBy_conj (s : State) (src : Nat) : (wakeBy s src).conj = s.conj := by
  unfold wakeBy
  split <;> rfl

theorem report_conj (s : State) (cls cause part slice unit : Nat) (d : List Nat) : (report s cls cause part slice unit d).conj = s.conj :=
  (congrArg State.conj (report_rest s cls cause part slice unit d) : (rptRest _).conj = (rptRest _).conj)

theorem conjOf_of_conj {s t : State} (h : t.conj = s.conj) (j : Nat) : conjOf t j = conjOf s j := by rw [conjOf, h, conjOf]

theorem conjKeyOk_of_conj {s t : State} (h : t.conj = s.conj) (j : Nat) (key : BitVec 16) : conjKeyOk t j key = conjKeyOk s j key := by
  rw [conjKeyOk, conjOf_of_conj h, conjKeyOk]

/-- R308: a signal under a key that its Conjunction does not carry changes none. -/
theorem conjSignal_refused {s : State} {j : Nat} {key : BitVec 16} (h : conjKeyOk s j key = false) (n : Nat) (err : Bool) : (conjSignal s j n err key).conj = s.conj := by
  unfold conjSignal
  rw [h, if_neg (by decide)]
  dsimp only
  split
  · rfl
  · simp only [setFld_keeps, satFld_keeps]

theorem ackTake_found {s : State} {tag n w : Nat} (h : mapFind s.ackWait tag = some (n, w)) (status : Nat) :
    ackTake s tag status = { s with ackWait := mapIns s.ackWait tag (n - 1, max w status) } := by
  rw [ackTake, h]

/-- R387: a DATA packet whose area can be reached is stored whole. -/
theorem putPayload_clean {s : State} {pk : Pkt} (h : pk.poison = 0) (c : Nat) : putPayload s c pk = areaStore s c 48 (pkNat pk 24 8) pk.payload false := if_pos h

/-- Settles O36: what arrives is acted on by the command of its type, under its key's context. -/
theorem packetsDelivered : Obligations.PacketsDelivered := by
  unfold Obligations.PacketsDelivered
  refine ⟨fun s p bytes pk s₁ full ty i h hi hty hnone => ?dropped, fun s p bytes pk s₁ c h hc => ⟨fun hty => ?signal, fun n w hty hw => ?ack,
    fun n w hty hcoll hdata hw => ?undel, fun full hty h1 h2 => ?read, fun hty h1 h2 hreach hpoison => ⟨fun hop hpair => ?write, fun hop => ?resp⟩⟩⟩
  case dropped =>
    simp only [List.mem_cons, Prod.mk.injEq, List.not_mem_nil, or_false] at hi
    obtain ⟨rfl, rfl⟩ | ⟨rfl, rfl⟩ | ⟨rfl, rfl⟩ | ⟨rfl, rfl⟩ | ⟨rfl, rfl⟩ := hi
    · have hexec : exec (.signalPacket p false bytes) s = execSignalPacket p false bytes s := rfl
      unfold execSignalPacket at hexec
      exact exec_dropped h hnone hexec (beq_iff_eq.mpr hty)
    · have hexec : exec (.writeAck p false bytes) s = execWriteAck p false bytes s := rfl
      unfold execWriteAck at hexec
      exact exec_dropped h hnone hexec (beq_iff_eq.mpr hty)
    · have hexec : exec (.readPacket p false bytes full) s = execReadPacket p false bytes full s := rfl
      unfold execReadPacket at hexec
      exact exec_dropped h hnone hexec (beq_iff_eq.mpr hty)
    · have hexec : exec (.undeliverablePacket p false bytes) s = execUndeliverablePacket p false bytes s := rfl
      unfold execUndeliverablePacket at hexec
      exact exec_dropped h hnone hexec (beq_iff_eq.mpr hty)
    · have hexec : exec (.abortPacket p false bytes) s = execAbortPacket p false bytes s := rfl
      unfold execAbortPacket collHere at hexec
      exact exec_dropped h hnone hexec (beq_iff_eq.mpr hty)
  case signal =>
    have hexec : exec (.signalPacket p false bytes) s = execSignalPacket p false bytes s := rfl
    unfold execSignalPacket at hexec
    replace hexec := exec_arrives h hexec (beq_iff_eq.mpr hty)
    rw [withCtx_some h hc] at hexec
    have hconj : (wakeBy s₁ 2).conj = s.conj := (wakeBy_conj _ _).trans (arrives_keep (g := State.conj) h (fun _ _ => rfl) fun z f => by simp only [updPort_keeps])
    dsimp only at hexec ⊢
    rw [conjKeyOk_of_conj hconj] at hexec
    refine ⟨fun hkey => ?_, fun hkey => ?_⟩
    · rw [hkey, if_pos rfl] at hexec
      have hk : conjKeyOk (wakeBy s₁ 2) (pkNat pk 16 2) (BitVec.ofNat 16 (pkKey pk)) = true := (conjKeyOk_of_conj hconj _ _).trans hkey
      refine ⟨_, ran_next hexec, ?_, fun l hl => ?_⟩
      · rw [conjOf_underQueue, conjOf_conjSignal_same hk, conjOf_of_conj hconj]
      · rw [conjOf_underQueue, conjOf_conjSignal_other hk hl, conjOf_of_conj hconj]
    · rw [hkey, if_neg Bool.false_ne_true] at hexec
      refine ⟨_, ran_next hexec, ?_⟩
      rw [conj_underQueue, report_conj, conjSignal_refused ((conjKeyOk_of_conj hconj _ _).trans hkey), hconj]
  case ack =>
    have hexec : exec (.writeAck p false bytes) s = execWriteAck p false bytes s := rfl
    unfold execWriteAck at hexec
    replace hexec := exec_arrives h hexec (beq_iff_eq.mpr hty)
    have hside : (s₁.ackWait, s₁.spm, s₁.hbm) = (s.ackWait, s.spm, s.hbm) := arrives_keep (g := fun z : State => (z.ackWait, z.spm, z.hbm)) h (fun _ _ => rfl) fun _ _ => rfl
    obtain ⟨hack, hspm, hhbm⟩ : s₁.ackWait = s.ackWait ∧ s₁.spm = s.spm ∧ s₁.hbm = s.hbm := by simpa only [Prod.mk.injEq] using hside
    rw [withCtx_some h hc] at hexec
    rw [ackTake_found (by rw [hack, hw]), hack] at hexec
    exact ⟨_, ran_next hexec, rfl, hspm, hhbm⟩
  case undel =>
    have hexec : exec (.undeliverablePacket p false bytes) s = execUndeliverablePacket p false bytes s := rfl
    unfold execUndeliverablePacket at hexec
    replace hexec := exec_arrives h hexec (beq_iff_eq.mpr hty)
    have hside : (s₁.ackWait, s₁.conj) = (s.ackWait, s.conj) := arrives_keep (g := fun z : State => (z.ackWait, z.conj)) h (fun _ _ => rfl) fun _ _ => rfl
    obtain ⟨hack, hconj⟩ := Prod.mk.inj hside
    rw [withCtx_some h hc, undelIn] at hexec
    rw [hcoll, if_neg Bool.false_ne_true, hdata, if_neg (by decide), if_pos rfl, ackTake_found (by rw [hack, hw]), hack] at hexec
    exact ⟨_, ran_next hexec, rfl, hconj⟩
  case read =>
    have hexec : exec (.readPacket p false bytes full) s = execReadPacket p false bytes full s := rfl
    unfold execReadPacket at hexec
    replace hexec := exec_arrives h hexec (beq_iff_eq.mpr hty)
    rw [withCtx_some h hc, awake, pwrState_of_arrives h, if_neg (by omega)] at hexec
    exact hexec
  case write =>
    have hexec : exec (.dataWrite p false bytes) s = execDataWrite p false bytes s := rfl
    unfold execDataWrite at hexec
    replace hexec := exec_arrives h hexec (by simp [hty, hop, hpair])
    rw [withCtx_some h hc, awake, pwrState_of_arrives h, if_neg (by omega), dataWrite, hreach] at hexec
    dsimp only at hexec
    rw [if_neg (show ¬stOK = stADDRESS by decide), putPayload_clean hpoison, if_neg (fun hp : stOK = stOK ∧ pk.poison ≠ 0 => hp.2 hpoison)] at hexec
    exact hexec
  case resp =>
    have hexec : exec (.dataReadResp p false bytes) s = execDataReadResp p false bytes s := rfl
    unfold execDataReadResp at hexec
    replace hexec := exec_arrives h hexec (by simp [hty, hop])
    rw [withCtx_some h hc, awake, pwrState_of_arrives h, if_neg (by omega), hreach] at hexec
    dsimp only at hexec
    rw [if_neg (by decide), putPayload_clean hpoison] at hexec
    exact hexec

end Sys2Proof.Machine
end

section
/-! What a store leaves alone, and the COPY of inputs (R440 to R445, R527). -/

namespace Sys2Proof.Machine

open Sys2Proof.Claims

/-! ### What a store leaves alone -/

/-- A store reaches the memories, the contexts' pages and flags, the Particles' reservations, what a pair mirrors and what the host is sent. -/
def storeRest (s : State) : State := { memRest s with hostOut := [] }

/-- The state but for what the host is sent. -/
def outRest (s : State) : State := { s with hostOut := [] }

theorem hostWrite_rest (s : State) (f fuel addr : Nat) (bs : List Byte) (ep ro ns : Bool) : outRest (hostWrite s f fuel addr bs ep ro ns) = outRest s := by
  have hsend (z : State) (o : HostOut) : outRest (hostSend z o) = outRest z := rfl
  induction fuel generalizing s addr bs with
  | zero => rfl
  | succ fuel ih =>
    unfold hostWrite
    split
    · rfl
    · exact (ih _ _ _).trans (hsend _ _)

theorem storeRest_of_mem {s t : State} (h : memRest t = memRest s) : storeRest t = storeRest s := congrArg (fun z : State => { z with hostOut := [] }) h

theorem areaStore_rest (s : State) (c sl r : Nat) (bs : List Byte) (po : Bool) : storeRest (areaStore s c sl r bs po) = storeRest s := by
  unfold areaStore
  split
  · next h =>
    rw [arWrite, if_pos h]
    exact storeRest_of_mem (spWrite_rest _ _ _ _ _ _)
  · refine foldl_keep storeRest _ (fun s p => ?_) _ _
    dsimp only
    split
    · exact congrArg memRest (hostWrite_rest _ _ _ _ _ _ _ _)
    · exact storeRest_of_mem (dvaWrite_rest _ _ _ _ _ _)
    · rfl

/-- What a store leaves of the contexts: all but their pages and their step flags. -/
def ctxCores (s : State) (c : Nat) : Ctx := { ctxOf s c with pages := [], sflags := 0 }

theorem ctxCores_of_ctxs {s t : State} (h : t.ctxs = s.ctxs) : ctxCores t = ctxCores s := by
  funext c
  rw [ctxCores, ctxOf, h, ctxCores, ctxOf]

theorem ctxCores_updCtx (s : State) (c : Nat) {f : Ctx → Ctx} (hf : ∀ x, { f x with pages := [], sflags := 0 } = ({ x with pages := [], sflags := 0 } : Ctx)) :
    ctxCores (updCtx s c f) = ctxCores s := by
  funext d
  by_cases h : d = c
  · rw [h, ctxCores, ctxOf_updCtx_same, hf, ctxCores]
  · rw [ctxCores, ctxOf_updCtx_other _ _ _ _ h, ctxCores]

theorem ctxCores_mapIns (s : State) (c pg : Nat) (p : Page) : ctxCores (updCtx s c fun x => { x with pages := mapIns x.pages pg p }) = ctxCores s :=
  ctxCores_updCtx s c fun _ => by rfl

theorem dvaPut_cores (s : State) (k sl a : Nat) (bs : List Byte) (po : Bool) : ctxCores (dvaPut s k sl a bs po) = ctxCores s :=
  ctxCores_of_ctxs (dvaPut_keeps s k sl a bs po).1

theorem spAlloc_cores (s : State) (c w a n : Nat) : ctxCores (spAlloc s c w a n) = ctxCores s := by
  unfold spAlloc
  split
  · rfl
  · refine foldl_keep ctxCores _ (fun s pg => ?_) _ _
    extract_lets p z
    refine (ctxCores_mapIns _ _ _ _).trans ?_
    unfold z
    split
    · split
      · exact ctxCores_mapIns _ _ _ _
      · split
        · exact (ctxCores_mapIns _ _ _ _).trans (ctxCores_of_ctxs rfl)
        · rfl
    · rfl

theorem spPut_cores (s : State) (c w a : Nat) (bs : List Byte) (po : Bool) : ctxCores (spPut s c w a bs po) = ctxCores s := by
  have hresv (z : State) (n : Nat) : ctxCores (breakResv z c a n) = ctxCores z := by
    unfold breakResv
    split
    · exact ctxCores_of_ctxs rfl
    · rfl
  have hzero (z : State) (k x n : Nat) : ctxCores (dvaZero z k x n) = ctxCores z := foldl_keep ctxCores _ (fun _ _ => dvaPut_cores _ _ _ _ _ _) _ _
  unfold spPut
  refine (foldl_keep ctxCores _ (fun s p => ?_) _ _).trans ((hresv _ _).trans (spAlloc_cores _ _ _ _ _))
  dsimp only
  split
  · exact ctxCores_of_ctxs rfl
  · split
    · refine (dvaPut_cores _ _ _ _ _ _).trans ?_
      split
      · rfl
      · exact (ctxCores_mapIns _ _ _ _).trans (hzero _ _ _ _)
    · rfl

theorem viewWrite_cores (vs : List (Nat × View)) (sp : Bool) (w : Nat) (put : State → Nat → List Byte → State) (po : Bool) (s : State)
    (ps : List (Nat × List Byte)) (h : ∀ s a bs, ctxCores (put s a bs) = ctxCores s) : ctxCores (viewWrite vs sp w put po s ps) = ctxCores s := by
  have hmark (z : State) (c : Nat) (v : View) (a : Nat) : ctxCores (carryMark z c w v a) = ctxCores z := by
    unfold carryMark
    split
    · dsimp only
      unfold areaPut
      split
      · exact spPut_cores _ _ _ _ _ _
      · exact dvaPut_cores _ _ _ _ _ _
    · rfl
  have hnote (z : State) (c a : Nat) (bs : List Byte) : ctxCores (mirrorNote z c a bs po) = ctxCores z := by
    unfold mirrorNote
    split
    · exact ctxCores_of_ctxs rfl
    · rfl
  unfold viewWrite
  refine foldl_keep ctxCores _ (fun s p => ?_) _ _
  split
  · exact ctxCores_updCtx _ _ fun _ => by rfl
  · exact (hnote _ _ _ _).trans ((hmark _ _ _ _).trans (h _ _ _))
  · exact h _ _ _

/-- A store changes no field of a context but its pages and its step flags. -/
theorem areaStore_cores (s : State) (c sl r : Nat) (bs : List Byte) (po : Bool) : ctxCores (areaStore s c sl r bs po) = ctxCores s := by
  have hdva (z : State) (k x : Nat) (b : List Byte) : ctxCores (dvaWrite z k sl x b po) = ctxCores z := by
    unfold dvaWrite
    split
    · exact viewWrite_cores _ _ _ _ _ _ _ fun _ _ _ => dvaPut_cores _ _ _ _ _ _
    · exact dvaPut_cores _ _ _ _ _ _
  have hhost (z : State) (f n x : Nat) (b : List Byte) (ep ro ns : Bool) : ctxCores (hostWrite z f n x b ep ro ns) = ctxCores z :=
    ctxCores_of_ctxs (congrArg State.ctxs (hostWrite_rest z f n x b ep ro ns) : (outRest _).ctxs = (outRest _).ctxs)
  unfold areaStore
  split
  · next h =>
    rw [arWrite, if_pos h]
    unfold spWrite
    split
    · exact viewWrite_cores _ _ _ _ _ _ _ fun _ _ _ => spPut_cores _ _ _ _ _ _
    · exact spPut_cores _ _ _ _ _ _
  · refine foldl_keep ctxCores _ (fun s p => ?_) _ _
    dsimp only
    split
    · exact hhost _ _ _ _ _ _ _ _
    · exact hdva _ _ _ _
    · rfl

/-- What a store keeps, field by field. -/
theorem areaStore_keeps (s : State) (c sl r : Nat) (bs : List Byte) (po : Bool) :
    (areaStore s c sl r bs po).descs = s.descs ∧ (areaStore s c sl r bs po).runs = s.runs ∧ (areaStore s c sl r bs po).regs = s.regs ∧
    (areaStore s c sl r bs po).conj = s.conj ∧ (areaStore s c sl r bs po).tense = s.tense ∧ (areaStore s c sl r bs po).handles = s.handles ∧
    (areaStore s c sl r bs po).ackWait = s.ackWait := by
  have keep {β : Type} (g : State → β) (hg : ∀ z, g (storeRest z) = g z) : g (areaStore s c sl r bs po) = g s :=
    (hg _).symm.trans ((congrArg g (areaStore_rest s c sl r bs po)).trans (hg s))
  exact ⟨keep State.descs fun _ => rfl, keep State.runs fun _ => rfl, keep State.regs fun _ => rfl, keep State.conj fun _ => rfl,
    keep State.tense fun _ => rfl, keep State.handles fun _ => rfl, keep State.ackWait fun _ => rfl⟩

/-- What runs of stores keep: the descriptors, the scheduling records, and the contexts but for pages and flags. -/
def storeSide (s : State) : Map Desc × Map CtxRun × (Nat → Ctx) := (s.descs, s.runs, ctxCores s)

theorem areaStore_side (s : State) (c sl r : Nat) (bs : List Byte) (po : Bool) : storeSide (areaStore s c sl r bs po) = storeSide s := by
  obtain ⟨hdescs, hruns, _⟩ := areaStore_keeps s c sl r bs po
  rw [storeSide, hdescs, hruns, areaStore_cores, storeSide]

theorem storeRuns_side (s : State) (c r : Nat) (rs : List (List Byte × Bool)) : storeSide (storeRuns s c r rs) = storeSide s :=
  foldl_keep (fun a : State × Nat => storeSide a.1) _ (fun a x => areaStore_side a.1 c 48 a.2 x.1 x.2) rs (s, r)

section
variable {s t : State} (h : storeSide t = storeSide s)
include h

theorem descs_of_side : t.descs = s.descs := congrArg Prod.fst h

theorem runOf_of_side (c : Nat) : runOf t c = runOf s c := by
  rw [runOf, (Prod.mk.inj (Prod.mk.inj h).2).1, runOf]

/-- A field of a context that stores do not touch. -/
theorem ctxField_of_side {β : Type} (g : Ctx → β) (hg : ∀ x, g { x with pages := [], sflags := 0 } = g x) (c : Nat) : g (ctxOf t c) = g (ctxOf s c) :=
  (hg _).symm.trans ((congrArg g (congrFun (Prod.mk.inj (Prod.mk.inj h).2).2 c)).trans (hg _))

end

/-! ### The end of a copy (R527) -/

/-- R527: a copy ends with what it has noted. -/
theorem copyEnd_facts {s : State} {d : Nat} {x : Desc} (hx : mapFind s.descs d = some x) (c : Nat) :
    endsAs (copyEnd s d c) d x.note 0 0 ∧ (copyEnd s d c).spm = s.spm ∧ (copyEnd s d c).hbm = s.hbm ∧ (copyEnd s d c).hostOut = s.hostOut ∧
    ∀ k, (ctxOf (copyEnd s d c) k).inputs = (ctxOf s k).inputs := by
  have hflags (f : Nat) : mapFind (orSflags s c f).descs d = some x ∧ (orSflags s c f).spm = s.spm ∧ (orSflags s c f).hbm = s.hbm ∧
      (orSflags s c f).hostOut = s.hostOut ∧ ∀ k, (ctxOf (orSflags s c f) k).inputs = (ctxOf s k).inputs := by
    unfold orSflags
    split
    · exact ⟨hx, rfl, rfl, rfl, fun _ => rfl⟩
    · refine ⟨hx, rfl, rfl, rfl, fun k => ?_⟩
      by_cases hk : k = c
      · rw [hk, ctxOf_updCtx_same]
      · rw [ctxOf_updCtx_other _ _ _ _ hk]
  unfold copyEnd
  rw [hx]
  dsimp only
  split
  · obtain ⟨hd, hspm, hhbm, hout, hin⟩ := hflags 8
    refine ⟨endsAs_descEnd hd _ _ _, ?_, ?_, ?_, fun k => ?_⟩
    · simp only [descEnd_keeps, hspm]
    · simp only [descEnd_keeps, hhbm]
    · simp only [descEnd_keeps, hout]
    · rw [ctxOf_descEnd, hin]
  · exact ⟨endsAs_descEnd hx _ _ _, by simp only [descEnd_keeps], by simp only [descEnd_keeps], by simp only [descEnd_keeps], fun k => by rw [ctxOf_descEnd]⟩

/-- R527: the last bytes of a copy that is no input are stored, and it ends. -/
theorem copyMove_last {s : State} {d c : Nat} {x y : Desc} {bs : List Byte} (hy : mapFind s.descs d = some y) (hin : cpInput x = false)
    (hpos : x.pos < dNat x 0x20 8) (hn : dNat x 0x20 8 - x.pos ≤ chunkBytes)
    (hgot : areaGather s c 48 (dNat x 0x10 8 + x.pos) (dNat x 0x20 8 - x.pos) (dKey x) (.desc d) = (s, .done bs false false))
    (hok : areaCheck s c 48 (dNat x 0x18 8 + x.pos) (dNat x 0x20 8 - x.pos) (dKey x) true = none) :
    ∃ z, mapFind z.descs d = some { y with pos := y.pos + (dNat x 0x20 8 - x.pos) } ∧ copyMove s d x c = copyEnd z d c ∧
      let r := storeRuns s c (dNat x 0x18 8 + x.pos) (areaRuns s c (dNat x 0x10 8 + x.pos) (dNat x 0x20 8 - x.pos) (.desc d))
      z.spm = r.spm ∧ z.hbm = r.hbm := by
  unfold copyMove
  dsimp only
  rw [Nat.min_eq_right hn, if_neg (by omega), hgot]
  dsimp only
  rw [hok]
  dsimp only
  rw [hin, if_pos (show (!false && decide (x.pos + (dNat x 0x20 8 - x.pos) = dNat x 0x20 8)) = true by simp; omega), Bool.false_and, if_neg (by decide),
    Bool.false_and, descPoison, if_neg (by decide)]
  generalize hr : storeRuns s c _ _ = r
  have hry : mapFind r.descs d = some y := by rw [← hr, descs_of_side (storeRuns_side _ _ _ _), hy]
  refine ⟨_, ?_, rfl, ?_, ?_⟩
  · rw [mapFind_updDesc_same hry, if_neg (by decide)]
  · rw [updDesc_of_find hry]
  · rw [updDesc_of_find hry]

/-- Settles O39: a copy's last bytes are its stores, a hash lane replaces a chunk by its digest, and an input is held under its digest. -/
theorem inputsAreCopiedAndHashed : Obligations.InputsAreCopiedAndHashed := by
  unfold Obligations.InputsAreCopiedAndHashed
  have hmem {s z : State} {now : Nat} (hz : z = atTime s now) : z.spm = s.spm ∧ z.hbm = s.hbm ∧ z.ctxs = s.ctxs := by
    rw [hz]
    simp only [atTime_keeps, and_self]
  refine ⟨fun s d now z x c s₁ bs po rs hz hx hc hin hacc hs₁ hpos hn hrs hgot hpo hok => ?copy, fun s d now z x c hz hx hc hout => ?outside,
    fun s d k x y hx hy => ?hash, fun s d now z x c hz hx hc hin hpos hch => ⟨fun st hst => ?refused, fun hnone hgl => ?held⟩⟩
  case copy =>
    have hexec : exec (.copyPlain d now) s = execCopyPlain d now s := rfl
    unfold execCopyPlain at hexec
    rw [← hz] at hexec
    dsimp only at hexec
    rw [hx] at hexec
    dsimp only at hexec
    rw [hc] at hexec
    dsimp only at hexec
    have hmove : exec (.copyPlain d now) s = ran z (copyMove s₁ d x c) := by
      rw [hexec, hs₁]
      split
      · next ha =>
        obtain ⟨h1, h2⟩ := hacc ha
        rw [h1, h2, hin]
        rfl
      · rfl
    have hfind := mapFind_of_descLive hx
    obtain ⟨y, hy, hnote⟩ : ∃ y, mapFind s₁.descs d = some y ∧ y.note = x.note := by
      rw [hs₁]
      split
      · exact ⟨_, mapFind_updDesc_same hfind _, rfl⟩
      · exact ⟨x, hfind, rfl⟩
    rw [hpo] at hgot
    obtain ⟨w, hw, hlast, hspm, hhbm⟩ := copyMove_last hy hin hpos hn hgot (Option.isNone_iff_eq_none.mp hok)
    obtain ⟨hends, hs, hh, _⟩ := copyEnd_facts hw c
    rw [hlast] at hmove
    refine ⟨_, ran_next hmove, ?_, ?_, ?_⟩
    · rw [← hnote]
      exact hends
    · simp only [underQueue_keeps, hs, hspm, hrs]
    · simp only [underQueue_keeps, hh, hhbm, hrs]
  case outside =>
    have hexec : exec (.copyPlain d now) s = execCopyPlain d now s := rfl
    have hlive : descLive z d dtCOPY 0 = some x := by rw [descLive, hx]
    obtain ⟨_, hst, _⟩ := descReady_facts hx
    unfold execCopyPlain at hexec
    rw [← hz] at hexec
    dsimp only at hexec
    rw [hlive] at hexec
    dsimp only at hexec
    rw [hc] at hexec
    dsimp only at hexec
    rw [if_pos hst, hout, if_pos (by simp)] at hexec
    obtain ⟨hspm, hhbm, _⟩ := hmem hz
    refine ⟨_, ran_next hexec, endsAs_ran_descEnd (mapFind_of_descReady hx) _ _ _ _, ?_, ?_⟩
    · simp only [underQueue_keeps, descEnd_keeps, hspm]
    · simp only [underQueue_keeps, descEnd_keeps, hhbm]
  case hash =>
    have hexec : exec (.hashLaneChunk d k) s = execHashLaneChunk d k s := rfl
    unfold execHashLaneChunk at hexec
    rw [hx] at hexec
    dsimp only at hexec
    rw [hy] at hexec
    refine ⟨_, ran_next hexec, ?_⟩
    simp only [underQueue_keeps]
    exact mapFind_updDesc_same hx _
  case refused =>
    have hexec : exec (.inputAccepted d now) s = execInputAccepted d now s := rfl
    unfold execInputAccepted at hexec
    rw [← hz] at hexec
    dsimp only at hexec
    rw [hx] at hexec
    dsimp only at hexec
    rw [hc] at hexec
    dsimp only at hexec
    rw [if_neg (by simp [hin, hpos, hch]), hst] at hexec
    obtain ⟨_, _, hctxs⟩ := hmem hz
    refine ⟨_, ran_next hexec, endsAs_ran_descEnd (mapFind_of_descRunning hx) _ _ _ _, ?_⟩
    simp only [underQueue_keeps, descEnd_keeps, hctxs]
  case held =>
    have hexec : exec (.inputAccepted d now) s = execInputAccepted d now s := rfl
    have hcopy : inputCopy z c (dNat x 0x18 8) (dNat x 0x20 8) = (z, none) := by rw [inputCopy, hgl]
    unfold execInputAccepted at hexec
    rw [← hz] at hexec
    dsimp only at hexec
    rw [hx] at hexec
    dsimp only at hexec
    rw [hc] at hexec
    dsimp only at hexec
    rw [if_neg (by simp [hin, hpos, hch]), hnone, hcopy] at hexec
    dsimp only at hexec
    generalize hw : updCtx z c _ = w at hexec
    have hfind : mapFind w.descs d = some x := by
      rw [← hw]
      exact mapFind_of_descRunning hx
    obtain ⟨hends, _, _, _, hinputs⟩ := copyEnd_facts hfind c
    refine ⟨_, ran_next hexec, hends, ?_⟩
    rw [ctxOf_underQueue, hinputs, ← hw, ctxOf_updCtx_same]

end Sys2Proof.Machine
end

section
/-! The Gloss and its snapshots (R443 to R453, R485, R486). -/

namespace Sys2Proof.Machine

open Sys2Proof.Claims

/-! ### Records and digests that have come -/

theorem descLive_of_running {s : State} {d ty fm : Nat} {x : Desc} (h : descRunning s d ty fm = some x) : descLive s d ty fm = some x := by
  obtain ⟨hfind, hst, _⟩ := descRunning_facts h
  have hnone : descReady s d ty fm = none := by
    unfold descReady
    rw [hfind]
    exact if_neg fun hacc => by rw [hst] at hacc; exact absurd hacc.1 (by decide)
  rw [descLive, hnone]
  exact h

theorem descLive_of_ready {s : State} {d ty fm : Nat} {x : Desc} (h : descReady s d ty fm = some x) : descLive s d ty fm = some x := by rw [descLive, h]

/-- A descriptor whose records have all come goes on. -/
theorem gatherParts_done {s : State} {id : Nat} {x : Desc} (hx : mapFind s.descs id = some x) {next : List Byte → Option (Nat × Nat)}
    (hnext : next (auxBytes x) = none) (c fuel : Nat) (fin : State → List Byte → State) : gatherParts id c next fin (fuel + 1) s = fin s (auxBytes x) := by
  rw [gatherParts, hx]
  dsimp only
  rw [hnext]

/-- A descriptor whose chunks all have their digests goes on. -/
theorem digestChunks_done {s : State} {id : Nat} {x : Desc} (hx : mapFind s.descs id = some x) {l : List (Nat × Nat × Nat)}
    (hall : ∀ ch, ch ∈ l → (x.digs.any fun y => y.1 == ch.1) = true) (c : Nat) (fin : State → State) : digestChunks id c fin l s = fin s := by
  induction l with
  | nil => rfl
  | cons ch l ih =>
    obtain ⟨k, r, n⟩ := ch
    rw [digestChunks, hx]
    dsimp only
    rw [if_pos (hall _ List.mem_cons_self)]
    exact ih fun ch h => hall ch (List.mem_cons_of_mem _ h)

/-! ### The Gloss of a context -/

theorem glossWrite_side (s : State) (c : Nat) : storeSide (glossWrite s c) = storeSide s := by
  unfold glossWrite
  split
  · exact areaStore_side _ _ _ _ _ _
  · rfl

theorem gloss_of_side {s t : State} (h : storeSide t = storeSide s) (c : Nat) : (ctxOf t c).gloss = (ctxOf s c).gloss :=
  ctxField_of_side h Ctx.gloss (fun _ => rfl) c

theorem glossOpen_of_side {s t : State} (h : storeSide t = storeSide s) (c : Nat) : (ctxOf t c).glossOpen = (ctxOf s c).glossOpen :=
  ctxField_of_side h Ctx.glossOpen (fun _ => rfl) c

/-- R452, R453: a journal entry moves the journal's place, and what the Gloss is of stays. -/
theorem journalInputs_facts (s : State) (c : Nat) (g : Gloss) (l : List Input) :
    storeSide (journalInputs s c g l).1 = storeSide s ∧ (journalInputs s c g l).2.1.p = g.p ∧ (journalInputs s c g l).2.1.w0 = g.w0 ∧
    (journalInputs s c g l).2.1.gloss = g.gloss := by
  unfold journalInputs
  dsimp only
  split
  · exact ⟨foldl_keep storeSide _ (fun s i => areaStore_side _ _ _ _ _ _) _ _, rfl, rfl, rfl⟩
  · split
    · exact ⟨rfl, rfl, rfl, rfl⟩
    · exact ⟨rfl, rfl, rfl, rfl⟩

/-- R444: what OPEN forms. -/
theorem glossForm_facts {s : State} {d c : Nat} {x : Desc} {g : Gloss} (hx : mapFind s.descs d = some x) (hg : (ctxOf s c).gloss = some g) :
    endsAs (glossForm s d c) d x.note 0 0 ∧ (ctxOf (glossForm s d c) c).glossOpen = true ∧ ∃ g', (ctxOf (glossForm s d c) c).gloss = some g' ∧
      g'.p = sha256 (tagPROG1 ++ natLe 8 (preInputs s c g.pre).length ++ (preInputs s c g.pre).flatMap inputE) ∧ g'.w0 = wdOf x.digs ∧
      g'.gloss = sha256 (tagGLOS0 ++ g'.p ++ g'.w0 ++ natLe 8 (ctxOf s c).seed ++ natLe 8 (runOf s c).step) := by
  unfold glossForm
  rw [hx, hg]
  dsimp only
  generalize hj : journalInputs s c _ (preInputs s c g.pre) = j
  obtain ⟨hside, hp, hw, hgl⟩ := hj ▸ journalInputs_facts s c _ (preInputs s c g.pre)
  obtain ⟨z, g', bad⟩ := j
  dsimp only at hside hp hw hgl ⊢
  generalize hw' : updCtx z c _ = w
  have hctx : (ctxOf w c).gloss = some g' ∧ (ctxOf w c).glossOpen = true := by
    rw [← hw', ctxOf_updCtx_same]
    exact ⟨rfl, rfl⟩
  have hfind : mapFind w.descs d = some x := by
    rw [← hw', ← hx, ← descs_of_side hside]
    rfl
  have hside' := glossWrite_side w c
  refine ⟨endsAs_descEnd (by rw [descs_of_side hside', hfind]) _ _ _, ?_, g', ?_, hp, hw, ?_⟩
  · rw [ctxOf_descEnd, glossOpen_of_side hside', hctx.2]
  · rw [ctxOf_descEnd, gloss_of_side hside', hctx.1]
  · rw [hgl, hp, hw]

/-- R451: what a fold makes of an open Gloss. -/
theorem snapFold_facts {s : State} {c : Nat} {g : Gloss} (hopen : (ctxOf s c).glossOpen = true) (hg : (ctxOf s c).gloss = some g) (wd : List Byte) (po : Bool) :
    (snapFold s c wd po).descs = s.descs ∧ (ctxOf (snapFold s c wd po) c).gloss = some { g with
      gloss := sha256 (tagSNAP1 ++ g.gloss ++ natLe 8 (runOf s c).step ++ wd), lastWd := wd, lastWstep := (runOf s c).step, step := (runOf s c).step
      poison := g.poison || po } := by
  unfold snapFold
  rw [if_pos hopen]
  dsimp only
  have hside := glossWrite_side (updGloss s c fun g => { g with
    gloss := sha256 (tagSNAP1 ++ g.gloss ++ natLe 8 (runOf s c).step ++ wd), lastWd := wd, lastWstep := (runOf s c).step, step := (runOf s c).step
    poison := g.poison || po }) c
  refine ⟨(descs_of_side hside).trans rfl, ?_⟩
  rw [gloss_of_side hside, updGloss, ctxOf_updCtx_same, hg]
  rfl

/-- R451: what the DIGEST form makes of an open Gloss, where its list may be written. -/
theorem digestForm_facts {s : State} {d c : Nat} {x : Desc} {g : Gloss} (hx : mapFind s.descs d = some x) (hopen : (ctxOf s c).glossOpen = true)
    (hg : (ctxOf s c).gloss = some g)
    (hok : areaCheck s c 48 (dNat x 0x18 8) (32 * (x.digs.foldl (fun a d => max a (d.1 + 1)) 0)) (dKey x) true = none) :
    endsAs (digestForm s d c) d x.note 0 0 ∧ (ctxOf (digestForm s d c) c).gloss = some { g with
      gloss := sha256 (tagSNAP1 ++ g.gloss ++ natLe 8 (runOf s c).step ++ wdOf x.digs), lastWd := wdOf x.digs, lastWstep := (runOf s c).step
      step := (runOf s c).step, poison := g.poison || x.note == stPOISONED } := by
  unfold digestForm
  rw [hx]
  dsimp only
  rw [writeDigs, hok]
  dsimp only
  generalize hr : x.digs.foldl (fun s d' => areaStore s c 48 (dNat x 0x18 8 + 32 * d'.1) d'.2 false) s = r
  have hside : storeSide r = storeSide s := by
    rw [← hr]
    exact foldl_keep storeSide _ (fun s d' => areaStore_side _ _ _ _ _ _) _ _
  obtain ⟨hdescs, hgloss⟩ := snapFold_facts ((glossOpen_of_side hside c).trans hopen) ((gloss_of_side hside c).trans hg) (wdOf x.digs) (x.note == stPOISONED)
  rw [runOf_of_side hside] at hgloss
  refine ⟨endsAs_descEnd (by rw [hdescs, descs_of_side hside, hx]) _ _ _, ?_⟩
  rw [ctxOf_descEnd, hgloss]

/-! ### Exports (R485, R486) -/

/-- R485: chunks that have gone are passed over. -/
theorem exportChunks_gone {s : State} {d : Nat} {x : Desc} (hx : mapFind s.descs d = some x) (c m : Nat) (l : List (Nat × Nat × Nat)) (i : Nat)
    (h : i + l.length + 1 = x.pos) : exportChunks d c m l i s = s := by
  induction l generalizing i with
  | nil => rfl
  | cons ch l ih =>
    obtain ⟨k, r, n⟩ := ch
    rw [List.length_cons] at h
    rw [exportChunks, hx]
    dsimp only
    rw [if_pos (.inr (by omega))]
    exact ih (i + 1) (by omega)

/-- R485: an EXPORT to memory of which every chunk has gone ends. -/
theorem exportForm_done {s : State} {d : Nat} {x : Desc} (hx : mapFind s.descs d = some x) (hst : x.st = .running) (hpeer : exPeer x = false) (c : Nat)
    {ws : List WEnt} (hpos : x.pos = (wChunks ws).length + 1) : exportForm s d c ws = descEnd s d x.note 0 0 := by
  unfold exportForm
  rw [hx]
  dsimp only
  rw [if_neg (by omega), exportChunks_gone hx c _ _ 0 (by omega), hx]
  dsimp only
  rw [if_pos hpos, exportDone, hx]
  dsimp only
  rw [if_neg (fun h => h hst), hpeer, if_neg (by decide)]

/-! ### The obligation -/

/-- R443: OPEN, once its setup record and its weight list have come. -/
theorem exec_open {s : State} {d c : Nat} {x : Desc} (hx : descReady s d dtSTEP 2 = some x) (hc : dCtx s x = some c) (hg : (ctxOf s c).gloss = none)
    (hlen : (auxBytes x).length = 64 + 32 * (glossOf (auxBytes x)).wcount) : exec (.stepCommitOpen d) s = ran s (
      if !glossSetupOk ((auxBytes x).take 64) (dNat x 0x10 8) then descEnd s d stRESERVED 0 0
      else if !wOk ((auxBytes x).drop 64) then descEnd s d stFORMAT 0 0
      else updDesc (updCtx s c fun y => { y with gloss := some (glossOf (auxBytes x)) }) d fun x => { x with st := .running }) := by
  have hexec : exec (.stepCommitOpen d) s = execStepCommitOpen d s := rfl
  unfold execStepCommitOpen at hexec
  rw [hx] at hexec
  dsimp only at hexec
  rw [hc] at hexec
  dsimp only at hexec
  have hne : (auxBytes x).isEmpty = false := by
    cases h : auxBytes x with
    | nil => rw [h, List.length_nil] at hlen; omega
    | cons a l => rfl
  rw [if_neg (by rw [hg]; decide), gatherParts_done (mapFind_of_descReady hx) (by
    rw [hne, if_neg (by decide), if_neg (by omega)])] at hexec
  exact hexec

/-- Settles O40: OPEN, DIGEST, FINAL and EXPORT, each with its records and digests come, are one fold of the context's Gloss and the stores of its record. -/
theorem glossFormsAndFolds : Obligations.GlossFormsAndFolds := by
  unfold Obligations.GlossFormsAndFolds
  refine ⟨fun s d x c hx hc hg => ?second, fun s d x c b hx hc hg hb hlen => ⟨fun hbad => ?badRecord, fun hok hbad => ?badList, fun hok hw => ?opened⟩,
    fun s d x c g hx hc hg => ⟨fun hfew => ?waits, fun hin hdig => ?formed⟩, fun s d x c hx hc hopen => ?closed,
    fun s d x c g hx hc hopen hg hlen hw hdig hok => ?digest, fun s d x c hx hc hlen hok => ?final,
    fun s d now z x c hz hx hc hpeer hroute => ?noRoute, fun s d now z x c g hz hx hc hpeer hopen hg hlen hw hdig hpos => ?exported⟩
  case second =>
    have hexec : exec (.stepCommitOpen d) s = execStepCommitOpen d s := rfl
    unfold execStepCommitOpen at hexec
    rw [hx] at hexec
    dsimp only at hexec
    rw [hc] at hexec
    dsimp only at hexec
    rw [if_pos hg] at hexec
    refine ⟨_, ran_next hexec, endsAs_ran_descEnd (mapFind_of_descReady hx) _ _ _ _, ?_⟩
    simp only [underQueue_keeps, descEnd_keeps]
  case badRecord =>
    subst hb
    have hexec := exec_open hx hc hg hlen
    rw [hbad, if_pos (by decide)] at hexec
    exact ⟨_, ran_next hexec, endsAs_ran_descEnd (mapFind_of_descReady hx) _ _ _ _⟩
  case badList =>
    subst hb
    have hexec := exec_open hx hc hg hlen
    rw [hok, if_neg (by decide), hbad, if_pos (by decide)] at hexec
    exact ⟨_, ran_next hexec, endsAs_ran_descEnd (mapFind_of_descReady hx) _ _ _ _⟩
  case opened =>
    subst hb
    have hexec := exec_open hx hc hg hlen
    rw [hok, if_neg (by decide), hw, if_neg (by decide)] at hexec
    generalize hz : updCtx s c _ = z at hexec
    have hfind : mapFind z.descs d = some x := by
      rw [← hz]
      exact (mapFind_of_descReady hx : mapFind s.descs d = some x)
    have hctx : ctxOf z c = { ctxOf s c with gloss := some (glossOf (auxBytes x)) } := by rw [← hz, ctxOf_updCtx_same]
    have hkept : ctxOf (updDesc z d fun x => { x with st := .running }) c = ctxOf z c := by rw [updDesc_of_find hfind]; rfl
    refine ⟨_, _, ran_next hexec, ?_, ?_, mapFind_updDesc_same hfind _, rfl⟩
    · rw [ctxOf_underQueue, hkept, hctx]
    · rw [ctxOf_underQueue, hkept, hctx]
  case waits =>
    have hexec : exec (.glossOpen d) s = execGlossOpen d s := rfl
    unfold execGlossOpen at hexec
    rw [hx] at hexec
    dsimp only at hexec
    rw [hc] at hexec
    dsimp only at hexec
    rw [hg] at hexec
    dsimp only at hexec
    rw [if_pos hfew] at hexec
    exact hexec
  case formed =>
    have hexec : exec (.glossOpen d) s = execGlossOpen d s := rfl
    have hfind := mapFind_of_descRunning hx
    unfold execGlossOpen at hexec
    rw [hx] at hexec
    dsimp only at hexec
    rw [hc] at hexec
    dsimp only at hexec
    rw [hg] at hexec
    dsimp only at hexec
    rw [if_neg (by omega), digestChunks_done hfind hdig] at hexec
    obtain ⟨hends, hopen, g', hg', hp, hw, hgl⟩ := glossForm_facts hfind hg
    refine ⟨_, g', ran_next hexec, hends, ?_, ?_, hp, hw, hgl⟩
    · rw [ctxOf_underQueue, hopen]
    · rw [ctxOf_underQueue, hg']
  case closed =>
    have hexec : exec (.snapshotDigest d) s = execSnapshotDigest d s := rfl
    unfold execSnapshotDigest at hexec
    rw [descLive_of_ready hx] at hexec
    dsimp only at hexec
    rw [hc] at hexec
    dsimp only at hexec
    rw [hopen, if_pos (by decide)] at hexec
    exact ⟨_, ran_next hexec, endsAs_ran_descEnd (mapFind_of_descReady hx) _ _ _ _⟩
  case digest =>
    have hexec : exec (.snapshotDigest d) s = execSnapshotDigest d s := rfl
    obtain ⟨hfind, hst, _⟩ := descRunning_facts hx
    unfold execSnapshotDigest at hexec
    rw [descLive_of_running hx] at hexec
    dsimp only at hexec
    rw [hc] at hexec
    dsimp only at hexec
    rw [hopen, if_neg (by decide), hg, if_neg (show ¬x.st = .accepted by rw [hst]; decide), gatherParts_done hfind (by
      rw [Option.map_some, Option.getD_some, if_neg (by omega)])] at hexec
    rw [hw, if_neg (by decide), digestChunks_done hfind hdig] at hexec
    obtain ⟨hends, hgloss⟩ := digestForm_facts hfind hopen hg (Option.isNone_iff_eq_none.mp hok)
    refine ⟨_, ran_next hexec, hends, ?_⟩
    rw [ctxOf_underQueue, hgloss]
  case final =>
    have hexec : exec (.snapshotFinal d) s = execSnapshotFinal d s := rfl
    obtain ⟨hfind, hst, _⟩ := descRunning_facts hx
    unfold execSnapshotFinal at hexec
    rw [descLive_of_running hx] at hexec
    dsimp only at hexec
    rw [hc] at hexec
    dsimp only at hexec
    rw [if_neg (show ¬x.st = .accepted by rw [hst]; decide), gatherParts_done hfind (by
      rw [if_neg (by omega)])] at hexec
    rw [Option.isNone_iff_eq_none.mp hok] at hexec
    exact hexec
  case noRoute =>
    have hexec : exec (.snapshotExport d now) s = execSnapshotExport d now s := rfl
    obtain ⟨hfind, hst, _⟩ := descReady_facts hx
    unfold execSnapshotExport at hexec
    rw [← hz] at hexec
    dsimp only at hexec
    rw [descLive_of_ready hx] at hexec
    dsimp only at hexec
    rw [hc] at hexec
    dsimp only at hexec
    rw [if_pos ⟨hst, hpeer, hroute⟩] at hexec
    exact ⟨_, ran_next hexec, endsAs_ran_descEnd hfind _ _ _ _⟩
  case exported =>
    have hexec : exec (.snapshotExport d now) s = execSnapshotExport d now s := rfl
    obtain ⟨hfind, hst, _⟩ := descRunning_facts hx
    have hmem : z.spm = s.spm ∧ z.hbm = s.hbm := by
      rw [hz]
      simp only [atTime_keeps, and_self]
    unfold execSnapshotExport at hexec
    rw [← hz] at hexec
    dsimp only at hexec
    rw [descLive_of_running hx] at hexec
    dsimp only at hexec
    rw [hc] at hexec
    dsimp only at hexec
    rw [if_neg (fun h => by rw [hst] at h; exact absurd h.1 (by decide)), hopen, hg, if_neg (show ¬x.st = .accepted by rw [hst]; decide), gatherParts_done hfind (by
      rw [if_pos rfl, if_pos rfl, Option.map_some, Option.getD_some, if_neg (by omega)])] at hexec
    rw [hw, if_neg (by decide), if_neg (by simp [hpos]), digestChunks_done hfind hdig, exportForm_done hfind hst hpeer c hpos] at hexec
    refine ⟨_, ran_next hexec, endsAs_ran_descEnd hfind _ _ _ _, ?_, ?_⟩
    · simp only [underQueue_keeps, descEnd_keeps, hmem]
    · simp only [underQueue_keeps, descEnd_keeps, hmem]

end Sys2Proof.Machine
end

section
/-! The step gate: tables, commits, exchanges and retention (R455 to R482). -/

namespace Sys2Proof.Machine

open Sys2Proof.Claims

/-! ### What the step gate's operations leave alone -/

/-- The scheduling records, and the contexts but for pages and flags. -/
def stepSide (s : State) : Map CtxRun × (Nat → Ctx) := (s.runs, ctxCores s)

theorem stepSide_of_store {s t : State} (h : storeSide t = storeSide s) : stepSide t = stepSide s := congrArg (fun p : _ × _ × _ => p.2) h

theorem stepSide_of_ctxs {s t : State} (hc : t.ctxs = s.ctxs) (hr : t.runs = s.runs) : stepSide t = stepSide s := by
  rw [stepSide, hr, ctxCores_of_ctxs hc, stepSide]

section
variable {s t : State} (h : stepSide t = stepSide s)
include h

theorem runOf_of_step (c : Nat) : runOf t c = runOf s c := by
  rw [runOf, (Prod.mk.inj h).1, runOf]

/-- A field of a context that the pages and the flags do not bear on. -/
theorem ctxField_of_step {β : Type} (g : Ctx → β) (hg : ∀ x, g { x with pages := [], sflags := 0 } = g x) (c : Nat) : g (ctxOf t c) = g (ctxOf s c) :=
  (hg _).symm.trans ((congrArg g (congrFun (Prod.mk.inj h).2 c)).trans (hg _))

end

theorem descEnd_stepSide (s : State) (d st dt r : Nat) : stepSide (descEnd s d st dt r) = stepSide s :=
  stepSide_of_ctxs (by simp only [descEnd_keeps]) (by simp only [descEnd_keeps])

/-- A fault's record keeps descriptors, contexts and their scheduling. -/
theorem xFault_keeps (s : State) (k ckey dva cause lvl : Nat) (w : Bool) : (xFault s k ckey dva cause lvl w).descs = s.descs ∧
    (xFault s k ckey dva cause lvl w).ctxs = s.ctxs ∧ (xFault s k ckey dva cause lvl w).runs = s.runs := by
  cases h : s.xseen.contains (k, dva % 2 ^ 48, w)
  · rw [xFault_of_new h]
    simp only [postEvent_keeps, regSet_keeps, and_self]
  · rw [xFault, if_pos h]
    exact ⟨rfl, rfl, rfl⟩

theorem xFault_side (s : State) (k ckey dva cause lvl : Nat) (w : Bool) : storeSide (xFault s k ckey dva cause lvl w) = storeSide s := by
  obtain ⟨hd, hc, hr⟩ := xFault_keeps s k ckey dva cause lvl w
  rw [storeSide, hd, hr, ctxCores_of_ctxs hc, storeSide]

theorem areaCheck_side {s z : State} {c sl r n ckey st : Nat} {w : Bool} (h : areaCheck s c sl r n ckey w = some (z, st)) : storeSide z = storeSide s := by
  unfold areaCheck at h
  split at h
  · cases h
  · split at h
    · cases h
    · cases h
      rfl
  · cases h
    rfl
  · cases h
    exact xFault_side _ _ _ _ _ _ _

theorem stepRecWrite_side (s : State) (c : Nat) (g : List Nat) : storeSide (stepRecWrite s c g) = storeSide s := by
  unfold stepRecWrite
  split
  · exact areaStore_side _ _ _ _ _ _
  · rfl

theorem clearBitmaps_side (s : State) (c : Nat) : storeSide (clearBitmaps s c) = storeSide s := by
  have hput (z : State) (r : Nat) (bs : List Byte) : storeSide (areaPut z c 48 r bs) = storeSide z := by
    have hrest := areaPut_rest z c 48 r bs
    have hd : (areaPut z c 48 r bs).descs = z.descs := (congrArg State.descs hrest : (memRest _).descs = (memRest _).descs)
    have hr : (areaPut z c 48 r bs).runs = z.runs := (congrArg State.runs hrest : (memRest _).runs = (memRest _).runs)
    have hc : ctxCores (areaPut z c 48 r bs) = ctxCores z := by
      unfold areaPut
      split
      · exact spPut_cores _ _ _ _ _ _
      · exact dvaPut_cores _ _ _ _ _ _
    rw [storeSide, hd, hr, hc, storeSide]
  unfold clearBitmaps
  exact foldl_keep storeSide _ (fun s v => hput s _ _) _ _

/-- R470: how a commit ends. -/
theorem commitEnd_facts {s : State} {d : Nat} {y : Desc} (hy : mapFind s.descs d = some y) (c : Nat) (x : Desc) (status outcome cause flags sticky carried flip : Nat) :
    endsAs (commitEnd s d c x status outcome cause flags sticky carried flip) d status (outcome + 256 * cause) (cmStep x) ∧
    stepSide (commitEnd s d c x status outcome cause flags sticky carried flip) = stepSide s := by
  unfold commitEnd
  extract_lets b r z
  have hz : storeSide z = storeSide s := by
    unfold z
    split
    · exact areaStore_side _ _ _ _ _ _
    · next h => exact areaCheck_side h
  refine ⟨endsAs_descEnd (by rw [descs_of_side hz, hy]) _ _ _, ?_⟩
  rw [descEnd_stepSide, stepSide_of_store hz]

/-! ### What accepts or refuses deferred work (R482) -/

/-- Descriptor `d` is under way and has been counted. -/
def underway (d pos : Nat) (s : State) : Prop := ∃ y, mapFind s.descs d = some y ∧ y.st = .running ∧ y.pos = pos

theorem underway_of_descs {s t : State} {d pos : Nat} (h : t.descs = s.descs) (hs : underway d pos s) : underway d pos t := by
  rw [underway, h]
  exact hs

theorem areasFault_descs (s : State) (cid sl : Nat) (l : List (Nat × Nat × Nat × Bool)) : (areasFault s cid sl l).descs = s.descs := by
  unfold areasFault
  split
  · exact (xFault_keeps _ _ _ _ _ _ _).1
  · rfl

theorem acceptN_descs (s : State) (cid : Nat) (n : Bool) : (acceptN s cid n).descs = s.descs := by
  unfold acceptN
  split <;> rfl

theorem refuseWork_descs (s : State) (p : Prog) (status index : Nat) : (refuseWork s p status index).descs = s.descs := rfl

theorem acceptSolve_descs (s : State) (p : Prog) (b : List Byte) : (acceptSolve s p b).descs = s.descs := by
  unfold acceptSolve
  dsimp only
  split
  · rfl
  · split
    · rw [refuseWork_descs]
      split
      · rw [areasFault_descs, acceptN_descs]
      · exact acceptN_descs _ _ _
    · exact acceptN_descs _ _ _

theorem acceptAssembly_descs (s : State) (p : Prog) (b : List Byte) : (acceptAssembly s p b).descs = s.descs := by
  unfold acceptAssembly
  dsimp only
  split
  · rfl
  · split
    · rw [refuseWork_descs]
      split
      · rw [areasFault_descs, acceptN_descs]
      · exact acceptN_descs _ _ _
    · exact acceptN_descs _ _ _

/-- R482: the work of one descriptor leaves another under way as it is. -/
theorem descWork_underway {s : State} {d pos : Nat} (h : underway d pos s) (id : Nat) : underway d pos (descWork s id) := by
  obtain ⟨y, hy, hst, hpos⟩ := h
  unfold descWork
  split
  · exact ⟨y, hy, hst, hpos⟩
  · next x hx =>
    split
    · exact ⟨y, hy, hst, hpos⟩
    · next hwork =>
      have hne : d ≠ id := by
        rintro rfl
        obtain rfl : y = x := Option.some.inj (hy.symm.trans hx)
        exact hwork (by rw [hst]; simp)
      split
      · exact ⟨y, hy, hst, hpos⟩
      · have hz : mapFind (updDesc s id fun d => { d with st := .running }).descs d = some y := by
          rw [updDesc_of_find hx]
          exact (mapFind_mapIns_other _ _ _ _ hne).trans hy
        dsimp only
        refine ⟨y, ?_, hst, hpos⟩
        rw [← hz]
        refine congrArg (mapFind · d) ?_
        split
        · split
          · exact acceptSolve_descs _ _ _
          · exact acceptAssembly_descs _ _ _
        · rw [refuseWork_descs]
          exact (xFault_keeps _ _ _ _ _ _ _).1
        · rw [refuseWork_descs]
          exact (xFault_keeps _ _ _ _ _ _ _).1
        · rfl

theorem promoteDesc_underway {s : State} {d pos : Nat} (h : underway d pos s) (id : Nat) : underway d pos (promoteDesc s id) := by
  have hgo : underway d pos (updDesc s id fun x => { x with deferGo := true }) := by
    obtain ⟨y, hy, hst, hpos⟩ := h
    by_cases hne : d = id
    · subst hne
      exact ⟨_, mapFind_updDesc_same hy _, hst, hpos⟩
    · refine ⟨y, ?_, hst, hpos⟩
      unfold updDesc
      split
      · exact (mapFind_mapIns_other _ _ _ _ hne).trans hy
      · exact hy
  exact underway_of_descs rfl (descWork_underway hgo id)

theorem promoteCtx_underway {s : State} {d pos : Nat} (h : underway d pos s) (c : Nat) : underway d pos (promoteCtx s c) :=
  List.foldlRecOn _ _ h fun _ hb x _ => promoteDesc_underway hb x.1

/-! ### SETUP (R455 to R458) -/

/-- R455: a table that keeps every rule is declared. -/
theorem tableSet_facts {s : State} {d c : Nat} {x : Desc} (hx : mapFind s.descs d = some x) {b : List Byte} (hok : tableOk b = true)
    (hreg : ((List.range (bNat b 0 2)).all (regionOk s c b)) = true) (hapart : viewsApart ((List.range (bNat b 0 2)).map (viewOf b)) = true)
    (hret : ((List.range (bNat b 6 2)).all fun i => retOk s c ((b.drop ((tableLens b).1 + 32 * i)).take 32)) = true) :
    endsAs (tableSet s d c b) d stOK 0 0 ∧ (ctxOf (tableSet s d c b) c).views = (List.range (bNat b 0 2)).map (viewOf b) ∧
    (∃ q, (ctxOf (tableSet s d c b) c).table = some q ∧ q.commits = 0 ∧ q.skips = 0 ∧ q.gateMask = bNat b 4 2) ∧
    (runOf (tableSet s d c b) c).step = bNat b 8 6 := by
  unfold tableSet
  dsimp only
  rw [hok, hreg, hapart, hret, if_neg (by decide)]
  generalize hw : updRun (updCtx s c _) c _ = w
  have hctx : (ctxOf w c).views = (List.range (bNat b 0 2)).map (viewOf b) ∧ ∃ q, (ctxOf w c).table = some q ∧ q.commits = 0 ∧ q.skips = 0 ∧ q.gateMask = bNat b 4 2 := by
    have hupd (z : State) (f : CtxRun → CtxRun) : ctxOf (updRun z c f) c = ctxOf z c := rfl
    rw [← hw, hupd, ctxOf_updCtx_same]
    exact ⟨rfl, _, rfl, rfl, rfl, rfl⟩
  have hrun : (runOf w c).step = bNat b 8 6 := by rw [← hw, runOf_updRun_same]
  have hfind : mapFind w.descs d = some x := by
    rw [← hw, ← hx]
    rfl
  clear hw
  generalize hz : stepRecWrite (clearBitmaps w c) c _ = z
  have hside : storeSide z = storeSide w := by rw [← hz, stepRecWrite_side, clearBitmaps_side]
  have hstep := (descEnd_stepSide z d stOK 0 0).trans (stepSide_of_store hside)
  refine ⟨endsAs_descEnd (by rw [descs_of_side hside, hfind]) _ _ _, ?_, ?_, ?_⟩
  · rw [ctxField_of_step hstep Ctx.views (fun _ => rfl), hctx.1]
  · rw [ctxField_of_step hstep Ctx.table (fun _ => rfl)]
    exact hctx.2
  · rw [runOf_of_step hstep, hrun]

/-- R455: SETUP, once every record has come. -/
theorem exec_setup {s : State} {d c : Nat} {x : Desc} (hx : descReady s d dtSTEP 0 = some x) (hc : dCtx s x = some c)
    (hlen : (auxBytes x).length = (tableLens (auxBytes x)).2 + 64) : exec (.stepCommitSetup d) s = ran s (
      if (ctxOf s c).table.isSome then descEnd s d stSTEP_TABLE 0 0 else tableSet s d c (auxBytes x)) := by
  have hexec : exec (.stepCommitSetup d) s = execStepCommitSetup d s := rfl
  unfold execStepCommitSetup at hexec
  rw [hx] at hexec
  dsimp only at hexec
  rw [hc] at hexec
  dsimp only at hexec
  have hl : (tableLens (auxBytes x)).1 ≤ (tableLens (auxBytes x)).2 ∧ 64 ≤ (tableLens (auxBytes x)).1 := by
    unfold tableLens
    dsimp only
    omega
  rw [gatherParts_done (mapFind_of_descReady hx) (by
    rw [if_neg (by omega)]
    split
    · rfl
    · rw [if_neg (by omega), if_neg (by omega), if_neg (by omega)])] at hexec
  exact hexec

/-! ### The decision (R465, R466) -/

/-- What a comparison of a pair leaves: descriptors, contexts and their scheduling. -/
def pairSide (s : State) : Map Desc × Map Ctx × Map CtxRun := (s.descs, s.ctxs, s.runs)

theorem signalOwn_pairSide (s : State) (j n : Nat) (err : Bool) : pairSide (signalOwn s j n err) = pairSide s :=
  (congrArg pairSide (conjSignal_rest s j n err (conjOf s j).key) : pairSide (conjRest _) = pairSide (conjRest _))

theorem setFld_pairSide (s : State) (off hi lo v : Nat) : pairSide (setFld s off hi lo v) = pairSide s := by simp only [pairSide, setFld_keeps]

theorem report_pairSide (s : State) (cls cause part slice unit : Nat) (d : List Nat) : pairSide (report s cls cause part slice unit d) = pairSide s :=
  (congrArg pairSide (report_rest s cls cause part slice unit d) : pairSide (rptRest _) = pairSide (rptRest _))

theorem pairSend_pairSide (s : State) (msg step : Nat) (body : List Byte) : pairSide (pairSend s msg step body) = pairSide s := by
  unfold pairSend pairData
  split <;> rfl

theorem pairCompare_pairSide (s : State) (c step outcome : Nat) : pairSide (pairCompare s c step outcome) = pairSide s := by
  have hset (z : State) (st : Nat) : pairSide (pairSet z st) = pairSide z := by
    unfold pairSet
    split
    · rfl
    · exact (report_pairSide _ _ _ _ _ _ _).trans (setFld_pairSide _ _ _ _ _)
  have hpair (z : State) (p : Pair) : pairSide { z with pair := p } = pairSide z := rfl
  have hmatch (z : State) : pairSide (pairMatch z) = pairSide z := by
    unfold pairMatch
    split
    · split
      · exact (setFld_pairSide _ _ _ _ _).trans ((setFld_pairSide _ _ _ _ _).trans (hpair _ _))
      · exact (signalOwn_pairSide _ _ _ _).trans ((hset _ _).trans (hpair _ _))
    · rfl
  unfold pairCompare
  split
  · dsimp only
    rw [hmatch, hpair, pairSend_pairSide]
  · rfl

theorem glossFold_side {s : State} {c : Nat} (hg : (ctxOf s c).gloss = none) (step outcome : Nat) (l : List Input) : storeSide (glossFold s c step outcome l) = storeSide s := by
  unfold glossFold
  split
  · refine (glossWrite_side _ _).trans ?_
    rw [storeSide, updGloss, storeSide]
    refine congrArg (fun f => (s.descs, s.runs, f)) ?_
    funext d
    by_cases hd : d = c
    · subst hd
      rw [ctxCores, ctxOf_updCtx_same, ctxCores]
      simp only [hg, Option.map_none]
    · rw [ctxCores, ctxOf_updCtx_other _ _ _ _ hd, ctxCores]
  · rfl

/-- R466: the causes that skip a commit without gates. -/
def causeOf (s : State) (c : Nat) (d : Desc) (t : StepTab) : Nat :=
  (if bit (dNat d 0x22 1) 0 then 2 ^ 0 else 0) + (if (conjOf s (dNat d 0x20 2 % 2 ^ 14)).error then 2 ^ 1 else 0) +
    (if (ctxOf s c).sflags &&& t.gateMask != 0 then 2 ^ 4 else 0)

/-- R466: what a decision without gates and with no Gloss leaves before it is skipped or goes on. -/
def decided (s : State) (c : Nat) (d : Desc) (t : StepTab) (outcome : Nat) : State :=
  let z := updCtx s c fun x => { x with
    inputs := x.inputs.filter fun i => i.step != cmStep d
    sflags := x.sflags - (x.sflags &&& t.gateMask)
    table := some { t with ended := [], sampled := 0 } }
  pairCompare (glossFold (gatesOld z c t) c (cmStep d) outcome (inputSort ((ctxOf s c).inputs.filter fun i => i.step == cmStep d))) c (cmStep d) outcome

theorem decided_facts {s : State} {c : Nat} (hg : (ctxOf s c).gloss = none) (d : Desc) (t : StepTab) (outcome : Nat) :
    (decided s c d t outcome).descs = s.descs ∧ (decided s c d t outcome).runs = s.runs ∧
    (ctxOf (decided s c d t outcome) c).inputs = (ctxOf s c).inputs.filter (fun i => i.step != cmStep d) ∧
    (ctxOf (decided s c d t outcome) c).table = some { t with ended := [], sampled := 0 } := by
  unfold decided
  extract_lets z
  have hz : ctxOf (gatesOld z c t) c = ctxOf z c := rfl
  have hzc : ctxOf z c = _ := ctxOf_updCtx_same s c _
  have hzg : (ctxOf (gatesOld z c t) c).gloss = none := by rw [hz, hzc, hg]
  have hside := glossFold_side hzg (cmStep d) outcome (inputSort ((ctxOf s c).inputs.filter fun i => i.step == cmStep d))
  obtain ⟨hd, hc, hr⟩ := (by simpa only [pairSide, Prod.mk.injEq] using pairCompare_pairSide (glossFold (gatesOld z c t) c (cmStep d) outcome
    (inputSort ((ctxOf s c).inputs.filter fun i => i.step == cmStep d))) c (cmStep d) outcome : _ ∧ _ ∧ _)
  generalize glossFold (gatesOld z c t) c _ outcome _ = y at hside hd hc hr
  have hctx : ctxOf (pairCompare y c (cmStep d) outcome) c = ctxOf y c := by rw [ctxOf, hc, ctxOf]
  have hrest : (gatesOld z c t).descs = s.descs ∧ (gatesOld z c t).runs = s.runs := ⟨rfl, rfl⟩
  refine ⟨hd.trans ((descs_of_side hside).trans hrest.1), hr.trans ((Prod.mk.inj (Prod.mk.inj hside).2).1.trans hrest.2), ?_, ?_⟩
  · rw [hctx, ctxField_of_side hside Ctx.inputs (fun _ => rfl), hz, hzc]
  · rw [hctx, ctxField_of_side hside Ctx.table (fun _ => rfl), hz, hzc]

/-- R466: a decision without gates, with no Gloss and no input too many. -/
theorem commitDecide_eq {s : State} {d c : Nat} {x : Desc} {q : StepTab} (hg : (ctxOf s c).gloss = none) (hgates : q.gates = [])
    (hin : ((ctxOf s c).inputs.filter fun i => i.step == cmStep x).length = dNat x 0x18 4) :
    (causeOf s c x q = 0 → commitDecide s d c x q = updDesc (decided s c x q 1) d fun y => { y with pos := 2, aux := [(ctxOf s c).sflags, 0] }) ∧
    (causeOf s c x q ≠ 0 → commitDecide s d c x q =
      let z := updCtx (decided s c x q 0) c fun x => { x with table := x.table.map fun t => { t with skips := t.skips + 1 } }
      let z := stepRecWrite (clearBitmaps z c) c q.genC
      commitEnd z d c x stSTEP_SKIPPED 0 (causeOf s c x q) (ctxOf s c).sflags 0 0 z.tense.toNat) := by
  have hmany : decide (dNat x 0x18 4 < (inputSort ((ctxOf s c).inputs.filter fun i => i.step == cmStep x)).length) = false := by
    rw [inputSort, List.length_mergeSort, hin]
    exact decide_eq_false (lt_irrefl _)
  have hdecide : commitDecide s d c x q = if causeOf s c x q = 0 then
        updDesc (decided s c x q (if causeOf s c x q = 0 then 1 else 0)) d fun y => { y with pos := 2, aux := [(ctxOf s c).sflags, 0] }
      else
        let z := updCtx (decided s c x q (if causeOf s c x q = 0 then 1 else 0)) c fun x => { x with table := x.table.map fun t => { t with skips := t.skips + 1 } }
        let z := stepRecWrite (clearBitmaps z c) c q.genC
        commitEnd z d c x stSTEP_SKIPPED 0 (causeOf s c x q) (ctxOf s c).sflags 0 0 z.tense.toNat := by
    obtain ⟨mask, gates, rec_, commits, skips, genC, rets, ended, sampled⟩ := q
    obtain rfl : gates = [] := hgates
    unfold commitDecide
    dsimp only
    rw [hmany, hg]
    rfl
  refine ⟨fun h => ?_, fun h => ?_⟩
  · rw [hdecide, if_pos h, if_pos h]
  · rw [hdecide, if_neg h, if_neg h]

theorem causeOf_cover {s : State} {c : Nat} {x : Desc} (q : StepTab) (h : (conjOf s (dNat x 0x20 2 % 2 ^ 14)).error = true) : causeOf s c x q ≠ 0 := by
  rw [causeOf, if_pos h]
  omega

theorem causeOf_none {s : State} {c : Nat} {x : Desc} {q : StepTab} (h : (conjOf s (dNat x 0x20 2 % 2 ^ 14)).error = false)
    (hforce : bit (dNat x 0x22 1) 0 = false) (hflags : (ctxOf s c).sflags &&& q.gateMask = 0) : causeOf s c x q = 0 := by
  rw [causeOf, h, hforce, hflags]
  rfl

/-- R466: a skip ends the commit and is counted; the step stands. -/
theorem skip_facts {s : State} {d c : Nat} {x y : Desc} {q : StepTab} (hy : mapFind s.descs d = some y) (hg : (ctxOf s c).gloss = none) (hgates : q.gates = [])
    (hin : ((ctxOf s c).inputs.filter fun i => i.step == cmStep x).length = dNat x 0x18 4) (hcause : causeOf s c x q ≠ 0) :
    endsAs (commitDecide s d c x q) d stSTEP_SKIPPED (0 + 256 * causeOf s c x q) (cmStep x) ∧
    (ctxOf (commitDecide s d c x q) c).table = some { q with ended := [], sampled := 0, skips := q.skips + 1 } ∧
    (runOf (commitDecide s d c x q) c).step = (runOf s c).step := by
  rw [(commitDecide_eq hg hgates hin).2 hcause]
  extract_lets w z
  obtain ⟨hd, hr, _, htab⟩ := decided_facts hg x q 0
  have hw : w.descs = s.descs ∧ w.runs = s.runs ∧ (ctxOf w c).table = some { q with ended := [], sampled := 0, skips := q.skips + 1 } := by
    refine ⟨hd, hr, ?_⟩
    rw [show ctxOf w c = _ from ctxOf_updCtx_same _ c _, htab, Option.map_some]
  clear_value w
  have hside : storeSide z = storeSide w := (stepRecWrite_side _ _ _).trans (clearBitmaps_side _ _)
  clear_value z
  obtain ⟨hends, hstep⟩ := commitEnd_facts (by rw [descs_of_side hside, hw.1, hy]) c x stSTEP_SKIPPED 0 (causeOf s c x q) (ctxOf s c).sflags 0 0 z.tense.toNat
  have hall := hstep.trans (stepSide_of_store hside)
  refine ⟨hends, ?_, ?_⟩
  · rw [ctxField_of_step hall Ctx.table (fun _ => rfl), hw.2.2]
  · rw [runOf_of_step hall, runOf, hw.2.1, runOf]

/-- R466: a commit that nothing skips goes on, its inputs taken. -/
theorem goOn_facts {s : State} {d c : Nat} {x y : Desc} {q : StepTab} (hy : mapFind s.descs d = some y) (hg : (ctxOf s c).gloss = none) (hgates : q.gates = [])
    (hin : ((ctxOf s c).inputs.filter fun i => i.step == cmStep x).length = dNat x 0x18 4) (hcause : causeOf s c x q = 0) :
    mapFind (commitDecide s d c x q).descs d = some { y with pos := 2, aux := [(ctxOf s c).sflags, 0] } ∧
    (ctxOf (commitDecide s d c x q) c).inputs = (ctxOf s c).inputs.filter (fun i => i.step != cmStep x) ∧
    runOf (commitDecide s d c x q) c = runOf s c := by
  rw [(commitDecide_eq hg hgates hin).1 hcause]
  obtain ⟨hd, hr, hinp, _⟩ := decided_facts hg x q 1
  generalize decided s c x q 1 = w at *
  have hfind : mapFind w.descs d = some y := by rw [hd, hy]
  refine ⟨mapFind_updDesc_same hfind _, ?_, ?_⟩
  · rw [updDesc_of_find hfind]
    exact hinp
  · rw [updDesc_of_find hfind, runOf, runOf, ← hr]

/-- R464: a COMMIT that no earlier one holds up. -/
theorem exec_commit {s z : State} {d now c : Nat} {x : Desc} (hz : z = atTime s now) (hx : descReady z d dtSTEP 1 = some x) (hc : dCtx z x = some c)
    (hbefore : commitBefore z d c = false) : exec (.stepCommitCommit d now) s = ran z (
      if (ctxOf z c).table.isNone then commitEnd z d c x stSTEP_TABLE 0xFF 0 0 0 0 0
      else if cmStep x ≠ (runOf z c).step then commitEnd z d c x stSTEP_ORDER 0xFF 0 0 0 0 0
      else promoteCtx (updDesc z d fun y => { y with st := .running, pos := 1 }) c) := by
  have hexec : exec (.stepCommitCommit d now) s = execStepCommitCommit d now s := rfl
  unfold execStepCommitCommit at hexec
  rw [← hz] at hexec
  dsimp only at hexec
  rw [hx] at hexec
  dsimp only at hexec
  rw [hc] at hexec
  dsimp only at hexec
  rw [hbefore, if_neg (by decide)] at hexec
  exact hexec

/-- R465: the decision of a COMMIT without gates whose inputs have come waits for its cover Conjunction. -/
theorem exec_decision {s z : State} {d now c : Nat} {x : Desc} {q : StepTab} (hz : z = atTime s now) (hx : descRunning z d dtSTEP 1 = some x)
    (hc : dCtx z x = some c) (hq : (ctxOf z c).table = some q) (hgates : q.gates = []) (hpos : x.pos = 1)
    (hin : ((ctxOf z c).inputs.filter fun i => i.step == cmStep x).length = dNat x 0x18 4) : exec (.stepDecision d now) s = ran z (
      if waitOver (conjOf z (dNat x 0x20 2 % 2 ^ 14)) (BitVec.ofNat 32 (dNat x 0x1C 4)) then commitDecide z d c x q else z) := by
  have hexec : exec (.stepDecision d now) s = execStepDecision d now s := rfl
  have hcond : (x.pos = 1 ∧ waitOver (conjOf z (dNat x 0x20 2 % 2 ^ 14)) (BitVec.ofNat 32 (dNat x 0x1C 4)) = true ∧
      (q.gates.all fun g => q.ended.any fun e => e.1 == g) = true ∧
      decide (dNat x 0x18 4 ≤ ((ctxOf z c).inputs.filter fun i => i.step == cmStep x).length) = true) ↔
      waitOver (conjOf z (dNat x 0x20 2 % 2 ^ 14)) (BitVec.ofNat 32 (dNat x 0x1C 4)) = true :=
    ⟨fun h => h.2.1, fun h => ⟨hpos, h, by rw [hgates]; rfl, by rw [hin]; exact decide_eq_true le_rfl⟩⟩
  unfold execStepDecision at hexec
  rw [← hz] at hexec
  dsimp only at hexec
  rw [hx] at hexec
  dsimp only at hexec
  rw [hc] at hexec
  dsimp only at hexec
  rw [hq] at hexec
  dsimp only at hexec
  rw [if_congr hcond rfl rfl] at hexec
  exact hexec

/-! ### The exchange (R467, R472) -/

theorem areaRelease_side (s : State) (c : Nat) (r : Reten) : storeSide (areaRelease s c r) = storeSide s := by
  rw [storeSide, areaRelease, storeSide]
  refine congrArg (fun f => (s.descs, s.runs, f)) (funext fun d => ?_)
  by_cases hd : d = c
  · subst hd
    rw [ctxCores, ctxOf_updCtx_same, ctxCores]
  · rw [ctxCores, ctxOf_updCtx_other _ _ _ _ hd, ctxCores]

/-- A released area has no physical page. -/
theorem pageOf_areaRelease (s : State) (c : Nat) (r : Reten) {pg : Nat} (hlo : arAddr r.area / pageBytes ≤ pg)
    (hhi : pg < arAddr r.area / pageBytes + r.bytes / pageBytes) : mapGet {} (ctxOf (areaRelease s c r) c).pages pg = ({} : Page) := by
  by_contra hne
  rw [areaRelease, ctxOf_updCtx_same] at hne
  obtain ⟨_, hout⟩ := List.mem_filter.mp (mem_of_mapGet_ne hne)
  rcases Bool.or_eq_true_iff.mp hout with h | h
  · exact absurd (of_decide_eq_true h) (not_lt.mpr hlo)
  · exact absurd (of_decide_eq_true h) (not_le.mpr hhi)

/-- R467: the exchange swaps the banks, advances the step and counts the commit. -/
theorem commitChange_facts {s : State} {c : Nat} {q : StepTab} (hq : (ctxOf s c).table = some q) (gens : List Nat) :
    (commitChange s c gens).descs = s.descs ∧ (runOf (commitChange s c gens) c).step = (runOf s c).step + 1 ∧
    (ctxOf (commitChange s c gens) c).views = (ctxOf s c).views.map (fun v => if v.spad then v else { v with swapped := !v.swapped }) ∧
    (ctxOf (commitChange s c gens) c).table = some { q with commits := q.commits + 1, genC := gens } := by
  unfold commitChange
  extract_lets s₁ s₂ s₃ s₄
  have h₁ : s₁.descs = s.descs ∧ runOf s₁ c = runOf s c ∧ (ctxOf s₁ c).table = some q ∧
      (ctxOf s₁ c).views = (ctxOf s c).views.map (fun v => if v.spad then v else { v with swapped := !v.swapped }) := by
    refine ⟨rfl, rfl, ?_, ?_⟩
    · rw [show ctxOf s₁ c = _ from ctxOf_updCtx_same s c _, hq]
    · rw [show ctxOf s₁ c = _ from ctxOf_updCtx_same s c _]
  clear_value s₁
  have h₂ : storeSide s₂ = storeSide s₁ := by
    unfold s₂
    rw [h₁.2.2.1]
    exact foldl_keep storeSide _ (fun z r => areaRelease_side z c r) _ _
  clear_value s₂
  have h₃ : s₄.descs = s₂.descs ∧ (runOf s₄ c).step = (runOf s₂ c).step + 1 ∧ (ctxOf s₄ c).views = (ctxOf s₂ c).views ∧
      (ctxOf s₄ c).table = (ctxOf s₂ c).table.map fun t => { t with commits := t.commits + 1, genC := gens } := by
    have hrun (z : State) (f : Ctx → Ctx) : runOf (updCtx z c f) c = runOf z c := rfl
    have hctx (z : State) (f : CtxRun → CtxRun) : ctxOf (updRun z c f) c = ctxOf z c := rfl
    refine ⟨rfl, ?_, ?_, ?_⟩
    · rw [hrun, runOf_updRun_same]
    · rw [show ctxOf s₄ c = _ from ctxOf_updCtx_same s₃ c _, hctx]
    · rw [show ctxOf s₄ c = _ from ctxOf_updCtx_same s₃ c _, hctx]
  clear_value s₄
  have hside : storeSide (stepRecWrite (clearBitmaps s₄ c) c gens) = storeSide s₄ := (stepRecWrite_side _ _ _).trans (clearBitmaps_side _ _)
  obtain ⟨hd₁, hr₁, ht₁, hv₁⟩ := h₁
  obtain ⟨hd₃, hr₃, hv₃, ht₃⟩ := h₃
  refine ⟨?_, ?_, ?_, ?_⟩
  · rw [descs_of_side hside, hd₃, descs_of_side h₂, hd₁]
  · rw [runOf_of_side hside, hr₃, runOf_of_side h₂, hr₁]
  · rw [ctxField_of_side hside Ctx.views (fun _ => rfl), hv₃, ctxField_of_side h₂ Ctx.views (fun _ => rfl), hv₁]
  · rw [ctxField_of_side hside Ctx.table (fun _ => rfl), ht₃, ctxField_of_side h₂ Ctx.table (fun _ => rfl), ht₁, Option.map_some]

/-- Settles O41: what a step gate declares, accepts, decides, exchanges, retains and starts. -/
theorem stepGateCommits : Obligations.StepGateCommits := by
  refine ⟨fun s d x c b hx hc hb hlen => ⟨fun hno => ?refused, fun hfree hok hreg hapart hret => ?declared⟩,
    fun s d now z x c hz hx hc hbefore => ⟨fun htab => ?noTable, fun htab hne => ?order, fun htab heq => ?accepted⟩,
    fun s d now z x c q cov hz hx hc hq hg hcov hgates hpos hin => ⟨fun hover => ?waits, fun herr => ?skipped, fun herr hreach hforce hflags => ?goesOn⟩,
    fun s d now z x c q n b po hd hz hx hc hq hpos hexp hpair hmirror hcarried hgather => ?exchanged,
    fun s cid j q r hlive hq hr hreach => ?retained,
    fun s d x c hx hc hst hdef hgo hty hform hfirst => ?bubble⟩
  case refused =>
    subst hb
    have hexec := exec_setup hx hc hlen
    have hend : (if (ctxOf s c).table.isSome = true then descEnd s d stSTEP_TABLE 0 0 else tableSet s d c (auxBytes x)) = descEnd s d stSTEP_TABLE 0 0 := by
      rcases hno with htab | hbad
      · rw [if_pos htab]
      · unfold tableSet
        dsimp only
        rw [hbad, Bool.not_false, Bool.true_or, Bool.true_or, Bool.true_or, if_pos rfl, ite_self]
    rw [hend] at hexec
    refine ⟨_, ran_next hexec, endsAs_ran_descEnd (mapFind_of_descReady hx) _ _ _ _, ?_⟩
    simp only [underQueue_keeps, descEnd_keeps]
  case declared =>
    subst hb
    have hexec := exec_setup hx hc hlen
    rw [hfree, if_neg (by decide)] at hexec
    obtain ⟨hends, hviews, ⟨q, hq, hcommits, hskips, hmask⟩, hstep⟩ := tableSet_facts (mapFind_of_descReady hx) hok hreg hapart hret
    refine ⟨_, q, ran_next hexec, hends, ?_, ?_, hcommits, hskips, hmask, hstep⟩
    · rw [ctxOf_underQueue, hviews]
    · rw [ctxOf_underQueue, hq]
  case noTable =>
    have hexec := exec_commit hz hx hc hbefore
    rw [htab, if_pos (by decide)] at hexec
    exact ⟨_, _, ran_next hexec, (commitEnd_facts (mapFind_of_descReady hx) c x stSTEP_TABLE 0xFF 0 0 0 0 0).1⟩
  case order =>
    have hexec := exec_commit hz hx hc hbefore
    rw [if_neg (by simpa [Option.isSome_iff_ne_none] using htab), if_pos hne] at hexec
    obtain ⟨hends, hstep⟩ := commitEnd_facts (mapFind_of_descReady hx) c x stSTEP_ORDER 0xFF 0 0 0 0 0
    exact ⟨_, _, ran_next hexec, hends, congrArg CtxRun.step (runOf_of_step hstep c : runOf _ c = runOf _ c)⟩
  case accepted =>
    have hexec := exec_commit hz hx hc hbefore
    rw [if_neg (by simpa [Option.isSome_iff_ne_none] using htab), if_neg (not_not_intro heq)] at hexec
    have hrunning : underway d 1 (updDesc z d fun y => { y with st := .running, pos := 1 }) :=
      ⟨_, mapFind_updDesc_same (mapFind_of_descReady hx) _, rfl, rfl⟩
    obtain ⟨y, hy, hst, hpos⟩ := promoteCtx_underway hrunning c
    exact ⟨_, y, ran_next hexec, hy, hst, hpos⟩
  case waits =>
    have hexec := exec_decision hz hx hc hq hgates hpos hin
    rw [← hcov, hover, if_neg (by decide)] at hexec
    rw [hexec, hz, ran_atTime]
    rfl
  case skipped =>
    have hexec := exec_decision hz hx hc hq hgates hpos hin
    rw [← hcov, if_pos (by rw [waitOver, herr, Bool.or_true])] at hexec
    obtain ⟨hends, htab, hstep⟩ := skip_facts (mapFind_of_descRunning hx) hg hgates hin (causeOf_cover q (by rw [← hcov, herr]))
    refine ⟨_, _, ran_next hexec, hends, ?_, ?_, hstep⟩
    · rw [ctxOf_underQueue, htab, Option.map_some]
    · rw [ctxOf_underQueue, htab, Option.map_some]
  case goesOn =>
    have hexec := exec_decision hz hx hc hq hgates hpos hin
    rw [← hcov, if_pos (by rw [waitOver, hreach, Bool.true_or])] at hexec
    obtain ⟨hfind, hst, _⟩ := descRunning_facts hx
    obtain ⟨hdesc, hinp, hrun⟩ := goOn_facts hfind hg hgates hin (causeOf_none (by rw [← hcov, herr]) hforce hflags)
    refine ⟨_, _, ran_next hexec, hdesc, hst, rfl, ?_, congrArg CtxRun.step hrun⟩
    rw [ctxOf_underQueue, hinp]
  case exchanged =>
    have hexec : exec (.viewExchange d now) s = execViewExchange d now s := rfl
    unfold execViewExchange at hexec
    rw [← hz] at hexec
    dsimp only at hexec
    rw [hx] at hexec
    dsimp only at hexec
    rw [hc] at hexec
    dsimp only at hexec
    rw [hq] at hexec
    dsimp only at hexec
    rw [hexp, hpair, if_neg (by simpa using not_lt.mpr hpos), hcarried] at hexec
    dsimp only at hexec
    rw [hgather] at hexec
    dsimp only at hexec
    have hgo (gens : List Nat) : mirrorStep z d c x gens = (z, true) := by
      rw [mirrorStep, hmirror]
      exact if_pos (.inr rfl)
    rw [hgo, if_neg (by simp)] at hexec
    obtain ⟨hdescs, hstep, hviews, htab⟩ := commitChange_facts hq ((List.range 8).map fun i => leNat ((b.drop (8 * i)).take 8))
    generalize commitChange z c _ = w at hexec hdescs hstep hviews htab
    obtain ⟨hends, hside⟩ := commitEnd_facts (by rw [hdescs, mapFind_of_descRunning hx]) c x stOK 1 0 (x.aux.getD 0 0) (x.aux.getD 1 0) n w.tense.toNat
    refine ⟨_, ran_next hexec, hends, ?_, ?_, ?_⟩
    · exact (congrArg CtxRun.step (runOf_of_step hside c)).trans hstep
    · rw [ctxOf_underQueue, ctxField_of_step hside Ctx.views (fun _ => rfl), hviews]
    · rw [ctxOf_underQueue, ctxField_of_step hside Ctx.table (fun _ => rfl), htab, Option.map_some]
  case retained =>
    have hexec : exec (.retentionRelease cid j) s = execRetentionRelease cid j s := rfl
    unfold execRetentionRelease at hexec
    rw [hq] at hexec
    dsimp only at hexec
    rw [hr] at hexec
    dsimp only at hexec
    rw [hlive, hreach, if_pos (by decide)] at hexec
    generalize hw : (if (decide (r.policy = 2) || (r.policy == 1 && !r.retained)) = true then areaRelease s cid r else s) = w at hexec
    have htab : (ctxOf w cid).table = some q := by
      rw [← hw]
      split
      · rw [ctxField_of_side (areaRelease_side s cid r) Ctx.table (fun _ => rfl), hq]
      · exact hq
    refine ⟨_, ran_next hexec, ?_, fun hrel pg hlo hhi => ?_⟩
    · rw [ctxOf_underQueue, ctxOf_updCtx_same, htab, Option.map_some]
    · have hreleased : w = areaRelease s cid r := by
        rw [← hw, if_pos]
        rcases hrel with h | ⟨hp, hret⟩
        · rw [h]
          rfl
        · rw [hp, hret]
          rfl
      have hpage := pageOf_areaRelease s cid r hlo hhi
      rw [pageOf, ctxOf_underQueue, ctxOf_updCtx_same, hreleased, hpage]
  case bubble =>
    have hexec : exec (.deferrableStart d) s = execDeferrableStart d s := rfl
    have hkind : deferKind x = none := by
      unfold deferKind
      rw [hty]
      exact if_neg hform
    unfold execDeferrableStart at hexec
    rw [hx] at hexec
    dsimp only at hexec
    rw [hc] at hexec
    dsimp only at hexec
    rw [hkind, hfirst, if_pos ⟨hst, hdef, by rw [hgo]; rfl, rfl, rfl⟩] at hexec
    have hfind := mapFind_updDesc_same hx fun y => { y with deferGo := true }
    have hwork : descWork (updDesc s d fun y => { y with deferGo := true }) d = updDesc s d fun y => { y with deferGo := true } := by
      unfold descWork
      rw [hfind]
      dsimp only
      rw [show dType { x with deferGo := true } = dtCOPY from hty, if_pos (by rfl)]
    rw [hwork] at hexec
    exact ⟨_, ran_next hexec, hfind⟩

end Sys2Proof.Machine
end

section
/-! Offload, prefetch and the COPY transforms (R473 to R479). -/

namespace Sys2Proof.Machine

open Sys2Proof.Claims

/-! ### The end of a transform -/

/-- Step flags change contexts only. -/
theorem orSflags_keeps (s : State) (c f : Nat) : (orSflags s c f).descs = s.descs ∧ (orSflags s c f).spm = s.spm ∧
    (orSflags s c f).hbm = s.hbm ∧ (orSflags s c f).hostOut = s.hostOut := by
  unfold orSflags
  split
  · exact ⟨rfl, rfl, rfl, rfl⟩
  · exact ⟨rfl, rfl, rfl, rfl⟩

/-- R527: a transform of areas without poison ends with what the copy has noted; its stores stand. -/
theorem transformEnd_facts {s r : State} {d : Nat} {x : Desc} (hx : mapFind s.descs d = some x) (hside : storeSide r = storeSide s) (c f : Nat) :
    endsAs (copyEnd (descPoison (orSflags r c f) d false) d c) d x.note 0 0 ∧ (copyEnd (descPoison (orSflags r c f) d false) d c).spm = r.spm ∧
    (copyEnd (descPoison (orSflags r c f) d false) d c).hbm = r.hbm ∧ (copyEnd (descPoison (orSflags r c f) d false) d c).hostOut = r.hostOut := by
  obtain ⟨hd, hspm, hhbm, hout⟩ := orSflags_keeps r c f
  rw [descPoison, if_neg (by decide)]
  obtain ⟨hends, h1, h2, h3, _⟩ := copyEnd_facts (by rw [hd, descs_of_side hside, hx]) c
  exact ⟨hends, h1.trans hspm, h2.trans hhbm, h3.trans hout⟩

/-- Areas that have come, none of them from the host. -/
theorem xfGather_done {s z : State} {d c r n : Nat} {x : Desc} {b : List Byte} {po : Bool} (h : areaGather s c 48 r n (dKey x) (.desc d) = (z, .done b po false))
    (fin : State → List Byte → Bool → State) : xfGather s d x c r n fin = fin z b po := by
  rw [xfGather, h]
  rfl

/-! ### OFFLOAD (R478) -/

/-- R478: an OFFLOAD of one megabyte at most moves it and writes its record. -/
theorem offloadMove_last {s s₂ : State} {d c : Nat} {x : Desc} {rs : List (List Byte × Bool)} (hx : mapFind s.descs d = some { x with st := .running })
    (hdigs : x.digs = []) (hpos : x.pos = 0) (hn : dNat x 0x20 8 ≤ chunkBytes) (hsrc : arReach s c 48 (dNat x 0x10 8) (dNat x 0x20 8) false = .ok)
    (hdst : areaCheck s c 48 (dNat x 0x18 8) (dNat x 0x20 8) (dKey x) true = none) (hrs : hereRuns s c (dNat x 0x10 8) (dNat x 0x20 8) = rs)
    (hpo : rs.any (·.2) = false) (hs₂ : s₂ = updDesc (storeRuns s c (dNat x 0x18 8) rs) d (fun y => { y with
      pos := y.pos + dNat x 0x20 8, digs := y.digs ++ [(0, sha256 (rs.flatMap (·.1)))] }))
    (hrec : areaCheck s₂ c 48 (dNat x 0x30 8) 64 (dKey x) true = none) :
    offloadMove s d x c = copyEnd (areaStore s₂ c 48 (dNat x 0x30 8) (offRecord (dNat x 0x18 8) (dNat x 0x20 8) (runOf s c).step 1
      (cdOuter tagOFFLD (dNat x 0x20 8) [sha256 (rs.flatMap (·.1))])) false) d c ∧
    mapFind s₂.descs d = some { x with st := .running, pos := x.pos + dNat x 0x20 8, digs := [(0, sha256 (rs.flatMap (·.1)))] } := by
  have hstored : storeSide (storeRuns s c (dNat x 0x18 8) rs) = storeSide s := storeRuns_side _ _ _ _
  have hkept : mapFind (storeRuns s c (dNat x 0x18 8) rs).descs d = some { x with st := .running } := by rw [descs_of_side hstored, hx]
  have hfind : mapFind s₂.descs d = some { x with st := .running, pos := x.pos + dNat x 0x20 8, digs := [(0, sha256 (rs.flatMap (·.1)))] } := by
    rw [hs₂, mapFind_updDesc_same hkept, hdigs, List.nil_append]
  have hrun : runOf s₂ c = runOf s c := by
    rw [hs₂, updDesc_of_find hkept]
    exact runOf_of_side hstored c
  refine ⟨?_, hfind⟩
  unfold offloadMove
  dsimp only
  rw [hpos, Nat.sub_zero, Nat.min_eq_right hn, Nat.add_zero, Nat.add_zero, Nat.zero_add, hsrc]
  dsimp only
  rw [hdst]
  dsimp only
  rw [hrs, hpo, descPoison, if_neg (show ¬false = true by decide), if_neg (lt_irrefl _), Nat.zero_div, ← hs₂, hfind]
  generalize hd : ({ x with st := .running, pos := x.pos + dNat x 0x20 8, digs := [(0, sha256 (rs.flatMap (·.1)))] } : Desc) = y
  have hnat (o l : Nat) : dNat y o l = dNat x o l := by rw [← hd]; rfl
  have hlist : digList y = [sha256 (rs.flatMap (·.1))] := by
    rw [← hd, digList, List.mergeSort_singleton]
    rfl
  dsimp only
  rw [hnat, hnat, hlist, show dKey y = dKey x from hnat _ _, hrec, hrun]

/-! ### PREFETCH (R479) -/

theorem or_and_self_right (a b : Nat) : (a ||| b) &&& b = b :=
  Nat.eq_of_testBit_eq fun i => by
    rw [Nat.testBit_and, Nat.testBit_or]
    cases b.testBit i <;> simp

/-- R479: the digest of all that came back decides how a PREFETCH ends. -/
theorem prefetchEnd_facts {s : State} {d : Nat} {x : Desc} (hx : mapFind s.descs d = some x) (c : Nat) (b : List Byte) :
    ((cdOuter tagOFFLD (bNat b 8 8) (digList x) == (b.drop 0x20).take 32) = true → endsAs (prefetchEnd s d x c b) d x.note 0 0) ∧
    ((cdOuter tagOFFLD (bNat b 8 8) (digList x) == (b.drop 0x20).take 32) = false → endsAs (prefetchEnd s d x c b) d stOFFLOAD_CHECK 0 0 ∧
      (ctxOf (prefetchEnd s d x c b) c).sflags &&& 136 = 136 ∧
      (ctxOf (prefetchEnd s d x c b) c).unrec = ((ctxOf s c).unrec || (ctxOf s c).glossOpen)) := by
  unfold prefetchEnd
  extract_lets total r dst good z w
  have hz : storeSide z = storeSide s := by
    unfold z
    split
    · exact areaStore_side _ _ _ _ _ _
    · next h => exact areaCheck_side h
  clear_value z
  have hw : storeSide w = storeSide s := by
    refine Eq.trans ?_ hz
    unfold w
    split
    · exact storeRuns_side _ _ _ _
    · rfl
  clear_value w
  refine ⟨fun h => ?_, fun h => ?_⟩
  · rw [if_pos h]
    exact (copyEnd_facts (by rw [descs_of_side hz, hx]) c).1
  · rw [if_neg (by rw [show good = false from h]; decide)]
    have hctx : ctxOf (markUnrec (orSflags w c (128 + 8)) c) c =
        { ctxOf w c with sflags := (ctxOf w c).sflags ||| 136, unrec := (ctxOf w c).unrec || (ctxOf w c).glossOpen } := by
      rw [markUnrec, ctxOf_updCtx_same, orSflags, if_neg (by decide), ctxOf_updCtx_same]
    have hfind : mapFind (markUnrec (orSflags w c (128 + 8)) c).descs d = some x := by
      rw [← hx, ← descs_of_side hw, ← (orSflags_keeps w c (128 + 8)).1]
      rfl
    refine ⟨endsAs_descEnd hfind _ _ _, ?_, ?_⟩
    · rw [ctxOf_descEnd, hctx]
      exact or_and_self_right _ _
    · rw [ctxOf_descEnd, hctx, ctxField_of_side hw Ctx.unrec (fun _ => rfl), ctxField_of_side hw Ctx.glossOpen (fun _ => rfl)]

/-- R479: the last megabyte of a PREFETCH is stored, and its digest joins those before it. -/
theorem prefetchMove_last {s : State} {d c n : Nat} {x : Desc} {b bs : List Byte} {hd : Bool} (hx : mapFind s.descs d = some { x with st := .running })
    (hn : n = bNat b 8 8 - x.pos) (hpos : x.pos < bNat b 8 8) (hle : n ≤ chunkBytes)
    (hgot : areaGather s c 48 (bNat b 0 8 + x.pos) n (dKey x) (.desc d) = (s, .done bs false hd))
    (hok : areaCheck s c 48 (dNat x 0x18 8 + x.pos) n (dKey x) true = none) : ∃ z y, mapFind z.descs d = some y ∧ y.note = x.note ∧
      digList y = digList { x with digs := x.digs ++ [(x.pos / chunkBytes, sha256 bs)] } ∧ prefetchMove s d x c b = prefetchEnd z d y c b ∧
      (ctxOf z c).unrec = (ctxOf s c).unrec ∧ (ctxOf z c).glossOpen = (ctxOf s c).glossOpen := by
  unfold prefetchMove
  dsimp only
  rw [← hn, Nat.min_eq_right hle, hgot]
  dsimp only
  rw [hok]
  dsimp only
  generalize hr : storeRuns s c _ _ = r
  have hside : storeSide r = storeSide s := by rw [← hr, storeRuns_side]
  have hfind : mapFind r.descs d = some { x with st := .running } := by rw [descs_of_side hside, hx]
  rw [descPoison, if_neg (show ¬false = true by decide), if_neg (by omega), mapFind_updDesc_same hfind]
  have hctx (f : Desc → Desc) : ctxOf (updDesc r d f) c = ctxOf r c := by
    rw [updDesc_of_find hfind]
    rfl
  refine ⟨_, _, mapFind_updDesc_same hfind _, ?_, ?_, rfl, ?_, ?_⟩
  · rfl
  · rfl
  · rw [hctx, ctxField_of_side hside Ctx.unrec (fun _ => rfl)]
  · rw [hctx, ctxField_of_side hside Ctx.glossOpen (fun _ => rfl)]

/-! ### Compression and expansion (R473 to R477) -/

/-- The elements that a compression takes: the gradient and the residual, added in binary32. -/
def xfElems (y : Xf) (gb rb : List Byte) : List Num := ((elems y.gf gb).zip (elems y.rf rb)).map fun p => rndEl 0 (numAdd false p.1 p.2)

/-- R473, R474: the stores of block `k`: its bytes, then its staged residuals. -/
def xfBlockStore (c : Nat) (y : Xf) (v : View) (sign : Bool) (es : List Num) (s : State) (k : Nat) : State :=
  let o := if sign then signBlock y ((es.drop (y.cb * k)).take y.cb) else topkBlock y ((es.drop (y.cb * k)).take y.cb)
  areaStore (areaStore s c 48 (y.out + k * xfBlockBytes y sign) o.1 false) c 48 (viewRef v (v.vs + k * y.cb * fw y.rf)) o.2 false

theorem xfBlockStore_side (c : Nat) (y : Xf) (v : View) (sign : Bool) (es : List Num) (s : State) (l : List Nat) :
    storeSide (l.foldl (xfBlockStore c y v sign es) s) = storeSide s :=
  foldl_keep storeSide _ (fun s _ => (areaStore_side _ _ _ _ _ _).trans (areaStore_side s _ _ _ _ _)) _ _

/-- R473, R474: a compression that breaks a rule of its fields is refused. -/
theorem compress_refused {s : State} {d c : Nat} {x : Desc} {sign : Bool} (hx : descReady s d dtCOPY 3 = some x) (hc : dCtx s x = some c)
    (hkind : dNat x 0x30 1 = if sign then 1 else 0) (hok : xfOk s c x (xfOf x) = false) : compress s d sign = descEnd s d stFORMAT 0 0 := by
  rw [compress, hx]
  dsimp only
  rw [if_neg (not_not_intro hkind), hc]
  dsimp only
  rw [hok]
  rfl

/-- R473, R474: a compression whose areas have come stores its blocks in order, and ends. -/
theorem compress_done {s : State} {d c : Nat} {x : Desc} {sign : Bool} {y : Xf} {v : View} {gb rb : List Byte} (hx : descReady s d dtCOPY 3 = some x)
    (hc : dCtx s x = some c) (hkind : dNat x 0x30 1 = if sign then 1 else 0) (hy : y = xfOf x) (hok : xfOk s c x y = true) (hv : xfRegion s c y = some v)
    (hg : areaGather s c 48 y.grad (y.n * fw y.gf) (dKey x) (.desc d) = (s, .done gb false false))
    (hr : areaGather s c 48 (viewRef v v.vc) v.bytes (dKey x) (.desc d) = (s, .done rb false false))
    (hout : areaCheck s c 48 y.out (xfBlocks y * xfBlockBytes y sign) (dKey x) true = none) : compress s d sign =
      copyEnd (descPoison (orSflags ((List.range (xfBlocks y)).foldl (xfBlockStore c y v sign (xfElems y gb rb)) s) c
        (if (xfElems y gb rb).any numIsNan then 1 else 0)) d false) d c := by
  rw [compress, hx]
  dsimp only
  rw [if_neg (not_not_intro hkind), hc]
  dsimp only
  rw [← hy, hok, if_neg (by decide), hv]
  dsimp only
  rw [xfGather_done hg, xfGather_done hr, hout]
  rfl

/-- R475: an expansion whose area has come stores the dense sum, and ends. -/
theorem expand_done {s : State} {d c : Nat} {x : Desc} {sign : Bool} {y : Xf} {b : List Byte} (hx : descReady s d dtCOPY 3 = some x)
    (hc : dCtx s x = some c) (hkind : dNat x 0x30 1 = if sign then 3 else 2) (hy : y = xfOf x) (hok : xfOk s c x y = true)
    (hg : areaGather s c 48 y.grad (y.g * (xfBlocks y * xfBlockBytes y sign)) (dKey x) (.desc d) = (s, .done b false false))
    (hout : areaCheck s c 48 y.out (y.n * fw y.of_) (dKey x) true = none) {sums : List Num} (hsums : sums = (List.range y.n).map fun k =>
      numSum ((List.range y.g).map fun m => decEl y sign ((b.drop (m * (xfBlocks y * xfBlockBytes y sign))).take (xfBlocks y * xfBlockBytes y sign)) k)) :
    expand s d sign = copyEnd (descPoison (orSflags (areaStore s c 48 y.out (sums.flatMap (encEl y.of_)) false) c
      (if sums.any numIsNan then 1 else 0)) d false) d c := by
  rw [expand, hx]
  dsimp only
  rw [if_neg (not_not_intro hkind), hc]
  dsimp only
  rw [← hy, hok, if_neg (by decide), xfGather_done hg, hout, hsums]

/-- Settles O42: an offload's record, a prefetch's check, and what the transforms store. -/
theorem trainingCopies : Obligations.TrainingCopies := by
  have hcompress {s : State} {d : Nat} {sign : Bool} {i : Instr} (h : (sign, i) ∈ [(false, Instr.copyTopk d), (true, .copySign d)]) :
      exec i s = ran s (compress s d sign) := by
    rcases List.mem_cons.mp h with h | h
    · cases h
      rfl
    · cases List.mem_singleton.mp h
      rfl
  have hexpand {s : State} {d : Nat} {sign : Bool} {i : Instr} (h : (sign, i) ∈ [(false, Instr.copyExpandTopk d), (true, .copyExpandSign d)]) :
      exec i s = ran s (expand s d sign) := by
    rcases List.mem_cons.mp h with h | h
    · cases h
      rfl
    · cases List.mem_singleton.mp h
      rfl
  refine ⟨fun s d now z x c s₁ s₂ rs hz hx hc hpos hdigs hnote hn hin₁ hin₂ hall₁ hall₂ hs₁ hsrc hdst hrs hpo hs₂ hrec => ?offload,
    fun s d now z x c b n s₁ y hd good hz hx hc hb hlen hpos hlt hn hle hs₁ hgot hok hgood => ?prefetch,
    fun s d sign i x c y hi hx hc hkind hy => ⟨fun hbad => ?refused, fun v gb rb hok hv hg hr hout => ?compressed⟩,
    fun s d sign i x c y b hi hx hc hkind hy hok hg hout => ?expanded⟩
  case offload =>
    have hexec : exec (.copyOffload d now) s = execCopyOffload d now s := rfl
    obtain ⟨hfind, hst, _⟩ := descReady_facts hx
    unfold execCopyOffload at hexec
    rw [← hz] at hexec
    dsimp only at hexec
    rw [descLive_of_ready hx] at hexec
    dsimp only at hexec
    rw [hc] at hexec
    dsimp only at hexec
    rw [if_pos hst, hin₁, hin₂, hall₁, hall₂, if_neg (by decide), if_neg (by decide), ← hs₁] at hexec
    have hrunning : mapFind s₁.descs d = some { x with st := .running } := by rw [hs₁, mapFind_updDesc_same hfind]
    have hrun : runOf s₁ c = runOf z c := by
      rw [hs₁, updDesc_of_find hfind]
      rfl
    obtain ⟨hmove, hlast⟩ := offloadMove_last hrunning hdigs hpos hn hsrc (Option.isNone_iff_eq_none.mp hdst) hrs.symm hpo hs₂ (Option.isNone_iff_eq_none.mp hrec)
    rw [hmove, hrun] at hexec
    generalize hr : areaStore s₂ c 48 _ _ false = r at hexec
    have hkept : r.descs = s₂.descs := by rw [← hr, (areaStore_keeps _ _ _ _ _ _).1]
    obtain ⟨hends, hspm, hhbm, hout, _⟩ := copyEnd_facts (by rw [hkept, hlast]) c
    refine ⟨_, r, ran_next hexec, ?_, rfl, ?_, ?_, ?_⟩
    · exact hnote ▸ hends
    · simp only [underQueue_keeps, hspm]
    · simp only [underQueue_keeps, hhbm]
    · simp only [underQueue_keeps, hout]
  case prefetch =>
    subst hb
    have hexec : exec (.copyPrefetch d now) s = execCopyPrefetch d now s := rfl
    obtain ⟨hfind, hst, _⟩ := descRunning_facts hx
    unfold execCopyPrefetch at hexec
    rw [← hz] at hexec
    dsimp only at hexec
    rw [descLive_of_running hx] at hexec
    dsimp only at hexec
    rw [hc] at hexec
    dsimp only at hexec
    rw [gatherParts_done hfind (if_neg (by omega)), if_neg (fun h => absurd h.1 (by omega)),
      if_neg (by rw [decide_eq_false (by omega)]; simp), ← hs₁] at hexec
    have hrunning : mapFind s₁.descs d = some { x with st := .running } := by rw [hs₁, mapFind_updDesc_same hfind]
    have hctx : ctxOf s₁ c = ctxOf z c := by
      rw [hs₁, updDesc_of_find hfind]
      rfl
    obtain ⟨w, x', hw, hnote, hdig, hmove, hunrec, hopen⟩ := prefetchMove_last hrunning hn hlt hle hgot (Option.isNone_iff_eq_none.mp hok)
    obtain ⟨hyes, hno⟩ := prefetchEnd_facts hw c (auxBytes x)
    rw [hmove] at hexec
    rw [hdig, ← hgood, hnote] at hyes
    rw [hdig, ← hgood, hunrec, hopen, hctx] at hno
    refine ⟨_, ran_next hexec, hyes, fun h => ?_⟩
    obtain ⟨hends, hflags, hun⟩ := hno h
    refine ⟨hends, ?_, ?_⟩
    · rw [ctxOf_underQueue, hflags]
    · rw [ctxOf_underQueue, hun]
  case refused =>
    have hexec := hcompress (s := s) hi
    rw [compress_refused hx hc hkind (hy ▸ hbad)] at hexec
    refine ⟨_, ran_next hexec, endsAs_ran_descEnd (mapFind_of_descReady hx) _ _ _ _, ?_, ?_⟩
    · simp only [underQueue_keeps, descEnd_keeps]
    · simp only [underQueue_keeps, descEnd_keeps]
  case compressed =>
    intro es r
    have hexec := hcompress (s := s) hi
    rw [compress_done hx hc hkind hy hok hv hg hr (Option.isNone_iff_eq_none.mp hout)] at hexec
    obtain ⟨hends, hspm, hhbm, hsent⟩ := transformEnd_facts (mapFind_of_descReady hx) (xfBlockStore_side c y v sign (xfElems y gb rb) s (List.range (xfBlocks y)))
      c (if (xfElems y gb rb).any numIsNan then 1 else 0)
    exact ⟨_, ran_next hexec, hends, hspm, hhbm, hsent⟩
  case expanded =>
    intro sums r
    have hexec := hexpand (s := s) hi
    rw [expand_done hx hc hkind hy hok hg (Option.isNone_iff_eq_none.mp hout) rfl] at hexec
    obtain ⟨hends, hspm, hhbm, hsent⟩ := transformEnd_facts (mapFind_of_descReady hx) (areaStore_side s c 48 y.out (sums.flatMap (encEl y.of_)) false)
      c (if sums.any numIsNan then 1 else 0)
    exact ⟨_, ran_next hexec, hends, hspm, hhbm, hsent⟩

end Sys2Proof.Machine
end

section
/-! Refused tile links and CWAIT (R136, R141, R145). -/

namespace Sys2Proof.Machine

open Sys2Proof.Claims

/-! ### What the checks of a link read does not depend on the time -/

section
variable (s : State) (now : Nat)

/-- What does not read the time reads the same at any time. -/
theorem reads_atTime {β : Type} (g : State → β) (hg : ∀ t : W64, g { s with tense := t } = g s) : g (atTime s now) = g s := by
  rw [atTime_eq]
  exact hg _

theorem spByte_atTime : spByte (atTime s now) = spByte s := reads_atTime s now spByte fun _ => rfl

theorem tdescReads_atTime : readInsn (atTime s now) = readInsn s ∧ readTDesc (atTime s now) = readTDesc s ∧ spNat (atTime s now) = spNat s := by
  have hbytes (c a n : Nat) : spBytes (atTime s now) c a n = spBytes s c a n := by simp only [spBytes, spByte_atTime]
  have hnat (c a n : Nat) : spNat (atTime s now) c a n = spNat s c a n := by simp only [spNat, hbytes]
  exact ⟨funext₂ fun p i => by simp only [readInsn, hnat], funext₂ fun p i => by simp only [readTDesc, hbytes], funext₃ hnat⟩

theorem spaceReads_atTime : tdAreas (atTime s now) = tdAreas s ∧ bindAddr (atTime s now) = bindAddr s ∧ inSpace (atTime s now) = inSpace s :=
  ⟨reads_atTime s now tdAreas fun _ => rfl, reads_atTime s now bindAddr fun _ => rfl, reads_atTime s now inSpace fun _ => rfl⟩

theorem handleReads_atTime : conjKeyOk (atTime s now) = conjKeyOk s ∧ contOk (atTime s now) = contOk s ∧ routeOk (atTime s now) = routeOk s :=
  ⟨reads_atTime s now conjKeyOk fun _ => rfl, reads_atTime s now contOk fun _ => rfl, reads_atTime s now routeOk fun _ => rfl⟩

theorem linksFrom_atTime (p : Prog) (n i : Nat) : linksFrom (atTime s now) p n i = linksFrom s p n i := by
  induction n generalizing i with
  | zero => rfl
  | succ n ih => simp only [linksFrom, tdescReads_atTime, ih]

theorem nextLink_atTime (e : TEnv) : nextLink (atTime s now) e = nextLink s e := by
  simp only [nextLink, tdescReads_atTime]

theorem ctxOf_atTime : ctxOf (atTime s now) = ctxOf s := reads_atTime s now ctxOf fun _ => rfl

theorem compoundReads_atTime (e : TEnv) : bindMisplaced (atTime s now) e = bindMisplaced s e ∧ sweepFirst (atTime s now) e = sweepFirst s e ∧
    slotsOk (atTime s now) e = slotsOk s e ∧ envVm (atTime s now) e = envVm s e ∧ startsSweep (atTime s now) e = startsSweep s e := by
  have hvm : envVm (atTime s now) e = envVm s e := by rw [envVm, ctxOf_atTime, envVm]
  refine ⟨?_, ?_, ?_, hvm, ?_⟩
  · funext role d
    simp only [bindMisplaced, isHandoffCvt, nextLink_atTime]
  · simp only [sweepFirst, tdescReads_atTime]
  · funext t
    simp only [slotsOk, hvm]
  · simp only [startsSweep, linksFrom_atTime, tdescReads_atTime]

theorem regGet_atTime : regGet (atTime s now) = regGet s := reads_atTime s now regGet fun _ => rfl

/-- R145: a link's checks do not depend on the time. -/
theorem tileRefusal_atTime (e : TEnv) : tileRefusal (atTime s now) e = tileRefusal s e := by
  unfold tileRefusal tileCheck
  simp only [tdescReads_atTime, spaceReads_atTime, handleReads_atTime, compoundReads_atTime, ctxOf_atTime, regGet_atTime]

theorem tileEnv_atTime (id : Nat) : tileEnv (atTime s now) id = tileEnv s id := by
  simp only [tileEnv, progOf, verbOf, ctxRunning, runOf, ctxOf, tdescReads_atTime, atTime_keeps]
  rfl

end

/-! ### The end of a compound -/

/-- A compound that ends keeps all but programs, Verbs and registers. -/
theorem endCompound_keeps (s : State) (id : Nat) : (endCompound s id).spm = s.spm ∧ (endCompound s id).hbm = s.hbm ∧
    (endCompound s id).conj = s.conj ∧ (endCompound s id).outSigs = s.outSigs := by
  unfold endCompound
  split
  · exact ⟨rfl, rfl, rfl, rfl⟩
  · split
    · exact ⟨rfl, rfl, rfl, rfl⟩
    · simp only [setProg, updVerb, vrbPerf, clrBitOf_keeps, satFld_keeps, and_self]

/-- R141: the compound of a program ends: its Verb is free. -/
theorem endCompound_frees {s : State} {id : Nat} {p : Prog} {c : Comp} (hp : progOf s id = some p) (hc : p.comp = some c) :
    progOf (endCompound s id) id = some { p with comp := none } ∧ (verbOf (endCompound s id) c.verb).prog = none := by
  have hset (z : State) (q : Prog) (v : Nat) : verbOf (setProg z id q) v = verbOf z v := rfl
  unfold endCompound
  rw [hp]
  dsimp only
  rw [hc]
  dsimp only
  refine ⟨progOf_setProg _ _ _, ?_⟩
  rw [hset, verbOf_updVerb_same]

/-- The program of a link that may issue. -/
theorem tileEnv_facts {s : State} {id : Nat} {e : TEnv} (h : tileEnv s id = some e) : progOf s id = some e.p ∧ e.p.comp = some e.c ∧ e.id = id := by
  unfold tileEnv at h
  split at h
  · cases h
  · next p hp =>
    split at h
    · cases h
    · next c hc =>
      split at h
      · cases h
        exact ⟨hp, hc, rfl⟩
      · cases h

/-- R145: a link of its operation whose check fails is refused. -/
theorem tileIssue_refused {s : State} {id op code : Nat} {e : TEnv} (he : tileEnv s id = some e) (hop : inOp e.i = op) (hr : tileRefusal s e = some code)
    (body : State → TEnv → State) : tileIssue s id op body = tileRefuse s id e code := by
  rw [tileIssue, he]
  dsimp only
  rw [if_pos (.inl hop), hr]

/-- R145: a refusal ends the program at its instruction, without another effect. -/
theorem tileRefuse_facts {s : State} {id code : Nat} {e : TEnv} (he : tileEnv s id = some e) :
    progOf (tileRefuse s id e code) id = some { e.p with ended := some ⟨code, e.p.ip, inTAG e.i⟩, comp := none } ∧
    (verbOf (tileRefuse s id e code) e.c.verb).prog = none ∧ (tileRefuse s id e code).spm = s.spm ∧ (tileRefuse s id e code).hbm = s.hbm ∧
    (tileRefuse s id e code).conj = s.conj ∧ (tileRefuse s id e code).outSigs = s.outSigs := by
  obtain ⟨hp, hc, _⟩ := tileEnv_facts he
  have hupd : progOf (updProg s id fun p => endAt p code p.ip (inTAG e.i)) id = some (endAt e.p code e.p.ip (inTAG e.i)) := progOf_updProg_same hp _
  have hkeep (f : Prog → Prog) : (updProg s id f).spm = s.spm ∧ (updProg s id f).hbm = s.hbm ∧ (updProg s id f).conj = s.conj ∧
      (updProg s id f).outSigs = s.outSigs := by
    unfold updProg
    split <;> exact ⟨rfl, rfl, rfl, rfl⟩
  obtain ⟨h1, h2, h3, h4⟩ := hkeep fun p => endAt p code p.ip (inTAG e.i)
  unfold tileRefuse
  obtain ⟨hprog, hverb⟩ := endCompound_frees hupd hc
  obtain ⟨k1, k2, k3, k4⟩ := endCompound_keeps (updProg s id fun p => endAt p code p.ip (inTAG e.i)) id
  exact ⟨hprog, hverb, k1.trans h1, k2.trans h2, k3.trans h3, k4.trans h4⟩

/-- Command `i` issues a link of operation `x.1`, at the time as it stands or at `now`. -/
def issuesLink (s : State) (prog now : Nat) (x : Nat × Instr) : Prop :=
  ∃ body z, (z = s ∨ z = atTime s now) ∧ exec x.2 s = ran s (tileIssue z prog x.1 body)

theorem links_issue (s : State) (prog now : Nat) (up : Option (Nat × Nat)) :
    ∀ x ∈ (opMMA, .mma prog) :: (opCWAIT, .cwait prog now) :: tileLinks prog now up, issuesLink s prog now x := by
  have hhere {i : Instr} {op : Nat} (body : State → TEnv → State) (h : exec i s = ran s (tileIssue s prog op body)) : issuesLink s prog now (op, i) :=
    ⟨body, s, .inl rfl, h⟩
  simp only [tileLinks, List.forall_mem_cons]
  exact ⟨hhere _ rfl, ⟨cwaitBody, _, .inr rfl, rfl⟩, hhere _ rfl, hhere _ rfl, hhere _ rfl, hhere _ rfl, hhere _ rfl, hhere _ rfl, hhere _ rfl, hhere _ rfl,
    hhere _ rfl, hhere _ rfl, hhere _ rfl, hhere _ rfl, hhere _ rfl, ⟨tnsRdBody, _, .inr rfl, rfl⟩, hhere _ rfl, nofun⟩

/-- Settles O7: a refused link ends its program with the code of its check; what the check reads does not depend on the time. -/
theorem tileRefusalEndsProgram : Obligations.TileRefusalEndsProgram := by
  intro s prog now up e op i code he hr hi hop
  obtain ⟨body, z, hz, hexec⟩ := links_issue s prog now up _ hi
  have hmem : z.spm = s.spm ∧ z.hbm = s.hbm ∧ z.conj = s.conj ∧ z.outSigs = s.outSigs := by
    rcases hz with rfl | rfl
    · exact ⟨rfl, rfl, rfl, rfl⟩
    · simp only [atTime_keeps, and_self]
  have hissue : tileEnv z prog = some e ∧ tileRefusal z e = some code := by
    rcases hz with rfl | rfl
    · exact ⟨he, hr⟩
    · rw [tileEnv_atTime, tileRefusal_atTime]
      exact ⟨he, hr⟩
  rw [tileIssue_refused hissue.1 hop hissue.2] at hexec
  obtain ⟨hprog, hverb, h1, h2, h3, h4⟩ := tileRefuse_facts (code := code) hissue.1
  obtain ⟨m1, m2, m3, m4⟩ := hmem
  refine ⟨_, _, ran_next hexec, hprog, rfl, rfl, rfl, ?_, ?_, ?_, ?_, hverb⟩
  · simp only [underQueue_keeps, h1, m1]
  · simp only [underQueue_keeps, h2, m2]
  · simp only [underQueue_keeps, h3, m3]
  · simp only [underQueue_keeps, h4, m4]

/-! ### CWAIT (R136) -/

/-- Settles O8: CWAIT ends its compound and holds its program, until its target, an ERROR or its deadline. -/
theorem cwaitHoldsAndEnds : Obligations.CwaitHoldsAndEnds := by
  refine ⟨fun s prog now e he hr hop => ?held, fun s prog p w hp hw herr hreach => ?met, fun s prog p w hp hw herr => ?failed,
    fun s prog now p w d hp hw hd hpast hover => ?late⟩
  case held =>
    have hexec : exec (.cwait prog now) s = ran s (tileIssue (atTime s now) prog opCWAIT cwaitBody) := rfl
    rw [← tileEnv_atTime s now] at he
    rw [← tileRefusal_atTime s now] at hr
    generalize hz : atTime s now = z at *
    rw [tileIssue, he] at hexec
    dsimp only at hexec
    rw [if_pos (.inl hop), hr] at hexec
    dsimp only at hexec
    unfold cwaitBody at hexec
    extract_lets lim z₁ w z₂ at hexec
    obtain ⟨hp, hc, hid⟩ := tileEnv_facts he
    rw [hid] at hexec
    have hp₁ : progOf z₁ prog = some e.p := by rw [← hp, progOf, progOf, vrbPerf_progs]
    have hp₂ : progOf z₂ prog = some { e.p with wait := some w } := by rw [← hid]; exact progOf_updProg_same (hid ▸ hp₁) _
    have htense : z₁.tense = z.tense := by simp only [z₁, vrbPerf, satFld_keeps]
    obtain ⟨hprog, hverb⟩ := endCompound_frees hp₂ hc
    refine ⟨_, _, ran_next hexec, hprog, rfl, rfl, hverb, ?_⟩
    simp only [w, lim, htense]
    rfl
  case met =>
    have hexec : exec (.cwaitMet prog) s = ran s (cwaitMet s prog) := rfl
    rw [cwaitMet, hp] at hexec
    dsimp only at hexec
    rw [hw] at hexec
    dsimp only at hexec
    rw [herr, if_neg (by decide), hreach, if_pos rfl] at hexec
    have hend (q : Prog) : (endIfLast q).wait = q.wait ∧ (endIfLast q).ip = q.ip ∧ (endIfLast q).completed = q.completed := by
      unfold endIfLast
      split <;> exact ⟨rfl, rfl, rfl⟩
    obtain ⟨h1, h2, h3⟩ := hend { p with wait := none, completed := p.completed + 1, ip := p.ip + 1 }
    exact ⟨_, _, ran_next hexec, progOf_setProg _ _ _, h1, h2, h3⟩
  case failed =>
    have hexec : exec (.cwaitMet prog) s = ran s (cwaitMet s prog) := rfl
    rw [cwaitMet, hp] at hexec
    dsimp only at hexec
    rw [hw] at hexec
    dsimp only at hexec
    rw [herr, if_pos rfl] at hexec
    exact ⟨_, _, ran_next hexec, progOf_setProg _ _ _, rfl, rfl, rfl⟩
  case late =>
    have hexec : exec (.cwaitTimeout prog now) s = ran s (cwaitTimeout (atTime s now) prog) := rfl
    have hp' : progOf (atTime s now) prog = some p := by simp only [progOf, atTime_keeps, ← hp]
    rw [cwaitTimeout, hp'] at hexec
    dsimp only at hexec
    rw [hw] at hexec
    dsimp only at hexec
    rw [hd] at hexec
    dsimp only at hexec
    rw [conjOf_atTime, hover, if_pos ⟨hpast, rfl⟩] at hexec
    have hset (z : State) (q : Prog) (c : Nat) : ctxOf (setProg z prog q) c = ctxOf z c := rfl
    refine ⟨_, _, ran_next hexec, progOf_setProg _ _ _, rfl, ?_, rfl⟩
    rw [ctxOf_underQueue, hset, markIndet, ctxOf_updCtx_same]

end Sys2Proof.Machine
end

section
/-! Inflector lane operations and bit fields (R176 to R179). -/

namespace Sys2Proof.Machine

open Sys2Proof.Claims

/-! ### Rules of a running Inflector program -/

/-- What a micro-operation without a store leaves alone: all but the programs' records and registers. -/
def infRest (s : State) : State := { s with infRuns := [], regs := [] }

theorem infEnv_facts {s : State} {inf op : Nat} {e : UEnv} (h : infEnv s inf op = some e) : mapFind s.infUnits inf = some e.id ∧
    mapFind s.infRuns e.id = some e.run ∧ e.run.upos = some e.pos ∧ ∃ p, progOf s e.id = some p ∧ p.cid = e.cid ∧ p.ended = none := by
  unfold infEnv at h
  split at h
  · cases h
  · next id hid =>
    split at h
    · next p r hp hr =>
      split at h
      · cases h
      · next pos hpos =>
        dsimp only at h
        split at h
        · next hok =>
          cases h
          exact ⟨hid, hr, hpos, p, hp, rfl, Option.isNone_iff_eq_none.mp hok.2.1⟩
        · cases h
    · cases h

section
variable {s : State} {id : Nat} {r : InfRun} (h : mapFind s.infRuns id = some r)
include h

theorem updInf_of_find (f : InfRun → InfRun) : updInf s id f = { s with infRuns := mapIns s.infRuns id (f r) } := by
  rw [updInf, h]

theorem mapFind_updInf_same (f : InfRun → InfRun) : mapFind (updInf s id f).infRuns id = some (f r) := by
  rw [updInf_of_find h]
  exact mapFind_mapIns_same _ _ _

/-- R183: a program's record under its flags. -/
theorem mapFind_infFlags (inf fl : Nat) : mapFind (infFlags s inf id fl).infRuns id = some { r with flags := r.flags ||| fl } := by
  have hupd := mapFind_updInf_same h fun r => { r with flags := r.flags ||| fl }
  unfold infFlags
  extract_lets z m a
  split
  · exact hupd
  · simp only [regSet_keeps]
    exact hupd

end

theorem updInf_rest (s : State) (id : Nat) (f : InfRun → InfRun) : infRest (updInf s id f) = infRest s := by
  unfold updInf
  split <;> rfl

theorem infFlags_rest (s : State) (inf id fl : Nat) : infRest (infFlags s inf id fl) = infRest s := by
  have hreg (z : State) (a v : Nat) : infRest (regSet z a v) = infRest z := rfl
  unfold infFlags
  extract_lets z m a
  split
  · exact updInf_rest _ _ _
  · exact (hreg _ _ _).trans (updInf_rest _ _ _)

/-- R178: before the last micro-operation the program goes on to the next. -/
theorem infNext_goesOn {s : State} {inf : Nat} {e : UEnv} {r : InfRun} (h : mapFind s.infRuns e.id = some r) (hmore : e.pos + 1 < r.ucount) :
    infNext s inf e = updInf s e.id fun r => { r with upos := some (e.pos + 1) } := by
  rw [infNext, h]
  exact if_pos hmore

/-- A command that changes programs' records and registers only. -/
theorem eq_of_infRest {s t : State} (h : infRest t = infRest s) : underQueue s t = { s with infRuns := (underQueue s t).infRuns, regs := (underQueue s t).regs } :=
  congrArg (fun z : State => { z with pending := s.pending, infRuns := t.infRuns, regs := t.regs }) h

/-! ### Lane operations -/

/-- The lanes after DST takes `out l` in each lane. -/
def lanesWith (lanes : List (List IReg)) (dst : Nat) (out : Nat → LaneOut) : List (List IReg) :=
  (lanes.zip ((List.range 32).map out)).map fun p => p.1.set dst p.2.1

theorem laneReg_lanesWith (e : UEnv) {r : InfRun} {lanes : List (List IReg)} {dst : Nat} {out : Nat → LaneOut} (hr : r.lanes = lanesWith lanes dst out)
    (hlen : lanes.length = 32) (hall : ∀ l ∈ lanes, l.length = 16) {l k : Nat} (hl : l < 32) (hk : k < 16) :
    laneReg { e with run := r } l k = if k = dst then (out l).1 else (lanes.getD l []).getD k {} := by
  have hlane : l < lanes.length := hlen ▸ hl
  have hset : (lanesWith lanes dst out).getD l [] = lanes[l].set dst (out l).1 := by
    simp [lanesWith, List.getD_eq_getElem?_getD, hlane, hl]
  rw [laneReg, hr, hset, List.getD_eq_getElem _ _ hlane, List.getD_eq_getElem?_getD, List.getElem?_set]
  by_cases hd : dst = k
  · rw [if_pos hd, if_pos (by rw [hd, hall _ (List.getElem_mem hlane)]; exact hk), if_pos hd.symm]
    rfl
  · rw [if_neg hd, if_neg (Ne.symm hd), List.getD_eq_getElem?_getD]

/-- R176: a lane operation writes DST of the active lanes; DST of the others is +0. -/
theorem laneReg_lanesWith_on (e : UEnv) {r : InfRun} {dst : Nat} {out : Nat → LaneOut}
    (hr : r.lanes = lanesWith e.run.lanes dst fun l => if laneOn e l then out l else ({}, 0)) (hlen : e.run.lanes.length = 32)
    (hall : ∀ l ∈ e.run.lanes, l.length = 16) {l k : Nat} (hl : l < 32) (hk : k < 16) :
    laneReg { e with run := r } l k = if k = dst then (if laneOn e l then (out l).1 else {}) else laneReg e l k := by
  rw [laneReg_lanesWith e hr hlen hall hl hk, apply_ite Prod.fst]
  rfl

/-- R178: what a lane operation does to its program: DST in every active lane, and the next micro-operation. -/
theorem infAlu_facts {s : State} {inf op : Nat} {f : UEnv → Nat → LaneOut} {e : UEnv} (he : infEnv s inf op = some e) (hmore : e.pos + 1 < e.run.ucount) :
    ∃ r, mapFind (infAlu s inf op f).infRuns e.id = some r ∧ r.upos = some (e.pos + 1) ∧ r.group = e.run.group ∧
      r.lanes = lanesWith e.run.lanes (uDST e.word) (fun l => if laneOn e l then f e l else ({}, 0)) ∧ infRest (infAlu s inf op f) = infRest s := by
  obtain ⟨_, hrun, _, _⟩ := infEnv_facts he
  unfold infAlu
  rw [he]
  dsimp only
  generalize hz : updInf s e.id _ = z
  have hfind : mapFind z.infRuns e.id = some { e.run with lanes := lanesWith e.run.lanes (uDST e.word) fun l => if laneOn e l then f e l else ({}, 0) } := by
    rw [← hz]
    exact mapFind_updInf_same hrun _
  have hzrest : infRest z = infRest s := by rw [← hz, updInf_rest]
  clear hz
  have hflag := mapFind_infFlags hfind inf (List.foldl (fun a o => a ||| o.2) 0 (List.map (fun l => if laneOn e l then f e l else ({}, 0)) (List.range 32)))
  rw [infNext_goesOn hflag hmore]
  exact ⟨_, mapFind_updInf_same hflag _, rfl, rfl, rfl, (updInf_rest _ _ _).trans ((infFlags_rest _ _ _ _).trans hzrest)⟩

theorem infOps_exec (s : State) (inf : Nat) : ∀ x ∈ infOps inf, exec x.2.1 s = guardUnit (infOk inf) (ran s (infAlu s inf x.1 x.2.2)) := by
  simp only [infOps, List.forall_mem_cons]
  repeat' apply And.intro
  all_goals first | exact rfl | exact fun _ h => absurd h List.not_mem_nil

theorem infFields_exec (s : State) (inf : Nat) : ∀ x ∈ infFields inf, exec x.2.1 s = guardUnit (infOk inf) (ran s (infField s inf x.1 x.2.2)) := by
  simp only [infFields, List.forall_mem_cons]
  exact ⟨rfl, rfl, nofun⟩

/-- R201: the end of a program frees its Inflector. -/
theorem infEnd_facts {s : State} {id : Nat} {p : Prog} (hp : progOf s id = some p) (inf status index : Nat) :
    progOf (infEnd s inf id status index) id = some { p with ended := some ⟨status, index, 0⟩ } ∧ mapFind (infEnd s inf id status index).infUnits inf = none ∧
    (infEnd s inf id status index).spm = s.spm ∧ (infEnd s inf id status index).hbm = s.hbm := by
  have hupd := progOf_updProg_same hp fun p => { p with ended := some ⟨status, index, 0⟩ }
  refine ⟨?_, ?_, ?_, ?_⟩
  · simp only [infEnd, infRelease, progOf, clrBitOf_keeps]
    exact hupd
  · simp only [infEnd, infRelease, clrBitOf_keeps]
    exact mapFind_mapDel_same _ _
  · simp only [infEnd, infRelease, clrBitOf_keeps, updProg_keeps]
  · simp only [infEnd, infRelease, clrBitOf_keeps, updProg_keeps]

/-- R179: a field inside the register gives its result as other lane operations do. -/
theorem infField_inside {s : State} {inf op : Nat} {f : UEnv → Nat → Nat → Nat → LaneOut} {e : UEnv} (he : infEnv s inf op = some e)
    (hin : ∀ l, l < 32 → laneOn e l = true → (rB e l).v % 64 + uAUX e.word ≤ 64) :
    infField s inf op f = infAlu s inf op fun e' l => f e' l ((rB e' l).v % 64) (uAUX e.word) := by
  have hany : ((List.range 32).any fun l => laneOn e l && decide (64 < (rB e l).v % 64 + uAUX e.word)) = false := by
    refine List.any_eq_false.mpr fun l hl => ?_
    cases hon : laneOn e l with
    | false => simp
    | true => simpa using hin l (List.mem_range.mp hl) hon
  rw [infField, he]
  dsimp only
  rw [hany]
  rfl

/-- R179: a field that runs past bit 63 refuses the program. -/
theorem infField_past {s : State} {inf op l : Nat} {e : UEnv} (he : infEnv s inf op = some e) (hl : l < 32) (hon : laneOn e l = true)
    (hpast : 64 < (rB e l).v % 64 + uAUX e.word) (f : UEnv → Nat → Nat → Nat → LaneOut) :
    infField s inf op f = infEnd (updInf s e.id fun r => { r with refused := true }) inf e.id stFORMAT e.pos := by
  rw [infField, he]
  dsimp only
  rw [if_pos (List.any_eq_true.mpr ⟨l, List.mem_range.mpr hl, by rw [hon, decide_eq_true hpast]; rfl⟩)]

/-- Settles O22: a lane operation writes DST in the active lanes and moves on; a field past the register refuses its program. -/
theorem inflectorLaneResults : Obligations.InflectorLaneResults := by
  refine ⟨fun s inf op i f e hinf hi he hmore hlen hall => ?lanes, fun s inf op i f e hinf hi he hmore hlen hall hin => ?field,
    fun s inf op i f e l hinf hi he hl hon hpast => ?past⟩
  case lanes =>
    have hexec := exec_guarded (decide_eq_true hinf) (infOps_exec s inf _ hi)
    obtain ⟨r, hr, hpos, hgroup, hlanes, hrest⟩ := infAlu_facts (f := f) he hmore
    exact ⟨_, r, ran_next hexec, hr, hpos, hgroup, fun l k hl hk => laneReg_lanesWith_on e hlanes hlen hall hl hk, eq_of_infRest hrest⟩
  case field =>
    have hexec := exec_guarded (decide_eq_true hinf) (infFields_exec s inf _ hi)
    dsimp only at hexec
    rw [infField_inside he hin] at hexec
    obtain ⟨r, hr, hpos, _, hlanes, hrest⟩ := infAlu_facts (f := fun e' l => f e' l ((rB e' l).v % 64) (uAUX e.word)) he hmore
    exact ⟨_, r, ran_next hexec, hr, hpos, fun l k hl hk => laneReg_lanesWith_on e hlanes hlen hall hl hk, eq_of_infRest hrest⟩
  case past =>
    have hexec := exec_guarded (decide_eq_true hinf) (infFields_exec s inf _ hi)
    dsimp only at hexec
    rw [infField_past he hl hon hpast] at hexec
    obtain ⟨_, hrun, _, p, hp, _, _⟩ := infEnv_facts he
    generalize hz : updInf s e.id _ = z at hexec
    have hrest : infRest z = infRest s := by rw [← hz, updInf_rest]
    obtain ⟨hprog, hunit, hspm, hhbm⟩ := infEnd_facts (s := z) (id := e.id) (p := p) (by rw [← hp, ← hz, updInf_of_find hrun]; rfl) inf stFORMAT e.pos
    refine ⟨_, _, ran_next hexec, hprog, rfl, hunit, ?_, ?_⟩
    · simp only [underQueue_keeps, hspm]
      exact (congrArg State.spm hrest : (infRest z).spm = (infRest s).spm)
    · simp only [underQueue_keeps, hhbm]
      exact (congrArg State.hbm hrest : (infRest z).hbm = (infRest s).hbm)

end Sys2Proof.Machine
end

section
/-! Inflector stores, reductions and groups of lanes (R173 to R187, R200, R201). -/

namespace Sys2Proof.Machine

open Sys2Proof.Claims

/-! ### What stream writes and norm taps leave alone -/

theorem writeRun_rest (s : State) (c w ba wd : Nat) (l : List Nat) (po : Bool) : memRest (writeRun s c w ba wd l po) = memRest s := by
  unfold writeRun
  split
  · rfl
  · exact spWrite_rest _ _ _ _ _ _

theorem writeElems_rest (s : State) (c wsl w : Nat) (es : List OutElem) : memRest (writeElems s c wsl w es) = memRest s := by
  have hflush (z : State) (run : Option (Nat × List Nat × Bool)) : memRest (match run with
      | none => z
      | some (ba, pats, po) => writeRun z c wsl ba w pats.reverse po) = memRest z := by
    split
    · rfl
    · exact writeRun_rest _ _ _ _ _ _ _
  unfold writeElems
  refine (hflush _ _).trans (foldl_keep_fst memRest _ (fun z e => ?_) es (s, none))
  dsimp only
  split
  · split
    · rfl
    · exact hflush z.1 _
  · rfl

theorem zeroOuts_rest (s : State) (inf c : Nat) (r : InfRun) : memRest (zeroOuts s inf c r) = memRest s := by
  unfold zeroOuts
  split
  · rfl
  · refine foldl_keep memRest _ (fun z x => ?_) _ _
    dsimp only
    split
    · rfl
    · exact foldl_keep memRest _ (fun _ _ => writeElems_rest _ _ _ _ _) _ _

theorem normTap_rest (s : State) (c w : Nat) (r : InfRun) (x : IStream) (v : Num) : memRest (normTap s c w r x v) = memRest s := by
  unfold normTap
  split
  · rfl
  · dsimp only
    split
    · exact spWrite_rest _ _ _ _ _ _
    · exact spWrite_rest _ _ _ _ _ _
    · exact spWrite_rest _ _ _ _ _ _

/-- What a write of memory keeps of the programs. -/
theorem progs_of_memRest {s t : State} (h : memRest t = memRest s) : t.progs = s.progs ∧ t.infRuns = s.infRuns :=
  ⟨(congrArg State.progs h : (memRest t).progs = (memRest s).progs), (congrArg State.infRuns h : (memRest t).infRuns = (memRest s).infRuns)⟩

/-! ### Micro-operations (R178 to R187) -/

/-- R182: a summary operation changes its cell and moves on. -/
theorem infCell_facts {s : State} {inf op : Nat} {e : UEnv} (he : infEnv s inf op = some e) (hmore : e.pos + 1 < e.run.ucount) :
    ∃ r, mapFind (infCell s inf op).infRuns e.id = some r ∧ r.upos = some (e.pos + 1) ∧ r.lanes = e.run.lanes ∧ (infCell s inf op).spm = s.spm ∧
      r.cells = e.run.cells.set (uAUX e.word % 8) ((((List.range 32).filter (laneOn e)).map (rA e)).foldl
        (fun c a => if a.poison then c else cellOffer e op c a) (e.run.cells.getD (uAUX e.word % 8) 0)) := by
  obtain ⟨_, hrun, _, _⟩ := infEnv_facts he
  unfold infCell
  rw [he]
  dsimp only
  generalize hz : updInf s e.id _ = z
  have hfind : mapFind z.infRuns e.id = some { e.run with cells := e.run.cells.set (uAUX e.word % 8) ((((List.range 32).filter (laneOn e)).map (rA e)).foldl
        (fun c a => if a.poison then c else cellOffer e op c a) (e.run.cells.getD (uAUX e.word % 8) 0)) } := by
    rw [← hz]
    exact mapFind_updInf_same hrun _
  have hzrest : infRest z = infRest s := by rw [← hz, updInf_rest]
  clear hz
  have hflag (fl : Nat) := mapFind_infFlags hfind inf fl
  rw [infNext_goesOn (hflag _) hmore]
  have hrest (fl : Nat) := (updInf_rest (infFlags z inf e.id fl) e.id fun r => { r with upos := some (e.pos + 1) }).trans ((infFlags_rest z inf e.id fl).trans hzrest)
  exact ⟨_, mapFind_updInf_same (hflag _) _, rfl, rfl, (congrArg State.spm (hrest _) : (infRest _).spm = (infRest s).spm), rfl⟩

theorem infCells_exec (s : State) (inf : Nat) : ∀ x ∈ [(0x39, Instr.infSmax inf), (0x3A, .infSmin inf), (0x3B, .infScnt inf), (0x3C, .infSor inf)],
    exec x.2 s = guardUnit (infOk inf) (ran s (infCell s inf x.1)) := by
  simp only [List.forall_mem_cons]
  exact ⟨rfl, rfl, rfl, rfl, nofun⟩

/-- R186: RED presents the active lanes in increasing order. -/
theorem infRed_eq {s : State} {inf : Nat} {e : UEnv} {c : IChan} (he : infEnv s inf uRED = some e) (hc : e.run.chans[uAUX e.word % 2]? = some c) :
    infRed s inf = infNext ((List.range 32).foldl (fun s l => if laneOn e l then redLane s inf e (uAUX e.word % 2) c l else s) s) inf e := by
  rw [infRed, he]
  dsimp only
  rw [hc]

/-- R181: the store of an element program whose exponents are in range. -/
theorem infStore_eq {s : State} {inf op : Nat} {e : UEnv} {x : IStream} (he : infEnv s inf op = some e) (hk : e.run.kernel = false)
    (hx : e.run.outs[uAUX e.word % 2]? = some x) (hexp : ∀ l, l < 32 → laneOn e l = true → expOk (streamExp s e.cid x (mapPos x (laneIx e l))) = true)
    (val : UEnv → IStream → Nat → StVal × Nat) {vs : List (StVal × Nat)}
    (hvs : vs = (List.range 32).map fun l => if laneOn e l then val e x l else ({ x := numZero }, 0)) :
    infStore s inf op val = infNext ((if tdScaled x.d then storeBlock else storePlain) (infFlags s inf e.id (vs.foldl (fun a v => a ||| v.2) 0)) inf e
      (uAUX e.word % 2) x (vs.map (·.1))) inf e := by
  have hgood : ((List.range 32).any fun l => laneOn e l && !expOk (streamExp s e.cid x (mapPos x (laneIx e l)))) = false := by
    refine List.any_eq_false.mpr fun l hl => ?_
    cases hon : laneOn e l with
    | false => simp
    | true => simp [hexp l (List.mem_range.mp hl) hon]
  rw [infStore, he]
  dsimp only
  rw [hx]
  dsimp only
  rw [hk, hgood, ← hvs, if_neg (by decide), if_neg (by decide)]
  cases tdScaled x.d <;> rfl

/-! ### The last group (R201) -/

/-- R175, R201: the last micro-operation of the last group ends the program. -/
theorem infNext_last {s : State} {inf : Nat} {e : UEnv} {r : InfRun} {p : Prog} (hr : mapFind s.infRuns e.id = some r) (hp : progOf s e.id = some p)
    (hlast : r.ucount ≤ e.pos + 1) (hgroup : r.length ≤ 32 * (r.group + 1)) : ∃ q, progOf (infNext s inf e) e.id = some q ∧
      q.ended = some ⟨if bit r.flags 6 then stPOISONED else stOK, r.ucount, 0⟩ ∧ mapFind (infNext s inf e).infUnits inf = none := by
  unfold infNext
  rw [hr]
  dsimp only
  rw [if_neg (not_lt.mpr hlast), if_neg (not_lt.mpr hgroup)]
  obtain ⟨hprogs, hruns⟩ := progs_of_memRest (zeroOuts_rest s inf e.cid r)
  generalize zeroOuts s inf e.cid r = z at *
  have hzr : mapFind z.infRuns e.id = some r := by rw [hruns, hr]
  have hzp : progOf z e.id = some p := by rw [progOf, hprogs, ← hp, progOf]
  generalize hw : updInf z e.id _ = w
  obtain ⟨r', hw', hflags⟩ : ∃ r', mapFind w.infRuns e.id = some r' ∧ r'.flags = r.flags := by
    rw [← hw]
    exact ⟨_, mapFind_updInf_same hzr _, rfl⟩
  have hwp : progOf w e.id = some p := by
    rw [← hw, updInf_of_find hzr]
    exact hzp
  have hupd := progOf_updProg_same hwp fun p => { p with completed := min (p.completed + 1) 0xFFFFFFFF }
  have hkept : (updProg w e.id fun p => { p with completed := min (p.completed + 1) 0xFFFFFFFF }).infRuns = w.infRuns := by simp only [updProg_keeps]
  rw [hkept, hw', Option.map_some, Option.getD_some, hflags]
  obtain ⟨hprog, hunit, _⟩ := infEnd_facts hupd inf (if bit r.flags 6 = true then stPOISONED else stOK) r.ucount
  exact ⟨_, hprog, rfl, hunit⟩

/-! ### Group entry (R173) -/

/-- R173: a group of an element program enters with its registers at +0. -/
theorem infGroup_enters {s : State} {prog u : Nat} {p : Prog} {r : InfRun} (hp : progOf s prog = some p) (hr : mapFind s.infRuns prog = some r)
    (hu : p.unit = some u) (hend : p.ended = none) (hpos : r.upos = none) (hrun : ctxRunning s p.cid = true) (hab : p.abort = false)
    (hst : (runOf s p.cid).st = .running)
    (hexp : ∀ x l, x ∈ r.ins → l < 32 → 32 * r.group + l < r.length → expOk (streamExp s p.cid x (mapPos x (32 * r.group + l))) = true) :
    ∃ q, mapFind (infGroup s prog false).infRuns prog = some q ∧ q.upos = some 0 ∧ q.group = r.group ∧
      q.lanes = List.replicate 32 (List.replicate 16 { tan := List.replicate r.tang 0 }) := by
  have hplace : infPlace s prog = s := by
    rw [infPlace, hp, hr]
    dsimp only
    rw [hu]
    exact if_pos rfl
  have hgood : ((r.ins.zipIdx).find? fun x => x.1.map != 2 && !(r.kernel && decide (x.2 ≤ 1)) && (List.range 32).any fun l =>
      decide (32 * r.group + l < r.length) && !expOk (streamExp s p.cid x.1 (mapPos x.1 (32 * r.group + l)))) = none := by
    refine List.find?_eq_none.mpr fun x hx => ?_
    have hany : ((List.range 32).any fun l => decide (32 * r.group + l < r.length) && !expOk (streamExp s p.cid x.1 (mapPos x.1 (32 * r.group + l)))) = false := by
      refine List.any_eq_false.mpr fun l hl => ?_
      by_cases hon : 32 * r.group + l < r.length
      · simp [hexp x.1 l (List.fst_mem_of_mem_zipIdx hx) (List.mem_range.mp hl) hon]
      · simp [hon]
    rw [hany, Bool.and_false]
    decide
  unfold infGroup
  rw [hplace]
  dsimp only
  rw [hp, hr]
  dsimp only
  rw [hu]
  dsimp only
  rw [hend, hpos, hrun, if_neg (by decide), if_neg (by decide), hab, hst, if_neg (by simp), hgood]
  dsimp only
  generalize hrds : List.map _ (List.range 32) = rds
  generalize hz : (if (rds.any fun m => m.any (·.2)) = true then infFlags s u prog ifGATHER else s) = z
  obtain ⟨r', hz', hgroup, htang⟩ : ∃ r', mapFind z.infRuns prog = some r' ∧ r'.group = r.group ∧ r'.tang = r.tang := by
    rw [← hz]
    split
    · exact ⟨_, mapFind_infFlags hr _ _, rfl, rfl⟩
    · exact ⟨r, hr, rfl, rfl⟩
  clear hz
  generalize hw : List.foldl _ z _ = w
  have hruns : w.infRuns = z.infRuns := by
    refine (progs_of_memRest ?_).2
    rw [← hw]
    refine foldl_keep memRest _ (fun z x => foldl_keep memRest _ (fun z m => ?_) _ _) _ _
    split
    · exact normTap_rest _ _ _ _ _ _
    · rfl
  exact ⟨_, mapFind_updInf_same (by rw [hruns, hz']) _, rfl, hgroup, by rw [← htang]⟩

/-- Settles O23: NOP, the summary operations, RED and the stores, and how groups enter and end. -/
theorem inflectorOtherResults : Obligations.InflectorOtherResults := by
  refine ⟨⟨fun s inf e hinf he hmore => ?nop, fun s inf op i e hinf hi he hmore => ?cell, fun s inf e c hinf he hc => ?red,
      fun s inf e x hinf he hk hx hexp => ?st, fun s inf e x hinf he hk hx hexp => ?sti⟩,
    fun s prog p r u hp hr hu hend hpos hrun hab hst hk hexp => ?group, fun s inf e p hinf he hlast hgroup hp => ?last⟩
  case nop =>
    have hexec : exec (.infNop inf) s = guardUnit (infOk inf) (ran s (match infEnv s inf 0x00 with | some e => infNext s inf e | none => s)) := rfl
    obtain ⟨_, hrun, _, _⟩ := infEnv_facts he
    have hrest := updInf_rest s e.id fun r => { r with upos := some (e.pos + 1) }
    rw [he] at hexec
    dsimp only at hexec
    rw [infNext_goesOn hrun hmore] at hexec
    refine ⟨_, _, ran_next (exec_guarded (decide_eq_true hinf) hexec), mapFind_updInf_same hrun _, rfl, ?_⟩
    exact (congrArg State.spm hrest : (infRest _).spm = (infRest s).spm)
  case cell =>
    obtain ⟨r, hr, hpos, hlanes, hspm, hcells⟩ := infCell_facts he hmore
    exact ⟨_, r, ran_next (exec_guarded (decide_eq_true hinf) (infCells_exec s inf _ hi)), hr, hpos, hlanes, hspm, hcells⟩
  case red =>
    have hexec : exec (.infRed inf) s = guardUnit (infOk inf) (ran s (infRed s inf)) := rfl
    rw [infRed_eq he hc] at hexec
    exact exec_guarded (decide_eq_true hinf) hexec
  case st =>
    intro vs
    have hexec : exec (.infSt inf) s = guardUnit (infOk inf) (ran s (infStore s inf 0x03 fun e _ l =>
      ({ x := fVal e (rA e l), tan := (List.range e.run.tang).map (fTan e (rA e l)), poison := (rA e l).poison }, rdFlags e [rA e l]))) := rfl
    rw [infStore_eq he hk hx hexp _ (vs := vs) rfl] at hexec
    exact exec_guarded (decide_eq_true hinf) hexec
  case sti =>
    intro vs
    have hexec : exec (.infSti inf) s = guardUnit (infOk inf) (ran s (infStore s inf 0x04 fun e x l =>
      ({ x := numInt (sext 64 (rA e l).v), raw := if x.raw then some (rA e l).v else none, poison := (rA e l).poison }, 0))) := rfl
    rw [infStore_eq he hk hx hexp _ rfl, List.foldl_map, List.map_map] at hexec
    have hflags : (List.range 32).foldl (fun a l => a ||| (if laneOn e l = true then
        (({ x := numInt (sext 64 (rA e l).v), raw := if x.raw then some (rA e l).v else none, poison := (rA e l).poison } : StVal), 0)
        else ({ x := numZero }, 0)).2) 0 = 0 :=
      foldl_keep id _ (fun a l => by rw [apply_ite Prod.snd, ite_self, Nat.or_zero]) _ 0
    have hvals : (Prod.fst ∘ fun l => if laneOn e l = true then
        (({ x := numInt (sext 64 (rA e l).v), raw := if x.raw then some (rA e l).v else none, poison := (rA e l).poison } : StVal), 0)
        else ({ x := numZero }, 0)) = fun l => if laneOn e l = true then
        ({ x := numInt (sext 64 (rA e l).v), raw := if x.raw then some (rA e l).v else none, poison := (rA e l).poison } : StVal)
        else { x := numZero } :=
      funext fun l => apply_ite Prod.fst _ _ _
    rw [hflags, hvals] at hexec
    exact exec_guarded (decide_eq_true hinf) hexec
  case group =>
    have hexec : exec (.infGroup prog false) s = ran s (infGroup s prog false) := rfl
    obtain ⟨q, hq, hupos, hgroup, hlanes⟩ := infGroup_enters hp hr hu hend hpos hrun hab hst hexp
    exact ⟨_, q, ran_next hexec, hq, hupos, hgroup, hlanes⟩
  case last =>
    have hexec : exec (.infNop inf) s = guardUnit (infOk inf) (ran s (match infEnv s inf 0x00 with | some e => infNext s inf e | none => s)) := rfl
    obtain ⟨_, hrun, _, _⟩ := infEnv_facts he
    rw [he] at hexec
    obtain ⟨q, hq, hended, hunit⟩ := infNext_last (inf := inf) hrun hp hlast hgroup
    exact ⟨_, q, ran_next (exec_guarded (decide_eq_true hinf) hexec), hq, hended, hunit⟩

end Sys2Proof.Machine
end

section
/-! Solves on a Parser: their starts and their iterations (R212, R222 to R228). -/

namespace Sys2Proof.Machine

open Sys2Proof.Claims

/-! ### The records of a solve -/

/-- The programs and the solves. -/
def solveSide (s : State) : Map Prog × Map Solve := (s.progs, s.solves)

section
variable {s t : State} (h : solveSide t = solveSide s) (id : Nat)
include h

theorem progOf_of_solveSide : progOf t id = progOf s id := by rw [progOf, (Prod.mk.inj h).1, progOf]

theorem solveOf_of_solveSide : solveOf t id = solveOf s id := by rw [solveOf, (Prod.mk.inj h).2, solveOf]

end

theorem solveOf_setSolve (s : State) (id : Nat) (v : Solve) : solveOf (setSolve s id v) id = some v := mapFind_mapIns_same _ _ _

theorem progOf_setSolve (s : State) (id j : Nat) (v : Solve) : progOf (setSolve s id v) j = progOf s j := rfl

theorem prsSet_solveSide (s : State) (sl m : Nat) : solveSide (prsSet s sl m) = solveSide s := by
  unfold prsSet
  split
  · rfl
  · simp only [solveSide, regSet_keeps]

theorem prsSet_spm (s : State) (sl m : Nat) : (prsSet s sl m).spm = s.spm := by
  unfold prsSet
  split
  · rfl
  · simp only [regSet_keeps]

/-- R237: a pass notes poison in the solve's record and keeps its program. -/
theorem prsNote_facts {s : State} {id : Nat} {v : Solve} (hv : solveOf s id = some v) (sl : Nat) (po fl : Bool) :
    solveOf (prsNote s id sl po fl) id = some { v with poison := v.poison || po } ∧ progOf (prsNote s id sl po fl) id = progOf s id := by
  have hside := prsSet_solveSide s sl ((if fl then 1 else 0) + (if po then 8 else 0))
  unfold prsNote
  dsimp only
  rw [solveOf_of_solveSide hside, hv]
  exact ⟨solveOf_setSolve _ _ _, (progOf_setSolve _ _ _ _).trans (progOf_of_solveSide hside id)⟩

theorem solveSide_of_mem {s t : State} (h : memRest t = memRest s) : solveSide t = solveSide s :=
  (congrArg solveSide h : solveSide (memRest t) = solveSide (memRest s))

theorem arWrite_solveSide (s : State) (c sl r : Nat) (bs : List Byte) (po : Bool) : solveSide (arWrite s c sl r bs po) = solveSide s := by
  unfold arWrite
  split
  · exact solveSide_of_mem (spWrite_rest _ _ _ _ _ _)
  · exact solveSide_of_mem (dvaWrite_rest _ _ _ _ _ _)

theorem workFree_solveSide (s : State) (c sl : Nat) (b : List Byte) : solveSide (workFree s c sl b) = solveSide s := arWrite_solveSide _ _ _ _ _ _

/-- R233: the end of a solve. -/
theorem solveEnd_facts {s : State} {id sl : Nat} {p : Prog} {v : Solve} (hp : progOf s id = some p) (hu : p.unit = some sl) (hv : solveOf s id = some v) (status cause : Nat) :
    progOf (solveEnd s id status cause) id = some { p with ended := some ⟨if status = stOK ∧ v.poison then stPOISONED else status, 0, 0⟩ } ∧
    solveOf (solveEnd s id status cause) id = some { v with cause := cause, kry := none } ∧ mapFind (solveEnd s id status cause).parsers sl = none := by
  have hrel (z : State) : solveSide (prsRelease z sl) = solveSide z := by simp only [solveSide, prsRelease, clrBitOf_keeps]
  have hset (z : State) (q : Prog) : solveOf (setProg z id q) id = solveOf z id := rfl
  unfold solveEnd
  rw [hp, hv]
  dsimp only
  rw [hu, Option.getD_some]
  refine ⟨(progOf_of_solveSide (hrel _) id).trans (progOf_setProg _ _ _), ?_, ?_⟩
  · rw [solveOf_of_solveSide (hrel _), hset, solveOf_of_solveSide (arWrite_solveSide _ _ _ _ _ _)]
    split
    · exact solveOf_setSolve _ _ _
    · rw [solveOf_of_solveSide (workFree_solveSide _ _ _ _)]
      exact solveOf_setSolve _ _ _
  · simp only [prsRelease, clrBitOf_keeps]
    exact mapFind_mapDel_same _ _

/-- R291: a solve that is on a Parser is not placed again. -/
theorem prsPlace_placed {s : State} {id sl : Nat} {p : Prog} (hp : progOf s id = some p) (hu : p.unit = some sl) : prsPlace s id = s := by
  unfold prsPlace
  rw [hp]
  split
  · next q v hq _ =>
    obtain rfl : p = q := Option.some.inj hq
    rw [if_pos (by rw [hu]; simp)]
  · rfl

/-! ### Krylov starts (R210, R222) -/

section
variable {s : State} {id sl method : Nat} {p : Prog} {v : Solve} (hv : solveOf s id = some v) (hm : svMethod v.desc = method)
  (hstart : v.started = false) (hp : progOf s id = some p) (hu : p.unit = some sl)
include hv hm hstart hp hu

/-- R210: a matrix that breaks its rules ends the solve. -/
theorem krylovStart_matrix (hbad : (matPat (setSolve s id { v with started := true }) p.cid sl v.desc).2.1 = false) :
    krylovStart s id method = solveEnd (setSolve s id { v with started := true }) id stMATRIX 0 := by
  rw [krylovStart, hv]
  dsimp only
  rw [hm, hstart, if_neg (by simp), prsPlace_placed hp hu, hp]
  dsimp only
  rw [hu]
  dsimp only
  rw [hbad]
  rfl

/-- R222: a solve without a preconditioner starts with its right-hand side read. -/
theorem krylovStart_facts (hok : (matPat (setSolve s id { v with started := true }) p.cid sl v.desc).2.1 = true) (hpre : svPre v.desc = 0) :
    ∃ w, solveOf (krylovStart s id method) id = some w ∧ w.started = true ∧ progOf (krylovStart s id method) id = some p ∧ w.inner = v.inner ∧
      w.outer = v.outer ∧ w.bnorm = norm2 w.rhs := by
  have hprec (w : Solve) (hw : w.desc = v.desc) (m : MatR) : precSetup w m = (w, true) := by
    rw [precSetup, hw, hpre]
    rfl
  rw [krylovStart, hv]
  dsimp only
  rw [hm, hstart, if_neg (by simp), prsPlace_placed hp hu, hp]
  dsimp only
  rw [hu]
  dsimp only
  rw [hok, if_neg (by decide)]
  have hfirst (po fl : Bool) := prsNote_facts (solveOf_setSolve s id { v with started := true }) sl po fl
  have hsecond (po fl po' fl' : Bool) := prsNote_facts (hfirst po fl).1 sl po' fl'
  rw [(hsecond _ _ _ _).1]
  dsimp only
  rw [hprec, if_pos rfl]
  · refine ⟨_, solveOf_setSolve _ _ _, rfl, ?_, rfl, rfl, rfl⟩
    rw [progOf_setSolve, (hsecond _ _ _ _).2, (hfirst _ _).2, progOf_setSolve, hp]
  · rfl

end

/-! ### Dense solves (R212, R234) -/

/-- R212, R234: a dense solve runs to its end; it breaks down exactly where a block could not be factored. -/
theorem denseRun_facts {s : State} {id sl method : Nat} {p : Prog} {v : Solve} (hv : solveOf s id = some v) (hm : svMethod v.desc = method)
    (hstart : v.started = false) (hp : progOf s id = some p) (hu : p.unit = some sl) : ∃ w q e, solveOf (denseRun s id method) id = some w ∧ w.started = true ∧
      progOf (denseRun s id method) id = some q ∧ q.ended = some e ∧ mapFind (denseRun s id method).parsers sl = none ∧
      (w.blockFail = 0 → e.status = stOK ∨ e.status = stPOISONED) ∧ (w.blockFail ≠ 0 → e.status = stBREAKDOWN) := by
  rw [denseRun, hv]
  dsimp only
  rw [hm, hstart, if_neg (by simp), prsPlace_placed hp hu, hp]
  dsimp only
  rw [hu]
  dsimp only
  generalize hz : prsNote _ id sl _ _ = z
  obtain ⟨v₁, hv₁, hstarted, hp₁⟩ : ∃ v₁, solveOf z id = some v₁ ∧ v₁.started = true ∧ progOf z id = some p := by
    obtain ⟨hnote, hprog⟩ := prsNote_facts (solveOf_setSolve s id { v with started := true, bnorm := _ }) sl _ _
    rw [← hz]
    exact ⟨_, hnote, rfl, hprog.trans ((progOf_setSolve _ _ _ _).trans hp)⟩
  clear hz
  generalize hacc : List.foldl _ (z, 0) (List.range (svBatch v.desc)) = acc
  have hside : solveSide acc.1 = solveSide z := by
    rw [← hacc]
    refine foldl_keep_fst solveSide _ (fun a k => ?_) _ (z, 0)
    split
    · exact (arWrite_solveSide _ _ _ _ _ _).trans ((arWrite_solveSide _ _ _ _ _ _).trans (arWrite_solveSide _ _ _ _ _ _))
    · refine (arWrite_solveSide _ _ _ _ _ _).trans ((foldl_keep solveSide _ (fun _ _ => arWrite_solveSide _ _ _ _ _ _) _ _).trans ?_)
      exact (arWrite_solveSide _ _ _ _ _ _).trans ((arWrite_solveSide _ _ _ _ _ _).trans (arWrite_solveSide _ _ _ _ _ _))
  rw [solveOf_of_solveSide hside, hv₁]
  dsimp only
  obtain ⟨hprog, hsolve, hfree⟩ := solveEnd_facts (s := setSolve acc.1 id { v₁ with blockFail := acc.2 }) ((progOf_setSolve _ _ _ _).trans
    ((progOf_of_solveSide hside id).trans hp₁)) hu (solveOf_setSolve _ _ _) (if acc.2 = 0 then stOK else stBREAKDOWN) (if acc.2 = 0 then 0 else 6)
  refine ⟨_, _, _, hsolve, hstarted, hprog, rfl, hfree, fun h => ?_, fun h => ?_⟩
  · have hbad : acc.2 = 0 := h
    dsimp only
    rw [if_pos hbad]
    split
    · exact .inr rfl
    · exact .inl rfl
  · have hbad : ¬acc.2 = 0 := h
    dsimp only
    rw [if_neg hbad, if_neg (fun h => absurd h.1 (by decide))]

/-! ### Iterations (R222 to R227) -/

/-- R222: an outer boundary whose inner solve has converged applies its correction first. -/
theorem outerStep_done {s : State} {id : Nat} {e : SEnv} {k : Kry} (he : solveEnv s id = some e) (hk : e.v.kry = some k) (hdone : k.done = true) :
    outerStep s id = outerCheck (outerApply s e e.v k).1 e (outerApply s e e.v k).2 := by
  rw [outerStep, he]
  dsimp only
  rw [hk]
  dsimp only
  rw [hdone]
  rfl

/-- R226: a boundary within the budget whose deadline has not matched. -/
theorem boundaryFail_none {v : Solve} (hbudget : v.inner < svBudget v.desc) (hlate : v.late = false) : boundaryFail v = none := by
  rw [boundaryFail, if_neg (not_le.mpr hbudget), hlate, Bool.and_false, if_neg (by decide)]

/-- What an iteration of the solve's method gives (R223). -/
def innerRes (e : SEnv) (a : RdAcc) (pat : List (List (Nat × Nat))) (vals : Array Num) (k : Kry) : InnerRes :=
  match svMethod e.v.desc with
  | 0 => cgStep e.v (solveInM e e.v) a pat vals k
  | 1 => bicgStep e.v (solveInM e e.v) a pat vals k
  | _ => gmresStep e.v (solveInM e e.v) a pat vals k

/-- The solve after an inner iteration (R223, R226). -/
def iterated (e : SEnv) (r : InnerRes) (poison : Bool) : Solve :=
  { e.v with inner := e.v.inner + 1, obs := r.a.obs, poison := e.v.poison || poison, kry := some r.k }

/-- R226: an inner iteration that meets no range, breakdown or limit counts itself and keeps its method's state. -/
theorem innerStep_facts {s : State} {id : Nat} {e : SEnv} {k : Kry} (he : solveEnv s id = some e) (hk : e.v.kry = some k) (hdone : k.done = false)
    {mat : MatR} (hmat : mat = readMat s e.p.cid e.sl e.flush e.v.desc 0) {s₁ : State} (hs₁ : s₁ = prsSet s e.sl ((if mat.flushed then 1 else 0) + (if mat.poison then 8 else 0)))
    {a : RdAcc × Array Num} (ha : a = innerVals s₁ e.p.cid e.sl e.v.desc (solveInM e e.v) { obs := e.v.obs } mat.vals) {r : InnerRes}
    (hr : r = innerRes e a.1 mat.pat a.2 k) (hrange : r.a.bad = none) (hbrk : r.brk = none)
    (hgo : r.k.done = true ∨ e.v.inner + 1 < svBudget e.v.desc ∧ e.v.late = false) : innerStep s id false =
      setSolve s₁ id (iterated e r mat.poison) := by
  have hstep : innerStep s id false = match r.a.bad with
      | some o => rangeHit s₁ e { iterated e r mat.poison with kry := none } o
          fun s v => innerRedo s e k.rhat v
      | none =>
        match r.brk with
        | some c => solveEnd (setSolve s₁ id (iterated e r mat.poison)) id stBREAKDOWN c
        | none =>
          if r.k.done then setSolve s₁ id (iterated e r mat.poison)
          else
            match boundaryFail (iterated e r mat.poison) with
            | some c => solveEnd (setSolve s₁ id (iterated e r mat.poison)) id stDEADLINE c
            | none => setSolve s₁ id (iterated e r mat.poison) := by
    rw [innerStep, he]
    dsimp only
    rw [hk]
    dsimp only
    rw [hdone, if_neg (by decide), if_neg (by decide), ← hmat, ← hs₁, ← ha]
    subst hr
    rfl
  rw [hstep, hrange, hbrk]
  dsimp only
  split
  · rfl
  · next hnot =>
    obtain ⟨hbudget, hlate⟩ := hgo.resolve_left hnot
    rw [boundaryFail_none (v := iterated e r mat.poison) hbudget hlate]

/-- Settles O24: how solves start, how dense ones end, and what the iterations decide. -/
theorem solvesStartAndIterate : Obligations.SolvesStartAndIterate := by
  have hkrylov {s : State} {id method : Nat} {i : Instr} (h : (method, i) ∈ [(0, Instr.solveCg id), (1, .solveBicgstab id), (2, .solveGmres id)]) :
      exec i s = ran s (krylovStart s id method) := by
    have hall : ∀ x ∈ [(0, Instr.solveCg id), (1, .solveBicgstab id), (2, .solveGmres id)], exec x.2 s = ran s (krylovStart s id x.1) := by
      simp only [List.forall_mem_cons]
      exact ⟨rfl, rfl, rfl, nofun⟩
    exact hall _ h
  have hdense {s : State} {id method : Nat} {i : Instr} (h : (method, i) ∈ [(3, Instr.solveLu id), (4, .solveCholesky id), (5, .solveQr id)]) :
      exec i s = ran s (denseRun s id method) := by
    have hall : ∀ x ∈ [(3, Instr.solveLu id), (4, .solveCholesky id), (5, .solveQr id)], exec x.2 s = ran s (denseRun s id x.1) := by
      simp only [List.forall_mem_cons]
      exact ⟨rfl, rfl, rfl, nofun⟩
    exact hall _ h
  refine ⟨⟨fun s id method i v p sl hi hv hm hstart hp hu => ⟨fun hok hpre => ?starts, fun hbad => ?matrix⟩,
      fun s id method i v p sl hi hv hm hstart hp hu => ?dense⟩,
    fun s id e he hk => ?checked, fun s id e k he hk hdone => ⟨?applied, rfl⟩, fun s id e k he hk hdone => ?iterated,
    fun s id now v hv hdead hpast => ?late⟩
  case starts =>
    obtain ⟨w, hw, hstarted, hprog, hinner, houter, hnorm⟩ := krylovStart_facts hv hm hstart hp hu hok hpre
    exact ⟨_, w, ran_next (hkrylov hi), hw, hstarted, hprog, hinner, houter, hnorm⟩
  case matrix =>
    have hexec := hkrylov (s := s) hi
    rw [krylovStart_matrix hv hm hstart hp hu hbad] at hexec
    obtain ⟨hprog, _, hfree⟩ := solveEnd_facts (s := setSolve s id { v with started := true }) ((progOf_setSolve _ _ _ _).trans hp) hu (solveOf_setSolve _ _ _) stMATRIX 0
    refine ⟨_, _, ran_next hexec, hprog, ?_, hfree⟩
    dsimp only
    rw [if_neg (fun h => absurd h.1 (by decide))]
  case dense =>
    obtain ⟨w, q, e, hw, hstarted, hq, hended, hfree, hgood, hbad⟩ := denseRun_facts hv hm hstart hp hu
    exact ⟨_, w, q, e, ran_next (hdense hi), hw, hstarted, hq, hended, hfree, hgood, hbad⟩
  case checked =>
    have hexec : exec (.outerIteration id) s = ran s (outerStep s id) := rfl
    rw [outerStep, he] at hexec
    dsimp only at hexec
    rw [hk] at hexec
    exact hexec
  case applied =>
    have hexec : exec (.outerIteration id) s = ran s (outerStep s id) := rfl
    rw [outerStep_done he hk hdone] at hexec
    exact hexec
  case iterated =>
    intro m mat s₁ a vals r hrange hbrk hgo
    have hexec : exec (.innerIteration id false) s = ran s (innerStep s id false) := rfl
    rw [innerStep_facts he hk hdone (mat := mat) rfl (s₁ := s₁) rfl rfl (r := r) rfl hrange hbrk hgo] at hexec
    refine ⟨_, _, ran_next hexec, solveOf_setSolve _ _ _, rfl, rfl, ?_, ?_⟩
    · simp only [underQueue_keeps, setSolve_keeps]
      exact prsSet_spm _ _ _
    · rw [progOf_underQueue, progOf_setSolve]
      exact progOf_of_solveSide (prsSet_solveSide _ _ _) id
  case late =>
    have hexec : exec (.solveDeadlineMatch id now) s = ran s (deadlineMatch (atTime s now) id) := rfl
    have hv' : solveOf (atTime s now) id = some v := by
      rw [atTime_eq, ← hv]
      rfl
    rw [deadlineMatch, hv'] at hexec
    dsimp only at hexec
    rw [hdead, decide_eq_true hpast, if_pos (by decide)] at hexec
    exact ⟨_, ran_next hexec, solveOf_setSolve _ _ _⟩

end Sys2Proof.Machine
end
